-- ==== Sys2Proof/Word.lean ====
section
/-! DEFINITION. The word types of the OXK-4 model. Quantities that the manual treats as bits are bit vectors;
unit numbers, keys of tables and lengths are natural numbers. -/

namespace Sys2Proof

/-- A byte of memory. -/
abbrev Byte := BitVec 8
/-- A 16-bit word (windings, port credits). -/
abbrev Word16 := BitVec 16
/-- A 32-bit word (registers, mailbox words, immediates). -/
abbrev Word32 := BitVec 32
/-- A 64-bit word (scalar registers, TIME, 64-bit registers). -/
abbrev Word64 := BitVec 64

end Sys2Proof
end

