-- ==== Sys2Proof/Syntax.lean ====
section
/-! DEFINITION. The commands of the block: every row of the opcode table, with its operands. A strand command carries
the physical core (cluster × 17 + slot), the strand and the fields of the instruction word; a mailbox command carries
the function and the slot whose MB_POST.GO is written, and reads its words from that slot; an event carries the unit it
happens at and what the environment supplies (notes/assumptions/2.md). -/

namespace Sys2Proof

/-- The fields of a scalar instruction word below its opcode (R108). -/
structure ScalarFields where
  dst : BitVec 3 := 0
  srca : BitVec 3 := 0
  srcb : BitVec 3 := 0
  useImm : Bool := false
  fn : BitVec 6 := 0
  reserved : BitVec 8 := 0
  imm : Word32 := 0
  deriving DecidableEq, Repr

/-- The fields of a tile instruction below its opcode (R110). -/
structure TileFields where
  dd : BitVec 3 := 0
  ds1 : BitVec 3 := 0
  ds2 : BitVec 3 := 0
  eng : BitVec 3 := 0
  aslot : BitVec 4 := 0
  fn : BitVec 8 := 0
  tag : BitVec 4 := 0
  xs : BitVec 3 := 0
  reserved39 : Bool := false
  opt : BitVec 8 := 0
  reserved48 : BitVec 16 := 0
  imm : Word32 := 0
  imm2 : Word32 := 0
  deriving DecidableEq, Repr

/-- The pairing key of TSEND and TRECV (R140). -/
structure MsgKey where
  sender : Nat
  receiver : Nat
  channel : Nat
  seq : Nat
  deriving DecidableEq, Repr

/-- The words that a run-ahead walk fetches, in order: a scalar instruction's word, or both of a tile instruction (R88, R105). -/
abbrev WalkWords := List (Word64 × Word64)

/-- What a sync-tree message is about: a barrier of a pavilion, its step commit, or its next kernel's start. -/
inductive SyncUse where
  | barrier (b : Nat)
  | commit
  | kernelStart
  deriving DecidableEq, Repr

/-- What a bed line or SRAM read met (R175). -/
inductive ReadErr where
  | clean
  | corrected
  | uncorrectable
  deriving DecidableEq, Repr

/-- Where an error of a core's SRAM shows (R174, R175): the scratch word that a load reads, the word at a byte offset of the local
store, in scratch or an orangery segment, the strand's file, an accumulator slot, the rows of a shadow buffer, or a memory that only
copies what stands elsewhere: the instruction cache, and what else a core caches. -/
inductive SramPart where
  | scratch
  | file
  | slot (engine slot : Nat)
  | shadow (buf : Nat)
  | store (offset : Nat)
  | cache
  deriving DecidableEq, Repr

/-- An error of a core's SRAM: how many 4-bit symbols of one 32-bit word group are wrong, and where (R174). -/
structure SramErr where
  symbols : Nat := 0
  part : SramPart := .scratch
  deriving DecidableEq, Repr

/-- The half of a message that a TSEND of another member of a span carries (R140, R141): its key, and its data with
their format and extents. Its bytes come in messages of at most 4 KiB, one behind the other (R237). -/
structure FarSend where
  key : MsgKey
  fmt : Nat
  extent0 : Nat
  extent1 : Nat
  data : List Byte
  /-- the sender: package, stream and winding -/
  srcPkg : Nat := 0
  stream : Nat := 0
  winding : Nat := 0
  /-- the sending member's own number of the TSEND, which tells a message that came twice from the next TSEND of its key -/
  nth : Nat := 1
  /-- messages of it that have come, and whether the last has; in a message, its place among them -/
  parts : Nat := 1
  whole : Bool := true
  deriving DecidableEq, Repr

/-- What a message between a directory and the pools, or between directories, is for (R320 to R338). -/
inductive PoolOp where
  | take | takeProt | extend | free | copy | fill | drop | own | seal | served | lost | record | command | event | holdings | pstep | user
  | clean | restore | resync | mirror
  deriving DecidableEq, Repr

/-- A message of the session protocol: the pool it concerns (its 16-bit name), the session, and what the operation needs. -/
structure PoolMsg where
  op : PoolOp
  pool : Nat := 0
  session : Nat := 0
  pages : Nat := 0
  epoch : Nat := 0
  other : Nat := 0
  flag : Bool := false
  words : List Nat := []
  deriving DecidableEq, Repr

/-- Session pages that come with a command: index in the session, bytes. -/
abbrev PageData := List (Nat × List Byte)

/-- A directory record as its 512 bits (R319). -/
abbrev RecordBits := BitVec 512

/-- A bulk message (R238): its header fields and payload. -/
structure BulkMsg where
  stream : BitVec 20 := 0
  seq : Word32 := 0
  winding : Word16 := 0
  sys : Bool := false
  vc : BitVec 2 := 0
  dstPkg : BitVec 12 := 0
  dstLoc : Word16 := 0
  kind : BitVec 5 := 0
  srcPkg : BitVec 12 := 0
  /-- the window id of a window request (R218), the span id of a message between members (R365); in a reply, the reason of a refusal and, times 2^16, the refused page -/
  addr : Word64 := 0
  payload : List Byte := []
  /-- the bytes of the tile at the destination: offset and length of each run, in row order -/
  runs : List (Nat × Nat) := []
  /-- for one of several messages of a tile, the runs of the whole tile, which the holding package checks (R218) -/
  tile : List (Nat × Nat) := []
  /-- the last message of its tile: a tile's writes are applied, or refused, together (R142, R218) -/
  last : Bool := true
  /-- the issuing pavilion's tenant, for a window request (R218) -/
  tenant : Word32 := 0
  /-- a copy of state, zeroing or scrubbing by the package itself (R235) -/
  background : Bool := false
  /-- what a TSEND carries -/
  send : Option FarSend := none
  /-- what a message of the session protocol carries -/
  pool : Option PoolMsg := none
  deriving DecidableEq, Repr

/-- A flit of 256 B but for its TYPE (R348): its link VC, the credits that it returns and their link VC, FSEQ, ACK, PAYLOAD and CRC;
and how many of its FEC codewords were not corrected (R349). -/
structure FlitBits where
  vc : Nat := 0
  creditVc : Nat := 0
  credits : Nat := 0
  fseq : Nat := 0
  ack : Nat := 0
  payload : List Byte := []
  crc : Word64 := 0
  fecBad : Nat := 0
  deriving DecidableEq, Repr

/-- A DATA flit (R349), with the bulk messages whose last byte it carries. -/
structure DataFlit where
  flit : FlitBits := {}
  msgs : List BulkMsg := []
  deriving DecidableEq, Repr

/-- A TIMESTAMP flit that a port has received, and the exchange that it ends (R358 to R360): the TIME at which this end sent its own, that
at which the peer received it, that at which the peer sent this one, and that at which it came, each in ps by the clock of the end
that took it; the master that the peer follows (an id), the peer's offset from it in ps, its depth, and whether that master is SYNC. -/
structure TimeStamp where
  flit : FlitBits := {}
  sent : Int := 0
  peerGot : Int := 0
  peerSent : Int := 0
  got : Int := 0
  master : Nat
  masterOffset : Int
  depth : Nat
  sync : Bool
  deriving DecidableEq, Repr

/-- What a listed member of a span answers to a check of its entry (R363): whether it holds an entry of the span, and that
entry's fields. -/
structure SpanAnswer where
  pkg : Nat
  spanId : Nat
  holds : Bool
  last : Nat
  /-- its member list, as one number of 8 KiB -/
  list : Nat
  cores : Nat
  scr : Nat
  tenant : Nat
  repro : Bool
  conf : Bool
  wdog : Nat
  fw : Word32
  deriving DecidableEq, Repr

/-- What a message of a SYNC flit is (R351, R365, R369, R373, R581). Every message of a span carries the span winding. -/
inductive SyncMsg where
  /-- a member's arrivals at a barrier (`n` the expected count), a step commit (step `n`; 0 for none waiting) or a kernel's end: how
  many, and the number of the span's kernel. A `count` of 0 takes back an arrival for a kernel's start -/
  | arrival (spanId rank : Nat) (use : SyncUse) (count : Nat) (n : Word64) (kernel : Nat) (winding : Word16)
  /-- rank 0's decision, with its tick; `n` is the step of a step commit, or, at a kernel's start, the versions that the shape table then
  shows, FW_VERSION above CMDSET_VERSION (R366) -/
  | release (spanId : Nat) (use : SyncUse) (n : Word64) (tick : Word64) (winding : Word16)
  | flip (spanId : Nat) (tick : Word64) (winding : Word16)
  /-- a FENCE with FN 1 of a strand of a member (R351) -/
  | fence (spanId rank : Nat) (winding : Word16)
  /-- the member holds an enabled entry, which `entry` gives (R363), is SYNC and is not being reset; with the largest winding that it has
  held, and its pavilion's index on its package (R325, R364, R365). `up` false takes that back -/
  | ready (spanId rank : Nat) (up : Bool) (winding : Word16) (pav : Nat) (entry : SpanAnswer)
  | abort (spanId rank : Nat) (winding : Word16)
  | commitLost (spanId : Nat) (n : Word64)
  /-- a directory's renewal, and the package that sends it: with ADOPT the partner (R321, R324) -/
  | renewal (directory pool : Nat) (tick : Word64) (sender : Nat)
  /-- a member's span rollup with its group rollups (R581), and rank 0's word that a group differs -/
  | rollup (spanId rank : Nat) (flipTick rollup : Word64) (groups : List Word64) (winding : Word16)
  | diverged (spanId group : Nat) (winding : Word16)
  /-- the accepted RUN of number `no` that rank 0 passes to a member, or, with `repeats` 0, takes back; and a member's answer to it
  (R367): `refused` is the array and index of the entry that R293 names -/
  | run (spanId no : Nat) (table : Word64) (first last repeats : Nat) (winding : Word16)
  | runAnswer (spanId rank no : Nat) (refused : Option Nat) (winding : Word16)
  /-- rank 0's word that every member has accepted a RUN -/
  | runGo (spanId no : Nat) (winding : Word16)
  /-- a MODEL_LOAD, MODEL_PIN or MODEL_EVICT that rank 0 passes to a member, with its post there, the handle and its request words, and
  the member's completion (R157, R416) -/
  | slice (spanId post handle : Nat) (words : List Nat) (winding : Word16)
  | sliceDone (spanId rank post status : Nat) (winding : Word16)
  /-- a member's apply has reached its step 4, with its new own core count, and the end of a member's apply (R368) -/
  | applyReady (spanId rank cores : Nat) (winding : Word16)
  | applyEnd (spanId rank reason : Nat) (winding : Word16)
  /-- the firmware versions that a member has come to run (R366) -/
  | firmware (spanId rank : Nat) (version cmdset : Word32) (winding : Word16)
  /-- rank 0 measures its route to a member, which answers with the delay that the message gathered (R370) -/
  | probe (spanId : Nat)
  | delay (spanId rank ns : Nat)
  deriving DecidableEq, Repr

/-- A message of link VC 0 on its way: the packages that send it and that it is for; the sender's own count of its cold resets and
of its messages to that package, by which a second copy is known (R356); and the delays of the hops that it has taken, in ns, with 25
for each (R370). How messages carry these is open (DESIGN CHOICE, notes/assumptions/86.md). -/
structure SyncItem where
  src : Nat
  dst : Nat
  boot : Nat := 0
  no : Nat := 0
  delay : Nat := 0
  msg : SyncMsg
  deriving DecidableEq, Repr

/-- A SYNC flit, with up to seven messages (R351). -/
structure SyncFlit where
  flit : FlitBits := {}
  items : List SyncItem := []
  deriving DecidableEq, Repr

/-- What a LINK flit says (R348). -/
inductive LinkMsg where
  | farewell
  | credit (vc n : Nat)
  | ack (fseq : Nat)
  | nak (fseq : Nat)
  | identity (pkg port : Nat)
  deriving DecidableEq, Repr

/-- A LINK flit (R348). -/
structure LinkFlit where
  flit : FlitBits := {}
  msg : LinkMsg
  deriving DecidableEq, Repr

/-- Who a waiting bed access serves (R385). -/
inductive McKind where
  /-- a pavilion's own access, with the DVA that it serves -/
  | tenant (pav dva : Nat)
  /-- a speculative load of a pavilion, with its source DVA -/
  | spec (pav dva : Nat)
  /-- an access through a window of this package, at an offset in it -/
  | window (win off : Nat)
  /-- a stream engine, by pavilion and stream -/
  | stream (pav idx : Nat)
  /-- SYS traffic -/
  | sys
  | background
  | scrub
  | copy
  deriving DecidableEq, Repr

/-- How an access uses its line (R170): a read, a write of the whole line, or the read-merge-write of a part of it. -/
inductive LineOp where
  | read
  | whole
  | part
  deriving DecidableEq, Repr

/-- A bed access that waits at a controller, and for how long, in 10 ns. -/
structure McAccess where
  kind : McKind
  age : Nat
  /-- the line of the channel that it accesses -/
  line : Nat := 0
  op : LineOp := .read
  /-- symbols of the line's codeword that its read finds in error: place 0 to 67, and what is added there (R168) -/
  errs : List (Nat × Byte) := []
  deriving DecidableEq, Repr

/-- How a class stood on a channel at a window's end (R386, R395): the age of its oldest waiting access in 10 ns, and
whether one waited throughout. -/
structure McWait where
  channel : Nat
  pav : Nat
  cls : Nat
  age : Nat
  throughout : Bool
  deriving DecidableEq, Repr

/-- Which read of host memory a completion belongs to (R427, R429): the next tile of a strand's in-flight instruction, by its
place among them, or a command in a mailbox slot. -/
inductive HostTarget where
  | tile (core strand pos : Nat)
  | command (fn slot : Nat)
  deriving DecidableEq, Repr

/-- Bytes of host memory from an IOVA upward, as the host returns them. -/
structure HostData where
  iova : Nat
  bytes : List Byte
  deriving DecidableEq, Repr

/-- The completions of a read. -/
abbrev HostBytes := List HostData

/-- Mailbox slots: function and slot. -/
abbrev SlotList := List (Nat × Nat)

/-- Engine-cycles of an interval, by pavilion: with tensor work of the 4-bit, the 8-bit and the 16-bit class, and with vector or
decoder work only (R445, R450). -/
abbrev CycleCounts := List (Nat × List Nat)

/-- Readings of rails, in mW: rail and power (R526, R529). -/
abbrev RailReadings := List (Nat × Nat)

/-- Units by number. -/
abbrev UnitList := List Nat

/-- The bytes of a write or a message. -/
abbrev Bytes := List Byte

/-- What a requester negotiates (R477): the registry and algorithm id of its signature and key exchange entries, and whether
its base hash is SHA-384, its measurement hash the raw bit stream, its AEAD AES-256-GCM and its key schedule the standard one. -/
structure SpdmAlgs where
  asym : Nat × Nat
  kex : Nat × Nat
  sha384 : Bool
  rawStream : Bool
  aes256Gcm : Bool
  standardSchedule : Bool
  deriving DecidableEq, Repr

/-- A renewal: the directory's TIME, and the package that sends it, the directory or its adopter (R321, R324). -/
structure Renewal where
  tick : Word64
  sender : Nat
  deriving DecidableEq, Repr

/-- The head of a vendor message (R481). -/
structure VendorHead where
  standard : Word16 := 3
  /-- the VendorID is the one that the package's configuration space reports -/
  ownVendor : Bool := true
  /-- a CODE that R481 does not list, in place of the message's own -/
  code : Option Word16 := none
  status : Word16 := 0
  deriving DecidableEq, Repr

/-- A GET_KEM_CERT: its session, and its head (R481). -/
structure KemAsk where
  session : Nat
  head : VendorHead := {}
  deriving DecidableEq, Repr

/-- The fields of a key message (R481): the key, tenant and direction that the message does not carry are zero. -/
structure KeyMsg where
  id : Word32
  tenant : Word32 := 0
  dir : Nat := 0
  reserved : Nat := 0
  key : BitVec 256 := 0
  /-- the message has the length of its code -/
  sized : Bool := true
  head : VendorHead := {}
  deriving DecidableEq, Repr

/-- The fields of a release message (R481). -/
structure ReleaseMsg where
  model : Word64
  tenant : Word32
  reserved : Nat := 0
  secret : BitVec 256 := 0
  sized : Bool := true
  head : VendorHead := {}
  deriving DecidableEq, Repr

/-- An SPDM request with its operands, as a message over MCTP carries it (R475 to R481). -/
inductive SpdmRequest where
  | getVersion
  | getCapabilities (transfer : Nat)
  | negotiateAlgorithms (algs : SpdmAlgs)
  | getDigests (session : Nat)
  | getCertificate (session slot offset len : Nat)
  | challenge (session slot : Nat) (nonce : Bytes)
  | getMeasurements (session index : Nat) (signed : Bool) (nonce : Bytes)
  | keyExchange (slot : Nat) (key : Bytes)
  | finish (session : Nat)
  | heartbeat (session : Nat)
  | keyUpdate (session : Nat)
  | endSession (session : Nat)
  | chunkSend (chunk : Bytes) (last : Bool)
  | chunkGet (number : Nat)
  | getKemCert (ask : KemAsk)
  | installHostKey (session : Nat) (m : KeyMsg)
  | removeHostKey (session : Nat) (m : KeyMsg)
  | releaseModel (session : Nat) (m : ReleaseMsg)
  | revokeModel (session : Nat) (m : ReleaseMsg)
  | installImageKey (session : Nat) (m : KeyMsg)
  | removeImageKey (session : Nat) (m : KeyMsg)
  /-- any other request code -/
  | other
  deriving DecidableEq, Repr



/-- The commands of the block, one constructor per row of the opcode table, in its order. -/
inductive Instr where
  /-- NOP (R120). Scalar no-operation; the strand advances to PC + 8. -/
  | nop (core strand : Nat) (f : ScalarFields)
  /-- ADD (R120). Sets d to a plus B, wrapping modulo 2^64. -/
  | add (core strand : Nat) (f : ScalarFields)
  /-- SUB (R120). Sets d to a minus B, wrapping modulo 2^64. -/
  | sub (core strand : Nat) (f : ScalarFields)
  /-- MUL (R120). Sets d to the low 64 bits of a times B. -/
  | mul (core strand : Nat) (f : ScalarFields)
  /-- AND (R120). Sets d to the bitwise AND of a and B. -/
  | and (core strand : Nat) (f : ScalarFields)
  /-- OR (R120). Sets d to the bitwise OR of a and B. -/
  | or (core strand : Nat) (f : ScalarFields)
  /-- XOR (R120). Sets d to the bitwise exclusive OR of a and B. -/
  | xor (core strand : Nat) (f : ScalarFields)
  /-- SHL (R120). Shifts a left by B mod 64 into d. -/
  | shl (core strand : Nat) (f : ScalarFields)
  /-- SHR (R120). Shifts a right logically by B mod 64 into d. -/
  | shr (core strand : Nat) (f : ScalarFields)
  /-- SAR (R120). Shifts a right arithmetically by B mod 64 into d. -/
  | sar (core strand : Nat) (f : ScalarFields)
  /-- MIN (R120). Sets d to the signed minimum of a and B. -/
  | min (core strand : Nat) (f : ScalarFields)
  /-- MAX (R120). Sets d to the signed maximum of a and B. -/
  | max (core strand : Nat) (f : ScalarFields)
  /-- CMP (R122). Sets d to 1 or 0 according to the FN condition on a and B. -/
  | cmp (core strand : Nat) (f : ScalarFields)
  /-- MOVI (R120). Sets d to the sign-extended immediate. -/
  | movi (core strand : Nat) (f : ScalarFields)
  /-- MOVHI (R120). Replaces the upper 32 bits of d with the immediate. -/
  | movhi (core strand : Nat) (f : ScalarFields)
  /-- LDS (R121). Loads 1 to 8 scratch bytes into d, zero- or sign-extended, after bounds and alignment checks. -/
  | lds (core strand : Nat) (f : ScalarFields) (err : SramErr)
  /-- STS (R121). Stores the low bytes of b into scratch, after bounds and alignment checks. -/
  | sts (core strand : Nat) (f : ScalarFields)
  /-- SETD (R123). Writes the FN-selected field of a descriptor slot from a plus the immediate. -/
  | setd (core strand : Nat) (f : ScalarFields)
  /-- GETD (R123). Reads the FN-selected field of a descriptor slot into d. -/
  | getd (core strand : Nat) (f : ScalarFields)
  /-- LDD (R120). Loads a 32-byte descriptor from scratch into a descriptor slot. -/
  | ldd (core strand : Nat) (f : ScalarFields)
  /-- STD (R120). Stores a descriptor slot into 32 bytes of scratch. -/
  | std (core strand : Nat) (f : ScalarFields)
  /-- RDAS (R120). Reads the strand's ASTAT into d. -/
  | rdas (core strand : Nat) (f : ScalarFields)
  /-- CLAS (R120). Clears the ASTAT bits set in B. -/
  | clas (core strand : Nat) (f : ScalarFields)
  /-- SETSRC (R64). Sets the stochastic-rounding counter SRC. -/
  | setsrc (core strand : Nat) (f : ScalarFields)
  /-- RDSRC (R120). Reads SRC into d. -/
  | rdsrc (core strand : Nat) (f : ScalarFields)
  /-- RDTIME (R125). Reads the cluster sync node's TIME into d. -/
  | rdtime (core strand : Nat) (f : ScalarFields)
  /-- BR (R122). Branches by the immediate times 8 when the FN condition on a and b holds. -/
  | br (core strand : Nat) (f : ScalarFields)
  /-- JMP (R111). Jumps by the immediate times 8 from the jump's own offset. -/
  | jmp (core strand : Nat) (f : ScalarFields)
  /-- JMPR (R121). Jumps to the code offset held in a. -/
  | jmpr (core strand : Nat) (f : ScalarFields)
  /-- CALL (R111). Stores PC + 8 in d and jumps by the immediate times 8. -/
  | call (core strand : Nat) (f : ScalarFields)
  /-- SPAWN (R74). Starts the lowest-numbered FREE strand at the target, or waits until a strand is FREE. -/
  | spawn (core strand : Nat) (f : ScalarFields)
  /-- YIELD (R76). Moves the strand to the back of its issue class. -/
  | yield (core strand : Nat) (f : ScalarFields)
  /-- EXIT (R75). Frees the strand once every instruction it issued has completed. -/
  | exit (core strand : Nat) (f : ScalarFields)
  /-- FENCE (R124). Waits until the strand's earlier tile instructions and stores are visible to the core or to the pavilion. -/
  | fence (core strand : Nat) (f : ScalarFields)
  /-- TLD (R126). Copies a tile from LS, ORANGERY or DVA into scratch. -/
  | tld (core strand : Nat) (f : TileFields)
  /-- TST (R127). Stores a scratch tile or an accumulator slot to DVA memory. -/
  | tst (core strand : Nat) (f : TileFields)
  /-- TCP (R126). Copies a tile between LS, ORANGERY and DVA operands. -/
  | tcp (core strand : Nat) (f : TileFields)
  /-- TGATHER (R130). Gathers the indexed rows of a source into scratch. -/
  | tgather (core strand : Nat) (f : TileFields)
  /-- TSCATTER (R130). Scatters scratch rows to the indexed rows of a DVA destination. -/
  | tscatter (core strand : Nat) (f : TileFields)
  /-- TMM (R133). Accumulates a weight-by-activation tile product into an accumulator slot on the anchored grid. -/
  | tmm (core strand : Nat) (f : TileFields)
  /-- TVOP (R134). Applies the FN vector operation elementwise in FP32. -/
  | tvop (core strand : Nat) (f : TileFields)
  /-- TRED (R135). Reduces a tile along a dimension, takes a top-k, or merges ACC elements into a slot. -/
  | tred (core strand : Nat) (f : TileFields)
  /-- TCVT (R137). Converts a tile or slot to the destination format by nearest-even or stochastic rounding. -/
  | tcvt (core strand : Nat) (f : TileFields)
  /-- TDEC (R137). Expands CB4 or CB2V weights into FP8, BF16, FP16 or FP32. -/
  | tdec (core strand : Nat) (f : TileFields)
  /-- TSEND (R140). Posts a keyed send of a tile or slot to a logical core. -/
  | tsend (core strand : Nat) (f : TileFields)
  /-- TRECV (R140). Posts a keyed receive into scratch or a merge into a slot. -/
  | trecv (core strand : Nat) (f : TileFields)
  /-- TPUT (R142). Writes a scratch tile to a PEER, WINDOW or DVA destination. -/
  | tput (core strand : Nat) (f : TileFields)
  /-- TGET (R142). Reads a PEER, WINDOW or DVA tile into scratch. -/
  | tget (core strand : Nat) (f : TileFields)
  /-- TBAR (R144). Arrives at a pavilion barrier with an expected count and waits for release. -/
  | tbar (core strand : Nat) (f : TileFields)
  /-- TWAIT (R145). Waits on in-flight tags or on a condition over a scratch word. -/
  | twait (core strand : Nat) (f : TileFields)
  /-- TCOMMIT (R146). Arrives at step commit n and waits for its release. -/
  | tcommit (core strand : Nat) (f : TileFields)
  /-- ICACHE_FILL (R78). An instruction-cache miss completes its read from the beds or orangery, and the strand can issue. -/
  | icacheFill (core strand : Nat)
  /-- STRAND_WAKE (R77). The cause of a strand's wait clears, and the strand becomes READY. -/
  | strandWake (core strand : Nat)
  /-- TILE_INSTRUCTION_COMPLETE (R78). A tile instruction completes and leaves the in-flight limits. -/
  | tileInstructionComplete (core strand pos : Nat)
  /-- MESSAGE_MATCH (R140). A TSEND and a TRECV with the same key are both posted, and the data moves into the receiver. -/
  | messageMatch (pav : Nat) (key : MsgKey)
  /-- EPISODE_OPEN (R88). A strand at an unresolved predicate with a free shadow buffer enters RUN-AHEAD and walks ahead. -/
  | episodeOpen (core strand : Nat) (walk : WalkWords)
  /-- SHADOW_LOAD_COMPLETE (R96). A speculative load into a shadow buffer completes, or is dropped. -/
  | shadowLoadComplete (core buf : Nat)
  /-- PREDICATE_RESOLVE (R95). The predicate instruction can issue; the episode closes and the strand returns to READY. -/
  | predicateResolve (core strand : Nat)
  /-- SHADOW_PROMOTE (R96). A matching shadow buffer exchanges rows with the destination segments. -/
  | shadowPromote (core strand buf : Nat)
  /-- TILE_TRANSLATE (R200). A unit translates every page of a tile before any byte moves, or faults the tile. -/
  | tileTranslate (core strand pos : Nat)
  /-- PAGE_WALK_READ (R196). A walk read at one table level returns from device memory. -/
  | pageWalkRead (unit pav : Nat) (dva : Word64) (level : Nat)
  /-- SYNC_ARRIVAL_FORWARD (R247). A sync node forwards its gathered arrivals up the tree. -/
  | syncArrivalForward (pav node : Nat) (use : SyncUse)
  /-- RELEASE_DECIDE (R248). The sync root decides a barrier, commit or kernel-start release and names its tick. -/
  | releaseDecide (pav : Nat) (use : SyncUse)
  /-- BARRIER_RELEASE (R144). At the named tick, the arriving strands of a barrier resume. -/
  | barrierRelease (pav barrier : Nat)
  /-- STEP_COMMIT_RELEASE (R147). At the named tick, step n commits, held host writes begin delivery, and waiting strands resume. -/
  | stepCommitRelease (pav : Nat)
  /-- KERNEL_COMPLETE_CORE (R75). The last strand of a core exits, and the kernel completes on that core. -/
  | kernelCompleteCore (core : Nat)
  /-- KERNEL_COMPLETE_PAVILION (R295). Gaold learns that a kernel has completed on every own core and prepares the next kernel or layer. -/
  | kernelCompletePavilion (pav : Nat)
  /-- KERNEL_START (R296). At the release tick, strand 0 of every own core starts the next kernel. -/
  | kernelStart (pav : Nat)
  /-- RUN_BEGIN (R294). An accepted run begins at the first layer boundary after the earlier run completes. -/
  | runBegin (pav : Nat)
  /-- WATCHDOG_EXPIRE (R501). The pavilion watchdog reaches its period, and the pavilion is killed with cause HANG. -/
  | watchdogExpire (pav : Nat)
  /-- PIECE_RESIDENT (R162). A filled piece has all its bytes written and becomes resident. -/
  | pieceResident (pav handle : Nat)
  /-- SLICE_FILL_COMPLETE (R162). A fill of a slice completes, or stops at a piece it cannot place. -/
  | sliceFillComplete (pav handle : Nat)
  /-- PIECE_OVERWRITE (R166). Once in-flight reads of an evicted piece complete, its segment is overwritten. -/
  | pieceOverwrite (core segment : Nat)
  /-- MC_SERVE_ACCESS (R388). In an access slot the controller serves the waiting line access of highest priority. -/
  | mcServeAccess (channel : Nat) (waiting : List McAccess)
  /-- REFRESH (R171). A per-bank refresh falls due at the rate that the temperature sets. -/
  | refresh (channel : Nat)
  /-- DRAM_TEMPERATURE_REPORT (R171). A device temperature report changes the refresh rate. -/
  | dramTemperatureReport (channel : Nat) (celsius : Int)
  /-- PATROL_SCRUB_READ (R173). The scrubber reads its next line and writes corrected data back. -/
  | patrolScrubRead (channel : Nat) (errs : List (Nat × Byte))
  /-- LS_ROW_REPAIR (R176). A local-store row whose corrected errors recur is remapped to a spare row. -/
  | lsRowRepair (core bank segment : Nat)
  /-- SPARE_CHANNEL_START (R178). A channel crossing a sparing threshold begins its copy to the group's spare. -/
  | spareChannelStart (channel : Nat) (wear : Bool)
  /-- SPARE_COPY_COMPLETE (R178). The spare copy ends, the channel stalls briefly, and the mapping switches. -/
  | spareCopyComplete (channel : Nat)
  /-- CHANNEL_FAILURE (R179). A channel fails; its pavilions are killed and the spare is brought in or the channel retired. -/
  | channelFailure (channel : Nat)
  /-- LS_ZERO_COMPLETE (R155). Zeroing of a local store and its shadow rows completes. -/
  | lsZeroComplete (core : Nat)
  /-- GRANULE_ZERO_COMPLETE (R284). A released granule finishes zeroing at VC 3. -/
  | granuleZeroComplete (channel granule : Nat)
  /-- BULK_MESSAGE_ARRIVE (R241). A bulk request arrives and is applied in SEQ order or held until its predecessors arrive. -/
  | bulkMessageArrive (m : BulkMsg)
  /-- REPLY_ARRIVE (R242). A reply arrives and is matched to its request by STREAM and SEQ. -/
  | replyArrive (m : BulkMsg)
  /-- ONPKG_FLIT_ERROR (R511). A flit with an uncorrectable error on an on-package hop is resent from the hop's buffer. -/
  | onpkgFlitError (loc lane : Nat)
  /-- ONPKG_LANE_SPARE (R516). A failed or worn lane of a mesh, express or seam link is replaced, or the die is degraded. -/
  | onpkgLaneSpare (loc lane : Nat)
  /-- TIME_TICK (R251). TIME advances by one tick per REFCLK cycle. -/
  | timeTick
  /-- TIME_BROADCAST (R252). The root sends the full TIME value down the sync tree every 1,024 ticks. -/
  | timeBroadcast
  /-- DL_PORT_ENABLE (R345). A write of DL_CTL.ENABLE lets the port train with its peer, or stops it. -/
  | dlPortEnable (port : Nat) (on : Bool)
  /-- PORT_TRAIN_COMPLETE (R345). Lane training completes, the port is UP, and package ids are exchanged. -/
  | portTrainComplete (port lanes peerPkg peerPort : Nat)
  /-- DL_LANE_SPARE (R346). A failing Duncy lane is replaced by the spare at a flit boundary. -/
  | dlLaneSpare (port lane : Nat)
  /-- DL_SPARE_NOW (R346). A write of SPARE_NOW brings in the spare in place of LANE_SEL. -/
  | dlSpareNow (port lane : Nat)
  /-- PORT_RETRAIN_NARROW (R347). A lane fails with the spare in use, and the port retrains on four lanes or fails. -/
  | portRetrainNarrow (port lanes : Nat)
  /-- DATA_FLIT_RECEIVE (R349). A DATA flit arrives, is checked, and its messages are passed on in FSEQ order. -/
  | dataFlitReceive (port : Nat) (flit : DataFlit)
  /-- FLIT_REPLAY (R349). A sender replays its kept flits from the FSEQ the receiver asks for. -/
  | flitReplay (port fseq : Nat)
  /-- SYNC_FLIT_RECEIVE (R351). A SYNC flit carrying span sync messages, renewals or aborts arrives. -/
  | syncFlitReceive (port : Nat) (m : SyncFlit)
  /-- LINK_FLIT_RECEIVE (R348). A LINK flit, such as a farewell, arrives. -/
  | linkFlitReceive (port : Nat) (m : LinkFlit)
  /-- PORT_LEAVE_UP (R356). A port leaves UP, and its queued and unacknowledged messages are re-sent over fresh routes. -/
  | portLeaveUp (port : Nat)
  /-- TIMESTAMP_EXCHANGE (R359). Every 1,024 ticks each UP port exchanges TIMESTAMP flits and the package slews towards its parent. -/
  | timestampExchange (port : Nat) (t : TimeStamp)
  /-- DL_PKG_ID_WRITE (R353). The first write of DL_PKG_ID sets the package id and lets links carry traffic. -/
  | dlPkgIdWrite (value : Word32)
  /-- DL_RT_DATA_WRITE (R354). A write sets the routing entry of the selected destination for later messages. -/
  | dlRtDataWrite (value : Word32)
  /-- DL_QUIESCE (R377). A write of QUIESCE sends queued flits and a farewell, then stops the port. -/
  | dlQuiesce (port : Nat)
  /-- DL_SPAN_BASE_WRITE (R362). The first write after cold reset sets the package address of the member lists. -/
  | dlSpanBaseWrite (value : Word64)
  /-- WINDING_ABORT_RECEIVE (R374). A member receives WINDING_ABORT and faults the span. -/
  | windingAbortReceive (spanId winding rank : Nat)
  /-- PEER_LOSS_DETECT (R373). Within 10 µs a member detects that a peer is gone, and faults the span. -/
  | peerLossDetect (pav rank : Nat)
  /-- SPAN_DELIVERY_START (R371). At T + 1,024 the host movers of each member begin delivering a span step's held writes. -/
  | spanDeliveryStart (pav : Nat)
  /-- SPAN_ROLLUP_COMPARE (R581). Rank 0 receives span rollups and compares those with equal flip ticks. -/
  | spanRollupCompare (pav rank : Nat) (flipTick rollup : Word64) (groups : List Word64)
  /-- REG_WINDOW_END (R386). A 1 µs regulation window ends; meters restart and misses are judged. -/
  | regWindowEnd (waiting : List McWait) (stalled : List Nat)
  /-- REG_SCALE_CHANGE (R394). A fall in a channel's capacity rescales its shares at every controller. -/
  | regScaleChange (channel : Nat)
  /-- REG_SCALE_RESTORE (R394). Capacity restored for 1 ms returns the channel's scale to 1. -/
  | regScaleRestore (channel : Nat)
  /-- STREAM_URGENCY_CHANGE (R390). A stream engine's buffer margin crosses a threshold and its urgency changes. -/
  | streamUrgencyChange (pav stream num den : Nat)
  /-- IDENTIFY (R419). Returns versions, grade, identity and capabilities of the package. -/
  | identify (fn slot : Nat)
  /-- PV_CHECK (R272). Checks the resulting set of a staged change and keeps a copy on success. -/
  | pvCheck (fn slot : Nat) (answers : List SpanAnswer)
  /-- PV_APPLY (R275). Accepts a checked change and starts the apply. -/
  | pvApply (fn slot : Nat) (answers : List SpanAnswer)
  /-- APPLY_PREPARE_DONE (R276). Preparation of an apply completes, and affected pavilions are held at their next layer boundary. -/
  | applyPrepareDone
  /-- APPLY_HOLD (R276). An affected pavilion reaches a layer boundary and is held. -/
  | applyHold (pav : Nat)
  /-- APPLY_COPY_DONE (R276). Every affected pavilion is held and every copy done, and the flip tick is named. -/
  | applyCopyDone
  /-- APPLY_DRAIN_TIMEOUT (R277). An affected pavilion misses its layer boundary within the watchdog period, and the apply ends. -/
  | applyDrainTimeout (pav : Nat)
  /-- EPOCH_FLIP (R279). At tick T every affected unit switches to the new binding and PV_EPOCH advances. -/
  | epochFlip
  /-- APPLY_PAVILION_RESUME (R283). A pavilion resumes once its cores are zeroed and its copies done. -/
  | applyPavilionResume (pav : Nat)
  /-- INVALIDATE (R213). Withdraws translations of a DVA range, whole space or window range from every unit. -/
  | invalidate (fn slot : Nat)
  /-- INVALIDATE_RECEIVE (R213). A unit receives the target and drops its cached entries and cache lines. -/
  | invalidateReceive (unit fn slot : Nat)
  /-- INVALIDATE_DRAIN_COMPLETE (R213). Every unit has drained its uses, shadow buffers are discarded and the slot completes. -/
  | invalidateDrainComplete (fn slot : Nat)
  /-- FAULT_RESOLVE_RETRY (R208). Retranslates every tile waiting on a fault record. -/
  | faultResolveRetry (fn slot : Nat)
  /-- FAULT_RESOLVE_KILL (R208). Kills the pavilion for an OPEN or RESOLVING record. -/
  | faultResolveKill (fn slot : Nat)
  /-- MODEL_LOAD (R156). Registers a slice home, optionally unsealing and filling it, and returns a handle. -/
  | modelLoad (fn slot : Nat)
  /-- MODEL_PIN (R164). Marks a slice pinned and fills it. -/
  | modelPin (fn slot : Nat)
  /-- MODEL_UNPIN (R164). Clears a slice's pinned mark. -/
  | modelUnpin (fn slot : Nat)
  /-- MODEL_EVICT (R165). Evicts a slice at once and optionally releases its handle. -/
  | modelEvict (fn slot : Nat)
  /-- MEM_COPY (R419). Copies bytes between host memory and the own channel set. -/
  | memCopy (fn slot : Nat)
  /-- RUN (R292). Reads and checks a program table and accepts a run. -/
  | run (fn slot : Nat)
  /-- SESSION_CREATE (R327). Creates a session in an owner pool, or extends one. -/
  | sessionCreate (fn slot : Nat)
  /-- SESSION_MOVE (R329). Runs phase 1 of a move, copying a session to a target pool. -/
  | sessionMove (fn slot : Nat)
  /-- SESSION_MOVE_ABORT (R330). Ends an uncommitted move and frees the target's pages. -/
  | sessionMoveAbort (fn slot : Nat)
  /-- SESSION_COPY_COMPLETE (R329). Phase 1's copy ends, the record becomes PREPARED and the move completes. -/
  | sessionCopyComplete (session : Nat)
  /-- SESSION_COMMIT (R331). Runs phase 2, making the target owner at the next epoch. -/
  | sessionCommit (fn slot : Nat)
  /-- SESSION_CLOSE (R333). Frees every page of a session and its record. -/
  | sessionClose (fn slot : Nat)
  /-- DIRECTORY_RECORD_WRITE (R320). The later copy of a directory record is written, and the change takes effect. -/
  | directoryRecordWrite (session : Nat)
  /-- SESSION_DROP_RECEIVE (R331). The source pool receives DROP, stops serving, retains pages and sends SEAL. -/
  | sessionDropReceive (pool session target : Nat)
  /-- SESSION_OWN_RECEIVE (R331). A pool receives OWN at an epoch for a session. -/
  | sessionOwnReceive (pool session epoch : Nat) (fetch : Bool)
  /-- SESSION_SEAL_RECEIVE (R331). The target receives SEAL behind the source's last write. -/
  | sessionSealReceive (pool session : Nat)
  /-- SESSION_SERVE_REPORT (R331). The target reports it serves, retained pages are freed and the commit completes. -/
  | sessionServeReport (session : Nat)
  /-- COMMIT_PENDING_TIMEOUT (R331). Step 5 has not happened 10 ms after the commit point, and SESSION_COMMIT completes with COMMIT_PENDING. -/
  | commitPendingTimeout (session : Nat)
  /-- SESSION_FETCH (R337). An owner without SEAL fetches the whole session before it serves. -/
  | sessionFetch (pool session : Nat) (data : PageData)
  /-- RENEWAL_SEND (R321). Every 1 ms the directory package sends a renewal to every pool holding its sessions. -/
  | renewalSend
  /-- RENEWAL_RECEIVE (R323). A pool receives a renewal, and after a lapse reports its holdings. -/
  | renewalReceive (directory pool : Nat) (renewal : Renewal)
  /-- LEASE_LAPSE (R321). Two ms after the last renewal a pool stops serving that directory's sessions. -/
  | leaseLapse (directory pool : Nat)
  /-- OWNERSHIP_TAKEOVER (R322). After the last renewal plus 2 ms plus 1 µs the directory may make another pool owner. -/
  | ownershipTakeover (session : Nat)
  /-- POOL_LOSS (R337). A pool is lost and each of its sessions is rebuilt from the first available source. -/
  | poolLoss (pool : Nat)
  /-- POOL_UNREACHABLE_TIMEOUT (R337). A pool unreachable for 10 ms is lost. -/
  | poolUnreachableTimeout (pool : Nat)
  /-- MIRROR_UPDATE_COMPLETE (R336). A Mirror update for a committed step completes and PSTEP is set. -/
  | mirrorUpdateComplete (session : Nat) (data : PageData)
  /-- DIRECTORY_RESYNC_COMPLETE (R341). After a cold reset the directory package has copied its records back. -/
  | directoryResyncComplete (records : List RecordBits)
  /-- PV_DIR_CTL_WRITE (R324). A write of the directory control sets partner, SOLE or ADOPT, and clearing ADOPT starts a record copy. -/
  | pvDirCtlWrite (value : Word32)
  /-- WINDOW_REQUEST_RECEIVE (R218). The holding package checks a window tile request and serves or refuses it. -/
  | windowRequestReceive (m : BulkMsg)
  /-- FREEZE (R454). Freezes a pavilion at its next layer boundary. -/
  | freeze (fn slot : Nat)
  /-- FREEZE_TAKE_HOLD (R455). The pavilion reaches a layer boundary and freezes, suspending its runs. -/
  | freezeTakeHold (pav : Nat)
  /-- FREEZE_TIMEOUT (R454). No layer boundary within the watchdog period, and FREEZE completes with FREEZE_TIMEOUT. -/
  | freezeTimeout (pav : Nat)
  /-- THAW (R457). Resumes a frozen pavilion at the next kernel of its first suspended run. -/
  | thaw (fn slot : Nat)
  /-- SAVE (R460). Writes a sealed image of a frozen pavilion to host memory. -/
  | save (fn slot : Nat)
  /-- RESTORE (R466). Rebuilds a frozen empty pavilion from an authenticated image. -/
  | restore (fn slot : Nat)
  /-- PAV_RESET (R503). Starts a pavilion reset from the host. -/
  | pavReset (fn slot : Nat)
  /-- RESET_TICK (R503). At Tr the winding advances and every unit of the pavilion cancels its work. -/
  | resetTick (pav : Nat)
  /-- PAV_RESET_READY (R503). RESETTING clears, PAV_RESET completes and pinned slices start refilling. -/
  | pavResetReady (pav : Nat)
  /-- PKG_RESET (R506). Starts a warm reset of the package. -/
  | pkgReset (fn slot : Nat)
  /-- WARM_RESET (R509). A warm reset clears bindings and keys and keeps memory, TIME and links. -/
  | warmReset (cause : Nat)
  /-- COLD_RESET (R506). A cold reset restarts everything from flash. -/
  | coldReset (cause : Nat)
  /-- SNAPSHOT (R575). Reserves a shadow set for a named tick. -/
  | snapshot (fn slot : Nat)
  /-- SNAPSHOT_TICK (R576). At the named tick every unit copies its counters into the shadow set. -/
  | snapshotTick (set : Nat)
  /-- FINGERPRINT (R582). Returns the fingerprint a unit or rollup holds now. -/
  | fingerprint (fn slot : Nat)
  /-- FINGERPRINT_TICK (R580). At every 100,000 ticks units copy fingerprints and Gaold compares rollups. -/
  | fingerprintTick (units : List Nat)
  /-- REPLAY_STOP (R566). Ends a recording or replay at once and returns the record count. -/
  | replayStop (fn slot : Nat)
  /-- REPLAY_RECORD (R566). Writes a ring header so that recording begins at the next thaw. -/
  | replayRecord (fn slot : Nat)
  /-- REPLAY_REPLAY (R572). Arms replay of a complete ring from the next thaw. -/
  | replayReplay (fn slot : Nat)
  /-- POWER_QUERY (R556). Returns PWR_STATE. -/
  | powerQuery (fn slot : Nat)
  /-- POWER_SET_CAP (R556). Sets the package power cap. -/
  | powerSetCap (fn slot : Nat)
  /-- POWER_NAP (R536). Enters Nap and holds eligible domains off. -/
  | powerNap (fn slot : Nat)
  /-- POWER_DOZE (R537). Prepares for Doze by saving state, quiescing ports and putting beds in self-refresh. -/
  | powerDoze (fn slot : Nat)
  /-- POWER_ACTIVE (R556). Ends Nap. -/
  | powerActive (fn slot : Nat)
  /-- POWER_HOLD (R556). Holds an eligible domain off or releases it. -/
  | powerHold (fn slot : Nat)
  /-- POWER_LIMIT_HALF (R556). Sets a die half's lowest allowed divisor. -/
  | powerLimitHalf (fn slot : Nat)
  /-- POWER_RESET_HALF (R556). Starts a die-half reset. -/
  | powerResetHalf (fn slot : Nat)
  /-- FW_STAGE (R592). Verifies an image from host memory and writes it to the slot that is not ACTIVE. -/
  | fwStage (fn slot : Nat)
  /-- FW_ACTIVATE (R594). Verifies the staged slot again and starts activation. -/
  | fwActivate (fn slot : Nat)
  /-- FW_ACTIVATE_PAUSE (R595). Verification is done and any apply complete; Gaold pauses and starts the new image. -/
  | fwActivatePause (verified : Bool)
  /-- FW_IMAGE_READY (R597). The new image reports ready, becomes ACTIVE and FW_ACTIVATE completes. -/
  | fwImageReady
  /-- FW_ACTIVATE_TIMEOUT (R598). The new image is not ready in time, and the package warm-resets to the old slot. -/
  | fwActivateTimeout
  /-- RESTORE_FACTORY (R602). Erases user calibration and puts factory coefficients and trims in force. -/
  | restoreFactory (fn slot : Nat)
  /-- RECOVERY_ARM (R599). Arms recovery for the next warm reset. -/
  | recoveryArm (fn slot : Nat)
  /-- RECOVERY_DISARM (R599). Disarms recovery. -/
  | recoveryDisarm (fn slot : Nat)
  /-- FW_RCV_GO (R601). A write of GO verifies the recovery buffer and writes both slots. -/
  | fwRcvGo
  /-- RECOVERY_IMAGE_WRITTEN (R601). The recovered image is written to both slots, and the package warm-resets. -/
  | recoveryImageWritten (written : Bool)
  /-- FW_BOOT_COMPLETE (R591). The boot ROM's slot reports ready, or it falls back to the other slot or to recovery. -/
  | fwBootComplete (good : Bool)
  /-- BOOT_READY_TIMEOUT (R591). A slot not ready within 2 s fails, and the ROM tries the other. -/
  | bootReadyTimeout
  /-- MB_HCH_RESUME (R430). A write of RESUME clears HALTED and retries the waiting host accesses. -/
  | mbHchResume (fn : Nat)
  /-- HOST_CHANNEL_ERROR (R429). A host refusal, failed record, missing key or link loss halts the host channel. -/
  | hostChannelError (pav cause : Nat) (dva : Word64)
  /-- PCIE_COMPLETION_TIMEOUT (R429). A host completion missing for 50 ms halts the channel. -/
  | pcieCompletionTimeout (target : HostTarget)
  /-- HOST_DELIVERY_COMPLETE (R423). The last held write of a step is issued on the link. -/
  | hostDeliveryComplete (pav : Nat)
  /-- EVT_TAIL_WRITE (R418). A write of EVT_TAIL consumes records and may send the event vector. -/
  | evtTailWrite (fn : Nat) (value : Word32)
  /-- EVT_OVERFLOW_CLEAR (R418). Clearing OVERFLOW also clears LOST. -/
  | evtOverflowClear (fn : Nat)
  /-- MMU_FLT_DATA0_READ (R226). A read of MMU_FLT_DATA0 latches the whole selected record. -/
  | mmuFltData0Read (fn : Nat)
  /-- MMU_FLT_SEL_WRITE (R226). A write of MMU_FLT_SEL selects a record and clears the latch. -/
  | mmuFltSelWrite (fn : Nat) (value : Word32)
  /-- TIME_NOW_LOW_READ (R253). A 32-bit read of the low half latches the high half of TIME. -/
  | timeNowLowRead
  /-- RG_PAV_STAT_READ (R398). A read returns the pavilion's regulation state and restarts MISS_CLASSES. -/
  | rgPavStatRead (fn : Nat)
  /-- PV_TABLE_BASE_WRITE (R287). The first write after cold reset sets the pavilion table address. -/
  | pvTableBaseWrite (value : Word64)
  /-- MMU_WIN_BASE_WRITE (R227). The first write after cold reset sets the window table address and enables window requests. -/
  | mmuWinBaseWrite (value : Word64)
  /-- PV_POOL_BASE_WRITE (R340). The first write after cold reset sets the pool table address. -/
  | pvPoolBaseWrite (value : Word64)
  /-- STREAM_ENABLE (R437). A write of ENABLE = 1 starts a stream, or sets ERROR. -/
  | streamEnable (pav stream : Nat)
  /-- STREAM_DISABLE (R437). A write of ENABLE = 0 stops a stream after the frame in progress. -/
  | streamDisable (pav stream : Nat)
  /-- STREAM_IN_FRAME (R433). At a frame's tick an IN engine reads the host slot, or counts an overrun. -/
  | streamInFrame (pav stream : Nat) (data : HostBytes)
  /-- STREAM_IN_DEVICE_WRITE (R433). Buffered frame data and header are written into the device slot once there is room. -/
  | streamInDeviceWrite (pav stream : Nat)
  /-- STREAM_OUT_POLL (R434). An OUT engine reads its device slot from four periods ahead, every PERIOD / 4. -/
  | streamOutPoll (pav stream frame : Nat)
  /-- STREAM_OUT_FRAME (R434). At a frame's tick an OUT engine writes the frame to the host slot, or marks an underrun. -/
  | streamOutFrame (pav stream : Nat)
  /-- PWR_PAD_RELEASE_WRITE (R540). A write releases the held pad groups. -/
  | pwrPadReleaseWrite (value : Word32)
  /-- PWR_CAP_WRITE (R544). A write sets the package cap from the next interval. -/
  | pwrCapWrite (value : Word32)
  /-- SNAP_FREE_WRITE (R583). A write frees shadow sets, aborting PENDING snapshots. -/
  | snapFreeWrite (value : Word32)
  /-- PKG_FATAL_CLEAR (R522). Clearing FATAL releases PKG_FAULT_N. -/
  | pkgFatalClear
  /-- BAR2_READ (R405). A host read through PF BAR2 of package memory or a channel set. -/
  | bar2Read (offset len : Nat)
  /-- BAR2_WRITE (R405). A host write through PF BAR2 of package memory or a channel set. -/
  | bar2Write (offset : Nat) (bytes : Bytes)
  /-- REGISTER_WRITE (R6). A register write with no behaviour of its own sets its writable fields by type. -/
  | registerWrite (fn offset size : Nat) (value : Word64)
  /-- ENERGY_INTERVAL (R451). A 1 ms interval ends; energy is reconciled and charged. -/
  | energyInterval (cycles : CycleCounts) (overhead : Nat)
  /-- TELEMETRY_READ (R529). Every 250 µs the package reads current and voltage of every rail. -/
  | telemetryRead (readings : RailReadings)
  /-- AVS_RESPONSE (R527). A regulator acknowledges a voltage write, or reports VDone. -/
  | avsResponse (rail : Nat) (done : Bool)
  /-- AVS_TIMEOUT (R528). An unacknowledged write is retried, or the rail is treated as lost. -/
  | avsTimeout (rail : Nat)
  /-- DIVISOR_CHANGE (R531). At a super-cycle boundary a half's CORE divisor switches and the seam pauses. -/
  | divisorChange (half : Nat)
  /-- ESCAPEMENT_STEP (R541). Each RAMP / 64 the escapement lets activity move by one step, issuing filler if needed. -/
  | escapementStep (half load : Nat)
  /-- DROOP_DETECT (R550). Supply below 92 % of set-point clamps the half's issue and removes CORE pulses. -/
  | droopDetect (half mv : Nat)
  /-- DROOP_RECOVER (R551). After 1 µs above 94 %, the clamp ends and the budget ramps. -/
  | droopRecover (half mv : Nat)
  /-- SUPPLY_RESET_DIP (R551). Supply below 85 % starts a die-half reset. -/
  | supplyResetDip (half mv : Nat)
  /-- THERMAL_THROTTLE_STEP (R553). At 100 °C or above the thermal floor rises one step per 1 ms. -/
  | thermalThrottleStep (half celsius : Nat)
  /-- THERMAL_RELAX_STEP (R553). Below 97 °C for 10 ms the floor falls one step per 10 ms. -/
  | thermalRelaxStep (half celsius : Nat)
  /-- THERMAL_CLAMP (R553). At 105 °C at divisor 12, issue is clamped until below 103 °C. -/
  | thermalClamp (half celsius : Nat)
  /-- THERMTRIP (R553). At 115 °C THERMTRIP_N is asserted and every domain but the always-on island is gated. -/
  | thermtrip (half celsius : Nat)
  /-- THERMTRIP_CLEAR (R553). Below 95 °C THERMTRIP_N is released and the package cold-resets. -/
  | thermtripClear
  /-- AGEING_MEASURE (R554). Hourly ageing monitors measure each half and raise its trim. -/
  | ageingMeasure (half trim : Nat)
  /-- DOMAIN_IDLE_OFF (R534). A domain eligible for 10 ms is turned off. -/
  | domainIdleOff (domain : Nat)
  /-- CALIBRATION_WRITE (R546). Learned coefficients are written to flash at most hourly. -/
  | calibrationWrite
  /-- PME_TURN_OFF (R537). The host's PME_Turn_Off lets the package enter Doze. -/
  | pmeTurnOff
  /-- SMBUS_WAKE_MATCH (R539). An SMBus address match in Doze asserts PEWAKE_N. -/
  | smbusWakeMatch (address : Nat)
  /-- REFCLK_STOP (R616). A REFCLK stop over 1 µs asserts PKG_FAULT_N or marks the next wake cold. -/
  | refclkStop
  /-- REFCLK_VALID (R611). 64 REFCLK cycles after VAON, TIME starts and the straps are sampled. -/
  | refclkValid (straps : Nat)
  /-- PWRGD_IN_ASSERT (R611). PWRGD_IN rises; PLL locks, dividers release, and the boot ROM starts. -/
  | pwrgdInAssert (silent : UnitList)
  /-- POWER_LOSS (R612). PWRGD_IN low for 500 ns cuts issue, resets dies and tristates pads. -/
  | powerLoss
  /-- PERST_N_ASSERT (R401). PERST_N asserted starts a warm reset or wakes from Doze. -/
  | perstNAssert
  /-- PERST_N_RELEASE (R611). PERST_N released starts PCIe link training. -/
  | perstNRelease
  /-- PCIE_LINK_DOWN (R624). The PCIe link goes down and every host channel halts. -/
  | pcieLinkDown
  /-- VF_FLR (R401). A VF reset empties its slots and ring, removes keys and resets its pavilion. -/
  | vfFlr (fn : Nat)
  /-- PF0_FLR (R401). PF0's function reset does the same for PF0's page and pavilion. -/
  | pf0Flr
  /-- VF_ENABLE_CLEAR (R401). Clearing VF Enable resets every VF pavilion and halts its channel. -/
  | vfEnableClear
  /-- DIE_HALF_RESET_START (R508). A die half resets, its beds enter self-refresh and its pavilions are killed. -/
  | dieHalfResetStart (half : Nat)
  /-- DIE_HALF_READY (R506). The reset half is ready, and its package-owned accesses are issued again. -/
  | dieHalfReady (half : Nat)
  /-- CP_WATCHDOG_EXPIRE (R514). A control-processor core's watchdog expires or it meets an error; the spare takes its tasks. -/
  | cpWatchdogExpire (core : Nat) (posts : SlotList)
  /-- CP_RECOVERY_DONE (R514). Gaold resumes mailbox service after restarting tasks from its journal. -/
  | cpRecoveryDone
  /-- PKG_UNIT_UNCORRECTABLE (R513). An uncorrectable error in a package unit is handled by unit. -/
  | pkgUnitUncorrectable (unit pav : Nat)
  /-- CORE_SPARE (R517). At the owner's layer boundary a worn core is copied to a spare. -/
  | coreSpare (core : Nat) (wear : Bool)
  /-- CORE_SPARE_COPY_DONE (R517). The copy ends, the old core is zeroed and the pavilion resumes. -/
  | coreSpareCopyDone (core : Nat)
  /-- CORE_DEATH (R517). A core dies; its owner is killed and a spare takes the index zeroed. -/
  | coreDeath (core : Nat)
  /-- SMBUS_MCTP (R618). An MCTP block transfer carrying SPDM. -/
  | smbusMctp (pec : Bool) (request : SpdmRequest)
  /-- SMBUS_WARM_RESET (R618). SMBus request for a warm reset. -/
  | smbusWarmReset (pec : Bool)
  /-- SMBUS_COLD_RESET (R618). SMBus request for a cold reset. -/
  | smbusColdReset (pec : Bool)
  /-- SMBUS_STATUS_READ (R618). Returns reset cause, temperature and state, and releases SMB_ALERT_N. -/
  | smbusStatusRead
  /-- SMBUS_ALERT_RESPONSE (R618). A read of the Alert Response Address returns the package's address and releases the alert. -/
  | smbusAlertResponse
  /-- SMBUS_RCV_OFFSET (R600). Sets the recovery buffer offset. -/
  | smbusRcvOffset (pec : Bool) (offset : Word32)
  /-- SMBUS_RCV_WRITE (R600). Writes 32 bytes at the offset and advances it. -/
  | smbusRcvWrite (pec : Bool) (bytes : Bytes)
  /-- SMBUS_RCV_START (R600). Sets the length and starts recovery as GO. -/
  | smbusRcvStart (pec : Bool) (length : Word32)
  /-- SMBUS_RCV_STATUS (R600). Returns FW_RCV_STATUS. -/
  | smbusRcvStatus (pec : Bool)
  /-- GET_VERSION (R476). SPDM version request. -/
  | getVersion (via : Nat)
  /-- GET_CAPABILITIES (R476). SPDM capabilities request. -/
  | getCapabilities (via transfer : Nat)
  /-- NEGOTIATE_ALGORITHMS (R477). SPDM algorithm negotiation. -/
  | negotiateAlgorithms (via : Nat) (algs : SpdmAlgs)
  /-- GET_DIGESTS (R476). Returns the digest of certificate slot 0. -/
  | getDigests (via session : Nat)
  /-- GET_CERTIFICATE (R474). Returns the slot 0 certificate chain. -/
  | getCertificate (via session slot offset len : Nat)
  /-- CHALLENGE (R476). Answers a challenge signed with the identity key. -/
  | challenge (via session slot : Nat) (nonce : Bytes)
  /-- GET_MEASUREMENTS (R479). Returns signed measurement blocks. -/
  | getMeasurements (via session index : Nat) (signed : Bool) (nonce : Bytes)
  /-- KEY_EXCHANGE (R478). ML-KEM key exchange opening a secured session. -/
  | keyExchange (via slot : Nat) (key : Bytes)
  /-- FINISH (R476). Completes a responder-authenticated session. -/
  | finish (via session : Nat)
  /-- HEARTBEAT (R476). Keeps a secured session alive. -/
  | heartbeat (via session : Nat)
  /-- KEY_UPDATE (R476). Updates a session's keys. -/
  | keyUpdate (via session : Nat)
  /-- END_SESSION (R476). Ends a secured session. -/
  | endSession (via session : Nat)
  /-- CHUNK_SEND (R475). Receives one chunk of a large SPDM message. -/
  | chunkSend (via : Nat) (chunk : Bytes) (last : Bool)
  /-- CHUNK_GET (R475). Returns one chunk of a large SPDM response. -/
  | chunkGet (via number : Nat)
  /-- SPDM_UNSUPPORTED_REQUEST (R476). Any other request code is answered with ERROR UnsupportedRequest. -/
  | spdmUnsupportedRequest (via : Nat)
  /-- GET_KEM_CERT (R481). Returns the KEM certificate. -/
  | getKemCert (via : Nat) (ask : KemAsk)
  /-- INSTALL_HOST_KEY (R483). Installs a host-channel key into a confidential pavilion. -/
  | installHostKey (via session : Nat) (m : KeyMsg)
  /-- REMOVE_HOST_KEY (R483). Removes a host-channel key. -/
  | removeHostKey (via session : Nat) (m : KeyMsg)
  /-- RELEASE_MODEL (R487). Adds a model release for a model and tenant. -/
  | releaseModel (via session : Nat) (m : ReleaseMsg)
  /-- REVOKE_MODEL (R487). Removes a model release. -/
  | revokeModel (via session : Nat) (m : ReleaseMsg)
  /-- INSTALL_IMAGE_KEY (R485). Adds a seal or open key to the image-key table. -/
  | installImageKey (via session : Nat) (m : KeyMsg)
  /-- REMOVE_IMAGE_KEY (R485). Removes an image key. -/
  | removeImageKey (via session : Nat) (m : KeyMsg)
  /-- UNDEFINED_ENCODING (R107). A strand issues an instruction word with an unlisted opcode or other undefined encoding, which raises ILLEGAL_INSTRUCTION and kills the pavilion. -/
  | undefinedEncoding (core strand : Nat) (w0 w1 : Word64)
  /-- MB_UNKNOWN (R415). A mailbox post whose OPC is not a defined opcode completes at once with MB_UNKNOWN. -/
  | mbUnknown (fn slot : Nat)
  /-- PCIE_COMPLETION_RECEIVE (R427). Read data from the host arrives at a host mover for a host-mover, MEM_COPY, RESTORE or FW_STAGE read, and sealed records are checked. -/
  | pcieCompletionReceive (target : HostTarget) (data : HostBytes)
  /-- PCIE_LINK_UP (R611). PCIe link training completes and configuration space becomes ready within 100 ms of link up. -/
  | pcieLinkUp
  /-- VF_ENABLE_SET (R274). The host sets VF Enable, so that the VFs exist and entries naming them pass the HOST_FN_ABSENT check. -/
  | vfEnableSet (count : Nat)
  /-- REFCLK_RETURN (R616). REFCLK returns after a stop of more than 1 µs while the dies are powered, and the package takes a cold reset. -/
  | refclkReturn
  /-- BRIDGE_LANE_REPAIR (R18). A failed die-to-die bridge lane is replaced from its module's redundant lanes, pausing other traffic at most 20 µs. -/
  | bridgeLaneRepair (edge module lane : Nat)
  /-- FW_SLOT_WRITTEN (R592). The flash write of a staged image ends, the slot passes from STAGING to VALID and FW_STAGE completes. -/
  | fwSlotWritten
  deriving DecidableEq, Repr

end Sys2Proof
end

