-- ==== Sys2Proof/Decode.lean ====
section
/-! DEFINITION. The commands that words spell. The opcode table gives no row of this block any bits, so no word of any
length spells a command. -/

namespace Sys2Proof

/-- The command that a word of `nbits` bits spells by the opcode table: none, for the table gives no row bits. -/
def decodeTableWord (_nbits _w : Nat) : Option Instr := none

end Sys2Proof
end

