-- ==== Sys2Proof/Config.lean ====
section
/-! DEFINITION. Values that the spec leaves open and functions it takes from elsewhere: opaque constants without a body,
so that nothing in Lean can evaluate them and a claim holds whatever they are. -/

namespace Sys2Proof.Config

/-- A free value for each draw: the step reads and advances State.draws (notes/assumptions/4.md). -/
opaque freeValue : Nat → Word64

/-- AES-256-GCM of R426 and R460: key, 96-bit IV, additional data, plaintext give ciphertext and tag. -/
opaque gcmSeal : BitVec 256 → BitVec 96 → List Byte → List Byte → List Byte × BitVec 128

/-- AES-256-GCM opening: key, IV, additional data, ciphertext, tag give the plaintext, or none where the tag fails. -/
opaque gcmOpen : BitVec 256 → BitVec 96 → List Byte → List Byte → BitVec 128 → Option (List Byte)

/-- SHAKE256 with an output of the given number of bytes (R570, R578). -/
opaque shake256 : Nat → List Byte → List Byte

/-- A data page of a session whose owner pool is on another package, as SAVE reads it (R462). -/
opaque farPage : Nat → Nat → List Byte

/-- The SHAKE256 identity digest of the package (R473). -/
opaque identityDigest : BitVec 256

/-- Decapsulation with the package's KEM key (R472, R489). -/
opaque decapsulate : List Byte → BitVec 256

/-- ML-KEM-1024 encapsulation to a requester's key, with fresh randomness: the ciphertext (R478). -/
opaque encapsulate : List Byte → Word64 → List Byte

/-- A signature by the identity key (R472). -/
opaque sign : List Byte → List Byte

/-- The certificate chain of slot 0 (R474), its digest, and the KEM certificate. -/
opaque certChain : List Byte
opaque certDigest : List Byte
opaque kemCert : List Byte

/-- Measurement digests of the boot ROM, of the gatehouse firmware of a security version and of a Gaold image (R479). -/
opaque romDigest : List Byte
opaque gateDigest : BitVec 8 → List Byte
opaque imageDigest : Word32 → List Byte

/-- DETAIL word 2 of DIE_HALF_RESET for what started it: 1 a supply dip, 2 loss of VCORE or of its regulator, 3 POWER (R507, R520). -/
opaque halfStarter : Nat → BitVec 32

/-- Power in mW of a busy core of a kernel class at a divisor, what the class gains from the next step up, leakage of a half at a
divisor, and power in mW of a fixed rail that has not reported, as the cap controller has learned them by the given draw (R547). -/
opaque busyPower : Nat → Nat → Nat → Nat
opaque stepGain : Nat → Nat → Nat → Nat
opaque leakage : Nat → Nat → Nat → Nat
opaque railPower : Nat → Nat → Nat

/-- The coefficients that a least-squares fit to the last 500 valid intervals gives, at the given draw, by the event's place (R546). -/
opaque fitted : Nat → Nat → Nat

/-- The verification of an image's bytes: its signatures and digests (R588, R589). -/
opaque imageVerified : List Byte → Bool

/-- The row of the mesh at which a unit that is a stop of its half's outer edge stands, by its location code (R232). -/
opaque stopRow : Nat → Nat

/-- Location code of the core that holds an index of a span member on another package, as its senders know it: package, span, index
(R238). -/
opaque memberLoc : Nat → Nat → Nat → BitVec 16

/-- Location code of the unit of another package that has a stream id: package, stream (R238, R239). -/
opaque sourceLoc : Nat → Nat → BitVec 16

end Sys2Proof.Config
end

