-- ==== Sys2Proof/Machine/Bits.lean ====
section
/-! DEFINITION. Bit fields, byte order (little-endian throughout, R10) and the sorted tables and byte memories that
hold everything the package addresses by a number. -/

namespace Sys2Proof.Machine

/-- Bits [hi:lo] of a number (both ends included, R10). -/
def bits (w hi lo : Nat) : Nat := (w >>> lo) % 2 ^ (hi + 1 - lo)

/-- Bit `i` of a number. -/
def bitAt (w i : Nat) : Bool := (w >>> i) % 2 == 1

/-- `w` with bits [hi:lo] replaced by the low bits of `v`. -/
def setBits (w hi lo v : Nat) : Nat :=
  let m := 2 ^ (hi + 1 - lo)
  (w >>> (hi + 1)) <<< (hi + 1) + (v % m) <<< lo + w % 2 ^ lo

/-- A truth value as a bit. -/
def b2n (b : Bool) : Nat := if b then 1 else 0

/-- A field of value `v` placed at bit `lo`. -/
def at' (lo v : Nat) : Nat := v <<< lo

/-- The two's-complement reading of an `n`-bit number. -/
def toSigned (n w : Nat) : Int := if w % 2 ^ n < 2 ^ (n - 1) then (w % 2 ^ n : Nat) else ((w % 2 ^ n : Nat) : Int) - (2 ^ n : Nat)

/-- The `n`-bit two's-complement pattern of an integer. -/
def ofSigned (n : Nat) (x : Int) : Nat := (x % ((2 ^ n : Nat) : Int)).toNat

/-- ⌈a / b⌉. -/
def ceilDiv (a b : Nat) : Nat := if b == 0 then 0 else (a + b - 1) / b

/-- Round `a` up to a multiple of `b`. -/
def roundUp (a b : Nat) : Nat := ceilDiv a b * b

/-- ⌊log2 n⌋ (0 for 0). -/
def log2 (n : Nat) : Nat := n.log2

/-- The number of bits of `w` that are set, among its low `n`. -/
def popcount : Nat → Nat → Nat
  | 0, _ => 0
  | n + 1, w => w % 2 + popcount n (w / 2)

/-- The little-endian number of a list of bytes (R10). -/
def leNat : List Byte → Nat
  | [] => 0
  | b :: bs => b.toNat + 256 * leNat bs

/-- The `n` little-endian bytes of a number (R10). -/
def leBytes : Nat → Nat → List Byte
  | 0, _ => []
  | n + 1, w => BitVec.ofNat 8 w :: leBytes n (w / 256)

/-- The number of a list of 32-bit words, the lowest first. -/
def wordsNat : List Word32 → Nat
  | [] => 0
  | w :: ws => w.toNat + 2 ^ 32 * wordsNat ws

/-- `n` 32-bit words of a number, the lowest first. -/
def natWords : Nat → Nat → List Word32
  | 0, _ => []
  | n + 1, w => BitVec.ofNat 32 w :: natWords n (w / 2 ^ 32)

/-- Sign extension of an immediate to 64 bits (R108). -/
def sext64 (imm : Word32) : Word64 := imm.signExtend 64

/-! ## Tables

A table holds the entries that differ from a default, by number, keys strictly rising. -/

/-- A sparse table: key and value pairs, keys strictly rising. -/
abbrev Tab (α : Type) := List (Nat × α)

/-- The entry at `k`, if one is listed. -/
def Tab.find {α : Type} (k : Nat) : Tab α → Option α
  | [] => none
  | (j, a) :: t => if j == k then some a else Tab.find k t

/-- The entry at `k`, or the default. -/
def Tab.getD {α : Type} (t : Tab α) (k : Nat) (d : α) : α := (Tab.find k t).getD d

/-- Put `a` at `k`, keeping the keys rising. -/
def Tab.put {α : Type} (k : Nat) (a : α) : Tab α → Tab α
  | [] => [(k, a)]
  | (j, b) :: t => if k < j then (k, a) :: (j, b) :: t else if j == k then (k, a) :: t else (j, b) :: Tab.put k a t

/-- Take the entry at `k` out. -/
def Tab.drop {α : Type} (k : Nat) : Tab α → Tab α
  | [] => []
  | (j, b) :: t => if j == k then t else (j, b) :: Tab.drop k t

/-- Apply `f` to the entry at `k` (its default where none is listed) and store the answer. -/
def Tab.mod {α : Type} (t : Tab α) (k : Nat) (d : α) (f : α → α) : Tab α := Tab.put k (f (Tab.getD t k d)) t

/-- Apply `f` to every listed entry. -/
def Tab.mapVals {α : Type} (f : Nat → α → α) (t : Tab α) : Tab α := t.map fun p => (p.1, f p.1 p.2)

/-- Keep the listed entries whose key passes. -/
def Tab.keep {α : Type} (p : Nat → Bool) (t : Tab α) : Tab α := t.filter fun x => p x.1

/-! ## Byte memories

A memory lists (address, byte) pairs, addresses strictly rising, no byte equal to 0, which is what an address with no
entry reads as (notes/assumptions/1.md). Writing 0 removes the entry, so equal memories are equal lists. -/

/-- A byte memory in canonical form. -/
abbrev Mem := List (Nat × Byte)

/-- Every address in the list is above `a`. -/
def Mem.above (a : Nat) (m : Mem) : Bool := m.all fun c => decide (a < c.1)

/-- The canonical form: addresses strictly rising, no listed byte 0. -/
def Mem.wf : Mem → Bool
  | [] => true
  | c :: m => c.2 != 0 && Mem.above c.1 m && Mem.wf m

/-- The byte at an address. -/
def Mem.read (m : Mem) (a : Nat) : Byte :=
  match m with
  | [] => 0
  | c :: t => if c.1 == a then c.2 else Mem.read t a

/-- Write one byte. -/
def Mem.write (m : Mem) (a : Nat) (b : Byte) : Mem :=
  match m with
  | [] => if b == 0 then [] else [(a, b)]
  | c :: t =>
    if a < c.1 then (if b == 0 then c :: t else (a, b) :: c :: t)
    else if c.1 == a then (if b == 0 then t else (a, b) :: t)
    else c :: Mem.write t a b

/-- The `n` bytes from `a` upward. -/
def Mem.readN (m : Mem) (a : Nat) : Nat → List Byte
  | 0 => []
  | n + 1 => Mem.read m a :: Mem.readN m (a + 1) n

/-- Write bytes from `a` upward. -/
def Mem.writeN (m : Mem) (a : Nat) : List Byte → Mem
  | [] => m
  | b :: bs => Mem.writeN (Mem.write m a b) (a + 1) bs

/-- The little-endian number in `n` bytes at `a`. -/
def Mem.readLe (m : Mem) (a n : Nat) : Nat := leNat (Mem.readN m a n)

/-- Write a number as `n` little-endian bytes. -/
def Mem.writeLe (m : Mem) (a n w : Nat) : Mem := Mem.writeN m a (leBytes n w)

/-- Zero every byte of [lo, hi). -/
def Mem.clear (m : Mem) (lo hi : Nat) : Mem := m.filter fun c => decide (c.1 < lo) || decide (hi ≤ c.1)

/-- Move the bytes of [src, src + n) to [dst, dst + n), the source read whole first. -/
def Mem.copy (m : Mem) (src dst n : Nat) : Mem :=
  let moved := (m.filter fun c => decide (src ≤ c.1) && decide (c.1 < src + n))
  moved.foldl (fun acc c => Mem.write acc (c.1 - src + dst) c.2) (Mem.clear m dst (dst + n))

/-! ## Small list helpers -/

/-- Element `i` of a list, or the default. -/
def nthD {α : Type} (l : List α) (i : Nat) (d : α) : α := (l[i]?).getD d

/-- Replace element `i`. -/
def setNth {α : Type} (l : List α) (i : Nat) (a : α) : List α := l.set i a

/-- Add a number to a list without repeats. -/
def addNew (x : Nat) (l : List Nat) : List Nat := if l.contains x then l else l ++ [x]

end Sys2Proof.Machine
end

