-- ==== Sys2Proof/Machine/Num.lean ====
section
/-! DEFINITION. Numbers and element formats (02_anchored_arithmetic.md): exact dyadic values, the one rounding to
nearest even, the format codes of R25, element decoding (R28 to R38) and output conversion (R53 to R56, R63, R64). -/

namespace Sys2Proof.Machine

/-- The value of an element: a NaN, an infinity, or `(-1)^neg * man * 2^exp` exactly. -/
inductive Num where
  | nan
  | inf (neg : Bool)
  | fin (neg : Bool) (man : Nat) (exp : Int)
  deriving DecidableEq, Repr

/-- The arithmetic events that set ASTAT (R57). -/
structure AFlags where
  accSat : Bool := false
  cvtSat : Bool := false
  nanGen : Bool := false
  nanSeen : Bool := false
  tinyZero : Bool := false
  deriving DecidableEq, Repr

/-- Flags are ORed, so their order does not matter (R58). -/
def AFlags.or (a b : AFlags) : AFlags :=
  ⟨a.accSat || b.accSat, a.cvtSat || b.cvtSat, a.nanGen || b.nanGen, a.nanSeen || b.nanSeen, a.tinyZero || b.tinyZero⟩

/-- The ASTAT bits of a set of events (R57). -/
def AFlags.word (a : AFlags) : Word32 :=
  BitVec.ofNat 32 (b2n a.accSat + 2 * b2n a.cvtSat + 4 * b2n a.nanGen + 8 * b2n a.nanSeen + 16 * b2n a.tinyZero)

/-- No event. -/
def AFlags.none : AFlags := {}

namespace Num

/-- Zero of a sign. -/
def zero (neg : Bool) : Num := .fin neg 0 0

/-- Is it a NaN? -/
def isNan : Num → Bool
  | .nan => true
  | _ => false

/-- Is it a finite value other than zero? -/
def isFinNonzero : Num → Bool
  | .fin _ m _ => m != 0
  | _ => false

/-- The exact integer `x`. -/
def ofInt (x : Int) : Num := .fin (decide (x < 0)) x.natAbs 0

/-- ⌊log2 |x|⌋ of a finite nonzero value. -/
def expo : Num → Int
  | .fin _ m e => (m.log2 : Int) + e
  | _ => 0

/-- Times a power of two, exactly. -/
def scale (k : Int) : Num → Num
  | .fin s m e => .fin s m (e + k)
  | x => x

/-- The value with its sign turned. -/
def neg : Num → Num
  | .fin s m e => .fin (!s) m e
  | .inf s => .inf (!s)
  | .nan => .nan

/-- `m * 2^e` as a signed integer of units `2^u`, `u ≤ e`. -/
def units (u : Int) : Num → Int
  | .fin s m e => let v : Int := ((m <<< (e - u).toNat : Nat) : Int); if s then -v else v
  | _ => 0

/-- The exact product and whether a NaN arose from operands that are not NaN (R43). -/
def mul (a b : Num) : Num × Bool :=
  match a, b with
  | .nan, _ => (.nan, false)
  | _, .nan => (.nan, false)
  | .inf s, .inf t => (.inf (s != t), false)
  | .inf s, .fin t m _ => if m == 0 then (.nan, true) else (.inf (s != t), false)
  | .fin t m _, .inf s => if m == 0 then (.nan, true) else (.inf (s != t), false)
  | .fin s m e, .fin t n f => (.fin (s != t) (m * n) (e + f), false)

/-- The exact sum, with the IEEE 754 sign of a zero sum under round to nearest, and whether a NaN arose. -/
def add (a b : Num) : Num × Bool :=
  match a, b with
  | .nan, _ => (.nan, false)
  | _, .nan => (.nan, false)
  | .inf s, .inf t => if s == t then (.inf s, false) else (.nan, true)
  | .inf s, .fin _ _ _ => (.inf s, false)
  | .fin _ _ _, .inf s => (.inf s, false)
  | .fin s m e, .fin t n f =>
    let u := if e < f then e else f
    let v := units u (.fin s m e) + units u (.fin t n f)
    if v == 0 then (.zero (s && t), false) else (.fin (decide (v < 0)) v.natAbs u, false)

/-- Signed order of two values that are not NaN, −0 below +0 (R60). -/
def le (a b : Num) : Bool :=
  match a, b with
  | .nan, _ => false
  | _, .nan => false
  | .inf s, .inf t => s || !t
  | .inf s, .fin _ _ _ => s
  | .fin _ _ _, .inf t => !t
  | .fin s m e, .fin t n f =>
    let u := if e < f then e else f
    let x := units u (.fin s m e); let y := units u (.fin t n f)
    if x == 0 && y == 0 then s || !t else decide (x ≤ y)

end Num

/-- `m * 2^e` rounded to the nearest integer, ties to even. -/
def rne (m : Nat) (e : Int) : Nat :=
  if 0 ≤ e then m <<< e.toNat
  else
    let k := (-e).toNat
    if k > m.log2 + 2 then 0
    else
      let q := m >>> k
      let r := m - q <<< k
      let half := 2 ^ (k - 1)
      if r > half || (r == half && q % 2 == 1) then q + 1 else q

/-- The parameters of a floating-point element format (R28). -/
structure FpFmt where
  /-- bits of storage -/
  width : Nat
  /-- mantissa bits -/
  mb : Nat
  /-- exponent of the smallest normal -/
  emin : Int
  /-- code of the largest finite value -/
  maxCode : Nat
  /-- code of +∞, if the format has one -/
  infCode : Option Nat
  /-- code of the canonical NaN (R53), if the format has one -/
  nanCode : Option Nat
  deriving DecidableEq, Repr

def fp32 : FpFmt := ⟨32, 23, -126, 0x7F7FFFFF, some 0x7F800000, some 0x7FC00000⟩
def bf16 : FpFmt := ⟨16, 7, -126, 0x7F7F, some 0x7F80, some 0x7FC0⟩
def fp16 : FpFmt := ⟨16, 10, -14, 0x7BFF, some 0x7C00, some 0x7E00⟩
def e5m2 : FpFmt := ⟨8, 2, -14, 0x7B, some 0x7C, some 0x7E⟩
def e4m3 : FpFmt := ⟨8, 3, -6, 0x7E, none, some 0x7F⟩
def e3m2 : FpFmt := ⟨6, 2, -2, 0x1F, none, none⟩
def e2m3 : FpFmt := ⟨6, 3, 0, 0x1F, none, none⟩
def e2m1 : FpFmt := ⟨4, 1, 0, 0x7, none, none⟩

/-- The value a code has in a floating-point format (R28); subnormals are honoured (R30). -/
def FpFmt.decode (f : FpFmt) (code : Nat) : Num :=
  let top := 2 ^ (f.width - 1)
  let neg := code % (2 * top) ≥ top
  let mag := code % top
  match f.infCode with
  | some i => if mag == i then .inf neg else if mag > i then .nan else fin neg mag
  | none => if f.nanCode.isSome && mag > f.maxCode then .nan else fin neg mag
where
  fin (neg : Bool) (mag : Nat) : Num :=
    let ef := mag / 2 ^ f.mb
    let mf := mag % 2 ^ f.mb
    if ef == 0 then (if mf == 0 then .zero neg else .fin neg mf (f.emin - f.mb))
    else .fin neg (2 ^ f.mb + mf) ((ef : Int) - 1 + f.emin - f.mb)

/-- The sign bit of a format. -/
def FpFmt.sign (f : FpFmt) (neg : Bool) : Nat := if neg then 2 ^ (f.width - 1) else 0

/-- The exponent of the unit in the last place at a magnitude of exponent `k` (the spacing of sr_convert, R64). -/
def FpFmt.ulpExp (f : FpFmt) (k : Int) : Int := (if k < f.emin then f.emin else k) - f.mb

/-- The magnitude code of `q` units of `2^u`. -/
def FpFmt.magCode (f : FpFmt) (q : Nat) (u : Int) : Nat := (u - (f.emin - f.mb)).toNat * 2 ^ f.mb + q

/-- The magnitude code of a finite magnitude rounded to nearest even with an unbounded exponent; it exceeds `maxCode`
exactly where the rounded magnitude lies beyond the largest finite value. -/
def FpFmt.roundMag (f : FpFmt) (m : Nat) (e : Int) : Nat :=
  if m == 0 then 0
  else
    let u := f.ulpExp ((m.log2 : Int) + e)
    f.magCode (rne m (e - u)) u

/-- FP32 arithmetic result: overflow gives ±∞ (R59). -/
def f32Round : Num → Nat
  | .nan => 0x7FC00000
  | .inf s => fp32.sign s + 0x7F800000
  | .fin s m e => let c := fp32.roundMag m e; fp32.sign s + (if c > 0x7F7FFFFF then 0x7F800000 else c)

/-- The FP32 value of a pattern. -/
def f32 (c : Nat) : Num := fp32.decode c

/-- Conversion of a value to a floating-point format (R53, R55). NAN_SEEN is the caller's, since it depends on where
the NaN came from (R54). -/
def FpFmt.convert (f : FpFmt) : Num → Nat × AFlags
  | .nan => (f.nanCode.getD 0, .none)
  | .inf s =>
    match f.infCode with
    | some i => (f.sign s + i, .none)
    | none => (f.sign s + f.maxCode, { cvtSat := true })
  | .fin s m e =>
    let c := f.roundMag m e
    if c > f.maxCode then (f.sign s + f.maxCode, { cvtSat := true })
    else (f.sign s + c, { tinyZero := m != 0 && c == 0 })

/-- Conversion of a value to a two's-complement integer of `n` bits with limits `lo` and `hi` (R53, R55, R56). -/
def convertInt (n : Nat) (lo hi : Int) : Num → Nat × AFlags
  | .nan => (0, .none)
  | .inf s => (ofSigned n (if s then lo else hi), { cvtSat := true })
  | .fin s m e =>
    let q : Int := ((rne m e : Nat) : Int)
    let v := if s then -q else q
    if v > hi then (ofSigned n hi, { cvtSat := true })
    else if v < lo then (ofSigned n lo, { cvtSat := true })
    else (ofSigned n v, { tinyZero := m != 0 && v == 0 })

/-- The mixing function of stochastic rounding (R64). -/
def mix64 (z : Word64) : Word64 :=
  let z := z + 0x9E3779B97F4A7C15#64
  let z := (z ^^^ (z >>> 30)) * 0xBF58476D1CE4E5B9#64
  let z := (z ^^^ (z >>> 27)) * 0x94D049BB133111EB#64
  z ^^^ (z >>> 31)

/-- Stochastic rounding of a value with the draw `r` in [0, 65535] (R64, sr_convert). -/
def FpFmt.srConvert (f : FpFmt) (r : Nat) : Num → Nat × AFlags
  | .fin s m e =>
    if m == 0 then (f.sign s, .none)
    else
      let u := f.ulpExp ((m.log2 : Int) + e)
      let t := let d := e - u + 16; if 0 ≤ d then m <<< d.toNat else m >>> (-d).toNat
      let q := if t % 65536 > r then t / 65536 + 1 else t / 65536
      let c := f.magCode q u
      if c > f.maxCode then (f.sign s + f.maxCode, { cvtSat := true })
      else (f.sign s + c, { tinyZero := c == 0 })
  | x => f.convert x

/-! ## Format codes -/

/-- The element formats (R25). -/
inductive Fmt where
  | int8 | int4 | e4m3 | e5m2 | mxE4m3 | mxE5m2 | mxE3m2 | mxE2m3 | mxE2m1 | mxInt8 | bf16 | fp16 | fp32 | int32
  | cb4 | cb2v | acc
  deriving DecidableEq, Repr

namespace Fmt

/-- The format of a code; codes 0x11 to 0x1F are undefined (R25, R26). -/
def ofCode : Nat → Option Fmt
  | 0x00 => some .int8 | 0x01 => some .int4 | 0x02 => some .e4m3 | 0x03 => some .e5m2
  | 0x04 => some .mxE4m3 | 0x05 => some .mxE5m2 | 0x06 => some .mxE3m2 | 0x07 => some .mxE2m3
  | 0x08 => some .mxE2m1 | 0x09 => some .mxInt8 | 0x0A => some .bf16 | 0x0B => some .fp16
  | 0x0C => some .fp32 | 0x0D => some .int32 | 0x0E => some .cb4 | 0x0F => some .cb2v | 0x10 => some .acc
  | _ => none

/-- The code of a format (R25). -/
def code : Fmt → Nat
  | .int8 => 0x00 | .int4 => 0x01 | .e4m3 => 0x02 | .e5m2 => 0x03 | .mxE4m3 => 0x04 | .mxE5m2 => 0x05
  | .mxE3m2 => 0x06 | .mxE2m3 => 0x07 | .mxE2m1 => 0x08 | .mxInt8 => 0x09 | .bf16 => 0x0A | .fp16 => 0x0B
  | .fp32 => 0x0C | .int32 => 0x0D | .cb4 => 0x0E | .cb2v => 0x0F | .acc => 0x10

/-- Accepted as a tensor weight operand (R25). -/
def weightOk : Fmt → Bool
  | .fp32 | .int32 | .acc => false
  | _ => true

/-- Accepted as a tensor activation operand (R25). -/
def actOk : Fmt → Bool
  | .fp32 | .int32 | .cb4 | .cb2v | .acc => false
  | _ => true

/-- Accepted as a tensor output (R25). -/
def tensorOut : Fmt → Bool
  | .int8 | .e4m3 | .e5m2 | .bf16 | .fp16 | .fp32 | .int32 | .acc => true
  | _ => false

/-- Accepted as vector input and output (R25). -/
def vectorOk : Fmt → Bool
  | .bf16 | .fp16 | .fp32 => true
  | _ => false

/-- Accepted as a TCVT source (R25). -/
def cvtSrc : Fmt → Bool
  | .cb4 | .cb2v => false
  | _ => true

/-- Accepted as a TCVT destination (R25). -/
def cvtDst : Fmt → Bool
  | .cb4 | .cb2v | .acc => false
  | _ => true

/-- The MX formats (R32). -/
def isMx : Fmt → Bool
  | .mxE4m3 | .mxE5m2 | .mxE3m2 | .mxE2m3 | .mxE2m1 | .mxInt8 => true
  | _ => false

/-- Bits of one element, its block scale apart (R25). -/
def elemBits : Fmt → Nat
  | .int4 | .mxE2m1 | .cb4 => 4
  | .mxE3m2 | .mxE2m3 => 6
  | .bf16 | .fp16 => 16
  | .fp32 | .int32 => 32
  | .acc => 256
  | .cb2v => 2
  | _ => 8

/-- STRIDE0 must be 1 for formats of fewer than 8 bits, MX formats, CB4, CB2V and ACC (R114). -/
def dense (f : Fmt) : Bool := f.isMx || f == .int4 || f == .cb4 || f == .cb2v || f == .acc

/-- The floating-point format of an element, for the formats whose elements are floating point. -/
def fp? : Fmt → Option FpFmt
  | .e4m3 | .mxE4m3 | .cb4 | .cb2v => some Machine.e4m3
  | .e5m2 | .mxE5m2 => some Machine.e5m2
  | .mxE3m2 => some Machine.e3m2
  | .mxE2m3 => some Machine.e2m3
  | .mxE2m1 => some Machine.e2m1
  | .bf16 => some Machine.bf16
  | .fp16 => some Machine.fp16
  | .fp32 => some Machine.fp32
  | _ => none

/-- EMAX of R56. -/
def emax : Fmt → Int
  | .mxE4m3 => 8 | .mxE5m2 => 15 | .mxE3m2 => 4 | .mxE2m3 => 2 | .mxE2m1 => 2
  | _ => 0

/-- Bytes of a full MX segment of 16 blocks: 528, 400 or 272 (R33). -/
def mxSegment (f : Fmt) : Nat := 16 + 64 * f.elemBits

/-- Byte length of a row of `e0` elements (R31, R33, R36, R37, R114). An MX or CB4 row counts
its whole blocks alone: DESIGN CHOICE, log 89. -/
def rowBytes (f : Fmt) (e0 stride0 : Nat) : Nat :=
  match f with
  | .cb4 => e0 / 256 * 144
  | .cb2v => ceilDiv e0 1024 * 17408
  | .int4 => ceilDiv e0 2
  | .int8 | .e4m3 | .e5m2 => (e0 - 1) * stride0 + 1
  | .bf16 | .fp16 => (e0 - 1) * stride0 * 2 + 2
  | .fp32 | .int32 => (e0 - 1) * stride0 * 4 + 4
  | .acc => (e0 - 1) * stride0 * 32 + 32
  | _ =>
    let blocks := e0 / 32
    blocks / 16 * f.mxSegment + (if blocks % 16 == 0 then 0 else 16 + blocks % 16 * 4 * f.elemBits)

end Fmt

/-! ## Elements in a row of bytes -/

/-- Bytes are read through a function from an offset in the operand. -/
abbrev Rd := Nat → Byte

/-- `w` bits (w ≤ 8) at bit `i*w` from byte `base`, packed from the least significant bit up (R31). -/
def packedBits (rd : Rd) (base w i : Nat) : Nat :=
  let b := i * w
  ((rd (base + b / 8)).toNat + 256 * (rd (base + b / 8 + 1)).toNat) >>> (b % 8) % 2 ^ w

/-- The byte in a row that starts the segment of block `b`, and the block's place in it (R33). -/
def mxPlace (f : Fmt) (b : Nat) : Nat × Nat := (b / 16 * f.mxSegment, b % 16)

/-- The element value a code has in a format that is neither MX nor a codebook. -/
def plainValue (f : Fmt) (code : Nat) : Num :=
  match f with
  | .int8 => .ofInt (toSigned 8 code)
  | .int4 => .ofInt (toSigned 4 code)
  | .int32 => .ofInt (toSigned 32 code)
  | .mxInt8 => .scale (-6) (.ofInt (toSigned 8 code))
  | _ => match f.fp? with | some p => p.decode code | none => .nan

/-- Element `i` of the row that starts at offset `row` (every format but CB2V and ACC). A value, with block scale or
codebook applied exactly (R29 to R36, R38). -/
def rowElem (f : Fmt) (rd : Rd) (row stride0 i : Nat) : Num :=
  match f with
  | .cb4 =>
    let r := row + i / 256 * 144
    let idx := packedBits rd (r + 16) 4 (i % 256)
    e4m3.decode (rd (r + idx)).toNat
  | .int4 => plainValue .int4 (packedBits rd row 4 i)
  | .int8 | .e4m3 | .e5m2 => plainValue f (rd (row + i * stride0)).toNat
  | .bf16 | .fp16 =>
    let a := row + i * stride0 * 2
    plainValue f ((rd a).toNat + 256 * (rd (a + 1)).toNat)
  | .fp32 | .int32 =>
    let a := row + i * stride0 * 4
    plainValue f ((rd a).toNat + 256 * (rd (a + 1)).toNat + 65536 * (rd (a + 2)).toNat + 16777216 * (rd (a + 3)).toNat)
  | .cb2v | .acc => .nan
  | _ =>
    let p := mxPlace f (i / 32)
    let x := (rd (row + p.1 + p.2)).toNat
    let v := plainValue f (packedBits rd (row + p.1 + 16) f.elemBits (i % 512))
    if x == 0xFF then .nan else .scale ((x : Int) - 127) v

/-- Element of a CB2V operand: weight row `n`, reduction column `k` (R37, R114). -/
def cb2vElem (rd : Rd) (stride1 n k : Nat) : Num :=
  let r := n / 64 * stride1 + k / 1024 * 17408
  let v := (rd (r + 1024 + 256 * (n % 64) + k % 1024 / 4)).toNat
  e4m3.decode (rd (r + 4 * v + k % 4)).toNat

/-- Element (row `n`, column `k`) of an operand of any value format. -/
def tileElem (f : Fmt) (rd : Rd) (stride1 stride0 n k : Nat) : Num :=
  if f == .cb2v then cb2vElem rd stride1 n k else rowElem f rd (n * stride1) stride0 k

/-! ## Writing a row -/

/-- The code and flags of a value in a format that is not MX (R53, R55). -/
def convertPlain (f : Fmt) (v : Num) : Nat × AFlags :=
  match f with
  | .int8 => convertInt 8 (-128) 127 v
  | .int4 => convertInt 4 (-8) 7 v
  | .int32 => convertInt 32 (-2147483648) 2147483647 v
  | _ => match f.fp? with | some p => p.convert v | none => (0, .none)

/-- Pack codes of `w` bits into bytes from the least significant bit up (R31). -/
def packCodes (w : Nat) (codes : List Nat) : List Byte :=
  let n := codes.foldr (fun c acc => c % 2 ^ w + 2 ^ w * acc) 0
  leBytes (ceilDiv (w * codes.length) 8) n

/-- The largest magnitude exponent ⌊log2 amax⌋ among finite nonzero values. -/
def maxExpo : List Num → Option Int
  | [] => none
  | v :: vs =>
    match maxExpo vs with
    | none => if v.isFinNonzero then some v.expo else none
    | some m => if v.isFinNonzero && decide (m < v.expo) then some v.expo else some m

/-- One MX block (R56): its scale byte, its element codes and its events. A block of zeros has codes 0, whatever their signs (DESIGN CHOICE,
notes/assumptions/89.md). -/
def mxBlock (f : Fmt) (vs : List Num) : Nat × List Nat × AFlags :=
  let anyNan := vs.any Num.isNan
  let anyInf := vs.any fun v => match v with | .inf _ => true | _ => false
  if anyNan || anyInf then (0xFF, vs.map fun _ => 0, { nanGen := anyInf, nanSeen := anyNan })
  else
    match maxExpo vs with
    | none => (0, vs.map fun _ => 0, .none)
    | some k =>
      let x0 := k - f.emax
      let x := (if x0 < -127 then -127 else if x0 > 127 then 127 else x0) + 127
      let one := fun (v : Num) =>
        if f == .mxInt8 then convertInt 8 (-127) 127 (.scale (133 - x) v)
        else match f.fp? with | some p => p.convert (.scale (127 - x) v) | none => (0, .none)
      (x.toNat, vs.map fun v => (one v).1, (vs.map fun v => (one v).2).foldl AFlags.or .none)

/-- Split a list into pieces of `n`; `fuel` bounds the pieces. -/
def chunks {α : Type} (n : Nat) : Nat → List α → List (List α)
  | 0, _ => []
  | fuel + 1, l => if l.isEmpty then [] else l.take n :: chunks n fuel (l.drop n)

/-- The bytes of a dense MX row and its events; unused scale bytes are 0x00 (R33). -/
def mxRow (f : Fmt) (vs : List Num) : List Byte × AFlags :=
  let seg := fun (s : List Num) =>
    let bs := (chunks 32 16 s).map (mxBlock f)
    let scales := bs.map fun b => BitVec.ofNat 8 b.1
    (scales ++ List.replicate (16 - scales.length) 0 ++ packCodes f.elemBits (bs.flatMap fun b => b.2.1),
      (bs.map fun b => b.2.2).foldl AFlags.or .none)
  let ss := (chunks 512 (vs.length + 1) vs).map seg
  (ss.flatMap Prod.fst, (ss.map Prod.snd).foldl AFlags.or .none)

end Sys2Proof.Machine
end

