-- ==== Sys2Proof/Machine/Acc.lean ====
section
/-! DEFINITION. Anchored accumulation (R42 to R49, R51): ACC elements, adding products, merging, the final value. -/

namespace Sys2Proof.Machine

/-- One ACC element (R49). -/
structure Acc where
  /-- sum in grid units, 160-bit two's complement -/
  sum : BitVec 160 := 0
  /-- products accumulated -/
  count : BitVec 32 := 0
  /-- anchor A, 10-bit two's complement -/
  anchor : BitVec 10 := 0
  sat : Bool := false
  nan : Bool := false
  pinf : Bool := false
  ninf : Bool := false
  /-- the anchor is the engine's (R51) -/
  auto : Bool := false
  deriving DecidableEq, Repr

namespace Acc

/-- ANCHOR of an AUTO element whose anchor is not yet chosen (R49, R51). -/
def unchosen : BitVec 10 := 0x200

/-- An AUTO element with no anchor chosen, which holds S = 0 (R51). A fixed element of anchor −512 that became AUTO keeps
its sum on that anchor; one whose S is 0 is taken as having no anchor chosen (DESIGN CHOICE, notes/assumptions/70.md). -/
def open? (a : Acc) : Bool := a.auto && a.anchor == unchosen && a.sum == 0

/-- A cleared element that takes the anchor of a descriptor (R42, R51). -/
def fresh (auto : Bool) (anchor : BitVec 10) : Acc := if auto then { auto := true, anchor := unchosen } else { anchor := anchor }

/-- The 256 bits of an element (R49). -/
def pack (a : Acc) : Nat :=
  a.sum.toNat + a.count.toNat <<< 160 + a.anchor.toNat <<< 192 + b2n a.sat <<< 202 + b2n a.nan <<< 203 + b2n a.pinf <<< 204
    + b2n a.ninf <<< 205 + b2n a.auto <<< 206

/-- The element in 256 bits; reserved bits are ignored (R49). -/
def unpack (w : Nat) : Acc :=
  ⟨BitVec.ofNat 160 w, BitVec.ofNat 32 (w >>> 160), BitVec.ofNat 10 (w >>> 192), bitAt w 202, bitAt w 203, bitAt w 204,
    bitAt w 205, bitAt w 206⟩

/-- The 32 bytes of an element in memory (R49, R10). -/
def bytes (a : Acc) : List Byte := leBytes 32 a.pack

/-- Exact shift of a sum right by `k` bits, rounded once to nearest even (R51). -/
def shiftRne (s : BitVec 160) (k : Nat) : BitVec 160 :=
  let v := s.toInt
  let q : Int := ((rne v.natAbs (-(k : Int)) : Nat) : Int)
  BitVec.ofInt 160 (if v < 0 then -q else q)

/-- Raise the anchor to `b`, where it is lower, shifting S (R51). -/
def raise (a : Acc) (b : Int) : Acc :=
  let d := b - a.anchor.toInt
  if d ≤ 0 then a else { a with anchor := BitVec.ofInt 10 b, sum := shiftRne a.sum d.toNat }

/-- The count is full: another product raises ACC_COUNT_LIMIT (R45). -/
def full (a : Acc) : Bool := a.count == 0xFFFFFFFF#32

/-- |p| > 2^(A+24) (R51). -/
def exceeds (a : Acc) (p : Num) : Bool :=
  match p with
  | .fin _ m e => m != 0 && (let k := (m.log2 : Int) + e; k > a.anchor.toInt + 24 || (k == a.anchor.toInt + 24 && m != 2 ^ m.log2))
  | _ => false

/-- Add one product (acc_add of R48). The count check is the caller's. -/
def addProduct (a0 : Acc) (p : Num) : Acc :=
  let a := if a0.auto && !a0.open? && a0.exceeds p then a0.raise (p.expo - 23) else a0
  let a := { a with count := a.count + 1 }
  match p with
  | .nan => { a with nan := true }
  | .inf false => { a with pinf := true }
  | .inf true => { a with ninf := true }
  | .fin s m e =>
    if m == 0 then a
    else
      let q : Int := ((rne m (e + 96 - a.anchor.toInt) : Nat) : Int)
      let v := if s then -q else q
      if v > 2 ^ 127 - 1 then { a with sum := a.sum + BitVec.ofInt 160 (2 ^ 127 - 1), sat := true }
      else if v < -(2 ^ 127) then { a with sum := a.sum + BitVec.ofInt 160 (-(2 ^ 127)), sat := true }
      else { a with sum := a.sum + BitVec.ofInt 160 v }

/-- Choose the anchor of an open AUTO element from the products one TMM adds (R51). -/
def choose (a : Acc) (ps : List Num) : Acc :=
  if a.open? then
    match maxExpo ps with
    | none => a
    | some e => { a with anchor := BitVec.ofInt 10 (e - 23) }
  else a

/-- Add the products of one instruction. `none` where the count would pass 2^32 − 1 (ACC_COUNT_LIMIT, R45). An AUTO element
takes them by ascending index and raises as it goes, an order the spec does not give (DESIGN CHOICE, notes/assumptions/70.md). -/
def addAll (a : Acc) (ps : List Num) : Option Acc :=
  if a.count.toNat + ps.length > 0xFFFFFFFF then none else some (ps.foldl addProduct (a.choose ps))

/-- Two fixed anchors that differ (R48). -/
def mismatch (x y : Acc) : Bool := !x.auto && !y.auto && x.anchor != y.anchor

/-- The combined count passes 2^32 − 1 (R48). -/
def overCount (x y : Acc) : Bool := decide (x.count.toNat + y.count.toNat > 0xFFFFFFFF)

/-- acc_merge of R48 and R51, for elements that neither mismatch nor pass the count limit. -/
def merge (x y : Acc) : Acc :=
  let p : Acc × Acc :=
    if x.open? then ({ x with anchor := y.anchor }, y)
    else if y.open? then (x, { y with anchor := x.anchor })
    else (x.raise y.anchor.toInt, y.raise x.anchor.toInt)
  let auto := x.auto || y.auto
  { sum := p.1.sum + p.2.sum, count := x.count + y.count
    anchor := if x.open? && y.open? then unchosen else p.1.anchor
    sat := x.sat || y.sat, nan := x.nan || y.nan, pinf := x.pinf || y.pinf, ninf := x.ninf || y.ninf, auto := auto }

/-- The final clamp of R47 changes the sum. -/
def clamps (a : Acc) : Bool :=
  !a.nan && !a.pinf && !a.ninf && !a.open? && (decide (a.sum.toInt > 2 ^ 127 - 1) || decide (a.sum.toInt < -(2 ^ 127)))

/-- The final value (R47) and whether a NaN arose from both infinities. An element with no anchor chosen has S = 0. One with
NAN set and both infinities too is the former case of R47 and sets no NAN_GEN (DESIGN CHOICE, notes/assumptions/70.md). -/
def final (a : Acc) : Num × Bool :=
  if a.nan then (.nan, false)
  else if a.pinf && a.ninf then (.nan, true)
  else if a.pinf then (.inf false, false)
  else if a.ninf then (.inf true, false)
  else if a.open? then (.zero false, false)
  else
    let v := a.sum.toInt
    let v := if v > 2 ^ 127 - 1 then 2 ^ 127 - 1 else if v < -(2 ^ 127) then -(2 ^ 127) else v
    if v == 0 then (.zero false, false) else (.fin (decide (v < 0)) v.natAbs (a.anchor.toInt - 96), false)

/-- The element as a conversion leaves it: a final clamp sets SAT (R47; notes/assumptions/10.md). -/
def afterFinal (a : Acc) : Acc := { a with sat := a.sat || a.clamps }

/-- The events of converting an element (R54, R57), its rounding apart. -/
def finalFlags (a : Acc) : AFlags := { accSat := a.sat || a.clamps, nanGen := a.final.2, nanSeen := a.nan }

end Acc

/-- The ACC element at offset `o` of an operand. -/
def accAt (rd : Rd) (o : Nat) : Acc := .unpack (leNat ((List.range 32).map fun i => rd (o + i)))

end Sys2Proof.Machine
end

