-- ==== Sys2Proof/Machine/State.lean ====
section
/-! DEFINITION. The state of the package as plain data. Tables list only the units that differ from their reset state;
an unlisted unit reads as its default. Quantities that the manual gives a register are computed from these fields by
the register views (Registers.lean). -/

namespace Sys2Proof.Machine

/-- Why a command stops the model. -/
inductive Fault where
  /-- Raised by every command that names a unit outside the package's ranges (a core of 1,088 or more, a strand of
  2,048 or more, a port of 16 or more, ...). The spec says no such unit exists (R11). Safe. -/
  | noSuchUnit
  deriving DecidableEq, Repr

/-- Why a command has no meaning. -/
inductive Refusal where
  /-- Raised by the arm of a command that has no meaning yet. Safe. -/
  | notModelled (mnemonic : String)
  deriving DecidableEq, Repr

/-! ## Cores and strands (03, 04) -/

/-- A tile descriptor slot (R112), 256 bits. -/
abbrev Desc := BitVec 256

/-- The state of a strand (R72). -/
inductive Mode where
  | free | ready | waiting | runAhead
  deriving DecidableEq, Repr

/-- Why a strand waits (R77): the wait reason of R72. -/
inductive Wait where
  /-- not waiting -/
  | none
  /-- an instruction-cache miss of an instruction of `len` bytes at its PC -/
  | icache (len : Nat)
  /-- operands of these in-flight tile instructions of the strand, by number (R79, R119) -/
  | operand (nums : List Nat)
  /-- a full in-flight limit (R78) -/
  | inflight
  /-- a translation fault of one of its tile instructions (R150) -/
  | transl
  /-- a translation fault of its own fetch of an instruction of `len` bytes (R106) -/
  | fetch (len : Nat)
  /-- the TRECV of this number, not yet satisfied (R77, R140) -/
  | recv (num : Nat)
  /-- TWAIT FN 0 on a mask of tags -/
  | tags (mask : BitVec 16)
  /-- TWAIT FN 1: condition code, scratch word, comparand (R145) -/
  | word (cond : Nat) (offset : Nat) (value : Word64)
  /-- TBAR b (R144) -/
  | barrier (b : Nat)
  /-- TCOMMIT n (R146) -/
  | commit (n : Word64)
  /-- FENCE FN (R124) -/
  | fence (fn : Nat)
  /-- SPAWN with no FREE strand (R74) -/
  | spawn
  /-- EXIT with instructions not yet completed (R75) -/
  | exit
  /-- a halted host channel (R430) -/
  | host
  /-- stopped by a PEER_RESET release (R148) -/
  | peerReset
  /-- stopped by a kill, until its reset tick (R151) -/
  | killed
  deriving DecidableEq, Repr

/-- How far an in-flight tile instruction is (R78, R128). -/
inductive Prog where
  /-- its next tile waits for a translation fault of this page -/
  | faulted (page : Word64)
  /-- its next tile waits for a halted host channel -/
  | hostWait
  /-- its next tile waits for host memory data at an IOVA -/
  | hostRead (iova : Word64)
  /-- its next tile can be translated -/
  | pending
  /-- RETRY translates its next tile whole again (R208) -/
  | retry
  /-- its shadow buffer is being promoted: it moves no bytes (R96) -/
  | promoting
  /-- its next tile waits for another package's answer to a window request -/
  | remote
  /-- its next tile waits for the promotion of this shadow buffer (R96) -/
  | promote (buf : Nat)
  /-- posted and not yet matched (TSEND, TRECV) -/
  | posted
  /-- waits for its engine, which another compute instruction of the core keeps (R69) -/
  | queued
  /-- every byte has moved -/
  | moved
  deriving DecidableEq, Repr

/-- Where a page of an operand lies once resolved. -/
inductive PageLoc where
  /-- channel-set address of the page in a pavilion's own channel set -/
  | bed (p cs : Nat)
  /-- the IOVA of the page, sealed or not -/
  | host (iova : Nat) (sealed : Bool)
  /-- a page that a window of this package serves, in pavilion `p`'s channel set; `addr` in the form of a WINDOW BASE -/
  | window (p cs addr : Nat)
  /-- a window of another package, or, in replay, of this one -/
  | remote (pkg w page : Nat)
  /-- scratch of a core of another member of the span: rank, member-local index, offset page -/
  | peer (rank core page : Nat)
  /-- the package page -/
  | package
  deriving DecidableEq, Repr

/-- A tile instruction in flight (R78, R116). -/
structure Flight where
  /-- number in order of issue, over all strands -/
  num : Nat := 0
  op : BitVec 8
  f : TileFields
  pc : Word32
  /-- the occurrence number of its address in the kernel (R89) -/
  occ : Nat := 0
  dd : Desc
  ds1 : Desc
  ds2 : Desc
  /-- the value of XS at issue -/
  xs : Word64
  /-- engine that runs it -/
  engine : Nat := 0
  /-- index of its next tile (R128) -/
  tile : Nat := 0
  prog : Prog := .pending
  /-- the pages of its next tile, once translated, while the tile waits for data (R201, R213) -/
  map : Option (Tab PageLoc) := none
  /-- the writes that its window writes sent to the target of a move, from one number up to another: it completes when each is applied
  (R329) -/
  fills : Nat × Nat := (0, 0)
  deriving DecidableEq, Repr

/-- A strand: scalar state (R70), descriptor slots (R71), control fields (R72), instructions in flight (R78). -/
structure Strand where
  mode : Mode := .free
  cls : BitVec 2 := 0
  wait : Wait := .none
  /-- layer index of its kernel (R72) -/
  layer : Nat := 0
  /-- order in which it last became READY (R76) -/
  readyAt : Nat := 0
  pc : Word32 := 0
  astat : Word32 := 0
  src : Word64 := 0
  s0 : Word64 := 0
  s1 : Word64 := 0
  s2 : Word64 := 0
  s3 : Word64 := 0
  s4 : Word64 := 0
  s5 : Word64 := 0
  descs : List Desc := List.replicate 8 0
  /-- occurrence counters by instruction address (R72) -/
  occ : Tab Nat := []
  /-- tile instructions in flight, oldest first -/
  flights : List Flight := []
  /-- addresses of instructions that have stood at an unresolved predicate (R89) -/
  predicates : List Nat := []
  /-- tile instructions issued so far (R98) -/
  issued : Nat := 0
  deriving DecidableEq, Repr

/-- An accumulator slot that holds something (R67, R68, R133): shape and elements, m major. -/
structure Slot where
  n : Nat
  m : Nat
  elems : List Acc
  /-- it holds an uncorrectable error (R175) -/
  hurt : Bool := false
  deriving DecidableEq, Repr

/-- A speculative load that a run-ahead walk issues: the instruction address, its occurrence and its resolved
descriptors (R89 to R91, R96). -/
structure SpecLoad where
  pc : Word32
  occ : Nat
  op : BitVec 8
  dst : Desc
  src : Desc
  src2 : Desc := 0
  deriving DecidableEq, Repr

/-- A shadow buffer in use (R88, R96). -/
structure Shadow where
  strand : Nat
  load : SpecLoad
  /-- rows of the source that it reads (R91, R130) -/
  rows : List Nat := []
  /-- tile instructions the strand had issued at the predicate (R98) -/
  base : Nat := 0
  /-- an instruction in flight has matched it and waits for its promotion (R96) -/
  matched : Bool := false
  /-- the load has completed -/
  complete : Bool := false
  /-- the episode that took it is still open -/
  openEpisode : Bool := true
  /-- its rows hold an uncorrectable error (R175) -/
  hurt : Bool := false
  deriving DecidableEq, Repr

/-- A predictor entry (R89). -/
structure Pred where
  strand : Nat
  layer : Nat
  pc : Nat
  occ : Nat
  value : Word64
  deriving DecidableEq, Repr

/-- The health of a physical core. -/
inductive Health where
  /-- works -/
  | working
  /-- lost (R517, R518) or gated off after sparing -/
  | dead
  deriving DecidableEq, Repr

/-- A physical core, number cluster × 17 + slot. -/
structure Core where
  /-- the pavilion it is bound to (R66) and its member-local logical index there (R265) -/
  owner : Option (Nat × Nat) := none
  /-- code base of the kernel it runs (R105, R111) -/
  codeBase : Word64 := 0
  /-- a kernel runs on it -/
  running : Bool := false
  slots : Tab Slot := []
  shadows : Tab Shadow := []
  /-- the segment map where it is not the identity: which row of every bank stands behind segment n, and behind row i of
  shadow buffer b at place 384 + 4 b + i (R82, R96) -/
  rowMap : Tab Nat := []
  /-- predictor entries, the most recently used first (at most 1,024) -/
  predictor : List Pred := []
  /-- DVAs of the instruction-cache lines held (64-byte lines, at most 1,024) -/
  icache : List Nat := []
  /-- its local store and shadow rows await zeroing (R155) -/
  zeroing : Bool := false
  health : Health := .working
  /-- spare local-store rows used, by bank (R176) -/
  lsRepairs : Tab Nat := []
  /-- local-store rows with a corrected error, by segment × 64 + bank: its TIME, and that errors have recurred within 24 h (R176) -/
  lsRows : Tab (Word64 × Bool) := []
  deriving DecidableEq, Repr

/-! ## Beds (05) -/

/-- A memory log record (R180, R181). -/
structure MemLog where
  time : Word64
  whereAt : Nat
  kind : Nat
  location : Nat
  deriving DecidableEq, Repr

/-- A channel, by position q (R262): what differs from a channel in order. -/
structure Channel where
  /-- highest temperature the device has reported, as the last report gave it (R171) -/
  celsius : Int := 25
  /-- refresh rate: 1, 2 or 4 times the base rate (R171, R172) -/
  refresh : Nat := 1
  /-- refreshes done -/
  refreshes : Nat := 0
  /-- next line the scrubber reads (R173) -/
  scrubLine : Nat := 0
  /-- a copy to the group's spare runs; lines below the copy point are copied (R178) -/
  copyPoint : Option Nat := none
  /-- the spare stands in this channel's place (R178, R179) -/
  spared : Bool := false
  /-- retired after its group's spare was in use (R179) -/
  retired : Bool := false
  /-- TIMEs of its last corrected errors, the newest first, at most 1,001 (R176) -/
  ceTimes : List Word64 := []
  /-- rows of it that stand in shadows (R176) -/
  rowShadows : List Nat := []
  /-- rows of 2 KiB with a corrected error, and its TIME (R176) -/
  ceRows : Tab Word64 := []
  /-- scale of its shares in force, in 1/1024 (R394) -/
  scale : Nat := 1024
  /-- TIME at which its capacity last changed (R394) -/
  capAt : Word64 := 0
  /-- access slots since the copy and since background traffic were last served (R388, R389) -/
  copySlots : Nat := 0
  backSlots : Nat := 0
  /-- bytes served to urgency-3 streams within the reserve in this window (R391) -/
  reserve : Nat := 0
  /-- deficits of the classes that share slots by weight, by pavilion × 4 + class; 2,048 for SYS traffic (R389) -/
  deficit : Tab Nat := []
  deriving DecidableEq, Repr

/-- The beds and the local stores' bytes. -/
structure Beds where
  /-- bed bytes: channel position q, code block b, byte o of its data at q × 2^33 + 1,024 b + o -/
  mem : Mem := []
  /-- lines (key / 64) that hold an uncorrectable error -/
  badLines : List Nat := []
  /-- lines entered in a bad-line list by a spare copy (R178) -/
  listed : List Nat := []
  channels : Tab Channel := []
  /-- channel frames reported as retiring: q × 2^16 + w (R177) -/
  retiredFrames : List Nat := []
  /-- granules awaiting zeroing: q × 4,096 + g (R284, R286) -/
  zeroGranules : List Nat := []
  /-- local-store bytes: physical core c, offset o at c × 2^25 + o (R82) -/
  ls : Mem := []
  /-- local-store words (key / 8) with an uncorrectable error -/
  lsBad : List Nat := []
  /-- designated spare channel of each populated group, by die × 4 + group (R19) -/
  spares : Tab Nat := []
  ceCount : Word64 := 0
  ueCount : Word64 := 0
  log : List MemLog := []
  deriving DecidableEq, Repr

/-! ## Translation (06) -/

/-- A fault record (R206): what its 512 bits say, its ID being its place in the pavilion's table. -/
structure FaultRec where
  page : Word64
  time : Word64
  cause : Nat
  level : Nat
  access : BitVec 3
  retries : Nat := 0
  /-- 1 OPEN, 2 RESOLVING -/
  st : Nat := 1
  tiles : Nat := 1
  waitCl : Word64 := 0
  waitHm : BitVec 8 := 0
  waitSt : BitVec 4 := 0
  waitMir : Bool := false
  deriving DecidableEq, Repr

/-- A unit that translates: a cluster's, a host mover's, a die's stream engines', the Mirror's (R196). -/
inductive TUnit where
  | cluster (k : Nat)
  | hostMover (n : Nat)
  | streams (die : Nat)
  | mirror
  deriving DecidableEq, Repr

/-- A tile that waits for a page: its unit, its strand (or the stream), and its accesses (R204, R205). -/
structure Waiter where
  tunit : TUnit
  core : Nat := 0
  strand : Nat := 0
  /-- number of the waiting tile instruction; `none` for a fetch or a stream -/
  num : Option Nat := none
  page : Word64
  cause : Nat
  level : Nat
  access : BitVec 3
  /-- a write of the package on the pavilion's behalf: its DVA and bytes, which wait -/
  data : Option (Nat × List Byte) := none
  deriving DecidableEq, Repr

/-- A cached table entry (R197): the pavilion, the level, the DVA's index prefix, the entry. -/
structure TEntry where
  pav : Nat
  level : Nat
  idx : Nat
  entry : Word64
  deriving DecidableEq, Repr

/-! ## Pavilions (08, 09, 16) -/

/-- A posted half of a message (R140). -/
structure Post where
  key : MsgKey
  core : Nat
  strand : Nat
  num : Nat
  deriving DecidableEq, Repr

/-- A held host-bound write (R131, R202): its step (none: not committed), strand, address and bytes. -/
structure Held where
  step : Option Word64 := none
  core : Nat
  strand : Nat
  /-- number of its instruction, in order of issue (R147) -/
  num : Nat := 0
  dva : Word64
  iova : Word64
  sealed : Bool
  bytes : List Byte
  deriving DecidableEq, Repr

/-- A barrier in use (R144, R247, R248): expected count, arrivals not yet released, forwarded counts, release tick. -/
structure Barrier where
  expected : Nat
  /-- (core, strand) of the arrivals of this use -/
  arrived : List (Nat × Nat) := []
  /-- sync nodes that have forwarded, with the arrivals each has gathered -/
  forwarded : Tab Nat := []
  /-- the release tick the root named -/
  tick : Option Word64 := none
  /-- arrivals that belong to the uses after this one, in order, each use with its expected count -/
  later : List (Nat × List (Nat × Nat)) := []
  /-- arrivals that the other members of a span have sent to rank 0, by rank -/
  members : Tab Nat := []
  /-- of the arrivals of this use, how many this member's root has sent to rank 0 -/
  sent : Nat := 0
  /-- arrivals of members at the next use: by rank, how many, and the count that they expect -/
  early : Tab (Nat × Nat) := []
  deriving DecidableEq, Repr

/-- The step commit of a pavilion in progress (R146 to R148, R247, R248). -/
structure Commit where
  step : Word64 := 0
  /-- sync nodes that have forwarded, with the core arrivals each has gathered -/
  forwarded : Tab Nat := []
  tick : Option Word64 := none
  /-- members of a span that have arrived, by rank: for a kernel's end, once for each kernel they have ended -/
  members : List Nat := []
  sent : Bool := false
  /-- arrivals of members that belong to the next step commit, with their steps -/
  early : List (Nat × Word64) := []
  deriving DecidableEq, Repr

/-- A piece of a slice: resident in (core, segment), or being filled there (R158, R162). -/
structure Piece where
  core : Nat
  segment : Nat
  resident : Bool := false
  /-- its bytes are in the segment -/
  written : Bool := false
  deriving DecidableEq, Repr

/-- A loaded slice (R156 to R166). -/
structure Slice where
  home : Word64
  pieces : Nat
  code : Bool := false
  pinned : Bool := false
  /-- the model key the gatehouse released, for a sealed slice, its model, and the DVA of its wrap record (R494) -/
  key : Option (BitVec 256) := none
  model : Word64 := 0
  wrap : Word64 := 0
  lastUse : Word64 := 0
  resident : Tab Piece := []
  /-- a fill is in progress: its next piece -/
  filling : Option Nat := none
  /-- the fill places its pieces singly from this one on (R161) -/
  single : Option Nat := none
  /-- posts that wait for the fill -/
  posts : List Nat := []
  deriving DecidableEq, Repr

/-- An accepted run (R292, R294): Gaold's copy of its tables and how far it is. -/
structure Run where
  /-- mailbox post (Ops.lean, postKey) that holds it; none after RESTORE (R422) -/
  slot : Option Nat
  /-- DVA of its program table (R462) -/
  table : Nat := 0
  first : Nat
  last : Nat
  repeats : Nat
  /-- layer entries FIRST to LAST (R289) -/
  layers : List (BitVec 256)
  /-- kernel entries by index (R290) -/
  kernels : Tab (BitVec 256)
  /-- slice-list entries by index (R291) -/
  slices : Tab Nat
  begun : Bool := false
  iter : Nat := 0
  layer : Nat := 0
  kernel : Nat := 0
  /-- the current kernel has started -/
  started : Bool := false
  /-- slices of the current layer whose fills have neither completed nor stopped -/
  filling : List Nat := []
  /-- suspended by FREEZE (R299) -/
  suspended : Bool := false
  /-- at rank 0 of a span, its number among the accepted RUNs (R367) -/
  no : Nat := 0
  /-- members of the span whose answer whether they accept it has not come, by rank; on another member, 0 until rank 0 has said that
  all accept it (R367) -/
  waiting : List Nat := []
  /-- a run that rank 0 of a span passed to this member: its end is rank 0's to report (R367) -/
  passed : Bool := false
  /-- restored from an image, its table not read yet: `layers`, `kernels` and `slices` are empty, and `kernel` is the kernel table's
  index (R462, R466, R469) -/
  unread : Bool := false
  deriving DecidableEq, Repr

/-- A command that acts on every member of a span (R416): members that have not completed it, this one's completion, and the first
status of a member that is not OK. -/
structure Shared where
  left : List Nat
  own : Option (Nat × List Nat) := none
  status : Nat := 0
  /-- the handle that a MODEL_LOAD gave; 0 for other commands -/
  handle : Nat := 0
  deriving DecidableEq, Repr

/-- A RUN that rank 0 of a span has passed to a member (R367): its number, table DVA, FIRST, LAST and repeat count. -/
structure PassedRun where
  no : Nat
  table : Nat
  first : Nat
  last : Nat
  repeats : Nat
  deriving DecidableEq, Repr

/-- A RUN that waits for table pages from outside the package (R292): its post, the DVA pages obtained and their bytes. -/
structure Accept where
  post : Nat
  /-- a RUN that rank 0 passed to this member (R367) -/
  passed : Option PassedRun := none
  /-- a run that RESTORE put back, whose table is read at the thaw (R469) -/
  restored : Option PassedRun := none
  /-- DVA pages whose holding package refuses or cannot be reached (R293) -/
  refused : List Nat := []
  pages : List Nat := []
  bytes : Mem := []
  deriving DecidableEq, Repr

/-- A pavilion reset in progress (R503, R505). -/
structure Resetting where
  /-- causes joined, first first (R502) -/
  causes : List Nat
  tick : Word64
  /-- step 2 has happened -/
  ticked : Bool := false
  /-- the mailbox slots of the PAV_RESETs that wait -/
  slots : List Nat := []
  oldWinding : Word16 := 0
  oldStep : Word64 := 0
  location : Nat := 0
  /-- sessions restored from protection, and left as they stand (R339, R520) -/
  restored : Nat := 0
  left : Nat := 0
  deriving DecidableEq, Repr

/-- Accounting counters of a pavilion (R445, R448, R452). -/
structure Acct where
  cycles : Word64 := 0
  coreTicks : Word64 := 0
  localBytes : Word64 := 0
  bedBytes : Word64 := 0
  linkBytes : Word64 := 0
  hostBytes : Word64 := 0
  /-- charged energy, in µJ (R452) -/
  energy : Nat := 0
  unreconciled : Word32 := 0
  /-- the counters at the last interval's end: CORE_TICKS, LOCAL, BED, LINK, HOST (R450) -/
  last : List Word64 := [0, 0, 0, 0, 0]
  deriving DecidableEq, Repr

/-- A host-channel key (R424). -/
structure HostKey where
  id : Word32
  key : BitVec 256
  toHost : Bool
  /-- next SEQ of a to-host key (R426) -/
  seq : Word64 := 0
  deriving DecidableEq, Repr

/-- The host channel of a pavilion (R429, R430). -/
structure HostChan where
  halted : Bool := false
  cause : Nat := 0
  dva : Word64 := 0
  keys : List HostKey := []
  deriving DecidableEq, Repr

/-- Per-class regulation state of a pavilion (R386, R395, R398). -/
structure Meter where
  /-- bytes served in the current window, and in the last -/
  served : Nat := 0
  lastServed : Nat := 0
  /-- latencies of the accesses completed in the current window, in 10 ns: their sum and number -/
  latSum : Nat := 0
  latCount : Nat := 0
  /-- their sum and number in the last window, and L and P at its end -/
  lastSum : Nat := 0
  lastCount : Nat := 0
  latency : Nat := 0
  press : Nat := 0
  misses : Nat := 0
  deriving DecidableEq, Repr

/-- Regulation state of a pavilion. -/
structure Reg where
  /-- the 256 B regulation table in force (R381) -/
  table : BitVec 2048 := 0
  /-- meters, by class × 512 + channel -/
  meters : Tab Meter := []
  /-- classes that missed since RG_PAV_STAT was last read -/
  missClasses : BitVec 4 := 0
  /-- classes whose first miss has not been raised yet -/
  missDue : BitVec 4 := 0
  /-- lowest scale of its channels as last seen, in 1/1024 -/
  scale : Nat := 1024
  /-- a change of scale whose event waits for its 1 ms (R396) -/
  shortDue : Bool := false
  deriving DecidableEq, Repr

/-- Span state of a member pavilion (R364 to R375). -/
structure Span where
  /-- 0 none, 1 FORMING, 2 READY, 3 FAULTED -/
  st : Nat := 0
  faultRank : Nat := 0
  /-- packages of the members, by rank, and the member list as read (R362) -/
  members : List Nat := []
  list : Nat := 0
  /-- the entries of the members that have reported up, by rank (R363, R364), and the members that this one has told -/
  told : Tab SpanAnswer := []
  said : List Nat := []
  /-- span winding -/
  winding : Word16 := 0
  /-- at rank 0, the release lead in ticks and the delay of the route to each member in ns (R370) -/
  lead : Nat := 0
  delays : Tab Nat := []
  /-- at rank 0, the firmware versions that each member runs, by rank (R366) -/
  versions : Tab (Word32 × Word32) := []
  /-- at rank 0, the number of its last accepted RUN (R367) -/
  runNo : Nat := 0
  /-- kernels that the span has started since it became READY, and, at rank 0, arrivals of members that have started the next: rank, use,
  count, step or expected count, and kernel (R369) -/
  kernels : Nat := 0
  ahead : List (Nat × SyncUse × Nat × Word64 × Nat) := []
  /-- the members' pavilions on their packages, by rank, as they have told them (R325) -/
  pavs : Tab Nat := []
  /-- largest winding heard of from any member -/
  newest : Word16 := 0
  /-- members whose apply has reached step 4, by rank, with their new own core counts (R368) -/
  ready : Tab Nat := []
  /-- the tick of the span's most recent flip (R581) -/
  flipTick : Word64 := 0
  deriving DecidableEq, Repr

/-- CYCLE statistics and replay state of a pavilion (R564 to R574). -/
structure Obs where
  cycleLosses : Nat := 0
  cycleCause : Nat := 0
  repeatable : Bool := false
  cycleTick : Word64 := 0
  deriving DecidableEq, Repr

/-- A freeze, save or restore of a pavilion (R454 to R468). -/
structure Freeze where
  frozen : Bool := false
  /-- TIME of freezing -/
  at_ : Word64 := 0
  /-- FREEZE posts that wait for a layer boundary, each with the TIME it was posted -/
  waiting : List (Nat × Word64) := []
  /-- posts of SAVEs and RESTOREs in progress -/
  busy : List Nat := []
  /-- SAVEs that wait for deliveries: the post, IOVA, limit, orangery option, key id (R460) -/
  saves : List (Nat × Nat × Nat × Bool × Nat) := []
  deriving DecidableEq, Repr

/-- A pavilion, by index. -/
structure Pav where
  /-- the cached table entry in force (R259, R261); zero: not bound -/
  entry : BitVec 2048 := 0
  epochBound : Word32 := 0
  winding : Word16 := 0
  /-- FAULTED: a core was lost with no spare (R518) -/
  faulted : Bool := false
  resetting : Option Resetting := none
  committed : Word64 := 0
  barriers : Tab Barrier := []
  commit : Option Commit := none
  /-- end of the kernel, and start tick of the next one, as the root names it (R296) -/
  kernel : Commit := {}
  held : List Held := []
  /-- committed steps whose STEP_DELIVERED is still to come, oldest first, each with the tick from which it is delivered
  (R147, R371, R423) -/
  deliveries : List (Word64 × Word64) := []
  faults : Tab FaultRec := []
  waiters : List Waiter := []
  /-- unmatched TSENDs and TRECVs: key, physical core, strand, number of the instruction (R140) -/
  sends : List Post := []
  recvs : List Post := []
  /-- TSENDs that other members of the span have sent here, unmatched -/
  inbox : List FarSend := []
  /-- TSENDs sent to other members so far, and the number of the last that came under a key (R356; notes/assumptions/78.md) -/
  sendNo : Nat := 0
  sendSeen : List (MsgKey × Nat) := []
  slices : Tab Slice := []
  runs : List Run := []
  accepting : List Accept := []
  /-- commands of rank 0 that wait for other members, by post (R416) -/
  shared : Tab Shared := []
  /-- ticks the watchdog has counted (R500) -/
  watchdog : Nat := 0
  /-- a layer boundary hold of an apply or a core move is in force -/
  held? : Bool := false
  acct : Acct := {}
  chan : HostChan := {}
  reg : Reg := {}
  span : Span := {}
  obs : Obs := {}
  freeze : Freeze := {}
  /-- stream engines that the entry holds, its own streams' and its children's (R264, R431) -/
  engines : List Nat := []
  /-- stream engines assigned to streams 0, 1, ... (R431) -/
  streams : List Nat := []
  /-- FW_VERSION and CMDSET_VERSION as its shape table shows them (R305) -/
  shapeFw : Word32 := 0
  shapeCmd : Word32 := 0
  deriving DecidableEq, Repr

/-! ## Functions and mailboxes (13) -/

/-- A mailbox slot (R407, R408). -/
structure MbSlot where
  req : List Word32 := List.replicate 16 0
  rsp : List Word32 := List.replicate 16 0
  tag : Word16 := 0
  /-- TAG as copied at the last post -/
  postTag : Word16 := 0
  status : BitVec 8 := 0
  postErr : Bool := false
  /-- 0 IDLE, 1 BUSY, 2 DONE -/
  st : BitVec 2 := 0
  /-- the request as copied at the post (R410) -/
  copy : List Word32 := List.replicate 16 0
  /-- function-level resets so far: a command posted before one finds its response discarded (R401) -/
  gen : Nat := 0
  deriving DecidableEq, Repr

/-- A host function: PF0 is 0, VF n is n. -/
structure Fn where
  slots : List MbSlot := List.replicate 4 {}
  vec : Word32 := 0
  /-- event records written and not lost, by ring place (R417) -/
  ring : Tab (BitVec 512) := []
  head : Word32 := 0
  tail : Word32 := 0
  lost : Word16 := 0
  overflow : Bool := false
  /-- the MSI-X table and pending bits of the function, by register offset / 4 -/
  msix : Tab Word32 := []
  /-- the pending-bit array (R403, R404) -/
  pba : BitVec 8 := 0
  /-- MMU_FLT_SEL (R225) and its latch (R226) -/
  fltSel : Word32 := 0
  fltLatch : BitVec 512 := 0
  /-- RG_SEL (R398) -/
  rgSel : Word32 := 0
  /-- TIME of the last RG_MISS and RG_SHORTFALL events (R395, R396) -/
  lastMiss : Option Word64 := none
  lastShort : Option Word64 := none
  deriving DecidableEq, Repr

/-- An apply in progress (R275, R276), and the copy PV_CHECK kept (R272). -/
structure Apply where
  /-- package address of the stage mask and its 512 bits, kept by PV_CHECK -/
  checkAddr : Word64 := 0
  checkMask : BitVec 512 := 0
  checked : Bool := false
  /-- entries and regulation tables read by PV_CHECK, by pavilion -/
  checkEntries : Tab (BitVec 2048 × BitVec 2048) := []
  /-- pool entries with the window entries they name, and member lists, read by PV_CHECK (R313, R362) -/
  checkPools : List (BitVec 256 × BitVec 256) := []
  checkLists : Tab Nat := []
  /-- 0 none, 1 preparing, 2 holding, 3 tick named, 4 closing -/
  phase : Nat := 0
  slot : Nat := 0
  early : Bool := false
  namedTick : Word64 := 0
  tick : Word64 := 0
  entries : Tab (BitVec 2048 × BitVec 2048) := []
  pools : List (BitVec 256 × BitVec 256) := []
  lists : Tab Nat := []
  /-- physical cores of the new binding: pavilion and index (R265, R266) -/
  owners : Tab (Nat × Nat) := []
  /-- pinned pieces filled into kept cores in step 1: pavilion, slice, piece, core, segment (R276) -/
  moves : List (Nat × Nat × Nat × Nat × Nat) := []
  /-- the flip tick is named; a span's waits for rank 0, which has been told that this member has reached step 4 (R368) -/
  named : Bool := false
  announced : Bool := false
  affected : List Nat := []
  heldAt : List Nat := []
  holdStart : Word64 := 0
  /-- scratch that step 6 copies into a core once it is zeroed: by core, the bytes by offset (R276, R283) -/
  lateCopies : Tab Mem := []
  resumed : List Nat := []
  deriving DecidableEq, Repr

/-! ## Commands in progress and the firmware (06, 13, 16, 19, 20) -/

/-- An INVALIDATE in progress (R213): its target (kind 0 a DVA range, 1 the whole space, 2 window ids) and the units
that have received it. -/
structure Inval where
  post : Nat
  pav : Nat
  kind : Nat
  first : Nat
  len : Nat
  units : List Nat := []
  deriving DecidableEq, Repr

/-- A command that waits for host memory: MEM_COPY into the package (kind 0), RESTORE (1), FW_STAGE (2) (R419, R466, R592). -/
structure Transfer where
  post : Nat
  pav : Nat
  kind : Nat
  iova : Nat
  addr : Nat := 0
  len : Nat
  deriving DecidableEq, Repr

/-- A sealed home that MODEL_LOAD decrypts in place: the post, the home and its length, the model and the DVAs of its tag table and
wrap record, the slice's marks, the next piece and the tick at which decryption began (R491). -/
structure Unsealing where
  post : Nat
  pav : Nat
  home : Nat
  len : Nat
  model : Nat
  tags : Nat
  wrap : Nat
  key : BitVec 256
  code : Bool
  fill : Bool
  /-- the handle that rank 0 of the span gave the slice; 0 where this package chooses one (R157) -/
  handle : Nat := 0
  next : Nat := 0
  since : Word64
  deriving DecidableEq, Repr

/-- What the package's dies do (R611, R612, R616, R553). -/
inductive Stage where
  /-- PWRGD_IN is low -/
  | off
  /-- REFCLK has stopped (R616) -/
  | stopped
  /-- a thermal trip holds the dies off (R553) -/
  | tripped
  /-- the boot ROM loads a slot (R591) -/
  | rom
  /-- the boot ROM waits for an image (R599) -/
  | recovery
  /-- Gaold serves -/
  | running
  /-- Doze (R537) -/
  | doze
  deriving DecidableEq, Repr

/-- Pins and the host port. -/
structure Boot where
  stage : Stage := .rom
  /-- PERST_N is asserted -/
  perst : Bool := false
  /-- the PCIe link is up -/
  link : Bool := false
  /-- REFCLK runs -/
  refclk : Bool := true
  /-- SMB_ADDR straps as sampled (R617) -/
  straps : BitVec 3 := 7
  /-- the boot ROM has tried the ACTIVE slot and failed (R591) -/
  triedActive : Bool := false
  /-- a cold reset waits for the boot: the gatehouse part is loaded (R591) -/
  cold : Bool := true
  /-- SMB_ALERT_N is asserted (R618) -/
  alert : Bool := false
  /-- PEWAKE_N is asserted (R539) -/
  wake : Bool := false
  /-- the level of PWRGD_IN (R611, R612) -/
  pwrgd : Bool := true
  /-- the level of TEST_EN, which the board ties low: high, it holds every die in reset and the package answers no bus (R610) -/
  testEn : Bool := false
  deriving DecidableEq, Repr

/-- A flash slot (R587, R588, R603): state 0 EMPTY, 1 INVALID, 2 VALID, 3 STAGING, and the header of its image. -/
structure FwSlot where
  st : Nat := 0
  version : Word32 := 0
  cmdset : Word32 := 0
  svn : BitVec 8 := 0
  floor : BitVec 8 := 0
  deriving DecidableEq, Repr

/-- An FW_ACTIVATE in progress (R594 to R598): 1 waits for an apply, 2 pause of the main path, 3 hand-over. -/
structure Activation where
  post : Nat
  phase : Nat
  handover : Bool
  deriving DecidableEq, Repr

/-- Firmware, flash and the recovery ROM (19). -/
structure Fw where
  /-- version and command set of the running image -/
  version : Word32 := 0x01000000
  cmdset : Word32 := 0x00010000
  svnFloor : BitVec 8 := 0
  last : BitVec 2 := 0
  armed : Bool := false
  /-- slot A, slot B -/
  slotA : FwSlot := { st := 2, version := 0x01000000, cmdset := 0x00010000 }
  slotB : FwSlot := {}
  fallback : Bool := false
  /-- ACTIVE slot: false A, true B -/
  active : Bool := false
  policy : BitVec 5 := 0x1E
  /-- FW_POLICY has been written since the cold reset, so that OWNER_LOCK stands (R6, R603) -/
  locked : Bool := false
  /-- the FW_STAGE post in progress -/
  staging : Option Nat := none
  activation : Option Activation := none
  /-- FW_STAGE and FW_ACTIVATE posts that wait for the one in progress, in order (R592) -/
  waiting : List Nat := []
  /-- recovery: STATE, ERROR, LENGTH, buffer and its offset -/
  rcvState : BitVec 4 := 0
  rcvError : BitVec 4 := 0
  rcvLen : BitVec 25 := 0
  rcvBuf : Mem := []
  rcvOffset : Word32 := 0
  /-- user calibration in flash differs from the factory values (R587, R602) -/
  calibrated : Bool := false
  deriving DecidableEq, Repr

/-- The control processor (R514). -/
structure Cp where
  /-- a core is taken out and service pauses -/
  recovering : Bool := false
  spareUsed : Bool := false
  /-- cores that run Gaold: of four, the spare standing in for one that has failed -/
  working : Nat := 4
  deriving DecidableEq, Repr

/-- The cause of the last reset (R522). -/
structure ResetCause where
  cause : BitVec 8 := 1
  fatal : Bool := false
  warmCount : Word16 := 0
  coresSpared : Word16 := 0
  coresFailed : Word16 := 0
  deriving DecidableEq, Repr

/-! ## Power (17) and energy (14) -/

/-- A voltage write to a rail, from its sending until VDone (R527): millivolts × 10, attempts so far. -/
structure Avs where
  mv : Nat
  tries : Nat := 1
  acked : Bool := false
  deriving DecidableEq, Repr

/-- A die half, die × 2 + half (R530 to R557). -/
structure Half where
  /-- divisor in force, the controller's, LIMIT_HALF's, and the thermal floor -/
  div : Nat := 12
  want : Nat := 12
  limit : Nat := 6
  floor : Nat := 6
  /-- ageing trim in steps of 2.5 mV -/
  trim : Nat := 0
  /-- set-point reached, in mV × 10 (R527) -/
  vset : Nat := 6200
  /-- limit that the escapement sets, and the activity, in 1/64 (R541, R542) -/
  escape : Nat := 64
  activity : Nat := 0
  /-- the cap controller's budget, in 1/64 -/
  budget : Nat := 64
  droopClamp : Bool := false
  thermalClamp : Bool := false
  droops : Word16 := 0
  /-- dips since the last DROOP_WARN, and its TIME (R521) -/
  dips : Nat := 0
  lastWarn : Option Word64 := none
  tj : Nat := 0
  /-- TIME of the last step of the thermal floor -/
  lastStep : Option Word64 := none
  /-- its ageing monitors have measured since RESTORE_FACTORY -/
  measured : Bool := true
  /-- a die-half reset is in progress (R508): what started it, and the POWER posts that wait -/
  resetting : Option (Nat × List Nat) := none
  deriving DecidableEq, Repr

/-- Power, the cap and the energy model. -/
structure Power where
  /-- PWR_CAP, and the cap in force in this interval (R544) -/
  cap : Nat := 3600
  capInForce : Nat := 3600
  /-- PWR_ESC_CFG.RAMP_US -/
  ramp : Nat := 2
  /-- pad groups held (R540) -/
  pads : BitVec 6 := 0
  /-- of these, the groups held by a power-off that Gaold made on its own, which it releases itself (R540) -/
  ownPads : BitVec 6 := 0
  /-- whether SMB_ALERT_N is asserted at the level at which pad group 4 holds it (R540) -/
  heldAlert : Bool := false
  /-- whether PKG_FAULT_N is asserted at the level at which pad group 4 holds it (R540) -/
  heldFault : Bool := false
  nap : Bool := false
  /-- POWER DOZE has completed: the package waits for L2 entry (R537) -/
  dozing : Bool := false
  /-- domains that are off, and those held off by POWER HOLD (R532 to R536) -/
  off : List Nat := []
  holds : List Nat := []
  /-- TIME at which an access to package memory last turned a memory group on (R534) -/
  woke : Tab Word64 := []
  /-- domains that Nap holds off (R536) -/
  napHolds : List Nat := []
  halves : Tab Half := []
  halfSel : Word32 := 0
  /-- voltage writes in progress, by rail (0 to 7 VCORE, 8 VINF, 9 VAON, 10 VIO, 11 VDD1, 12 VDD2, 13 VDDQ) -/
  avs : Tab Avs := []
  /-- fixed rails treated as lost (R528) -/
  lost : List Nat := []
  /-- rails that have reported in this interval, with the sum of their readings in mW and how many (R529) -/
  heard : Tab (Nat × Nat) := []
  emergency : Bool := false
  /-- TIME at which an emergency last began or ended -/
  emergAt : Word64 := 0
  telemFault : Bool := false
  divergent : Bool := false
  /-- intervals in a row: valid, not within 20 %, within 20 %, over the cap at the lowest point, below 95 % of the cap -/
  validRun : Nat := 0
  wideRun : Nat := 0
  closeRun : Nat := 0
  overRun : Nat := 0
  underRun : Nat := 0
  /-- PWR_TELEM: Σ, M and P of the last interval, and the cap in force at its end, in W -/
  model : Nat := 0
  measured : Nat := 0
  control : Nat := 0
  telemCap : Nat := 0
  /-- k of the last interval, in 1/1024 (R449) -/
  k : Nat := 1024
  /-- energy charged to no pavilion, in µJ -/
  overhead : Nat := 0
  /-- coefficients of the events of R450, in tenths of a pJ, in the table's order -/
  coeffs : List Nat := [30000, 3100, 2900, 2600, 1200, 5, 350, 400, 300]
  /-- coefficients that boot flash holds (R546, R587) -/
  flash : List Nat := [30000, 3100, 2900, 2600, 1200, 5, 350, 400, 300]
  /-- valid intervals that relearning still needs (R546) -/
  learning : Option Nat := none
  /-- learned coefficients that flash does not hold yet, and the TIME of the last write to it -/
  unsaved : Bool := false
  savedAt : Option Word64 := none
  /-- the model's own index of what the cap controller has learned: Config.busyPower and the like at this draw (R547, R548) -/
  learned : Nat := 0
  /-- halves are held at divisor 12 after RESTORE_FACTORY (R554) -/
  trimPending : Bool := false
  /-- POWER posts that wait for their effect: the post and its action (R556) -/
  posts : List (Nat × Nat) := []
  deriving DecidableEq, Repr

/-! ## Links (11) -/

/-- A flit that a port has sent and keeps until it is acknowledged (R349, R356): its FSEQ and TYPE, and the messages that end in it. -/
structure KeptFlit where
  fseq : Word16
  typ : Nat
  msgs : List BulkMsg := []
  items : List SyncItem := []
  deriving DecidableEq, Repr

/-- A Duncy port (R345 to R351, R356, R377, R379). -/
structure Port where
  enable : Bool := true
  quiesce : Bool := false
  laneSel : BitVec 4 := 0
  /-- 0 OFF, 1 TRAINING, 2 UP, 3 QUIESCED, 4 FAILED -/
  st : Nat := 0
  goodLanes : Nat := 0
  /-- 0 no traffic, 1 four lanes, 2 eight lanes -/
  width : Nat := 0
  laneOut : Nat := 15
  /-- the peer's package id and port -/
  peer : Option (Nat × Nat) := none
  latency : Word16 := 0
  sparings : Word16 := 0
  replays : Word16 := 0
  crc : Word16 := 0
  fec : Word16 := 0
  /-- FSEQ of the next flit to be received in order, and of the next to be sent -/
  expect : Word16 := 0
  nextSeq : Word16 := 0
  /-- flits that this port asks to have again, from this FSEQ -/
  replayFrom : Option Word16 := none
  /-- credits held, by link VC (R350) -/
  credits : List Nat := [8, 64, 64, 64]
  /-- LINK (3) and TIMESTAMP (4) flits that wait to be sent -/
  control : List Nat := []
  /-- messages that wait for link VC 0, and for link VCs 1 to 3, oldest first (R351) -/
  syncQueue : List SyncItem := []
  queued : List BulkMsg := []
  /-- the message of a link VC of which a part has been sent, and the bytes that have (R349) -/
  part : Tab (BulkMsg × Nat) := []
  /-- the slot of the calendar (R351) -/
  slot : Nat := 0
  /-- flits sent and not acknowledged, oldest first (R349) -/
  kept : List KeptFlit := []
  /-- the last TIMESTAMP exchange -/
  stamp : Option TimeStamp := none
  deriving DecidableEq, Repr

/-- Link time synchronisation (R358 to R361, R379). -/
structure Tsync where
  offsetPs : Int := 0
  master : BitVec 12 := 0
  depth : Nat := 0
  sync : Bool := false
  eligible : Bool := true
  /-- measurements in a row within 10 ns -/
  good : Nat := 0
  /-- movement of the tick edge not yet a whole tick, and still to be made, in ps, and the ticks since the last movement (R359) -/
  slew : Int := 0
  toMove : Int := 0
  since : Nat := 64
  deriving DecidableEq, Repr

/-- Messages of link VC 0 that another package has sent to this one (R356): the sender's count of its cold resets, the number of the
first that has not come, and those after it that have. -/
structure SyncGot where
  boot : Nat := 0
  next : Nat := 0
  more : List Nat := []
  deriving DecidableEq, Repr

/-- Links in common (R354, R362, R379). -/
structure Links where
  rtSel : Word32 := 0
  /-- routing entries, by destination id, as DL_RT_DATA shows them -/
  routes : Tab Word32 := []
  spanBase : Option Word64 := none
  tsync : Tsync := {}
  /-- messages that have left on link VC 0, oldest first: destination package, message -/
  syncOut : List (Nat × SyncMsg) := []
  /-- the model's own count of cold resets, the number of the next message to each package, and what has come from each (R356) -/
  boots : Nat := 0
  syncNo : Tab Nat := []
  syncGot : Tab SyncGot := []
  /-- messages dropped for want of a route (R357) -/
  dropped : Nat := 0
  /-- what the members of spans answered to the last check (R363) -/
  answers : List SpanAnswer := []
  deriving DecidableEq, Repr

/-! ## Streams, Replay, snapshots (13, 18) -/

/-- A stream of a pavilion (R432 to R439). -/
structure Stream where
  log2Slots : Nat := 1
  lines : Nat := 1
  dir : Bool := false
  enable : Bool := false
  period : Word32 := 2000
  start : Word64 := 0
  devRing : Word64 := 0
  hostRing : Word64 := 0
  /-- number of the next frame due -/
  next : Nat := 0
  err : Nat := 0
  /-- 0 IDLE, 1 RUNNING, 2 ERROR -/
  st : Nat := 0
  /-- ENABLE = 0 was written: it stops after the frame in progress -/
  stopping : Bool := false
  urgency : Nat := 0
  missing : Word16 := 0
  overrun : Word16 := 0
  underrun : Word16 := 0
  faultWaits : Word16 := 0
  /-- frames held: number and payload, `none` for a missing or skipped one -/
  buffer : List (Nat × Option (List Byte)) := []
  /-- frames that an OUT engine has looked for, with the number of the next look at the device slot (R434) -/
  polls : Tab Nat := []
  lastMissed : Option Word64 := none
  deriving DecidableEq, Repr

/-- The Replay complication (R565 to R574, R585). -/
structure Recorder where
  /-- 0 idle, 1 recording, 2 replaying -/
  mode : Nat := 0
  pav : Nat := 0
  cause : Nat := 0
  records : Nat := 0
  ring : Word64 := 0
  len : Nat := 0
  used : Nat := 64
  /-- false while armed for the next thaw or paused (R566, R574) -/
  live : Bool := false
  /-- the pavilion has been thawed since the command: START_TIME and START_STEP are written (R567) -/
  begun : Bool := false
  /-- a replay has met the END record: the pavilion freezes at its next layer boundary (R573) -/
  ending : Bool := false
  kernels : Nat := 0
  /-- requests so far, by kind × 2^20 + STREAM (R568) -/
  ordinals : Tab Nat := []
  /-- bytes that window writes and outgoing frames of the step have written, by address (R570) -/
  written : Tab Byte := []
  /-- offset of the next STEP_DIGEST to be compared, and of the next MAILBOX or DEVICE_WRITE to take effect -/
  digestAt : Nat := 64
  inputAt : Nat := 64
  /-- request words of the recorded commands in progress, by post (R572) -/
  posts : Tab (List Word32) := []
  diverged : Bool := false
  divStream : Nat := 0
  divKind : Nat := 0
  divWhy : Nat := 0
  divSeq : Nat := 0
  divKpos : Nat := 0
  deriving DecidableEq, Repr

/-- A snapshot shadow set (R575 to R577, R583): state 0 FREE, 1 PENDING, 2 TAKEN. -/
structure Snap where
  id : Word32 := 0
  pav : Nat := 0
  st : Nat := 0
  tick : Word64 := 0
  post : Nat := 0
  items : Tab Word64 := []
  deriving DecidableEq, Repr

/-- Snapshots and fingerprints (R575, R580, R583). -/
structure Belv where
  sets : List Snap := List.replicate 4 {}
  nextId : Word32 := 0
  sel : Word32 := 0
  /-- units whose fingerprint differs from what Gaold gave them, already reported -/
  divergent : List Nat := []
  deriving DecidableEq, Repr

/-! ## Session state (10) -/

/-- A directory record (R319): state 0 FREE, 1 ACTIVE, 2 MOVING, 3 PREPARED, 4 REBUILDING, 5 LOST. -/
structure Session where
  owner : Nat
  epoch : Nat := 1
  target : Nat := 0
  st : Nat := 1
  single : Bool := false
  prot : Nat := 0
  k : Nat := 0
  m : Nat := 0
  root : Nat
  userPkg : Nat
  userPav : Nat
  set : List Nat := []
  pages : Nat
  pstep : Word64 := 0
  /-- the protection that a move will give: PROT, K, M, SET (R329, R331) -/
  newProt : Option (Nat × Nat × Nat × List Nat) := none
  /-- posts that wait on the session: the command and its slot -/
  move : Option Nat := none
  commit : Option Nat := none
  /-- TIME of the commit point, until the target serves (R331) -/
  commitAt : Option Word64 := none
  /-- COMMIT_PENDING was answered -/
  late : Bool := false
  /-- TARGET names a pool: a move is in progress, or its target may take over (R329, R337) -/
  hasTarget : Bool := false
  /-- root of the target's list -/
  targetRoot : Nat := 0
  /-- the pool that owned before the commit point, until its pages are freed (R331) -/
  source : Option Nat := none
  /-- the owner has acknowledged a DROP (R322) -/
  dropAcked : Bool := false
  /-- the next owner answers FETCH: it has not received SEAL (R337) -/
  fetch : Bool := false
  /-- protection pools of before the commit, until the target serves -/
  oldSet : List Nat := []
  /-- pools of SET that are lost (R337) -/
  lostSet : List Nat := []
  /-- pools of SET that had not the free pages for a rebuild (R337) -/
  noRoom : List Nat := []
  /-- the tenant and the MIRROR grant of a user on another package, as its package told them for the move in progress (R326, R334) -/
  user : Option (Nat × Bool) := none
  /-- the package that last told this one of the record: its directory package, or the partner that has adopted it (R324) -/
  keeper : Option Nat := none
  deriving DecidableEq, Repr

/-- Why a directory record changes (R320). -/
inductive Change where
  | create | extend | moving | prepared | abort | commit | close | rebuilding | rebuilt | lost | pstep | user
  /-- ROOT alone, once the owner has built its page list -/
  | root
  /-- no change of the record: an extension's pages become OWNED at a pool of another package (R327) -/
  | grown
  deriving DecidableEq, Repr

/-- A record change that waits for the later copy (R320): the new record (none: FREE) and what asked for it. -/
structure Pending where
  id : Nat
  why : Change
  new : Option Session
  asker : Option Nat := none
  /-- the partner has been sent it -/
  sent : Bool := false
  deriving DecidableEq, Repr

/-- A session command that waits for other packages' pools to take pages: what it asks for, the pools taken from, the
answers still to come, the lowest failing status. -/
structure Job where
  id : Nat
  why : Change
  new : Session
  asker : Nat
  pools : List Nat
  left : Nat
  status : Nat := 0
  deriving DecidableEq, Repr

/-- A page of a pool (R316): 1 OWNED, 2 COPY, 3 RETAINED, 4 PROT; an unlisted page is FREE. -/
structure PoolPage where
  st : Nat
  session : Nat
  isList : Bool := false
  /-- a page written since the last Mirror update (R336) -/
  dirty : Bool := false
  deriving DecidableEq, Repr

/-- What a pool holds of a session (R321, R323, R331): its epoch, list pages and data pages in order. -/
structure Holding where
  epoch : Nat
  lists : List Nat
  pages : List Nat
  /-- OWN received since the directory's renewals last lapsed; SEAL received -/
  own : Bool := false
  sealed : Bool := false
  /-- told to take the whole session before it serves (R337) -/
  fetch : Bool := false
  /-- pages written since PSTEP are to be restored from the protection before it serves again (R339) -/
  restore : Bool := false
  /-- the pages were taken from the protection (R337) -/
  fetched : Bool := false
  /-- the protection is new, and no Mirror update has written it (R331, R336) -/
  unwritten : Bool := false
  /-- the pool to which every write also goes: the target of a move whose copy is complete (R329) -/
  copyTo : Option Nat := none
  deriving DecidableEq, Repr

/-- A pool of this package (R310 to R317, R321, R323). -/
structure Pool where
  /-- the entry in force, 32 B (R311), zero where it is not defined -/
  entry : BitVec 256 := 0
  pages : Tab PoolPage := []
  /-- by session id -/
  held : Tab Holding := []
  /-- sending TIME of the last renewal, by directory package -/
  leases : Tab Word64 := []
  /-- the package that sent it: the directory's partner, where it has adopted the records (R324) -/
  dirs : Tab Nat := []
  deriving DecidableEq, Repr

/-- A saved session whose directory has been asked whether a restored pavilion becomes its user (R467): its data pages. -/
structure Restored where
  id : Nat
  pav : Nat
  pages : List (List Byte)
  deriving DecidableEq, Repr

/-- A window write of another package that is applied here and waits, with its answer, for the target of a move to apply it too: the
numbers of the writes sent there (R329). -/
structure Twice where
  first : Nat
  last : Nat
  answer : BulkMsg
  deriving DecidableEq, Repr

/-- The directory (R318 to R324, R340, R341) and the Mirror complication (R440). -/
structure Dir where
  records : Tab Session := []
  nextSerial : Nat := 0
  ctl : Word32 := 0
  /-- records are being copied between the partners (R324) -/
  syncing : Bool := false
  /-- records that the partner still copies here, and the sessions of those that have come (R324) -/
  syncLeft : Nat := 0
  syncGot : List Nat := []
  /-- records copied back since the cold reset (R341) -/
  ready : Bool := false
  /-- record changes that wait for the later copy, oldest first -/
  changes : List Pending := []
  /-- commands that wait for pools of other packages -/
  jobs : List Job := []
  /-- session commands that other packages forwarded here, by number (R325) -/
  asks : Tab BulkMsg := []
  nextAsk : Nat := 0
  /-- number of the next write to a move's target, and the window writes that wait for some (R329) -/
  nextFill : Nat := 1
  twice : List Twice := []
  /-- TIME at which the partner last answered (R340) -/
  heard : Option Word64 := none
  /-- sending TIME of the last renewal to each pool name -/
  renewals : Tab Word64 := []
  /-- pools that cannot be reached, with the TIME since when -/
  unreachable : Tab Word64 := []
  /-- Mirror: sessions queued for an update, with the step -/
  mirrorQueue : List (Nat × Word64) := []
  mirrorFaults : Word16 := 0
  restored : List Restored := []
  mirrorBytes : Word64 := 0
  deriving DecidableEq, Repr

/-! ## The gatehouse (15) -/

/-- An image key (R485): `opens` for an open key, else a seal key. -/
structure ImageKey where
  id : Word32
  tenant : Word32
  opens : Bool
  key : BitVec 256
  /-- next SEQ of a seal key (R461, R485) -/
  seq : Word64 := 0
  deriving DecidableEq, Repr

/-- A model release (R487). -/
structure Release where
  model : Word64
  tenant : Word32
  secret : BitVec 256
  deriving DecidableEq, Repr

/-- Why the gatehouse answers an SPDM request with ERROR (R475 to R477). -/
inductive SpdmError where
  | unsupportedRequest
  | invalidRequest
  | unexpectedRequest
  | sessionLimit
  /-- the response is to be fetched with CHUNK_GET -/
  | largeResponse
  deriving DecidableEq, Repr

/-- What the gatehouse answers an SPDM request with (R476 to R482). -/
inductive SpdmAnswer where
  | error (e : SpdmError)
  | version
  | capabilities
  | algorithms
  /-- the digest of slot 0 -/
  | digests (bytes : List Byte)
  /-- part of the chain of slot 0, and the bytes that remain after it -/
  | certificate (bytes : List Byte) (left : Nat)
  | challengeAuth (signature : List Byte)
  /-- measurement blocks with their indices, and the signature if one was asked for -/
  | measurements (blocks : Tab (List Byte)) (signature : List Byte)
  /-- the session, the ciphertext and the signature -/
  | keyExchange (session : Nat) (exchange signature : List Byte)
  | finished
  | heartbeatAck
  | keyUpdateAck
  | endSessionAck
  | chunkAck
  /-- a chunk of a large response, and whether it is the last -/
  | chunk (bytes : List Byte) (last : Bool)
  /-- STATUS of a vendor message, and its response -/
  | vendor (status : Nat) (bytes : List Byte)
  deriving DecidableEq, Repr

/-- A session of a transport (R475): the transport is a function's DOE, or 512 for MCTP. -/
structure SpdmSession where
  via : Nat
  id : Nat
  /-- FINISH has been answered -/
  secured : Bool := false
  /-- TIME of the last message in it (R476) -/
  beat : Word64
  deriving DecidableEq, Repr

/-- What the gatehouse holds of an SPDM connection, by transport (R475). -/
structure SpdmLink where
  /-- 1 GET_VERSION answered, 2 GET_CAPABILITIES, 3 NEGOTIATE_ALGORITHMS -/
  stage : Nat := 0
  /-- bytes of the largest response it takes in one piece -/
  most : Nat := 64
  /-- chunks of a large request gathered so far -/
  gathered : List Byte := []
  /-- chunks gathered, and the last has come -/
  chunks : Nat := 0
  whole : Bool := false
  /-- a large response that CHUNK_GET fetches -/
  large : List Byte := []
  /-- the answer to the last request -/
  reply : Option SpdmAnswer := none
  deriving DecidableEq, Repr

/-- The gatehouse (R470 to R496). -/
structure Gate where
  ready : Bool := false
  identityOk : Bool := false
  /-- security version of the running gatehouse firmware -/
  svn : BitVec 8 := 0
  imageKeys : List ImageKey := []
  releases : List Release := []
  sessions : List SpdmSession := []
  nextSession : Nat := 1
  links : Tab SpdmLink := []
  /-- SEC_SEAL_STATUS -/
  sealCause : Nat := 0
  sealPav : Nat := 0
  sealPiece : Nat := 0
  deriving DecidableEq, Repr

/-! ## The package -/

/-- What is fused at manufacture (R2 to R4). -/
structure Fuse where
  /-- GRADE code: 1 OXK-2048, 2 OXK-3072, 3 OXK-4096 -/
  grade : Nat := 3
  /-- STEP code: 0x10 B0, 0x11 B1 -/
  step : Nat := 0x10
  serial : Word64 := 0
  /-- manufacturing test access is open (R471) -/
  debugOpen : Bool := false
  deriving DecidableEq, Repr

/-- PV_*, MMU_WIN_BASE, MC_*, TIME and selector registers of PF BAR0 that hold a value of their own. -/
structure Regs where
  /-- PV_TABLE_BASE and whether it was written since cold reset (R287) -/
  tableBase : Option Word64 := none
  epoch : Word32 := 0
  /-- PV_STATUS: TARGET, FLIPPED, STATE, SET, ENTRY, REASON (R287) -/
  pvTarget : Word32 := 0
  pvFlipped : Bool := false
  pvState : BitVec 2 := 0
  pvSet : Bool := false
  pvEntry : BitVec 9 := 0
  pvReason : BitVec 6 := 0
  flipTime : Word64 := 0
  pvSel : Word32 := 0
  /-- package memory was lost (R260) -/
  tableLost : Bool := false
  winBase : Option Word64 := none
  /-- DL_PKG_ID, once written (R353) -/
  pkgId : Option (BitVec 12) := none
  poolBase : Option Word64 := none
  /-- latched high half of TIME_NOW (R253) -/
  timeLatch : Word32 := 0
  scrubCfg : Word32 := 0x31
  logSel : Word32 := 0
  /-- MB_VIEW, MB_BAR2_WIN (R408) -/
  view : Word32 := 1
  bar2Win : Word64 := 0
  /-- VFs that SR-IOV has enabled -/
  vfs : Nat := 0
  /-- log2 of BAR2's size in bytes (R402) -/
  bar2Log : Nat := 36
  deriving DecidableEq, Repr

/-- The sync tree's copies of TIME (R252): broadcasts sent. -/
structure TimeState where
  now : Word64 := 0
  /-- TIME of the last broadcast down the sync tree -/
  lastBroadcast : Word64 := 0
  deriving DecidableEq, Repr

/-- Sequencing of bulk requests between a source stream and a destination unit (R240, R241). -/
structure Pair where
  /-- SEQ the destination applies next -/
  expect : Word32 := 0
  /-- early arrivals held, by arrival -/
  early : List BulkMsg := []
  /-- the earlier messages of a tile of writes that has not come whole (R218) -/
  parts : List BulkMsg := []
  deriving DecidableEq, Repr

/-- A request of a tile instruction to another package, sent and not yet answered (R240, R242). -/
structure Sent where
  core : Nat
  strand : Nat
  num : Nat
  msg : BulkMsg
  /-- where the bytes that a read's answer brings stand in the tile's supply: address and length of each run -/
  keys : List (Nat × Nat) := []
  /-- the answer has come, with the bytes it brought -/
  got : Option Mem := none
  /-- host bytes that the tile already has -/
  host : Option Mem := none
  /-- it has left its source, which keeps at most 64 of a pair unacknowledged (R241) -/
  out : Bool := true
  deriving DecidableEq, Repr

/-- A flit of a bulk message (R237): 0 is the header. -/
structure Flit where
  stream : BitVec 20
  seq : Word32
  part : Nat
  deriving DecidableEq, Repr

/-- An arbitration point of the bulk network (R236): the slot of its calendar, the queues of each of its inputs, by the point that
the input comes from, and the credits of the next point, by virtual channel. -/
structure Arbiter where
  slot : Nat := 0
  queues : Tab (List (List Flit)) := []
  credits : List Nat := [16, 16, 16, 16]
  deriving DecidableEq, Repr

/-- A requester of the control network (R244): the PCIe port for a function, the control processor, the gatehouse. -/
inductive HubPort where
  | function (n : Nat)
  | control
  | gatehouse
  deriving DecidableEq, Repr

/-- The hub of the control network (R244): the requester it served last, and the requests and responses that wait at it, oldest first. -/
structure Hub where
  last : Nat := 0
  requests : List (HubPort × Instr) := []
  responses : List (HubPort × Nat) := []
  deriving DecidableEq, Repr

/-- The on-package and link networks. -/
structure Net where
  /-- requests sent and not yet answered, oldest first (R356) -/
  sent : List Sent := []
  /-- pairs of which a unit here is the destination, by source stream × 2^29 + SYS × 2^28 + SRC_PKG × 2^16 + DST_LOC -/
  pairs : Tab Pair := []
  /-- SEQ that a source here gives next, by stream × 2^29 + SYS × 2^28 + DST_PKG × 2^16 + DST_LOC -/
  nextSeq : Tab Word32 := []
  /-- newest winding received per (SRC_PKG × 512 + source pavilion) (R499) -/
  remoteWinding : Tab Word16 := []
  /-- flits resent by a hop, in a row, by location code (R511) -/
  hopFails : Tab Nat := []
  /-- spare lanes used, by location code of the link × 65,536 + group of 64 lanes (R516) -/
  lanes : Tab Nat := []
  lanesSpared : Nat := 0
  dieDegraded : BitVec 4 := 0
  /-- redundant lanes used, by bridge edge × 64 + module (R18) -/
  bridgeLanes : Tab Nat := []
  /-- arbitration points that messages have crossed, by number (R236) -/
  arbiters : Tab Arbiter := []
  hub : Hub := {}
  deriving DecidableEq, Repr

/-- The machine. -/
structure State where
  /-- commands waiting, first in, first out -/
  pending : List Instr := []
  /-- what the last read command returned (notes/assumptions/3.md) -/
  answer : Nat := 0
  /-- the model's own counter of free values drawn (notes/assumptions/4.md) -/
  draws : Nat := 0
  /-- the model's own counter that orders READY strands (R76) and waiting posts -/
  order : Nat := 0
  fuse : Fuse := {}
  time : TimeState := {}
  regs : Regs := {}
  cores : Tab Core := []
  strands : Tab Strand := []
  beds : Beds := {}
  /-- entries cached by translation units, by unit number -/
  tcache : Tab (List TEntry) := []
  /-- window entries in force, by window id (R217) -/
  windows : Tab (BitVec 256) := []
  pavs : Tab Pav := []
  fns : Tab Fn := []
  /-- commands in progress whose slots a function-level reset has reset, by post: they run on, and their responses are discarded (R401) -/
  orphans : Tab MbSlot := []
  /-- host memory as the package has written it, by requester ID and IOVA, as the host's IOMMU tells them apart (R399): outside the package -/
  host : Mem := []
  /-- MSI-X messages sent, oldest first: function, vector -/
  irqs : List (Nat × Nat) := []
  apply : Apply := {}
  net : Net := {}
  invals : List Inval := []
  transfers : List Transfer := []
  /-- sealed loads whose decryption is in progress (R491) -/
  unseals : List Unsealing := []
  boot : Boot := {}
  fw : Fw := {}
  cp : Cp := {}
  /-- bindable sets of clusters in which a spare has been brought in: their physical cores (R13) -/
  bindSets : Tab (List Nat) := []
  /-- worn cores whose state is being copied to a spare: the spare (R517) -/
  sparing : Tab Nat := []
  power : Power := {}
  cause : ResetCause := {}
  ports : Tab Port := []
  links : Links := {}
  streams : Tab Stream := []
  replayer : Recorder := {}
  belv : Belv := {}
  pools : Tab Pool := []
  dir : Dir := {}
  gate : Gate := {}
  /-- the last host read through BAR2 completed with Completer Abort (R405) -/
  aborted : Bool := false
  /-- posts that wait for mailbox service, in post order (R413, R611) -/
  posts : List Nat := []
  deriving DecidableEq, Repr

/-- The machine right after a cold reset (notes/assumptions/5.md). -/
def State.reset : State := {}

end Sys2Proof.Machine
end

