-- ==== Sys2Proof/Machine/Ops.lean ====
section
/-! DEFINITION. Named operations over the state that every family shares: units, the cached entry of a pavilion
(R261), channel sets and package memory (R169, R256, R262), events (R417, R418), interrupts, the completion of a
mailbox command (R411), the start of a kill (R502, R503) and kernel faults (R151). -/

namespace Sys2Proof.Machine

/-- Insert into an ascending list without repeats. -/
def insertUniq (x : Nat) : List Nat → List Nat
  | [] => [x]
  | y :: ys => if x < y then x :: y :: ys else if x == y then y :: ys else y :: insertUniq x ys

/-! ## Answers -/

/-- The command takes the state to `s`. -/
abbrev ok (s : State) : Host.Outcome State Fault Refusal := .next s

/-- The command names a unit that does not exist. -/
abbrev noUnit : Host.Outcome State Fault Refusal := .fault .noSuchUnit

/-! ## Units -/

/-- Physical cores of the package (R11). -/
def numCores : Nat := 1088
/-- Strands of a core (R11). -/
def numStrands : Nat := 2048
/-- Pavilions (R258). -/
def numPavs : Nat := 512
/-- Host functions (R4). -/
def numFns : Nat := 512
/-- Channel positions (R262). -/
def numChannels : Nat := 384

/-- The cluster (die × 16 + cluster) of a physical core. -/
def clusterOf (core : Nat) : Nat := core / 17
/-- The die of a physical core. -/
def dieOf (core : Nat) : Nat := core / 272
/-- The die half (die × 2 + half) of a cluster: clusters 0 to 7 of a die are west. -/
def halfOfCluster (k : Nat) : Nat := k / 8
/-- The die half of a channel position: beds 0 to 5 of a die are west. -/
def halfOfChannel (q : Nat) : Nat := q / 48
/-- The bed group (die × 4 + group) of a channel position. -/
def groupOf (q : Nat) : Nat := q / 24

/-- Location code of a core (R23). -/
def coreLoc (core : Nat) : Nat := (core / 272) <<< 10 + ((core / 17) % 16) <<< 5 + core % 17
/-- Location code of a channel (R23). -/
def channelLoc (q : Nat) : Nat := 0x3000 + (q / 96) <<< 10 + ((q % 96) / 8) <<< 3 + q % 8
/-- Location code of a Duncy port (R23): KIND 0x4, its die, its package-wide number. -/
def portLoc (p : Nat) : Nat := 0x4000 + (p / 4) <<< 10 + p
/-- Location code of a package unit (R23). -/
def unitLoc (n : Nat) : Nat := 0x8000 + n

namespace State

/-- TIME (R251). -/
abbrev now (s : State) : Word64 := s.time.now

/-- The strand with this key (core × 2,048 + strand). -/
def strand (s : State) (core strand : Nat) : Strand := Tab.getD s.strands (core * 2048 + strand) {}
def setStrand (s : State) (core strand : Nat) (t : Strand) : State :=
  { s with strands := Tab.put (core * 2048 + strand) t s.strands }
def core (s : State) (c : Nat) : Core := Tab.getD s.cores c {}
def setCore (s : State) (c : Nat) (x : Core) : State := { s with cores := Tab.put c x s.cores }
def pav (s : State) (p : Nat) : Pav := Tab.getD s.pavs p {}
def setPav (s : State) (p : Nat) (x : Pav) : State := { s with pavs := Tab.put p x s.pavs }
def fn (s : State) (f : Nat) : Fn := Tab.getD s.fns f {}
def setFn (s : State) (f : Nat) (x : Fn) : State := { s with fns := Tab.put f x s.fns }
def channel (s : State) (q : Nat) : Channel := Tab.getD s.beds.channels q {}
def setChannel (s : State) (q : Nat) (x : Channel) : State :=
  { s with beds := { s.beds with channels := Tab.put q x s.beds.channels } }
def modBeds (s : State) (f : Beds → Beds) : State := { s with beds := f s.beds }
def modPav (s : State) (p : Nat) (f : Pav → Pav) : State := s.setPav p (f (s.pav p))
def modCore (s : State) (c : Nat) (f : Core → Core) : State := s.setCore c (f (s.core c))
def modStrand (s : State) (c t : Nat) (f : Strand → Strand) : State := s.setStrand c t (f (s.strand c t))
def modRegs (s : State) (f : Regs → Regs) : State := { s with regs := f s.regs }
def modNet (s : State) (f : Net → Net) : State := { s with net := f s.net }

/-- Draw a free value (notes/assumptions/4.md). -/
def draw (s : State) : Word64 × State := (Config.freeValue s.draws, { s with draws := s.draws + 1 })

/-- The command's answer to a read (notes/assumptions/3.md). -/
def answered (s : State) (v : Nat) : State := { s with answer := v }

end State

/-! ## The grade (R2, R12, R20, R21, R22) -/

/-- Bindable cores of each cluster (R12). -/
def Fuse.perCluster (f : Fuse) : Nat := if f.grade == 3 then 16 else if f.grade == 2 then 12 else 8

/-- The bindable set of a cluster, by physical core (R12, R13): Gaold's first choice is the lowest slots (DESIGN CHOICE,
notes/assumptions/72.md), and only a spare brought in changes it. -/
def State.bindSet (s : State) (k : Nat) : List Nat := (Tab.find k s.bindSets).getD ((List.range s.fuse.perCluster).map (k * 17 + ·))

/-- A spare stands in the bindable set of its cluster in place of a core (R13, R517). -/
def State.bringIn (s : State) (old new : Nat) : State :=
  { s with bindSets := Tab.put (clusterOf old) ((s.bindSet (clusterOf old)).map fun c => if c == old then new else c) s.bindSets }
/-- Bed groups populated on every die (R20). -/
def Fuse.groups (f : Fuse) : List Nat := if f.grade == 3 then [0, 1, 2, 3] else if f.grade == 2 then [0, 1, 2] else [0, 2]
/-- Port `p` is enabled by the grade (R21). -/
def Fuse.portOn (f : Fuse) (p : Nat) : Bool := decide (p < 16) && (f.grade != 1 || p % 2 == 0)
/-- Thermal design power in W (R544, R628). -/
def Fuse.tdp (f : Fuse) : Nat := if f.grade == 3 then 3600 else if f.grade == 2 then 2800 else 2000
/-- Complications present: Stream, Mirror, Replay (R22, figures at a glance). -/
def Fuse.stream (f : Fuse) : Bool := f.grade != 1
def Fuse.mirror (f : Fuse) : Bool := f.grade != 1
def Fuse.replay (f : Fuse) : Bool := f.grade == 3
/-- The channel's group is populated (R20). -/
def Fuse.populated (f : Fuse) (q : Nat) : Bool := decide (q < 384) && f.groups.contains (groupOf q % 4)

/-- The designated spare channel of a group (R19): Gaold's designation, or the last channel of the group's last bed
where none is listed (notes/assumptions/6.md). -/
def State.spareOf (s : State) (g : Nat) : Nat := Tab.getD s.beds.spares g (g * 24 + 23)

/-- Position q is a place in use: populated and not the group's spare. -/
def State.place (s : State) (q : Nat) : Bool := s.fuse.populated q && s.spareOf (groupOf q) != q

/-- Active channels that are not retired, by ascending position (R20, R179). -/
def State.activeChannels (s : State) : List Nat :=
  (List.range 384).filter fun q => s.place q && !(s.channel q).retired

/-- Granules of every active and spare channel (R262). -/
def granulesPerChannel : Nat := 3590

/-! ## The table entry (R261) -/

namespace Pav

/-- Bits [hi:lo] of the cached entry. -/
def fld (v : Pav) (hi lo : Nat) : Nat := bits v.entry.toNat hi lo

def bound (v : Pav) : Bool := v.fld 0 0 == 1
def repro (v : Pav) : Bool := v.fld 1 1 == 1
def cycle (v : Pav) : Bool := v.fld 2 2 == 1
def conf (v : Pav) : Bool := v.fld 3 3 == 1
def hasParent (v : Pav) : Bool := v.fld 4 4 == 1
def hostFn (v : Pav) : Nat := v.fld 16 8
/-- Where an IOVA of the pavilion's host function lies in host memory: requests carry its requester ID (R399, R436). -/
def hostAt (v : Pav) (iova : Nat) : Nat := v.hostFn * 2 ^ 64 + iova
def parent (v : Pav) : Nat := v.fld 25 17
def tenant (v : Pav) : Nat := v.fld 63 32
def spanId (v : Pav) : Nat := v.fld 79 64
def spanRank (v : Pav) : Nat := v.fld 91 80
def spanLast (v : Pav) : Nat := v.fld 103 92
def scr (v : Pav) : Nat := v.fld 112 104
def streamsGranted (v : Pav) : Nat := v.fld 119 113
def mirror (v : Pav) : Bool := v.fld 120 120 == 1
def replay (v : Pav) : Bool := v.fld 121 121 == 1
def ptRoot (v : Pav) : Nat := v.fld 191 128
def regRef (v : Pav) : Nat := v.fld 255 192
def poolMask (v : Pav) : Nat := v.fld 271 256
def rgCompat (v : Pav) : Bool := v.fld 272 272 == 1
/-- Watchdog period in ticks of 10 ns (R261, R500). -/
def wdogTicks (v : Pav) : Nat := if v.fld 287 280 == 0 then 50000000 else v.fld 287 280 * 1000000
def chFirst (v : Pav) : Nat := v.fld 335 320
def chCount (v : Pav) : Nat := v.fld 351 336
def chOwn (v : Pav) : Nat := v.fld 367 352
def chMask (v : Pav) : Nat := v.fld 767 384
/-- CORES count of global cluster k (R263). -/
def coresIn (v : Pav) (k : Nat) : Nat := v.fld (768 + 5 * k + 4) (768 + 5 * k)
/-- A span member (R261). -/
def isSpan (v : Pav) : Bool := v.spanId != 0

/-- Own cores the entry gives (R263). -/
def ownCores (v : Pav) : Nat := (List.range 64).foldl (fun n k => n + v.coresIn k) 0

/-- The channels of the own channel set, by ascending position (R262). -/
def channels (v : Pav) : List Nat := (List.range 384).filter fun q => bitAt v.chMask q

/-- Data capacity of the own channel set in bytes (R262). -/
def capacity (v : Pav) : Nat := popcount 384 v.chMask * v.chOwn * 2 ^ 20

/-- Scratch bytes of each core (R83, R154). -/
def scratchBytes (v : Pav) : Nat := v.scr * 65536

end Pav

/-- The pavilion bound to a core. -/
def State.ownerOf (s : State) (c : Nat) : Option Nat := (s.core c).owner.map Prod.fst

/-- The own cores of a pavilion: (logical index, physical core), by ascending index (R265). -/
def State.coresOf (s : State) (p : Nat) : List (Nat × Nat) :=
  let l := s.cores.filterMap fun x => match x.2.owner with | some (q, i) => if q == p then some (i, x.1) else none | none => none
  l.foldl (fun acc x => Tab.put x.1 x.2 acc) []

/-- The physical core that holds member-local index `i` of a pavilion. -/
def State.coreAt (s : State) (p i : Nat) : Option Nat := Tab.find i (s.coresOf p)

/-- Own core count of a pavilion on this package. -/
def State.coreCount (s : State) (p : Nat) : Nat := (s.coresOf p).length

/-- Logical core count N: for a span, of all members together (R306). -/
def State.logicalCount (s : State) (p : Nat) : Nat :=
  s.coreCount p * (if (s.pav p).isSpan then (s.pav p).spanLast + 1 else 1)

/-- Span-wide logical index of a member-local one (R306). -/
def State.logicalOf (s : State) (p i : Nat) : Nat := (s.pav p).spanRank * s.coreCount p + i

/-! ## Bed storage (R168, R169, R256, R262) -/

/-- Key of a data byte of channel place `q`: `o` counts the data bytes of its code blocks. -/
def bedKey (q o : Nat) : Nat := q * 2 ^ 33 + o

/-- Key of a channel-set address of a pavilion (R169, R262). -/
def csKey (v : Pav) (chs : List Nat) (a : Nat) : Nat :=
  let c := chs.length
  let n := a / 1024
  bedKey (nthD chs (n % c) 0) ((1024 * v.chFirst + n / c) * 1024 + a % 1024)

/-- Key of a package address (R256). -/
def pkgKey (chs : List Nat) (a : Nat) : Nat :=
  let c := chs.length
  let n := a / 1024
  bedKey (nthD chs (n % c) 0) (n / c * 1024 + a % 1024)

/-- Channels over which package memory interleaves: every place in use, retired or not (R256, R260). -/
def State.pkgChannels (s : State) : List Nat := (List.range 384).filter s.place

/-- The `n` bytes at consecutive keys given by `key`, from offset `a`. -/
def Mem.gather (m : Mem) (key : Nat → Nat) (a : Nat) : Nat → List Byte
  | 0 => []
  | n + 1 => Mem.read m (key a) :: Mem.gather m key (a + 1) n

/-- Write bytes at the keys given by `key` from offset `a` upward. -/
def Mem.scatter (m : Mem) (key : Nat → Nat) (a : Nat) : List Byte → Mem
  | [] => m
  | b :: bs => Mem.scatter (Mem.write m (key a) b) key (a + 1) bs

/-- The bytes of the own channel set of a pavilion. -/
def State.readCs (s : State) (p a n : Nat) : List Byte :=
  let v := s.pav p; Mem.gather s.beds.mem (csKey v v.channels) a n

/-- Write bytes of the own channel set of a pavilion. Lines written whole lose an uncorrectable error (R170). -/
def State.writeCs (s : State) (p a : Nat) (bs : List Byte) : State :=
  let v := s.pav p
  let key := csKey v v.channels
  s.modBeds fun b =>
    let healed := (List.range (bs.length / 64 + 1)).filterMap fun i =>
      let l := roundUp a 64 + 64 * i
      if l + 64 ≤ a + bs.length then some (key l / 64) else none
    { b with mem := Mem.scatter b.mem key a bs, badLines := b.badLines.filter fun x => !healed.contains x
             listed := b.listed.filter fun x => !healed.contains x }

/-- The bytes of package memory. -/
def State.readPkg (s : State) (a n : Nat) : List Byte := Mem.gather s.beds.mem (pkgKey s.pkgChannels) a n

/-- Write package memory. -/
def State.writePkg (s : State) (a : Nat) (bs : List Byte) : State :=
  let key := pkgKey s.pkgChannels
  s.modBeds fun b =>
    let healed := (List.range (bs.length / 64 + 1)).filterMap fun i =>
      let l := roundUp a 64 + 64 * i
      if l + 64 ≤ a + bs.length then some (key l / 64) else none
    { b with mem := Mem.scatter b.mem key a bs, badLines := b.badLines.filter fun x => !healed.contains x
             listed := b.listed.filter fun x => !healed.contains x }

/-- A line that holds an uncorrectable error or stands in a bad-line list (R175, R178). -/
def Beds.bad (b : Beds) (key : Nat) : Bool := b.badLines.contains (key / 64) || b.listed.contains (key / 64)

/-- The first offset of [a, a+n), by lines, that meets an uncorrectable line. -/
def Beds.badIn (b : Beds) (key : Nat → Nat) (a n : Nat) : Option Nat :=
  ((List.range (n / 64 + 2)).map fun i => if i == 0 then a else (a / 64 + i) * 64).find? fun x => decide (x < a + n) && b.bad (key x)

/-- The number a package structure of `n` bytes holds (R10). -/
def State.pkgNat (s : State) (a n : Nat) : Nat := leNat (s.readPkg a n)

/-- The host area of package memory is its first 256 MiB (R257). -/
def hostArea : Nat := 256 * 2 ^ 20

/-! ## Power domains (R532 to R534) -/

/-- The channels of a pavilion's own channel set: none where CH_OWN is zero (R262, R264). -/
def Pav.ownChannels (v : Pav) : List Nat := if v.chOwn == 0 then [] else v.channels

/-- The uncorrectable line that the read of a read-merge-write meets: a line that a write of `n` bytes at `a` covers in part (R170). -/
def Beds.mergeBad (b : Beds) (key : Nat → Nat) (a n : Nat) : Option Nat :=
  let last := a + n - 1
  if n == 0 then none
  else if (a % 64 != 0 || a + n < a / 64 * 64 + 64) && b.bad (key a) then some (key a)
  else if (a + n) % 64 != 0 && b.bad (key last) then some (key last)
  else none

/-- What an enabled entry needs of a domain: its clusters, memory groups and complications (R533). -/
def Pav.needs (v : Pav) (d : Nat) : Bool :=
  if d < 80 then
    if d % 20 < 16 then v.coresIn (d / 20 * 16 + d % 20) != 0
    else if d % 20 < 18 then let q := d / 20 * 96 + (d % 20 - 16) * 48; bits v.chMask (q + 47) q != 0
    else false
  else if d == 85 then v.mirror
  else if d == 86 then v.replay
  else decide (87 ≤ d) && decide (d ≤ 90) && v.streamsGranted != 0

/-- POWER HOLD or Nap holds a domain off (R536, R556). -/
def State.domainHeld (s : State) (d : Nat) : Bool := s.power.holds.contains d || s.power.napHolds.contains d

/-- The memory group of a channel (R532). -/
def memoryGroup (q : Nat) : Nat := q / 96 * 20 + 16 + q % 96 / 48

/-- An access to `n` bytes of package memory turns on the memory groups of its channels (R534). -/
def State.wakePkg (s : State) (a n : Nat) : State :=
  if s.power.off.isEmpty then s
  else
    let chs := s.pkgChannels
    let ds := (List.range (n / 1024 + 2)).filterMap fun i =>
      if a / 1024 + i ≤ (a + n - 1) / 1024 then some (memoryGroup (nthD chs ((a / 1024 + i) % chs.length) 0)) else none
    { s with power := { s.power with off := s.power.off.filter fun d => !ds.contains d
                                     woke := (s.power.off.filter ds.contains).foldl (fun t d => Tab.put d s.now t) s.power.woke } }

/-! ## Local store (R82, R83) -/

/-- Key of a local-store byte. -/
def lsKey (core o : Nat) : Nat := core * 2 ^ 25 + o

def State.readLs (s : State) (core o n : Nat) : List Byte := Mem.readN s.beds.ls (lsKey core o) n

/-- Write local-store bytes; words of 8 bytes written whole lose an uncorrectable error. -/
def State.writeLs (s : State) (core o : Nat) (bs : List Byte) : State :=
  let lo := lsKey core o
  s.modBeds fun b => { b with ls := Mem.writeN b.ls lo bs
                              lsBad := b.lsBad.filter fun w => !(decide (lo ≤ w * 8) && decide (w * 8 + 8 ≤ lo + bs.length)) }

/-- Zero a core's whole local store (R155). -/
def State.zeroLsRange (s : State) (core lo hi : Nat) : State :=
  s.modBeds fun b => { b with ls := Mem.clear b.ls (lsKey core lo) (lsKey core hi)
                              lsBad := b.lsBad.filter fun w => !(decide (lsKey core lo ≤ w * 8) && decide (w * 8 < lsKey core hi)) }

/-- Zero a whole local store. -/
def State.zeroLs (s : State) (core : Nat) : State :=
  s.modBeds fun b => { b with ls := Mem.clear b.ls (lsKey core 0) (lsKey (core + 1) 0)
                              lsBad := b.lsBad.filter fun w => w / 2 ^ 22 != core }

/-- A CYCLE pavilion's run loses REPEATABLE (R564). -/
def State.unrepeatable (s : State) (p cause : Nat) : State :=
  if !(s.pav p).obs.repeatable then s
  else s.modPav p fun v => { v with obs := { repeatable := false, cycleCause := cause, cycleTick := s.now
                                             cycleLosses := min 65535 (v.obs.cycleLosses + 1) } }

/-! ## Interrupts and events (R399, R411, R417, R418) -/

/-- Send MSI-X vector `v` of a function, or mark it pending while its vector control masks it. -/
def State.sendVector (s : State) (f v : Nat) : State :=
  let x := s.fn f
  if ((Tab.getD x.msix (4 * v + 3) 1)).toNat % 2 == 1 then
    s.setFn f { x with pba := x.pba ||| BitVec.ofNat 8 (2 ^ v) }
  else { s with irqs := s.irqs ++ [(f, v)] }

/-- The event record of R417. -/
def eventRecord (code pav : Nat) (count : Word32) (time : Word64) (detail : Nat) : BitVec 512 :=
  BitVec.ofNat 512 (code % 65536 + (pav % 512) <<< 16 + count.toNat <<< 32 + time.toNat <<< 64 + (detail % 2 ^ 256) <<< 128)

/-- Raise an event to a function (R417, R418). -/
def State.raise (s : State) (f code pav detail : Nat) : State :=
  let x := s.fn f
  if x.head - x.tail == 64 then
    s.setFn f { x with overflow := true, lost := if x.lost == 0xFFFF#16 then x.lost else x.lost + 1 }
  else
    let h := x.head + 1
    let empty := x.head == x.tail
    let s := s.setFn f { x with head := h, ring := Tab.put (x.head.toNat % 64) (eventRecord code pav h s.now detail) x.ring }
    if empty then s.sendVector f (bits x.vec.toNat 14 12) else s

/-- Raise an event to a pavilion's function. -/
def State.raisePav (s : State) (p code detail : Nat) : State := s.raise (s.pav p).hostFn code p detail

/-- Raise an event to PF0. -/
def State.raisePf0 (s : State) (code pav detail : Nat) : State := s.raise 0 code pav detail

/-- DETAIL words of an event, word 0 first (R520). -/
def detailWords (ws : List Nat) : Nat := ws.foldr (fun w acc => w % 2 ^ 32 + 2 ^ 32 * acc) 0

/-- Add a record to the memory log, keeping the last 64; kinds 0x02, 0x04, 0x06, 0x07, 0x09 and 0x0C also raise the
memory event to PF0 (R180, R181). -/
def State.logMem (s : State) (kind loc whereAt : Nat) : State :=
  let s := s.modBeds fun b => { b with log := (⟨s.now, whereAt, kind, loc⟩ :: b.log).take 64 }
  if [0x02, 0x04, 0x06, 0x07, 0x09, 0x0C].contains kind then s.raisePf0 0x0040 0 (detailWords [kind, loc, whereAt]) else s

/-- An uncorrectable error of a bed line is counted and logged (R175, R180): `key` is the line's first byte. -/
def State.bedUncorrectable (s : State) (key : Nat) : State :=
  let q := key / 2 ^ 33
  (s.modBeds fun b => { b with ueCount := b.ueCount + 1 }).logMem 0x02 (channelLoc q) (key % 2 ^ 33 / 65536)

/-! ## Mailbox slots (R407 to R411) -/

/-- A post is named by its slot, function × 4 + slot, and by the slot's count of function-level resets: slot + 2,048 × count. -/
def postOf (fn slot gen : Nat) : Nat := fn * 4 + slot + 2048 * gen

/-- The function of a post. -/
def postFn (k : Nat) : Nat := k % 2048 / 4

/-- A post that stands for a recorded command, whose completion nobody is told (R572). -/
def replayPost (k : Nat) : Bool := decide (2 ^ 20 ≤ k / 2048)

/-- The mailbox slot of a post, as its reset found it where a function-level reset has met the command (R401); for a recorded command, its
request alone. -/
def State.mb (s : State) (k : Nat) : MbSlot :=
  if replayPost k then { copy := Tab.getD s.replayer.posts k [] }
  else (Tab.find k s.orphans).getD (nthD (s.fn (postFn k)).slots (k % 4) {})
def State.setMb (s : State) (k : Nat) (m : MbSlot) : State :=
  let x := s.fn (postFn k); s.setFn (postFn k) { x with slots := setNth x.slots (k % 4) m }

/-- Word n of a posted request. -/
def MbSlot.w (m : MbSlot) (n : Nat) : Nat := (nthD m.copy n 0).toNat

/-- Two words of a posted request, the lower first. -/
def MbSlot.w2 (m : MbSlot) (n : Nat) : Nat := m.w n + 2 ^ 32 * m.w (n + 1)

/-- The dies have power and clocks. -/
def Boot.powered (b : Boot) : Bool := !b.testEn && (b.stage == .rom || b.stage == .recovery || b.stage == .running)

/-- The host reaches registers and BAR2: in recovery PF0 exposes only the identity block and the recovery window, and all else
reads as zero (R599). -/
def State.exposed (s : State) : Bool := s.boot.powered && s.boot.stage != .recovery

/-- Complete a command: response words, then STATUS and STATE = DONE, then the slot's vector (R411, R414); one whose slot has been reset
answers nobody (R401). -/
def State.complete (s : State) (k status : Nat) (rsp : List Nat) : State :=
  let m := s.mb k
  if m.st != 1 || m.gen != k / 2048 then s
  else if (Tab.find k s.orphans).isSome then { s with orphans := Tab.drop k s.orphans }
  else
    let w0 : Nat := status % 256 + (m.w 0 % 256) * 256
    let words := (w0 :: rsp).map (BitVec.ofNat 32)
    let m' := { m with rsp := words ++ List.replicate (16 - words.length) 0, status := BitVec.ofNat 8 status, st := 2 }
    let s := s.setMb k m'
    if bitAt (m.w 0) 16 then s.sendVector (postFn k) (bits (s.fn (postFn k)).vec.toNat (3 * (k % 4) + 2) (3 * (k % 4))) else s

/-- A 64-bit value as two response words. -/
def lohi (x : Nat) : List Nat := [x % 2 ^ 32, x / 2 ^ 32 % 2 ^ 32]

/-! ## Kills (R502, R503, R505) -/

/-- Step 1 of a pavilion reset: the cause is recorded, RESETTING is set and the reset tick TIME + 20 is named; a reset
of a pavilion already resetting joins it. -/
def State.startReset (s : State) (p cause loc : Nat) (slots : List Nat) : State :=
  s.modPav p fun v =>
    match v.resetting with
    | some r => { v with resetting := some { r with causes := r.causes ++ [cause], slots := r.slots ++ slots } }
    | none => { v with resetting := some { causes := [cause], tick := s.now + 20, slots := slots, oldWinding := v.winding
                                           oldStep := v.committed, location := loc } }

/-- The kernel fault report of R151. -/
def faultReport (code opc strand core pc tile detail : Nat) (time : Word64) : Nat :=
  code % 256 + (opc % 256) <<< 8 + (strand % 2048) <<< 16 + (core % 2 ^ 32) <<< 32 + (pc % 2 ^ 32) <<< 64
    + (tile % 2 ^ 32) <<< 96 + (detail % 2 ^ 64) <<< 128 + time.toNat <<< 192

/-- A kernel fault kills the pavilion (R151, R153): the first fault is reported and the others are dropped; every
fault record becomes FREE; the strand stops. -/
def State.kernelFaultAt (s : State) (core strand code opc tile detail : Nat) (pc : Word32) : State :=
  let s1 := s.modStrand core strand fun t => { t with mode := .waiting, wait := .killed }
  match (s.core core).owner with
  | none => s1
  | some (p, i) =>
    if ((s.pav p).resetting.map fun r => r.causes.contains 1).getD false then s1
    else
      let rep := faultReport code opc strand (s.logicalOf p i) pc.toNat tile detail s.now
      let s2 := s1.raisePav p 0x0001 rep
      let s3 := s2.modPav p fun v => { v with faults := [], waiters := [] }
      s3.startReset p 0x01 (coreLoc core) []

/-- A kernel fault of the instruction at the strand's PC. -/
def State.kernelFault (s : State) (core strand code opc tile detail : Nat) : State :=
  s.kernelFaultAt core strand code opc tile detail (s.strand core strand).pc

/-! ## Strand readiness (R76, R77) -/

/-- Why an instruction in flight keeps its strand from going on, if it does (R77, R150, R430). -/
def Flight.stall (x : Flight) : Option Wait := match x.prog with | .faulted _ => some .transl | .hostWait => some .host | _ => none

/-- What a strand does once the cause of its own wait has cleared: it is READY, unless an instruction of it in flight waits for a
translation fault or a halted channel, which it then waits for (R77, R150). -/
def Strand.wake (t : Strand) (order : Nat) : Strand :=
  match t.flights.findSome? Flight.stall with
  | some w => { t with mode := .waiting, wait := w }
  | none => { t with mode := .ready, wait := .none, readyAt := order }

/-- The cause of a strand's wait has cleared: it becomes READY, last in its class (R76, R77). -/
def State.makeReady (s : State) (core strand : Nat) : State :=
  let s := { s with order := s.order + 1 }
  s.modStrand core strand fun t => t.wake s.order

/-- The strand leaves issue to wait (R77). -/
def State.waitFor (s : State) (core strand : Nat) (w : Wait) : State :=
  s.modStrand core strand fun t => { t with mode := .waiting, wait := w }

/-! ## Corrected errors, row shadows and retired frames (R175 to R177) -/

/-- Ticks of an hour. -/
def hourTicks : Nat := 360000000000

/-- Row shadows in use at a channel's controller, that is at its bed (R176). -/
def State.shadowsOfBed (s : State) (q : Nat) : Nat := (List.range 8).foldl (fun n i => n + (s.channel (q / 8 * 8 + i)).rowShadows.length) 0

/-- Report the channel frame of a line as retiring, once (R177). -/
def State.retireFrame (s : State) (key : Nat) : State :=
  let q := key / 2 ^ 33
  let w := key % 2 ^ 33 / 65536
  if s.beds.retiredFrames.contains (q * 2 ^ 16 + w) then s
  else (s.modBeds fun b => { b with retiredFrames := b.retiredFrames ++ [q * 2 ^ 16 + w] }).logMem 0x04 (channelLoc q) w

/-- A corrected error of a bed line: counted, logged, and fed to the repair rules of its row (R175, R176). -/
def State.bedCorrected (s : State) (key : Nat) : State :=
  let q := key / 2 ^ 33
  let row := key % 2 ^ 33 / 2048
  let s1 := (s.modBeds fun b => { b with ceCount := b.ceCount + 1 }).logMem 0x01 (channelLoc q) (key % 2 ^ 33 / 65536)
  let c := s1.channel q
  let c1 := { c with ceTimes := (s.now :: c.ceTimes).take 1001 }
  let recurs := match Tab.find row c.ceRows with | some t => decide ((s.now - t).toNat ≤ 24 * hourTicks) | none => false
  if c.rowShadows.contains row then s1.setChannel q c1
  else if !recurs then s1.setChannel q { c1 with ceRows := Tab.put row s.now c1.ceRows }
  else if s.shadowsOfBed q < 16 then
    (s1.setChannel q { c1 with rowShadows := c1.rowShadows ++ [row], ceRows := Tab.drop row c1.ceRows }).logMem 0x03 (channelLoc q) (key % 2 ^ 33 / 65536)
  else (s1.setChannel q { c1 with ceRows := Tab.drop row c1.ceRows }).retireFrame key

/-- A read on behalf of a pavilion met an uncorrectable bed line: its owner is killed (R175). -/
def State.killOwner (s : State) (q key : Nat) : State :=
  (s.bedUncorrectable key).startReset q 0x03 (channelLoc (key / 2 ^ 33)) []

/-- An uncorrectable error of a core's SRAM kills the pavilion that the core is bound to (R175). -/
def State.killSram (s : State) (p core row : Nat) : State :=
  ((s.modBeds fun b => { b with ueCount := b.ueCount + 1 }).logMem 0x09 (coreLoc core) row).startReset p 0x03 (coreLoc core) []

/-- The row of a local store that an offset lies in, as LOG records name it: segment × 64 + bank (R180). -/
def lsRow (o : Nat) : Nat := o / 65536 * 64 + o / 64 % 64

/-- Key of a slot in its core's file. -/
def slotKey (engine slot : Nat) : Nat := engine * 16 + slot

end Sys2Proof.Machine
end

