-- ==== Sys2Proof/Machine/Control.lean ====
section
/-! DEFINITION. The control network's hub (R244, R245): how register accesses of several requesters come into the one order in which
the block takes them. Whoever sends commands puts requests to the hub; the block serves it when its queue is empty
(notes/assumptions/79.md). -/

namespace Sys2Proof.Machine

/-- Place of a requester in the round: the functions in turn, the control processor, the gatehouse (R244). -/
def HubPort.place : HubPort → Nat
  | .function n => n % numFns
  | .control => numFns
  | .gatehouse => numFns + 1

namespace Hub
/-- A request joins those that wait. -/
def ask (h : Hub) (r : HubPort) (c : Instr) : Hub := { h with requests := h.requests ++ [(r, c)] }

/-- A unit's response joins those that wait. -/
def reply (h : Hub) (r : HubPort) (v : Nat) : Hub := { h with responses := h.responses ++ [(r, v)] }

/-- How far a requester stands behind the one served last in the round: 0 is next. The round is one of all functions, the control
processor and the gatehouse: whether the PCIe port takes one place for all its functions is open (R244; DESIGN CHOICE,
notes/assumptions/79.md). -/
def distance (h : Hub) (r : HubPort) : Nat := (r.place + (numFns + 1) - h.last) % (numFns + 2)

/-- The request that is served next: the oldest of the requester that comes first in the round. -/
def next (h : Hub) : Option (HubPort × Instr) :=
  h.requests.foldl (fun (b : Option (HubPort × Instr)) x => match b with
    | none => some x
    | some y => if h.distance x.1 < h.distance y.1 then some x else b) none
end Hub

/-- The hub serves: a response that waits goes first and reaches its requester; else a request goes to its unit, which takes it after
what it was sent before (R244, R245). -/
def State.hubServe (s : State) : State :=
  let h := s.net.hub
  match h.responses with
  | r :: rest => (s.modNet fun n => { n with hub := { h with responses := rest } }).answered r.2
  | [] => match h.next with
    | none => s
    | some x => { s.modNet fun n => { n with hub := { h with last := x.1.place, requests := h.requests.erase x } } with pending := s.pending ++ [x.2] }

end Sys2Proof.Machine
end

