-- ==== Sys2Proof/Machine/Gf.lean ====
section
/-! DEFINITION. GF(2^8) with the field polynomial of R168, the inline code RS(68,64) of a bed line, and the code of the on-package SRAM
(R168, R174). -/

namespace Sys2Proof.Machine

/-- Multiplication by x in GF(2^8), polynomial x^8 + x^4 + x^3 + x^2 + 1. -/
def gfDouble (a : Nat) : Nat := if a ≥ 128 then (2 * a) % 256 ^^^ 0x1D else 2 * a

/-- The product of two field elements: one step for each bit of `b`. -/
def gfMulBits : Nat → Nat → Nat → Nat
  | 0, _, _ => 0
  | n + 1, a, b => (if b % 2 == 1 then a else 0) ^^^ gfMulBits n (gfDouble a) (b / 2)

def gfMul (a b : Nat) : Nat := gfMulBits 8 a b

/-- Powers by repeated multiplication. -/
def gfPow (a : Nat) : Nat → Nat
  | 0 => 1
  | n + 1 => gfMul a (gfPow a n)

/-- The inverse of an element that is not 0: its 254th power. -/
def gfInv (a : Nat) : Nat := gfPow a 254

/-- α^n, α = 2. -/
def gfAlpha : Nat → Nat
  | 0 => 1
  | n + 1 => gfDouble (gfAlpha n)

/-! ## The inline code (R168) -/

/-- Coefficients below x^4 of the generator (x − 1)(x − α)(x − α^2)(x − α^3), the highest degree first. -/
def lineGenerator : List Nat :=
  let times := fun (p : List Nat) (r : Nat) => ((p ++ [0]).zip (0 :: p.map (gfMul r))).map fun (x : Nat × Nat) => x.1 ^^^ x.2
  (((List.range 4).map gfAlpha).foldl times [1]).drop 1

/-- One step of the division by the generator: a data byte enters the remainder. -/
def lineShift (r : List Nat) (d : Nat) : List Nat :=
  let f := nthD r 0 0 ^^^ d
  ((r.drop 1 ++ [0]).zip lineGenerator).map fun (x : Nat × Nat) => x.1 ^^^ gfMul f x.2

/-- The four check bytes of a line's 64 data bytes, data byte 0 having the highest degree. -/
def lineCheck (data : List Byte) : List Byte := (data.foldl (fun r d => lineShift r d.toNat) [0, 0, 0, 0]).map (BitVec.ofNat 8)

/-- Line 16 of a code block: the check bytes of its 16 data lines. -/
def checkLine (data : List Byte) : List Byte := (List.range 16).flatMap fun j => lineCheck ((data.drop (64 * j)).take 64)

/-- Symbols of a codeword in error: place 0 to 67, and what is added to the byte there. -/
abbrev SymbolErrors := List (Nat × Byte)

/-- Syndrome j of a codeword with these errors: the error polynomial at α^j. -/
def syndrome (es : SymbolErrors) (j : Nat) : Nat := es.foldl (fun n e => n ^^^ gfMul e.2.toNat (gfAlpha (j * (67 - e.1)))) 0

/-- The place of the one symbol whose error gives the syndromes, if one does. -/
def oneSymbol (s : List Nat) : Option Nat :=
  (List.range 68).find? fun i => let x := gfAlpha (67 - i)
    nthD s 0 0 != 0 && gfMul (nthD s 0 0) x == nthD s 1 0 && gfMul (nthD s 1 0) x == nthD s 2 0 && gfMul (nthD s 2 0) x == nthD s 3 0

/-- What the controller makes of a line read with these errors: it corrects one symbol, and treats any other error that shows as
uncorrectable (R168). Of more than three symbols the spec says nothing: the first three count (notes/assumptions/81.md). -/
def lineOutcome (es : SymbolErrors) : ReadErr :=
  let s := (List.range 4).map (syndrome (es.take 3))
  if s.all (· == 0) then .clean else if (oneSymbol s).isSome then .corrected else .uncorrectable

/-! ## The code of the SRAMs (R174) -/

/-- What a 32-bit word group with so many wrong 4-bit symbols reads as: one is corrected, two are detected; more count as detected
(notes/assumptions/81.md). -/
def sramOutcome (symbols : Nat) : ReadErr := match symbols with | 0 => .clean | 1 => .corrected | _ => .uncorrectable

/-- What a line whose row stands in a row shadow reads as: the symbols in error that its worst 32-bit word group holds (R174, R176). -/
def shadowOutcome (es : SymbolErrors) : ReadErr :=
  sramOutcome ((List.range 17).foldl (fun n g => max n ((es.filter fun e => e.1 / 4 == g).foldl (fun n e =>
    n + (if e.2.toNat % 16 == 0 then 0 else 1) + (if e.2.toNat / 16 == 0 then 0 else 1)) 0)) 0)

end Sys2Proof.Machine
end

