-- ==== Sys2Proof/Machine/Flags.lean ====
section
/-! DEFINITION. The arithmetic status word (R57, R58) and the conditions of CMP, BR and TWAIT (R122, R145). -/

namespace Sys2Proof.Machine

/-- The events of an instruction set their sticky bits (R57, R58). -/
def Strand.setFlags (t : Strand) (a : AFlags) : Strand := { t with astat := t.astat ||| a.word }

/-- CLAS: the bits set in B are cleared; reserved bits stay zero (R57, R120). -/
def Strand.clearFlags (t : Strand) (b : Word64) : Strand := { t with astat := t.astat &&& ~~~(b.truncate 32) }

/-- The condition codes of R122: 0 EQ, 1 NE, 2 LT signed, 3 GE signed, 4 LT unsigned, 5 GE unsigned. -/
def cond (fn : Nat) (a b : Word64) : Bool :=
  match fn with
  | 0 => a == b
  | 1 => a != b
  | 2 => a.slt b
  | 3 => !(a.slt b)
  | 4 => a.ult b
  | _ => !(a.ult b)

/-- A defined condition code (R122). -/
def condOk (fn : Nat) : Bool := decide (fn < 6)

end Sys2Proof.Machine
end

