-- ==== Sys2Proof/Machine/Translate.lean ====
section
/-! DEFINITION. Translation of device addresses (R182 to R201), accessed and dirty bits (R194, R196), fault records
(R204 to R206). -/

namespace Sys2Proof.Machine

/-- The number of a translation unit: clusters 0 to 63, host movers 64 to 71, stream engines of die d 72 + d, Mirror 76. -/
def TUnit.num : TUnit → Nat
  | .cluster k => k
  | .hostMover n => 64 + n
  | .streams d => 72 + d
  | .mirror => 76

/-- Accesses of a tile to a page (R191, R206). -/
structure Access where
  rd : Bool := false
  wr : Bool := false
  ex : Bool := false
  deriving DecidableEq, Repr

def Access.code (a : Access) : BitVec 3 := BitVec.ofNat 3 (b2n a.rd + 2 * b2n a.wr + 4 * b2n a.ex)
def Access.or (a b : Access) : Access := ⟨a.rd || b.rd, a.wr || b.wr, a.ex || b.ex⟩

/-- The highest page of every DVA space: the package page (R184). -/
def packagePage : Nat := 0x7FFFFFFFFF0000

/-- A found leaf: level, channel-set address of its entry, the entry (R189). -/
structure Leaf where
  level : Nat
  addr : Nat
  entry : Nat
  deriving DecidableEq, Repr

namespace Pte
def typ (e : Nat) : Nat := e % 8
def rd (e : Nat) : Bool := bitAt e 3
def wr (e : Nat) : Bool := bitAt e 4
def ex (e : Nat) : Bool := bitAt e 5
def ac (e : Nat) : Bool := bitAt e 6
def di (e : Nat) : Bool := bitAt e 7
def contig (e : Nat) : Bool := bitAt e 8
def sealBit (e : Nat) : Bool := bitAt e 9
/-- ADDR × 2^16. -/
def addr (e : Nat) : Nat := e / 65536 * 65536

/-- A malformed entry (R190); INVALID entries never are. -/
def malformed (cap level e : Nat) : Bool :=
  let t := typ e
  let leaf := t == 2 || t == 3 || t == 4
  decide (t > 4) || (t == 1 && level == 0) || (t == 2 && level == 2) || ((t == 3 || t == 4) && level != 0)
    || bits e 15 10 != 0
    || (t == 1 && bits e 9 3 != 0)
    || (leaf && wr e && !rd e)
    || (contig e && !(t == 2 && level == 0))
    || (sealBit e && t != 3)
    || (t == 2 && level == 1 && addr e % 2 ^ 29 != 0)
    || (t == 1 && decide (addr e + 65536 > cap))
    || (t == 2 && decide (addr e + (if level == 1 then 2 ^ 29 else 65536) > cap))
end Pte

/-- The index prefix of a DVA at a level: the DVA bits that select the entry and those above (R187). -/
def dvaIdx (dva level : Nat) : Nat := dva >>> (16 + 13 * level)

/-- The table entry of `level` for a DVA in a table page at channel-set address `page` (R187). -/
def pteAddr (page dva level : Nat) : Nat := page + 8 * (dvaIdx dva level % 8192)

/-- The 32 entries of a contiguity group hold together (R193): all LOCAL with CONTIG, consecutive from a multiple of 32, with equal
permissions, and none malformed, which no unit caches (R197). -/
def groupHolds (cap : Nat) (es : List Nat) : Bool :=
  let f := nthD es 0 0
  Pte.addr f % (32 * 65536) == 0 && (List.range 32).all fun i =>
    let e := nthD es i 0
    Pte.typ e == 2 && Pte.contig e && Pte.addr e == Pte.addr f + i * 65536 && bits e 5 3 == bits f 5 3 && !Pte.malformed cap 0 e

/-- A unit's cached entry for a pavilion, level and index (R197). -/
def State.cachedAt (s : State) (un p level idx : Nat) : Option Nat :=
  ((Tab.getD s.tcache un []).find? fun c => c.pav == p && c.level == level && c.idx == idx).map fun c => c.entry.toNat

/-- A unit caches entries, in place of what it held for them. -/
def State.cacheEntries (s : State) (un p level : Nat) (es : List (Nat × Nat)) : State :=
  let rest := (Tab.getD s.tcache un []).filter fun c => !(c.pav == p && c.level == level && es.any fun x => x.1 == c.idx)
  { s with tcache := Tab.put un (es.map (fun x => ⟨p, level, x.1, BitVec.ofNat 64 x.2⟩) ++ rest) s.tcache }

/-- Read one entry from device memory and cache it unless it is INVALID or malformed; with a contiguity group that holds, its 32
entries are read and cached as one (R193, R197). The key of an uncorrectable line that a read meets (R199). -/
def State.readMemEntry (s : State) (un p page dva level : Nat) : Except Nat Nat × State :=
  let v := s.pav p
  let key := csKey v v.channels
  let a := pteAddr page dva level
  let idx := dvaIdx dva level
  if s.beds.bad (key a) then (.error (key a), s)
  else
    let m := leNat (s.readCs p a 8)
    if Pte.typ m == 0 || Pte.malformed v.capacity level m then (.ok m, s)
    else if level == 0 && Pte.typ m == 2 && Pte.contig m then
      let a0 := a / 256 * 256
      match s.beds.badIn key a0 256 with
      | some b => (.error (key b), s)
      | none =>
        let es := (List.range 32).map fun i => leNat (s.readCs p (a0 + 8 * i) 8)
        if groupHolds v.capacity es then (.ok m, s.cacheEntries un p 0 ((List.range 32).map fun i => (idx / 32 * 32 + i, nthD es i 0)))
        else (.ok m, s.cacheEntries un p 0 [(idx, m)])
    else (.ok m, s.cacheEntries un p level [(idx, m)])

/-- Read one entry: a cached one, or memory's. Where the cached entry and memory's differ in more than AC and DI, which of the two is
used is not defined (R198): a free value decides. -/
def State.readEntry (s : State) (un p page dva level : Nat) : Except Nat Nat × State :=
  let v := s.pav p
  let a := pteAddr page dva level
  match s.cachedAt un p level (dvaIdx dva level) with
  | none => s.readMemEntry un p page dva level
  | some e =>
    if s.beds.bad (csKey v v.channels a) || setBits e 7 6 0 == setBits (leNat (s.readCs p a 8)) 7 6 0 then (.ok e, s)
    else
      let d := s.draw
      if d.1.toNat % 2 == 0 then (.ok e, d.2) else d.2.readMemEntry un p page dva level

/-- The outcome of walking one page. -/
inductive Walk where
  | leaf (l : Leaf)
  /-- the package page, served without a walk (R184) -/
  | package
  | bad (cause level : Nat)
  /-- a walk read met an uncorrectable line at this key: the pavilion is killed (R199) -/
  | hurt (key : Nat)
  deriving DecidableEq, Repr

/-- Walk the tables of pavilion `p` for `dva` from a table page, `level` levels left (R187 to R190). -/
def State.walkFrom (s : State) (un p dva : Nat) : Nat → Nat → Walk × State
  | level, page =>
    let v := s.pav p
    let r := s.readEntry un p page dva level
    match r.1 with
    | .error key => (.hurt key, r.2)
    | .ok e =>
      if Pte.typ e == 0 then (.bad 0x01 level, r.2)
      else if Pte.malformed v.capacity level e then (.bad 0x05 level, r.2)
      else if Pte.typ e == 1 then
        match level with
        | 0 => (.bad 0x05 0, r.2)
        | l + 1 => State.walkFrom r.2 un p dva l (Pte.addr e)
      else (.leaf ⟨level, pteAddr page dva level, e⟩, r.2)
  termination_by structural level => level

/-- Walk the tables of a pavilion for a DVA (R184, R187, R264). -/
def State.walk (s : State) (un p dva : Nat) : Walk × State :=
  let v := s.pav p
  if dva / 65536 * 65536 == packagePage then (.package, s)
  else if v.chOwn == 0 then (.bad 0x01 2, s)
  else s.walkFrom un p dva 2 v.ptRoot

/-- The check of an access at a walk's outcome: none, or the cause and level (R184, R191, R192, R207). -/
def accessFault (v : Pav) (w : Walk) (a : Access) : Option (Nat × Nat) :=
  match w with
  | .bad c l => some (c, l)
  | .hurt _ => none
  | .package => if a.wr || a.ex then some (0x07, 0) else none
  | .leaf l =>
    if Pte.typ l.entry == 3 && Pte.sealBit l.entry != v.conf then some (0x06, l.level)
    else if a.rd && !Pte.rd l.entry then some (0x02, l.level)
    else if a.wr && !Pte.wr l.entry then some (0x03, l.level)
    else if a.ex && !(Pte.ex l.entry && Pte.typ l.entry == 2) then some (0x04, l.level)
    else none

/-- The unit drops its cached entries for a page at whose valid leaf a tile faulted: the leaf, and any contiguity group
that holds it (R198). -/
def State.dropPage (s : State) (un p dva : Nat) : State :=
  let keep := fun (c : TEntry) => !(c.pav == p &&
    ((c.level == 0 && (c.idx == dvaIdx dva 0 || (c.idx / 32 == dvaIdx dva 0 / 32 && Pte.contig c.entry.toNat)))
      || (c.level == 1 && c.idx == dvaIdx dva 1 && Pte.typ c.entry.toNat == 2)))
  { s with tcache := Tab.put un ((Tab.getD s.tcache un []).filter keep) s.tcache }

/-- The unit drops every cached entry that a walk of the page would use, so that the walk reads device memory (R208). -/
def State.dropWalk (s : State) (un p dva : Nat) : State :=
  let s := s.dropPage un p dva
  { s with tcache := Tab.put un ((Tab.getD s.tcache un []).filter fun c => !(c.pav == p && c.idx == dvaIdx dva c.level)) s.tcache }

/-- The entries that a leaf's translation covers in a unit, by index and address: the 32 of a group that the unit caches as one, or the
one (R193). -/
def State.largeGroup (s : State) (un p dva : Nat) (l : Leaf) : List (Nat × Nat) :=
  let i0 := dvaIdx dva 0 / 32 * 32
  let es := (List.range 32).filterMap fun i => s.cachedAt un p 0 (i0 + i)
  if l.level == 0 && Pte.contig l.entry && es.length == 32 && groupHolds (s.pav p).capacity es then
    (List.range 32).map fun i => (i0 + i, l.addr / 256 * 256 + 8 * i)
  else [(dvaIdx dva l.level, l.addr)]

/-- Set AC, and DI for a write, in the leaf a tile touches, a group's 32 together, save in entries that the unit holds cached with the
bit set (R193, R194, R196). -/
def State.touch (s : State) (un p dva : Nat) (l : Leaf) (wr : Bool) : State :=
  let lacks := fun (e : Nat) => b2n (!Pte.ac e) * 64 + b2n (wr && !Pte.di e) * 128
  (s.largeGroup un p dva l).foldl (fun s x =>
    let held := s.cachedAt un p l.level x.1
    let need := lacks (held.getD l.entry)
    if need == 0 then s
    else
      let s1 := s.writeCs p x.2 (leBytes 8 (leNat (s.readCs p x.2 8) ||| need))
      match held with
      | some e => s1.cacheEntries un p l.level [(x.1, e ||| need)]
      | none => s1) s

/-- A unit's work serves a pavilion (R197): a cluster with a core of it, every host mover, the stream engines of a die on which it has one,
and the Mirror complication's for one that is granted it, holds a pool or has a Replay ring. -/
def State.unitServes (s : State) (u p : Nat) : Bool :=
  let v := s.pav p
  if u < 64 then (s.coresOf p).any fun x => clusterOf x.2 == u
  else if u < 72 then true
  else if u < 76 then v.streams.any fun e => e / 16 == u - 72
  else u == 76 && (v.mirror || (s.pools.any fun x => x.2.entry != 0 && bits x.2.entry.toNat 24 16 == p)
    || (s.replayer.mode != 0 && s.replayer.pav == p))

/-- Units that an INVALIDATE for a pavilion reaches (R213): those that serve it, and any that still holds an entry of it. -/
def State.unitsOf (s : State) (p : Nat) : List Nat :=
  (List.range 77).filter fun u => s.unitServes u p || (Tab.getD s.tcache u []).any fun c => c.pav == p

/-- The unit that translates window requests in the owner's tables: host mover 0's, which serves every pavilion (DESIGN CHOICE,
notes/assumptions/77.md). -/
def windowUnit : Nat := 64

/-! ## Fault records (R204 to R206, R208) -/

/-- Mark the unit's bit in a record's waiter mask (R206). -/
def FaultRec.addUnit (r : FaultRec) (u : TUnit) : FaultRec :=
  match u with
  | .cluster k => { r with waitCl := r.waitCl ||| BitVec.ofNat 64 (2 ^ k) }
  | .hostMover n => { r with waitHm := r.waitHm ||| BitVec.ofNat 8 (2 ^ n) }
  | .streams d => { r with waitSt := r.waitSt ||| BitVec.ofNat 4 (2 ^ d) }
  | .mirror => { r with waitMir := true }

/-- The record of a page, if the pavilion has one OPEN or RESOLVING (R204). -/
def Pav.recOf (v : Pav) (page : Word64) : Option (Nat × FaultRec) := v.faults.find? fun x => x.2.page == page

/-- The lowest free record ID (R204, R205). -/
def Pav.freeId (v : Pav) : Option Nat := (List.range 32).find? fun i => (Tab.find i v.faults).isNone

/-- The event of a record (R520). -/
def State.mmuFault (s : State) (p id : Nat) (page : Word64) : State :=
  s.raisePav p 0x0003 (detailWords (id :: lohi page.toNat))

/-- A tile that faults joins or creates its page's record, or waits without one (R204, R205); on a record being
resolved, it reopens the record (R208). -/
def State.recordFault (s : State) (p : Nat) (w : Waiter) : State :=
  let v := s.pav p
  match v.recOf w.page with
  | some (id, r) =>
    let r1 := { (r.addUnit w.tunit) with tiles := r.tiles + 1, access := r.access ||| w.access }
    if r.st == 2 then
      let r2 := { r1 with st := 1, retries := if r.retries ≥ 255 then 255 else r.retries + 1, time := s.now, cause := w.cause, level := w.level }
      (s.modPav p fun v => { v with faults := Tab.put id r2 v.faults, waiters := v.waiters ++ [w] }).mmuFault p id w.page
    else s.modPav p fun v => { v with faults := Tab.put id r1 v.faults, waiters := v.waiters ++ [w] }
  | none =>
    match v.freeId with
    | none => s.modPav p fun v => { v with waiters := v.waiters ++ [w] }
    | some id =>
      let r : FaultRec := { page := w.page, time := s.now, cause := w.cause, level := w.level, access := w.access }
      (s.modPav p fun v => { v with faults := Tab.put id (r.addUnit w.tunit) v.faults, waiters := v.waiters ++ [w] }).mmuFault p id w.page

/-- Waiters that have no record receive one as IDs free, in the order in which they faulted (R205). -/
def State.admitWaiters (s : State) (p : Nat) : State :=
  let v := s.pav p
  v.waiters.foldl (fun s w =>
    let v := s.pav p
    match v.recOf w.page with
    | some _ => s
    | none =>
      match v.freeId with
      | none => s
      | some id =>
        let same := v.waiters.filter fun x => x.page == w.page
        let r : FaultRec := { page := w.page, time := s.now, cause := w.cause, level := w.level, access := w.access, tiles := same.length }
        let r := same.foldl (fun r x => { (r.addUnit x.tunit) with access := r.access ||| x.access }) r
        (s.modPav p fun v => { v with faults := Tab.put id r v.faults }).mmuFault p id w.page) s

/-- The 512 bits of a record (R206). -/
def FaultRec.pack (r : FaultRec) (id : Nat) : BitVec 512 :=
  BitVec.ofNat 512 (r.page.toNat + r.time.toNat <<< 64 + (r.cause % 256) <<< 128 + (r.level % 4) <<< 136 + r.access.toNat <<< 138
    + (r.retries % 256) <<< 144 + (id % 32) <<< 152 + (r.st % 4) <<< 157 + (r.tiles % 65536) <<< 160 + r.waitCl.toNat <<< 192
    + r.waitHm.toNat <<< 256 + r.waitSt.toNat <<< 264 + b2n r.waitMir <<< 268)

/-- Translate every page of a list with its accesses (R200, R201): the leaves found in ascending page order, or the
lowest faulting page. -/
inductive Pages where
  | all (ls : List (Nat × Walk × Access))
  | fault (page cause level : Nat) (a : Access)
  | hurt (key : Nat)
  deriving DecidableEq, Repr

/-- Walk pages in ascending order; all are walked, the first fault is kept. -/
def State.walkPages (s : State) (un p : Nat) : List (Nat × Access) → Pages × State
  | [] => (.all [], s)
  | (pg, a) :: rest =>
    let r := s.walk un p (pg * 65536)
    match r.1 with
    | .hurt key => (.hurt key, r.2)
    | w =>
      match accessFault (s.pav p) w a with
      | some (c, l) =>
        let s' := match w with | .leaf _ => r.2.dropPage un p (pg * 65536) | _ => r.2
        (.fault (pg * 65536) c l a, s')
      | none =>
        let q := State.walkPages r.2 un p rest
        match q.1 with
        | .all ls => (.all ((pg, w, a) :: ls), q.2)
        | x => (x, q.2)

/-- Collect pages with their accesses, ascending, each once. -/
def addPages (acc : Tab Access) (pages : List Nat) (a : Access) : Tab Access :=
  pages.foldl (fun t pg => Tab.put pg ((Tab.getD t pg {}).or a) t) acc

/-- Set AC and DI in every leaf that a tile, or a stream (notes/assumptions/91.md), touches (R194). -/
def State.touchAll (s : State) (un p : Nat) (ls : List (Nat × Walk × Access)) : State :=
  ls.foldl (fun s x => match x.2.1 with | .leaf l => s.touch un p (x.1 * 65536) l x.2.2.wr | _ => s) s

end Sys2Proof.Machine
end

