-- ==== Sys2Proof/Machine/Operands.lean ====
section
/-! DEFINITION. Operand forms: scalar registers (R109), the fields a scalar instruction uses and the encodings it leaves
undefined (R107, R108), descriptor slots and their fields (R112, R113, R123), and the scratch access checks (R84, R121). -/

namespace Sys2Proof.Machine

/-! ## Scalar registers (R109) -/

/-- The value of a register code: s0 to s5; sz and the undefined code read as zero. -/
def Strand.reg (t : Strand) (r : BitVec 3) : Word64 :=
  match r.toNat with
  | 0 => t.s0 | 1 => t.s1 | 2 => t.s2 | 3 => t.s3 | 4 => t.s4 | 5 => t.s5
  | _ => 0

/-- Write a register; sz discards writes (R109). -/
def Strand.setReg (t : Strand) (r : BitVec 3) (v : Word64) : Strand :=
  match r.toNat with
  | 0 => { t with s0 := v } | 1 => { t with s1 := v } | 2 => { t with s2 := v }
  | 3 => { t with s3 := v } | 4 => { t with s4 := v } | 5 => { t with s5 := v }
  | _ => t

/-- The second operand B of a scalar instruction (R108). -/
def opB (t : Strand) (f : ScalarFields) : Word64 := if f.useImm then sext64 f.imm else t.reg f.srcb

/-- a + sext(IMM): the address or value of LDS, STS, LDD, STD, SETD, SETSRC. -/
def opAddr (t : Strand) (f : ScalarFields) : Word64 := t.reg f.srca + sext64 f.imm

/-! ## Undefined encodings of scalar words (R107) -/

/-- How an instruction uses a 3-bit field. -/
inductive FieldUse where
  | unused | reg | slot
  deriving DecidableEq, Repr

/-- The fields a scalar instruction uses. -/
structure ScalarShape where
  dst : FieldUse := .unused
  srca : FieldUse := .unused
  srcb : FieldUse := .unused
  /-- takes the second operand B, so USEIMM may be 1 -/
  takesB : Bool := false
  /-- uses IMM whatever USEIMM holds -/
  imm : Bool := false
  /-- FN values below this are defined (1: FN must be zero) -/
  fns : Nat := 1
  deriving DecidableEq, Repr

/-- A field that breaks R107: nonzero while unused, or the register code 0b111. -/
def FieldUse.bad (u : FieldUse) (c : BitVec 3) : Bool :=
  match u with
  | .unused => c != 0
  | .reg => c == 7
  | .slot => false

/-- The word is an undefined encoding for an instruction of this shape (R107). -/
def ScalarShape.undefined (k : ScalarShape) (f : ScalarFields) : Bool :=
  let srcbUse := if k.takesB then (if f.useImm then .unused else .reg) else k.srcb
  f.reserved != 0 || k.dst.bad f.dst || k.srca.bad f.srca || FieldUse.bad srcbUse f.srcb || (f.useImm && !k.takesB)
    || (f.imm != 0 && !(k.imm || (k.takesB && f.useImm))) || decide (f.fn.toNat ≥ k.fns)

/-- d = op(a, B). -/
def shapeAlu : ScalarShape := { dst := .reg, srca := .reg, takesB := true }
def shapeCmp : ScalarShape := { dst := .reg, srca := .reg, takesB := true, fns := 6 }
def shapeMovi : ScalarShape := { dst := .reg, imm := true }
def shapeLds : ScalarShape := { dst := .reg, srca := .reg, imm := true, fns := 8 }
def shapeSts : ScalarShape := { srca := .reg, srcb := .reg, imm := true, fns := 4 }
def shapeSetd : ScalarShape := { dst := .slot, srca := .reg, imm := true, fns := 8 }
def shapeGetd : ScalarShape := { dst := .reg, srcb := .slot, fns := 8 }
def shapeLdd : ScalarShape := { dst := .slot, srca := .reg, imm := true }
def shapeStd : ScalarShape := { srca := .reg, srcb := .slot, imm := true }
def shapeDst : ScalarShape := { dst := .reg }
def shapeClas : ScalarShape := { takesB := true }
def shapeSetsrc : ScalarShape := { srca := .reg, imm := true }
def shapeBr : ScalarShape := { srca := .reg, srcb := .reg, imm := true, fns := 6 }
def shapeJmp : ScalarShape := { imm := true }
def shapeJmpr : ScalarShape := { srca := .reg }
def shapeCall : ScalarShape := { dst := .reg, imm := true }
def shapeSpawn : ScalarShape := { srca := .reg, imm := true, fns := 4 }
def shapeNone : ScalarShape := {}
def shapeFence : ScalarShape := { fns := 2 }

/-! ## Descriptors (R112, R113, R123) -/

namespace Desc

def fld (d : Desc) (hi lo : Nat) : Nat := bits d.toNat hi lo
def base (d : Desc) : Nat := fld d 63 0
def stride1 (d : Desc) : Nat := fld d 95 64
def stride0 (d : Desc) : Nat := fld d 111 96
def extent0 (d : Desc) : Nat := fld d 151 128
def extent1 (d : Desc) : Nat := fld d 175 152
def fmtCode (d : Desc) : Nat := fld d 180 176
def loc (d : Desc) : Nat := fld d 183 181
def anchor (d : Desc) : BitVec 10 := BitVec.ofNat 10 (fld d 193 184)
def auto (d : Desc) : Bool := fld d 194 194 == 1
def reserved (d : Desc) : Bool := fld d 255 195 != 0 || fld d 127 112 != 0
def fmt (d : Desc) : Option Fmt := Fmt.ofCode (fmtCode d)

/-- The bits of the field that SETD and GETD select by FN (R123): BASE, STRIDE1, STRIDE0, EXTENT0, EXTENT1, FMT, LOC,
ANCHOR with AUTO. -/
def field (fn : Nat) : Nat × Nat :=
  match fn with
  | 0 => (63, 0) | 1 => (95, 64) | 2 => (111, 96) | 3 => (151, 128) | 4 => (175, 152) | 5 => (180, 176) | 6 => (183, 181)
  | _ => (194, 184)

/-- GETD (R123). -/
def get (d : Desc) (fn : Nat) : Word64 := BitVec.ofNat 64 (fld d (field fn).1 (field fn).2)

/-- SETD: the low bits of the value that fit the field (R123). -/
def set (d : Desc) (fn : Nat) (v : Word64) : Desc := BitVec.ofNat 256 (setBits d.toNat (field fn).1 (field fn).2 v.toNat)

/-- Byte length of a row (R114). -/
def rowBytes (d : Desc) : Nat := match fmt d with | some f => f.rowBytes (extent0 d) (stride0 d) | none => 0

/-- Rows, counted in slice rows of 64 weight rows for CB2V (R114, R115). -/
def rows (d : Desc) : Nat := if fmt d == some .cb2v then ceilDiv (extent1 d) 64 else extent1 d

/-- Bytes from the first byte of `r` rows to the last (R115). -/
def span (d : Desc) (r : Nat) : Nat := if r == 0 then 0 else (r - 1) * stride1 d + rowBytes d

end Desc

/-- A strand's descriptor slot. -/
def Strand.desc (t : Strand) (i : BitVec 3) : Desc := nthD t.descs i.toNat 0

/-- Write a descriptor slot. -/
def Strand.setDesc (t : Strand) (i : BitVec 3) (d : Desc) : Strand := { t with descs := setNth t.descs i.toNat d }

/-! ## Byte ranges of in-flight instructions (R79, R119) -/

/-- A byte range: location, first byte, length. -/
structure Range where
  loc : Nat
  first : Nat
  len : Nat
  deriving DecidableEq, Repr

/-- Two ranges of one location touch a common byte (R79). Window, peer and orangery operands are compared by BASE within their
own location only: a peer operand that names the own core is not compared with a local-store one (DESIGN CHOICE,
notes/assumptions/71.md). -/
def Range.overlaps (a b : Range) : Bool :=
  a.loc == b.loc && decide (a.first < b.first + b.len) && decide (b.first < a.first + a.len)

/-- The range of a descriptor's operand. -/
def Desc.range (d : Desc) : Range := ⟨d.loc, d.base, d.span d.rows⟩

/-- The opcode writes the operand DD. -/
def writesDd (op : Nat) (f : TileFields) : Bool :=
  match op with
  | 0x80 | 0x81 | 0x82 | 0x83 | 0x84 | 0x91 | 0x93 | 0x94 | 0xA2 | 0xA3 => true
  | 0x92 => f.fn != 0x10
  | 0xA1 => !f.opt.getLsbD 0
  | _ => false

/-- The opcode reads the operand DS1. -/
def readsDs1 (op : Nat) (f : TileFields) : Bool :=
  match op with
  | 0x80 | 0x82 | 0x83 | 0x84 | 0x90 | 0x91 | 0x92 | 0x94 | 0xA2 | 0xA3 => true
  | 0x81 | 0x93 | 0xA0 => !f.opt.getLsbD 0
  | _ => false

/-- TVOP functions with a second source operand (R134). -/
def vopBinary (fn : Nat) : Bool := decide (1 ≤ fn) && decide (fn ≤ 6)

/-- The opcode reads the operand DS2. -/
def readsDs2 (op : Nat) (f : TileFields) : Bool :=
  match op with
  | 0x83 | 0x84 | 0x90 => true
  | 0x91 => vopBinary f.fn.toNat
  | _ => false

/-- The opcode reads the operand DD as a source: fma of TVOP (R134). -/
def readsDd (op : Nat) (f : TileFields) : Bool := op == 0x91 && f.fn == 0x04

/-- Destination ranges of an instruction. -/
def Flight.dsts (x : Flight) : List Range := if writesDd x.op.toNat x.f then [x.dd.range] else []

/-- Source ranges of an instruction. -/
def Flight.srcs (x : Flight) : List Range :=
  (if readsDs1 x.op.toNat x.f then [x.ds1.range] else []) ++ (if readsDs2 x.op.toNat x.f then [x.ds2.range] else [])
    ++ (if readsDd x.op.toNat x.f then [x.dd.range] else [])

/-- In-flight instructions of the strand whose destination, or (for a store) whose source, overlaps the range (R119). -/
def Strand.blockers (t : Strand) (r : Range) (store : Bool) : List Nat :=
  (t.flights.filter fun x => x.dsts.any r.overlaps || (store && x.srcs.any r.overlaps)).map Flight.num

/-- A compute instruction (R132). -/
def isCompute (op : Nat) : Bool := decide (0x90 ≤ op) && decide (op ≤ 0x94)

/-- The instruction sets events in ASTAT; it draws numbers from SRC (R57, R63). -/
def Flight.setsAstat (x : Flight) : Bool := isCompute x.op.toNat || (x.op == 0x81 && x.f.opt.getLsbD 0)
def Flight.drawsSrc (x : Flight) : Bool := x.op == 0x93 && x.f.fn == 1

/-- Earlier instructions of the strand that still write ASTAT, or SRC: an instruction that reads the register waits for them (R79). -/
def Strand.astatBlockers (t : Strand) : List Nat := (t.flights.filter fun y => y.prog != .moved && y.setsAstat).map Flight.num
def Strand.srcBlockers (t : Strand) : List Nat := (t.flights.filter fun y => y.prog != .moved && y.drawsSrc).map Flight.num

/-- Earlier instructions of the strand that a tile instruction must wait for (R79). -/
def Strand.tileBlockers (t : Strand) (x : Flight) : List Nat :=
  (t.flights.filter fun y =>
    x.dsts.any (fun r => y.dsts.any r.overlaps || y.srcs.any r.overlaps) || x.srcs.any fun r => y.dsts.any r.overlaps).map Flight.num

/-! ## Issue -/

/-- The instruction-cache lines an instruction at `pc` of `len` bytes lies in (R78). -/
def codeLines (base : Word64) (pc : Word32) (len : Nat) : List Nat :=
  let a := base.toNat + pc.toNat
  if (a + len - 1) / 64 == a / 64 then [a / 64] else [a / 64, a / 64 + 1]

/-- A resident piece of a slice loaded with CODE serves the fetch of a line (R160): its core and the line's offset there. -/
def State.codePiece (s : State) (p line : Nat) : Option (Nat × Nat) :=
  (s.pav p).slices.findSome? fun x =>
    let h := x.2.home.toNat
    if x.2.code && decide (h ≤ line * 64) && decide (line * 64 < h + x.2.pieces * 65536) then
      match Tab.find ((line * 64 - h) / 65536) x.2.resident with
      | some pc => if pc.resident then some (pc.core, pc.segment * 65536 + (line * 64 - h) % 65536) else none
      | none => none
    else none

/-- The byte of code at a DVA, as a fetch would find it now; `none` where no fetch would (R78, R160). -/
def State.codeByte (s : State) (p core a : Nat) : Option Byte :=
  match s.codePiece p (a / 64) with
  | some (c, o) => some (Mem.read s.beds.ls (lsKey c (o + a % 64)))
  | none =>
    match (s.walk (clusterOf core) p a).1 with
    | .leaf l =>
      let v := s.pav p
      if Pte.typ l.entry == 2 then
        some (Mem.read s.beds.mem (csKey v v.channels (Pte.addr l.entry + a % (if l.level == 1 then 2 ^ 29 else 65536))))
      else none
    | _ => none

/-- Sequential flow to the next instruction (R105, R111): past offset 2^32 − 8 the fetch raises ALIGN_FAULT. -/
def State.advance (s : State) (core strand len : Nat) : State :=
  let t := s.strand core strand
  let n := t.pc.toNat + len
  if n ≥ 2 ^ 32 then s.kernelFault core strand 0x07 0x00 0 n
  else s.setStrand core strand { t with pc := BitVec.ofNat 32 n }

/-- Control passes to a target offset computed on 64 bits; below 0 or at or beyond 2^32 it raises ALIGN_FAULT with the
target in DETAIL (R111). `k` is applied to the strand when the target is legal. -/
def State.jumpTo (s : State) (core strand opc : Nat) (target : Int) (k : Strand → Strand) : State :=
  if target < 0 || target ≥ 2 ^ 32 then s.kernelFault core strand 0x07 opc 0 (ofSigned 64 target)
  else s.modStrand core strand fun t => { k t with pc := BitVec.ofInt 32 target }

/-- The target of a relative branch (R111). -/
def relTarget (t : Strand) (imm : Word32) : Int := (t.pc.toNat : Int) + imm.toInt * 8

/-! ## Scratch accesses by scalar instructions (R84, R121) -/

/-- The fault of a scratch access of `w` bytes at `a`, aligned to `w`: ALIGN_FAULT before LS_BOUNDS (R152). -/
def scratchFault (v : Pav) (a w : Nat) : Option Nat :=
  if a % w != 0 then some 0x07 else if a + w > v.scratchBytes then some 0x06 else none

/-- The lowest word of SRAM with an uncorrectable error among `n` bytes at offset `o` of a local store: its offset (R175). -/
def State.badWord (s : State) (core o n : Nat) : Option Nat :=
  s.beds.lsBad.foldl (fun (m : Option Nat) w =>
    if lsKey core o / 8 ≤ w && w * 8 < lsKey core o + n then some (min (w * 8 - lsKey core 0) (m.getD (w * 8))) else m) none

/-- The access touches a word of SRAM with an uncorrectable error (R175). -/
def State.lsHurt (s : State) (core o n : Nat) : Bool := (s.badWord core o n).isSome

/-- Discard every held shadow buffer of a strand; one that an instruction in flight has matched stays for it (R96, R98). -/
def State.dropShadows (s : State) (core strand : Nat) : State :=
  s.modCore core fun c => { c with shadows := c.shadows.filter fun x => x.2.strand != strand || x.2.matched }

end Sys2Proof.Machine
end

