-- ==== Sys2Proof/Machine/Shape.lean ====
section
/-! DEFINITION. The shape table a pavilion reads in its package page (R300 to R304). -/

namespace Sys2Proof.Machine

/-- Runs of the locality map (R303): maximal runs of consecutive indices whose cores lie in one cluster, as
(first, count, cluster). -/
def mapRuns : List (Nat × Nat) → List (Nat × Nat × Nat)
  | [] => []
  | (i, c) :: rest =>
    match mapRuns rest with
    | [] => [(i, 1, clusterOf c)]
    | (f, n, k) :: rs => if k == clusterOf c && f == i + 1 then (i, n + 1, k) :: rs else (i, 1, clusterOf c) :: (f, n, k) :: rs

/-- A field of the table: offset, bytes, value. -/
abbrev ShapeField := Nat × Nat × Nat

/-- The fields of a pavilion's shape table (R301, R302) and its map (R303, R304). -/
def State.shapeFields (s : State) (p : Nat) : List ShapeField :=
  let v := s.pav p
  let own := s.coresOf p
  let n := own.length
  let pk := if v.isSpan then v.spanLast + 1 else 1
  let clusters := own.foldl (fun l x => insertUniq (clusterOf x.2) l) []
  let dies := own.foldl (fun l x => insertUniq (dieOf x.2) l) []
  let runs := mapRuns own
  let shown := runs.take 96
  let compl := b2n s.fuse.stream + 2 * b2n s.fuse.mirror + 4 * b2n s.fuse.replay
    + 16 * b2n (v.streamsGranted != 0) + 32 * b2n v.mirror + 64 * b2n v.replay
  let per := (384 - v.scr) * 65536
  [(0x000, 2, 1), (0x002, 2, b2n v.isSpan + 2 * b2n v.repro + 4 * b2n v.cycle + 8 * b2n v.conf), (0x004, 4, n * pk), (0x008, 2, 4),
   (0x00A, 2, 2048), (0x00C, 2, pk), (0x010, 4, v.scratchBytes), (0x014, 4, per), (0x018, 8, n * pk * per),
   (0x020, 4, v.shapeFw.toNat), (0x024, 4, v.shapeCmd.toNat), (0x028, 8, 100000000), (0x030, 4, n),
   (0x080, 2, v.spanRank), (0x082, 1, s.fuse.grade), (0x083, 1, compl), (0x084, 2, v.streamsGranted),
   (0x086, 2, if s.fuse.grade == 1 then 8 else 16), (0x088, 4, popcount 384 v.chMask), (0x08C, 4, popcount 384 v.chMask * v.chOwn),
   (0x090, 2, v.poolMask), (0x092, 1, shown.length), (0x093, 1, b2n (decide (runs.length > 96))), (0x094, 1, dies.length),
   (0x095, 1, clusters.length), (0x098, 4, v.epochBound.toNat)]
  ++ (List.range shown.length).map fun r =>
    let x := nthD shown r (0, 0, 0)
    (0x100 + 8 * r, 8, x.1 + x.2.1 <<< 16 + (clusters.idxOf x.2.2) <<< 24 + (dies.idxOf (x.2.2 / 16)) <<< 30)

/-- The byte at offset `o` of the package page; the rest of the page reads as zero (R300). -/
def State.shapeByte (s : State) (p o : Nat) : Byte :=
  match (s.shapeFields p).find? fun f => decide (f.1 ≤ o) && decide (o < f.1 + f.2.1) with
  | some f => BitVec.ofNat 8 (f.2.2 >>> (8 * (o - f.1)))
  | none => 0

end Sys2Proof.Machine
end

