-- ==== Sys2Proof/Machine/Pools.lean ====
section
/-! DEFINITION. State pools of this package (R310 to R317, R321, R328, R329, R335): their pages and what sessions hold of
them. -/

namespace Sys2Proof.Machine

/-- The channel-set address of a DVA in a LOCAL leaf (R187). -/
def State.dvaLocal (s : State) (p dva : Nat) : Option Nat :=
  match (s.walk 76 p dva).1 with
  | .leaf l => if Pte.typ l.entry == 2 then some (Pte.addr l.entry + dva % (if l.level == 1 then 2 ^ 29 else 65536)) else none
  | _ => none

/-- The channel-set address of a DVA in a LOCAL leaf that grants an access made on the pavilion's behalf (R191). -/
def State.dvaFor (s : State) (p dva : Nat) (a : Access) : Option Nat :=
  let w := (s.walk 76 p dva).1
  if (accessFault (s.pav p) w a).isSome then none else s.dvaLocal p dva

/-- An access on the pavilion's behalf that faults at a DVA makes or joins its page's record, the Mirror complication's bit set; a write
waits there with its bytes, a read is made again by what needs it (R191, R204, R206; notes/assumptions/87.md). -/
def State.recordAt (s : State) (p dva : Nat) (a : Access) (data : Option (Nat × List Byte)) : State :=
  match accessFault (s.pav p) (s.walk 76 p dva).1 a with
  | none => s
  | some (c, l) =>
    let page := BitVec.ofNat 64 (dva / 65536 * 65536)
    if data.isNone && (s.pav p).waiters.any (fun w => w.tunit == .mirror && w.page == page && w.data.isNone) then s
    else s.recordFault p { tunit := .mirror, page := page, cause := c, level := l, access := a.code, data := data }

/-- The first of the DVAs that the package may not read for the pavilion, its fault recorded (R191). -/
def State.deniedRead (s : State) (p : Nat) (dvas : List Nat) : Option State :=
  (dvas.find? fun d => (accessFault (s.pav p) (s.walk 76 p d).1 { rd := true }).isSome).map fun d => s.recordAt p d { rd := true } none

/-- Zero a range of the own channel set of a pavilion, by interleave units (R262). -/
def State.zeroCs (s : State) (p a n : Nat) : State :=
  let v := s.pav p
  let key := csKey v v.channels
  s.modBeds fun b =>
    let units := (List.range (ceilDiv (a % 1024 + n) 1024)).map fun i =>
      let lo := max a ((a / 1024 + i) * 1024)
      (key lo, min (a + n) ((a / 1024 + i + 1) * 1024) - lo)
    let lines := (List.range (n / 64)).map fun i => key (roundUp a 64 + 64 * i) / 64
    { b with mem := units.foldl (fun m x => Mem.clear m x.1 (x.1 + x.2)) b.mem, badLines := b.badLines.filter fun x => !lines.contains x
             listed := b.listed.filter fun x => !lines.contains x }

/-- The frame of the own channel set that an address lies in is a sealed frame: it holds a piece of the home of a loaded sealed
slice (R493), or of one that is being decrypted (DEDUCED from R470, log 33). -/
def State.sealedFrame (s : State) (p a : Nat) : Bool :=
  let holds := fun (home pieces : Nat) => (List.range pieces).any fun i =>
    ((s.dvaLocal p (home + i * 65536)).map fun b => b / 65536 == a / 65536).getD false
  ((s.pav p).slices.any fun x => x.2.key.isSome && holds x.2.home.toNat x.2.pieces)
    || s.unseals.any fun u => u.pav == p && holds u.home (u.len / 65536)

/-- A range of the own channel set touches a sealed frame. -/
def State.sealedRange (s : State) (p a n : Nat) : Bool :=
  (List.range (ceilDiv (a % 65536 + n) 65536)).any fun i => s.sealedFrame p ((a / 65536 + i) * 65536)

namespace Pool

/-- The pool is defined (R312). -/
def defined (x : Pool) : Bool := x.entry != 0
def holder (x : Pool) : Nat := bits x.entry.toNat 24 16
def window (x : Pool) : Nat := bits x.entry.toNat 43 32
def base (x : Pool) : Nat := bits x.entry.toNat 127 64
def size (x : Pool) : Nat := bits x.entry.toNat 159 128

/-- The lowest free pages of a pool: at most `need` of them among `fuel` from page `i` on. -/
def firstFree (used : Tab PoolPage) : Nat → Nat → Nat → List Nat
  | 0, _, _ => []
  | fuel + 1, i, need =>
    if need == 0 then []
    else if (Tab.find i used).isNone then i :: firstFree used fuel (i + 1) (need - 1)
    else firstFree used fuel (i + 1) need

/-- Take `n` free pages, or none where the pool lacks them. -/
def free (x : Pool) (n : Nat) : Option (List Nat) :=
  let l := firstFree x.pages x.size 0 n
  if l.length == n then some l else none

/-- The pages that a session holds here, its list pages last. -/
def pagesOf (h : Holding) : List Nat := h.pages ++ h.lists

/-- Put pages in a state for a session. -/
def mark (x : Pool) (st id : Nat) (lists pages : List Nat) : Pool :=
  let t := pages.foldl (fun t i => Tab.put i { st := st, session := id } t) x.pages
  { x with pages := lists.foldl (fun t i => Tab.put i { st := st, session := id, isList := true } t) t }

/-- Pages that a session holds take another state. -/
def restate (x : Pool) (st : Nat) (pages : List Nat) : Pool :=
  { x with pages := x.pages.map fun (y : Nat × PoolPage) => if pages.contains y.1 then (y.1, { y.2 with st := st }) else y }

end Pool

/-- A pool of this package, by index. -/
def State.pool (s : State) (i : Nat) : Pool := Tab.getD s.pools i {}
def State.modPool (s : State) (i : Nat) (f : Pool → Pool) : State := { s with pools := Tab.put i (f (s.pool i)) s.pools }
def State.holding (s : State) (i id : Nat) : Option Holding := Tab.find id (s.pool i).held
def State.modHolding (s : State) (i id : Nat) (f : Holding → Holding) : State :=
  s.modPool i fun x => { x with held := match Tab.find id x.held with | some h => Tab.put id (f h) x.held | none => x.held }

/-- The number under which a pool keeps a session's PROT pages (R335). -/
def protKey (id : Nat) : Nat := id + 2 ^ 48

/-- The directory package of a session (R318). -/
def directoryOf (id : Nat) : Nat := id / 2 ^ 36 % 4096

/-! ## Page contents -/

/-- The four 64 KiB parts of a pool page: where each lies in the holder's channel set, for an access that its leaves grant (R191, R314). -/
def State.poolParts (s : State) (i page : Nat) (a : Access) : List (Option Nat) :=
  let x := s.pool i
  (List.range 4).map fun j => s.dvaFor x.holder (x.base + page * 262144 + j * 65536) a

/-- The first of some pages of a pool that the package may not read in the holder's tables, its fault recorded (R191). -/
def State.deniedPages (s : State) (i : Nat) (pages : List Nat) : Option State :=
  let x := s.pool i
  s.deniedRead x.holder (pages.flatMap fun g => (List.range 4).map fun j => x.base + g * 262144 + j * 65536)

def State.readPoolPage (s : State) (i page : Nat) : List Byte :=
  (s.poolParts i page { rd := true }).flatMap fun a => match a with | some a => s.readCs (s.pool i).holder a 65536 | none => List.replicate 65536 0

/-- The first uncorrectable line that a read of a pool page meets, in the holder's channel set (R175). -/
def State.hurtPoolPage (s : State) (i page : Nat) : Option Nat :=
  let v := s.pav (s.pool i).holder
  let key := csKey v v.channels
  ((s.poolParts i page { rd := true }).findSome? fun a => a.bind fun a => s.beds.badIn key a 65536).map key

/-- Write bytes of a pool page, from an offset. A part of a line that holds an uncorrectable error is not written, and the holder, on
whose behalf the package writes, is killed (R170, R175); a part that its tables do not let the package write waits on a fault record
(R191). -/
def State.writePool (s : State) (i page off : Nat) (bs : List Byte) : State :=
  let parts := s.poolParts i page { wr := true }
  (List.range 4).foldl (fun s j =>
    let lo := max off (j * 65536)
    let hi := min (off + bs.length) ((j + 1) * 65536)
    match nthD parts j none with
    | some a =>
      if hi ≤ lo then s
      else
        let p := (s.pool i).holder
        let v := s.pav p
        (match s.beds.mergeBad (csKey v v.channels) (a + lo % 65536) (hi - lo) with
          | some k => s.killOwner p k
          | none => s.writeCs p (a + lo % 65536) ((bs.drop (lo - off)).take (hi - lo)))
    | none =>
      if hi ≤ lo then s
      else
        let x := s.pool i
        let d := x.base + page * 262144 + lo
        s.recordAt x.holder d { wr := true } (some (d, (bs.drop (lo - off)).take (hi - lo)))) s

def State.zeroPoolPage (s : State) (i page : Nat) : State :=
  (s.poolParts i page {}).foldl (fun s a => match a with | some a => s.zeroCs (s.pool i).holder a 65536 | none => s) s

/-- Data pages that one list page names (R328). -/
def listSpan : Nat := 65535

/-- The bytes of a list page (R328). -/
def listBytes (next : Nat) (pages : List Nat) : List Byte :=
  leBytes 4 next ++ pages.flatMap (leBytes 4) ++ List.replicate (4 * (listSpan - pages.length)) 0xFF

/-- Write the chain of list pages of a session (R328). -/
def State.writeLists (s : State) (i : Nat) (pages : List Nat) : List Nat → State
  | [] => s
  | l :: rest => State.writeLists (s.writePool i l 0 (listBytes (rest.headD 0xFFFFFFFF) (pages.take listSpan))) i (pages.drop listSpan) rest

/-! ## Taking and freeing pages (R317, R327, R329, R333) -/

/-- Zero pages of a pool (R317). -/
def State.zeroPages (s : State) (i : Nat) (ps : List Nat) : State := ps.foldl (fun s g => s.zeroPoolPage i g) s

/-- Take zeroed pages for a session in state COPY, with their page list: the root, or none where the pool is full. -/
def State.takePages (s : State) (i id n epoch : Nat) : Option (Nat × State) :=
  let lists := ceilDiv n listSpan
  match (s.pool i).free (lists + n) with
  | none => none
  | some l =>
    let ls := l.take lists
    let ps := l.drop lists
    let s1 := (s.zeroPages i l).modPool i fun x => { (x.mark 2 id ls ps) with held := Tab.put id { epoch := epoch, lists := ls, pages := ps } x.held }
    some (ls.headD 0, s1.writeLists i ps ls)

/-- Take PROT pages for a session: one for each data page, and for a mirror one for each list page (R335). -/
def State.takeProt (s : State) (i id n lists : Nat) : Option State :=
  let h := (s.holding i id).getD { epoch := 0, lists := [], pages := [] }
  match (s.pool i).free (lists + n) with
  | none => none
  | some l => some ((s.zeroPages i l).modPool i fun x =>
      let y := x.mark 4 id (l.take lists) (l.drop lists)
      { y with held := Tab.put id { h with lists := h.lists ++ l.take lists, pages := h.pages ++ l.drop lists } x.held })

/-- Append pages to a session that the pool owns (R327). -/
def State.extendPages (s : State) (i id n : Nat) : Option (Nat × State) :=
  match s.holding i id with
  | none => none
  | some h =>
    let lists := ceilDiv (h.pages.length + n) listSpan - h.lists.length
    match (s.pool i).free (lists + n) with
    | none => none
    | some l =>
      let h' := { h with lists := h.lists ++ l.take lists, pages := h.pages ++ l.drop lists }
      let s1 := (s.zeroPages i l).modPool i fun x => { (x.mark 2 id (l.take lists) (l.drop lists)) with held := Tab.put id h' x.held }
      some (h'.lists.headD 0, s1.writeLists i h'.pages h'.lists)

/-- Zero and free every page of a session in a pool (R317, R333). -/
def State.freePages (s : State) (i id : Nat) : State :=
  match s.holding i id with
  | none => s
  | some h =>
    let ps := Pool.pagesOf h
    (s.zeroPages i ps).modPool i fun x => { x with pages := x.pages.filter fun y => !ps.contains y.1, held := Tab.drop id x.held }

/-- A session keeps its first `n` data pages and `lists` list pages of a pool; the pages after them are zeroed and freed (R317). -/
def State.trimPages (s : State) (i id n lists : Nat) : State :=
  match s.holding i id with
  | none => s
  | some h =>
    let ps := h.pages.drop n ++ h.lists.drop lists
    let s1 := (s.zeroPages i ps).modPool i fun x =>
      { x with pages := x.pages.filter fun y => !ps.contains y.1, held := Tab.put id { h with pages := h.pages.take n, lists := h.lists.take lists } x.held }
    if id < 2 ^ 48 then s1.writeLists i (h.pages.take n) (h.lists.take lists) else s1

/-- Every page of the session takes a state; a page stays changed since the last Mirror update (R336). -/
def State.markHolding (s : State) (i id st : Nat) : State :=
  match s.holding i id with
  | none => s
  | some h => s.modPool i fun x => x.restate st (Pool.pagesOf h)

/-- Session pages, by index, count as changed since the last Mirror update (R336). -/
def State.markDirty (s : State) (i id : Nat) (ix : List Nat) : State :=
  match s.holding i id with
  | none => s
  | some h =>
    let ps := ix.filterMap fun j => h.pages[j]?
    s.modPool i fun x => { x with pages := x.pages.map fun (y : Nat × PoolPage) => if ps.contains y.1 then (y.1, { y.2 with dirty := true }) else y }

/-- The package to which a pool reports of a directory's sessions: the one that last renewed it (R323, R324). -/
def State.directorAt (s : State) (i id : Nat) : Nat := Tab.getD (s.pool i).dirs (directoryOf id) (directoryOf id)

/-- Session pages written since the last update, by index and pool page (R336). -/
def State.dirtyIndices (s : State) (i id : Nat) : List (Nat × Nat) :=
  match s.holding i id with
  | none => []
  | some h => (h.pages.zipIdx.filter fun x => (Tab.getD (s.pool i).pages x.1 { st := 0, session := 0 }).dirty).map fun x => (x.2, x.1)

/-! ## Serving (R316, R321) -/

/-- The pool's lease from a session's directory has not lapsed (R321). -/
def State.leased (s : State) (i id : Nat) : Bool :=
  match Tab.find (directoryOf id) (s.pool i).leases with
  | some t => decide (s.now.toNat < t.toNat + 200000)
  | none => false

/-- The pool serves a page's session: it is OWNED at the epoch that the directory last sent, under a live lease, and no page waits
to be restored (R321, R339). -/
def State.servesPage (s : State) (i : Nat) (g : PoolPage) : Bool :=
  g.st == 1 && ((s.holding i g.session).map fun h => h.own && !h.restore).getD false && s.leased i g.session

/-- The pool whose window this is (R311, R314). -/
def State.poolOfWindow (s : State) (w : Nat) : Option Nat := (s.pools.find? fun x => x.2.defined && x.2.window == w).map Prod.fst

/-- A tile request for pages of a pool's window is refused: the reason and the offset page (R316, R317). -/
def State.poolRefusal (s : State) (w : Nat) (pages : List Nat) (wr : Bool) : Option (Nat × Nat) :=
  match s.poolOfWindow w with
  | none => none
  | some i =>
    let at' := fun (pg : Nat) => Tab.getD (s.pool i).pages (pg / 4) { st := 0, session := 0 }
    match pages.find? fun pg => wr && (at' pg).st == 1 && (at' pg).isList with
    | some pg => some (0x04, pg)
    | none => (pages.find? fun pg => !s.servesPage i (at' pg)).map fun pg => (0x07, pg)

end Sys2Proof.Machine
end

