-- ==== Sys2Proof/Machine/Bulk.lean ====
section
/-! DEFINITION. Location codes (R23) and the bulk message: its sources, virtual channel, flits and header (R235 to R239). -/

namespace Sys2Proof.Machine

/-! ## Location codes (R23) -/

/-- A location code of KIND, DIE and INDEX. -/
def locOf (kind die index : Nat) : Nat := kind <<< 12 + die <<< 10 + index
/-- KIND, DIE and INDEX of a location code. -/
def locKind (l : Nat) : Nat := l / 4096
def locDie (l : Nat) : Nat := bits l 11 10
def locIndex (l : Nat) : Nat := bits l 9 0

def clusterLoc (k : Nat) : Nat := locOf 1 (k / 16) (k % 16)
def controllerLoc (bed : Nat) : Nat := locOf 2 (bed / 12) (bed % 12)
def routerLoc (k : Nat) : Nat := locOf 5 (k / 16) (k % 16)
/-- The bridge edge of a die: 0 east–west, 1 north–south. -/
def edgeLoc (die axis : Nat) : Nat := locOf 6 die axis
def infraLoc (die : Nat) : Nat := locOf 7 die 0
def engineLoc (e : Nat) : Nat := locOf 9 (e / 16) (e % 16)

/-- The code names a unit: its KIND is used, its INDEX is one of the KIND's, and unused bits are zero (R23). -/
def locValid (l : Nat) : Bool :=
  let i := locIndex l
  match locKind l with
  | 0 => decide (i < 512) && decide (i % 32 ≤ 16)
  | 1 | 5 | 9 => decide (i < 16)
  | 2 => decide (i < 12)
  | 3 => decide (i < 96)
  | 4 => decide (i < 16) && i / 4 == locDie l
  | 6 => decide (i < 2)
  | 7 => i == 0
  | 8 => locDie l == 0 && decide (i < 15)
  | _ => false

/-- The code names a unit with on-package links: a cluster unit, a mesh router, a bridge edge or a die's infrastructure, which holds
the control rings and sync hubs (R229, R511, R516). DEDUCED (notes/assumptions/78.md). -/
def locOfLink (l : Nat) : Bool := locValid l && [1, 5, 6, 7].contains (locKind l)

/-! ## Sources (R239) -/

/-- The source of a message within its pavilion. -/
inductive BulkSource where
  /-- the core's position among the pavilion's cores of the package, in ascending logical index -/
  | core (position : Nat)
  | hostMover (n : Nat)
  | engine (e : Nat)
  | mirror
  | replay
  | fill
  deriving DecidableEq, Repr

/-- The code of a source (R239). -/
def BulkSource.code : BulkSource → Nat
  | .core i => i % 1024
  | .hostMover n => 1024 + n % 8
  | .engine e => 1032 + e % 64
  | .mirror => 1096
  | .replay => 1097
  | .fill => 1098

/-- Stream id of a source of a pavilion. -/
def pavStream (p : Nat) (x : BulkSource) : BitVec 20 := BitVec.ofNat 20 (p * 2048 + x.code)

/-- Location code of the control processor (R23). -/
def controlProcessor : Nat := 0x8000

end Sys2Proof.Machine

/-! ## Messages (R235, R237, R238) -/

namespace Sys2Proof

open Sys2Proof.Machine

/-- KIND of a bulk message (R238): read, write, reply, acknowledge, TSEND, window read, window write, walk. -/
def BulkMsg.isReply (m : BulkMsg) : Bool := m.kind == 2 || m.kind == 3

/-- Source code of a message of a pavilion (R239). -/
def BulkMsg.source (m : BulkMsg) : Nat := m.stream.toNat % 2048

/-- The virtual channel that the kind of a message fixes (R235): replies in VC 0, stream-engine requests in VC 1, every other request
in VC 2, and copies of state by the package itself in VC 3. -/
def BulkMsg.channel (m : BulkMsg) : BitVec 2 :=
  if m.isReply then 0
  else if m.sys then (if m.background then 3 else match m.pool with | some x => if x.op == PoolOp.fill then 3 else 2 | none => 2)
  else if decide (1032 ≤ m.source) && decide (m.source < 1096) then 1 else 2

/-- Payload bytes of a message: its data, and eight for each word of the session protocol that it carries (R237; DESIGN CHOICE,
notes/assumptions/78.md). -/
def BulkMsg.bytes (m : BulkMsg) : Nat := m.payload.length + 8 * (match m.pool with | some x => x.words.length | none => 0)

/-- Payload flits of a message: 128 B each (R237). -/
def BulkMsg.flits (m : BulkMsg) : Nat := ceilDiv m.bytes 128

/-- A message as R235 to R239 have it: a KIND that exists, at most 32 payload flits, the virtual channel of its kind, a source that
exists, and no winding if it is the package's own. -/
def BulkMsg.formed (m : BulkMsg) : Bool :=
  decide (m.kind.toNat ≤ 7) && decide (m.flits ≤ 32) && m.vc == m.channel
    && (if m.sys then m.winding == 0 && decide (m.stream.toNat < 65536) && locKind m.stream.toNat == 8 && locValid m.stream.toNat else decide (m.source ≤ 1098))

/-- The header flit of a message (R238). -/
def BulkMsg.header (m : BulkMsg) : BitVec 128 :=
  BitVec.ofNat 128 (m.stream.toNat + m.seq.toNat <<< 20 + m.winding.toNat <<< 52 + b2n m.sys <<< 68 + m.vc.toNat <<< 69 + m.dstPkg.toNat <<< 71
    + m.dstLoc.toNat <<< 83 + m.kind.toNat <<< 99 + m.flits <<< 104 + m.srcPkg.toNat <<< 110)

end Sys2Proof
end

