-- ==== Sys2Proof/Machine/Flits.lean ====
section
/-! DEFINITION. Flits of a Duncy port (R348 to R352): their CRC, the packing of messages into them, and the flits that a port sends. -/

namespace Sys2Proof.Machine

/-! ## CRC-64 (R348) -/

/-- The polynomial of ECMA-182. -/
def ecma182 : Nat := 0x42F0E1EBA9EA3693

/-- Take the next bit of a byte, the highest first. -/
def crcBit (c : Nat) : Nat := if c.testBit 63 then (c * 2 % 2 ^ 64) ^^^ ecma182 else c * 2 % 2 ^ 64

/-- Take the next byte. -/
def crcByte (c : Nat) (b : Byte) : Nat := (List.range 8).foldl (fun c _ => crcBit c) (c ^^^ (b.toNat <<< 56))

/-- CRC-64 of bytes: from zero, and not inverted at its end (DESIGN CHOICE, notes/assumptions/85.md). -/
def crc64 (bs : List Byte) : Nat := bs.foldl crcByte 0

end Sys2Proof.Machine

namespace Sys2Proof

open Sys2Proof.Machine

/-- Bytes 0 to 15 of a flit of a TYPE (R348). -/
def FlitBits.head (f : FlitBits) (typ : Nat) : List Byte :=
  [BitVec.ofNat 8 (typ % 16 + f.vc % 4 * 16), BitVec.ofNat 8 (f.creditVc % 4 + f.credits % 64 * 4)] ++ leBytes 2 f.fseq ++ leBytes 2 f.ack ++ List.replicate 10 0

/-- The CRC of a flit of a TYPE is right (R348). -/
def FlitBits.crcOk (f : FlitBits) (typ : Nat) : Bool := crc64 (f.head typ ++ f.payload) == f.crc.toNat

/-- A receiver takes a flit whose CRC is right and whose FEC codewords were all corrected (R349). -/
def FlitBits.good (f : FlitBits) (typ : Nat) : Bool := f.crcOk typ && f.fecBad == 0

end Sys2Proof

namespace Sys2Proof.Machine

/-! ## What a port sends -/

/-- The link VC of a bulk message (R351). -/
def linkVc (m : BulkMsg) : Nat := if m.vc == 0 then 1 else if m.vc == 3 then 3 else 2

/-- Bytes of a message on a link: its header and its payload flits (R238, R349). -/
def linkBytes (m : BulkMsg) : Nat := 16 + 128 * m.flits

/-- Payload bytes of a flit (R348), flits that a sender keeps (R349), and messages of a SYNC flit (R351). -/
def flitBytes : Nat := 232
def keptFlits : Nat := 512
def syncPerFlit : Nat := 7

/-- Flits that a receiver holds for a link VC (R350). -/
def creditMax (vc : Nat) : Nat := if vc == 0 then 8 else 64

/-- The owner of a slot of the calendar (R351). -/
def linkCalendar (slot : Nat) : Nat := if slot ≥ 14 then 3 else if slot % 3 == 0 then 1 else 2

namespace Port

/-- The next message of a link VC: in link VC 2, an ISO message before a REQUEST (R351). -/
def waiting (x : Port) (vc : Nat) : Option BulkMsg :=
  let mine := x.queued.filter fun m => linkVc m == vc
  match mine.find? fun m => m.vc == 1 with
  | some m => some m
  | none => mine.head?

/-- The port holds credit for a link VC (R350). -/
def paid (x : Port) (vc : Nat) : Bool := decide (0 < nthD x.credits vc 0)

/-- A link VC from 1 to 3 has a flit to send, and credit for it. -/
def ready (x : Port) (vc : Nat) : Bool := x.paid vc && ((Tab.find vc x.part).isSome || (x.waiting vc).isSome)

/-- Which flit comes next: 4 stands for a LINK flit, which needs no credit; link VC 0 comes before the others (R351, R352). -/
def choose (x : Port) : Option Nat :=
  if x.kept.length ≥ keptFlits then none
  else if x.control.head? == some 3 then some 4
  else if x.paid 0 && (!x.control.isEmpty || !x.syncQueue.isEmpty) then some 0
  else if x.ready (linkCalendar x.slot) then some (linkCalendar x.slot)
  else [1, 2, 3].find? x.ready

/-- Pack the messages of a link VC back to back into `room` bytes: the port after, and the messages that end there (R349). -/
def pack (x : Port) (vc room : Nat) : Nat → Port × List BulkMsg
  | 0 => (x, [])
  | fuel + 1 =>
    let cur := match Tab.find vc x.part with
      | some c => some (c, x.queued)
      | none => (x.waiting vc).map fun m => ((m, 0), x.queued.erase m)
    match cur with
    | none => (x, [])
    | some ((m, n), rest) =>
      let left := linkBytes m - n
      if room == 0 then (x, [])
      else if left ≤ room then
        let q := pack { x with queued := rest, part := Tab.drop vc x.part } vc (room - left) fuel
        (q.1, m :: q.2)
      else ({ x with queued := rest, part := Tab.put vc (m, n + room) x.part }, [])

/-- A flit leaves: it takes the next FSEQ, and is kept until it is acknowledged (R348, R349). -/
def keep (x : Port) (typ : Nat) (msgs : List BulkMsg) (items : List SyncItem) : Port :=
  { x with nextSeq := x.nextSeq + 1, kept := x.kept ++ [⟨x.nextSeq, typ, msgs, items⟩] }

/-- A flit of a link VC takes its credit (R350). -/
def pay (x : Port) (vc : Nat) : Port := { x with credits := setNth x.credits vc (nthD x.credits vc 0 - 1) }

/-- The port sends one flit, if it has one that may go. -/
def emit (x : Port) : Option Port :=
  x.choose.map fun vc =>
    if vc == 4 then { x with control := x.control.drop 1 }.keep 3 [] []
    else if vc == 0 then
      if x.control.isEmpty then (({ x with syncQueue := x.syncQueue.drop syncPerFlit }.pay 0).keep 2 [] (x.syncQueue.take syncPerFlit))
      else ({ x with control := x.control.drop 1 }.pay 0).keep 4 [] []
    else
      let q := x.pack vc flitBytes 16
      ({ q.1 with slot := (x.slot + 1) % 16 }.pay vc).keep 1 q.2 []

/-- The port sends what it may: every flit leaves as soon as it has credit and room to be kept (DESIGN CHOICE,
notes/assumptions/85.md). -/
def pump : Nat → Port → Port
  | 0, x => x
  | fuel + 1, x => match x.emit with | some y => pump fuel y | none => x

/-- Flits that a port can send at once: no more than it keeps. -/
def sends (x : Port) : Port := pump keptFlits x

/-- The peer has received every flit up to an FSEQ (R349): those flits are kept no longer. -/
def acknowledge (x : Port) (fseq : Nat) : Port :=
  match x.kept with
  | [] => x
  | k :: _ =>
    let n := (BitVec.ofNat 16 fseq + 1 - k.fseq).toNat
    if n ≤ x.kept.length then { x with kept := x.kept.drop n } else x

/-- Credits come back for a link VC, up to what the receiver holds (R350). -/
def credit (x : Port) (vc n : Nat) : Port := { x with credits := setNth x.credits vc (min (creditMax vc) (nthD x.credits vc 0 + n)) }

/-- Messages that are queued or stand in flits not acknowledged, oldest first (R356). -/
def items (x : Port) : List SyncItem := x.kept.flatMap KeptFlit.items ++ x.syncQueue
def bulk (x : Port) : List BulkMsg := x.kept.flatMap KeptFlit.msgs ++ x.part.map (fun y => y.2.1) ++ x.queued

end Port

end Sys2Proof.Machine
end

