-- ==== Sys2Proof/Machine/Mesh.lean ====
section
/-! DEFINITION. Paths over a package: bridge edges and diagonal dies (R14), the cluster mesh (R230, R232), express channels (R233),
and the calendar that every arbitration point follows (R236). Clusters, and their routers, are numbered 0 to 63 over the package. -/

namespace Sys2Proof.Machine

/-! ## The mesh of a die (R230, R232) -/

/-- Row and column of a cluster of a die (R230). -/
def meshRow (c : Nat) : Nat := c % 8 / 2
def meshCol (c : Nat) : Nat := 2 * (c / 8) + c % 2
/-- The cluster of a die at a row and column. -/
def clusterAt (row col : Nat) : Nat := col / 2 * 8 + row * 2 + col % 2

/-- Numbers from `a` to `b`, both included, up or down. -/
def walkTo (a b : Nat) : List Nat :=
  if a ≤ b then (List.range (b - a + 1)).map (a + ·) else (List.range (a - b + 1)).map (a - ·)

/-- Routers that a message passes within a die: along its row to the destination's column, then along that column (R232). -/
def meshPath (a b : Nat) : List Nat :=
  let d := a / 16 * 16
  let row := meshRow (a % 16)
  let col := meshCol (b % 16)
  ((walkTo (meshCol (a % 16)) col).map fun c => d + clusterAt row c) ++ ((walkTo row (meshRow (b % 16))).drop 1).map fun r => d + clusterAt r col

/-- The message crosses the seam between two neighbouring routers, on the crossing of their row (R16, R230). -/
def seamCrossing (a b : Nat) : Option Nat :=
  if a / 16 == b / 16 && a % 16 / 8 != b % 16 / 8 then some (meshRow (a % 16)) else none

/-- The router at whose outer edge a unit is a stop (R232): column 0 of the west half, column 3 of the east half. The spec gives no row
for a stop: it is a free value (notes/assumptions/78.md). -/
def stopRouter (die half loc : Nat) : Nat := die * 16 + clusterAt (Config.stopRow loc % 4) (3 * half)

/-- The router that serves a unit; none for units of a die's infrastructure or of the package region. -/
def unitRouter (loc : Nat) : Option Nat :=
  let d := locDie loc
  let i := locIndex loc
  match locKind loc with
  | 0 => some (d * 16 + i / 32)
  | 1 | 5 => some (d * 16 + i)
  | 2 => some (stopRouter d (i / 6) loc)
  | 3 => some (stopRouter d (i / 8 / 6) (controllerLoc (d * 12 + i / 8)))
  | 4 => some (stopRouter d (i % 4 / 2) loc)
  | 9 => some (stopRouter d (i / 8) (engineLoc (d * 16 + i / 8 * 8)))
  | _ => none

/-! ## Dies (R14, R233) -/

/-- The dies that a bridge edge joins: 0 and 1 east–west, 2 and 3 north–south (R532). -/
def edgeDies (e : Nat) : Nat × Nat := match e with | 0 => (0, 1) | 1 => (2, 3) | 2 => (0, 2) | _ => (1, 3)

/-- The bridge edge between neighbouring dies. -/
def edgeBetween (a b : Nat) : Nat := if a / 2 == b / 2 then a / 2 else 2 + a % 2

/-- Dies that traffic passes, from the first to the last: to the diagonal die it turns first east–west (R14). -/
def diePath (a b : Nat) : List Nat := if a == b then [a] else if a + b == 3 then [a, a / 2 * 2 + (1 - a % 2), b] else [a, b]

/-- Bridge edges that traffic from one die to another crosses. -/
def edgesOf (a b : Nat) : List Nat := ((diePath a b).zip ((diePath a b).drop 1)).map fun x => edgeBetween x.1 x.2

/-! ## Paths (R231 to R233) -/

/-- An arbitration point of the bulk network (R236). -/
inductive Hop where
  /-- the crossbar port of a core, by its location code -/
  | port (core : Nat)
  /-- the mover of a cluster, between its crossbar and its router (R231) -/
  | mover (cluster : Nat)
  /-- the mesh link from one router to its neighbour; between the halves it is a seam bridge -/
  | link (a b : Nat)
  /-- one of the two links of the express channel of a cluster's router to an edge, or from it -/
  | express (cluster edge : Nat) (out : Bool) (lane : Nat)
  /-- the own seam bridge of such an express channel -/
  | seam (cluster edge : Nat) (out : Bool)
  /-- a bridge module of an edge, towards a die -/
  | bridge (edge die module : Nat)
  deriving DecidableEq, Repr

/-- Number of an arbitration point. -/
def Hop.code : Hop → Nat
  | .port l => l
  | .mover k => 2 ^ 16 + k
  | .link a b => 2 ^ 17 + a * 64 + b
  | .express k e out i => 2 ^ 18 + ((k * 4 + e) * 2 + (if out then 1 else 0)) * 2 + i
  | .seam k e out => 2 ^ 19 + (k * 4 + e) * 2 + (if out then 1 else 0)
  | .bridge e d i => 2 ^ 20 + (e * 4 + d) * 64 + i

/-- The express channel of a cluster to an edge crosses the seam: the east–west edge lies in the half that faces the other die, and the
cluster in the other (R233). Of a north–south edge the spec names no half: no channel to it crosses (DESIGN CHOICE,
notes/assumptions/78.md). -/
def expressSeam (k e : Nat) : Bool := decide (e < 2) && k % 16 / 8 != 1 - k / 16 % 2

/-- The path of flit `i` from one router to another: the mesh within a die; to another die the express channel of the first cluster,
the edges, and the express channel of the last, each with its own seam bridge where it crosses the seam (R232, R233). Its flits take
the two links of a channel, and the 40 modules of an edge, in turn (DESIGN CHOICE, notes/assumptions/78.md). -/
def routerHops (a b i : Nat) : List Hop :=
  if a == b then []
  else if a / 16 == b / 16 then ((meshPath a b).zip ((meshPath a b).drop 1)).map fun x => .link x.1 x.2
  else
    let ds := diePath (a / 16) (b / 16)
    let es := edgesOf (a / 16) (b / 16)
    let e := es.headD 0
    let f := es.getLastD 0
    [.express a e true (i % 2)] ++ (if expressSeam a e then [.seam a e true] else [])
      ++ ((es.zip (ds.drop 1)).map fun x => Hop.bridge x.1 x.2 (i % 40))
      ++ (if expressSeam b f then [.seam b f false] else []) ++ [.express b f false (i % 2)]

/-- The crossbar port and mover of a core; nothing of another unit. -/
def crossbarOf (loc : Nat) : List Hop := if locKind loc == 0 then [.port loc, .mover (locDie loc * 16 + locIndex loc / 32)] else []

/-- Two cores of one cluster: their transfers go over the crossbar alone (R101). -/
def sameCrossbar (src dst : Nat) : Bool := locKind src == 0 && locKind dst == 0 && src / 32 == dst / 32

/-- The path of flit `i` between two units, by location code (R101, R232, R233). A unit of the package region is no stop of a mesh. -/
def hopsOf (src dst i : Nat) : List Hop :=
  if src == dst then []
  else if sameCrossbar src dst then [.port src, .port dst]
  else match unitRouter src, unitRouter dst with
    | some a, some b => crossbarOf src ++ routerHops a b i ++ (crossbarOf dst).reverse
    | _, _ => []

/-- Routers that the path between two units crosses: none between the cores of a cluster (R101). Traffic to another die uses those of
its source and destination only, and no mesh of a die between them (R233). -/
def routersOf (src dst : Nat) : List Nat :=
  if src == dst || sameCrossbar src dst then []
  else match unitRouter src, unitRouter dst with
    | some a, some b => if a / 16 == b / 16 then meshPath a b else [a, b]
    | _, _ => []

/-! ## The calendar (R236) -/

/-- The virtual channel that owns a slot of the calendar. -/
def calendarOwner (slot : Nat) : Option Nat :=
  match slot % 32 with
  | 7 | 23 => none
  | 15 | 31 => some 3
  | n => if n % 4 == 0 then some 0 else if n % 4 == 2 then some 1 else some 2

/-- Longest distance between slots of a virtual channel (R237). -/
def calendarGap (vc : Nat) : Nat := if vc == 3 then 16 else 4

/-- Flits that an input holds for each virtual channel (R236). -/
def inputFlits : Nat := 16

namespace Arbiter
/-- The first input that has a flit of a virtual channel, the model's choice among them (R236 names none; notes/assumptions/78.md). -/
def input (x : Arbiter) (vc : Nat) : Option (Nat × List (List Flit)) := x.queues.find? fun q => !(nthD q.2 vc []).isEmpty

/-- The virtual channel has a flit ready and credit downstream. -/
def ready (x : Arbiter) (vc : Nat) : Bool := (x.input vc).isSome && decide (0 < nthD x.credits vc 0)

/-- The virtual channel that sends in the current slot: its owner if it is ready, else the ready one of highest priority (R236). -/
def grant (x : Arbiter) : Option Nat :=
  match calendarOwner x.slot with
  | some v => if x.ready v then some v else (List.range 4).find? x.ready
  | none => (List.range 4).find? x.ready

/-- One slot: a flit of the channel granted leaves against a credit. -/
def tick (x : Arbiter) : Arbiter :=
  let y := { x with slot := (x.slot + 1) % 32 }
  match x.grant with
  | none => y
  | some v => match x.input v with
    | none => y
    | some q =>
      let rest := setNth q.2 v ((nthD q.2 v []).drop 1)
      { y with queues := if rest.all List.isEmpty then Tab.drop q.1 x.queues else Tab.put q.1 rest x.queues
               credits := setNth x.credits v (nthD x.credits v 0 - 1) }

/-- A flit joins the queue of its input, if that holds fewer than 16 of its channel. -/
def take (x : Arbiter) (i vc : Nat) (f : Flit) : Option Arbiter :=
  let q := Tab.getD x.queues i [[], [], [], []]
  if (nthD q vc []).length < inputFlits then some { x with queues := Tab.put i (setNth q vc (nthD q vc [] ++ [f])) x.queues } else none

/-- The next point has passed a flit on and returns its credit. -/
def credit (x : Arbiter) (vc : Nat) : Arbiter := { x with credits := setNth x.credits vc (min inputFlits (nthD x.credits vc 0 + 1)) }

/-- Slots pass until nothing waits or `fuel` slots are over; what leaves is passed on at once by the next point. -/
def drain : Nat → Arbiter → Arbiter
  | 0, x => x
  | fuel + 1, x => match x.grant with
    | none => x
    | some v => drain fuel (x.tick.credit v)

/-- A flit crosses the point from an input: it joins the queue and leaves in the slot that the calendar gives. -/
def pass (x : Arbiter) (i vc : Nat) (f : Flit) : Arbiter := match x.take i vc f with | some y => drain (calendarGap vc) y | none => x
end Arbiter

/-- A flit crosses the points of its path, each from the one before. -/
def passFlit (t : Tab Arbiter) (vc : Nat) (f : Flit) (hs : List Hop) : Tab Arbiter :=
  (hs.foldl (fun (y : Tab Arbiter × Nat) h => (Tab.mod y.1 h.code {} fun x => x.pass y.2 vc f, h.code)) (t, 2 ^ 21)).1

/-- The flits of `n` payload bytes between two units: messages of at most 4 KiB, each a header and its payload flits (R237). -/
def flitList (m : BulkMsg) (n : Nat) : List Flit :=
  (List.range (max 1 (ceilDiv n 4096))).flatMap fun j =>
    (List.range (1 + ceilDiv (min 4096 (n - j * 4096)) 128)).map fun i => ⟨m.stream, m.seq + BitVec.ofNat 32 j, i⟩

/-- The pavilion of this package whose traffic a message is (R239). -/
def State.trafficOf (s : State) (m : BulkMsg) : Option Nat :=
  if m.sys || m.srcPkg != (s.regs.pkgId.getD 0) then none else some (m.stream.toNat / 2048)

/-- Traffic of a pavilion, or of the package (none), crosses routers: CYCLE pavilions of others with cores there are no longer
repeatable (R564). -/
def State.crosses (s : State) (p : Option Nat) (src dst : Nat) : State :=
  let ps := (s.pavs.filter fun x => x.2.bound && x.2.cycle && some x.1 != p).map Prod.fst
  (ps.filter fun q => (s.coresOf q).any fun x => (routersOf src dst).contains (clusterOf x.2)).foldl (fun s q => s.unrepeatable q 5) s

/-- A message with `n` payload bytes crosses the arbitration points and routers from one unit to another (R232, R233, R236). -/
def State.carry (s : State) (m : BulkMsg) (src dst n : Nat) : State :=
  (s.crosses (s.trafficOf m) src dst).modNet fun x =>
    { x with arbiters := (flitList m n).foldl (fun t f => passFlit t m.vc.toNat f (hopsOf src dst f.part)) x.arbiters }

/-- A message that a unit of the package sends within it (R235, R238, R239): for a pavilion or for the package itself. -/
def State.inside (s : State) (p : Option Nat) (stream : BitVec 20) (kind dst : Nat) (background : Bool) : BulkMsg :=
  let own := s.regs.pkgId.getD 0
  let m : BulkMsg := { stream := stream, sys := p.isNone, winding := (p.map fun q => (s.pav q).winding).getD 0, dstPkg := own, srcPkg := own
                       kind := BitVec.ofNat 5 kind, dstLoc := BitVec.ofNat 16 dst, background := background }
  { m with vc := m.channel }

/-- A read (KIND 0, or a walk) or a write (KIND 1) of `n` bytes within the package: the request goes to its unit, and the data or the
acknowledgement come back in VC 0 (R235, R242). -/
def State.exchange (s : State) (m : BulkMsg) (src n : Nat) : State :=
  let wr := m.kind == 1 || m.kind == 4
  (s.carry m src m.dstLoc.toNat (if wr then n else 0)).carry
    { m with kind := if wr then 3 else 2, vc := 0, dstLoc := BitVec.ofNat 16 src } m.dstLoc.toNat src (if wr then 0 else n)

/-- Channels that hold bytes of a pavilion's channel set, and how many (R169, R262). -/
def State.setUnits (s : State) (q a n : Nat) : List (Nat × Nat) :=
  let v := s.pav q
  (List.range ((a % 1024 + n + 1023) / 1024)).map fun i =>
    let lo := max a ((a / 1024 + i) * 1024)
    (channelLoc (csKey v v.channels lo / 2 ^ 33), min (a + n) ((a / 1024 + i + 1) * 1024) - lo)

/-- Traffic of a pavilion's source between a unit and bytes of its channel set. -/
def State.setTraffic (s : State) (p : Nat) (x : BulkSource) (wr : Bool) (loc a n : Nat) : State :=
  (s.setUnits p a n).foldl (fun s u => s.exchange (s.inside (some p) (pavStream p x) (if wr then 1 else 0) u.1 false) loc u.2) s

/-- Traffic of the package itself in the background, from one unit to another (R235). -/
def State.background (s : State) (src dst n : Nat) : State :=
  s.exchange (s.inside none (BitVec.ofNat 20 controlProcessor) 1 dst true) src n

end Sys2Proof.Machine
end

