-- ==== Sys2Proof/Machine/Route.lean ====
section
/-! DEFINITION. Routes to other packages (R353, R354, R357) and the numbering of requests (R240, R241). -/

namespace Sys2Proof.Machine

/-- A Duncy port. -/
def State.port (s : State) (p : Nat) : Port := Tab.getD s.ports p {}
def State.setPort (s : State) (p : Nat) (x : Port) : State := { s with ports := Tab.put p x s.ports }

/-- The package's own id, 0 until it is written (R353). -/
def State.ownPkg (s : State) : Nat := (s.regs.pkgId.map BitVec.toNat).getD 0

/-- The port is UP. -/
def State.portUp (s : State) (p : Nat) : Bool := (s.port p).st == 2

/-- The port by which a message for another package leaves (R353, R354). -/
def State.routeTo (s : State) (d : Nat) : Option Nat :=
  let e := (Tab.getD s.links.routes d 0).toNat
  if s.regs.pkgId.isNone || d == s.ownPkg then none
  else if bitAt e 4 && s.portUp (bits e 3 0) then some (bits e 3 0)
  else if bitAt e 12 && s.portUp (bits e 11 8) then some (bits e 11 8)
  else none

/-- The route to a package that takes part in windows, spans and pools: none until this package is SYNC (R361, R376). -/
def State.reach (s : State) (d : Nat) : Option Nat := if s.links.tsync.sync then s.routeTo d else none

/-- A bulk message for another package joins the queue of its port, or is dropped for want of a route (R354, R357). -/
def State.sendOut (s : State) (m : BulkMsg) : State :=
  match s.routeTo m.dstPkg.toNat with
  | some p => let x := s.port p; s.setPort p { x with queued := x.queued ++ [m] }.sends
  | none => { s with links := { s.links with dropped := s.links.dropped + 1 } }

/-- Messages of link VC 0 that leave a port as it sends. -/
def newItems (old new : Port) : List (Nat × SyncMsg) := ((new.kept.drop old.kept.length).flatMap KeptFlit.items).map fun i => (i.dst, i.msg)

/-- A port takes a new state, and sends what it may. -/
def State.sendPort (s : State) (p : Nat) (x : Port) : State :=
  let y := x.sends
  { s.setPort p y with links := { s.links with syncOut := s.links.syncOut ++ newItems x y } }

/-- A message of link VC 0 leaves by its route, or is dropped for want of one; it gathers the delay of the hop (R354, R357, R370). -/
def State.syncForward (s : State) (i : SyncItem) : State :=
  match s.routeTo i.dst with
  | some p => let x := s.port p; s.sendPort p { x with syncQueue := x.syncQueue ++ [{ i with delay := i.delay + x.latency.toNat + 25 }] }
  | none => { s with links := { s.links with dropped := s.links.dropped + 1 } }

/-- Send a message of link VC 0 to another package (R351, R369). -/
def State.syncSend (s : State) (pkg : Nat) (m : SyncMsg) : State :=
  if (s.routeTo pkg).isNone then { s with links := { s.links with dropped := s.links.dropped + 1 } }
  else
    let n := Tab.getD s.links.syncNo pkg 0
    ({ s with links := { s.links with syncNo := Tab.put pkg (n + 1) s.links.syncNo } }).syncForward
      { src := s.ownPkg, dst := pkg, boot := s.links.boots, no := n, msg := m }

/-- A message comes for the first time: what has come, with it; none for a second copy (R356). -/
def SyncGot.take (g : SyncGot) (boot no : Nat) : Option SyncGot :=
  let g := if g.boot == boot then g else { boot := boot }
  if no < g.next || g.more.contains no then none
  else
    let l := no :: g.more
    let n := l.foldl (fun n _ => if l.contains n then n + 1 else n) g.next
    some { g with next := n, more := l.filter fun x => decide (n ≤ x) }

/-- Key of the numbering of a source's requests to a destination unit (R240). -/
def seqKey (m : BulkMsg) : Nat := m.stream.toNat * 2 ^ 29 + b2n m.sys * 2 ^ 28 + m.dstPkg.toNat * 2 ^ 16 + m.dstLoc.toNat

/-- A request of the pair that is numbered, and not answered. -/
def Sent.openIn (x : Sent) (k : Nat) : Bool := seqKey x.msg == k && x.msg.kind != 4 && x.got.isNone

/-- Requests of a pair that have left their source and are not answered. -/
def State.unanswered (s : State) (k : Nat) : Nat := (s.net.sent.filter fun x => x.openIn k && x.out).length

/-- A message leaves a unit by the path to its port, and joins the port's queue (R232, R236, R354). -/
def State.leave (s : State) (src : Nat) (m : BulkMsg) : State :=
  match s.routeTo m.dstPkg.toNat with
  | some p => (s.carry m src (portLoc p) m.bytes).sendOut m
  | none => s.sendOut m

/-- A message that came in by a port goes on to the unit it is for (R232). -/
def State.enter (s : State) (port : Nat) (m : BulkMsg) : State :=
  if m.dstPkg.toNat == s.ownPkg then s.carry m (portLoc port) m.dstLoc.toNat m.bytes else s

/-- A unit answers a request: the answer leaves from where the request was for (R232, R242). -/
def State.answerOut (s : State) (m a : BulkMsg) : State := s.leave m.dstLoc.toNat a

/-- Location code of the unit that sent a request. -/
def Sent.source (q : Sent) : Nat := if q.core < 1088 then coreLoc q.core else controlProcessor

/-- Number a request and send it, or keep it until fewer than 64 of its pair are unacknowledged; the requester keeps it until it is
answered (R240, R241, R356). -/
def State.request (s : State) (q : Sent) : State :=
  let k := seqKey q.msg
  let n := Tab.getD s.net.nextSeq k 0
  let m := { q.msg with seq := n }
  let free := decide (s.unanswered k < 64)
  let s1 := s.modNet fun x => { x with sent := x.sent ++ [{ q with msg := m, out := free }], nextSeq := Tab.put k (n + 1) x.nextSeq }
  if free then s1.leave q.source m else s1

/-- Mark the first request of a list that has not left. -/
def sendFirst (k : Nat) : List Sent → List Sent
  | [] => []
  | x :: rest => if x.openIn k && !x.out then { x with out := true } :: rest else x :: sendFirst k rest

/-- A request of a pair is answered: the next that waits leaves (R241). -/
def State.sendNext (s : State) (k : Nat) : State :=
  match s.net.sent.find? fun x => x.openIn k && !x.out with
  | none => s
  | some q => if s.unanswered k < 64 then (s.modNet fun n => { n with sent := sendFirst k n.sent }).leave q.source q.msg else s

/-- The numbering of a pavilion's requests starts again at its new winding, and requests of the old one are dropped (R240, R243). -/
def State.renumber (s : State) (p : Nat) : State :=
  s.modNet fun n => { n with nextSeq := Tab.keep (fun k => k / 2 ^ 29 / 2048 != p || k / 2 ^ 28 % 2 == 1) n.nextSeq
                             sent := n.sent.filter fun q => q.msg.sys || q.msg.stream.toNat / 2048 != p
                             pairs := Tab.keep (fun k => !(k / 2 ^ 29 / 2048 == p && k / 2 ^ 28 % 2 == 0 && k / 2 ^ 16 % 4096 == s.ownPkg)) n.pairs }

end Sys2Proof.Machine
end

