-- ==== Sys2Proof/Machine/Window.lean ====
section
/-! DEFINITION. Remote windows at the package that holds the memory (R216 to R221). -/

namespace Sys2Proof.Machine

/-- The window entry in force (R216, R217): read from package memory at its first use, then kept. -/
def State.window (s : State) (w : Nat) : Nat × State :=
  match Tab.find w s.windows with
  | some e => (e.toNat, s)
  | none =>
    match s.regs.winBase with
    | none => (0, s)
    | some b =>
      let e := s.pkgNat (b.toNat + 32 * w) 32
      (e, { s with windows := Tab.put w (BitVec.ofNat 256 e) s.windows })

namespace Win
/-- ENABLE, or 0 where the entry is reserved-broken or its LENGTH is not valid (R217); the bits of DVA_BASE that are zero in every DVA of a page
count as reserved (DESIGN CHOICE, notes/assumptions/91.md). -/
def enabled (e : Nat) : Bool :=
  bitAt e 0 && bits e 15 3 == 0 && bits e 31 25 == 0 && bits e 127 77 == 0 && bits e 143 128 == 0 && bits e 191 183 == 0
    && bits e 255 192 != 0 && bits e 255 192 % 65536 == 0
def rd (e : Nat) : Bool := bitAt e 1
def wr (e : Nat) : Bool := bitAt e 2
def owner (e : Nat) : Nat := bits e 24 16
def tenant (e : Nat) : Nat := bits e 63 32
def srcPkg (e : Nat) : Nat := bits e 75 64
def anyPkg (e : Nat) : Bool := bitAt e 76
def base (e : Nat) : Nat := bits e 191 128
def length (e : Nat) : Nat := bits e 255 192
end Win

/-- The pavilion is being reset or frozen (R218). -/
def Pav.away (v : Pav) : Bool := v.resetting.isSome || v.freeze.frozen

/-- The answer to a window request. -/
inductive WinAnswer where
  /-- the owner and, for each offset page asked, the channel-set address its page starts at -/
  | served (owner : Nat) (pages : List (Nat × Nat))
  /-- the reason (R218) and the lowest refused offset page -/
  | refused (reason page : Nat)
  deriving DecidableEq, Repr

/-- Walk a window's pages in the owner's tables, in ascending order: the leaves, or the lowest page that is not a LOCAL leaf with the
permission needed, with the key where its walk met an uncorrectable line (R218, R220). A page beyond the DVA space maps nothing. -/
def State.walkOwner (s : State) (p : Nat) (a : Access) : List Nat → Except (Nat × Option Nat) (List (Nat × Walk × Access)) × State
  | [] => (.ok [], s)
  | pg :: rest =>
    if pg ≥ 2 ^ 39 then (.error (pg, none), s)
    else
      let r := s.walkPages windowUnit p [(pg, a)]
      match r.1 with
      | .hurt key => (.error (pg, some key), r.2)
      | .all [x] =>
        (match x.2.1 with
          | .leaf l =>
            if Pte.typ l.entry != 2 then (.error (pg, none), r.2)
            else
              let q := State.walkOwner r.2 p a rest
              (match q.1 with | .ok ls => (.ok (x :: ls), q.2) | .error e => (.error e, q.2))
          | _ => (.error (pg, none), r.2))
      | _ => (.error (pg, none), r.2)

/-- The channel-set address at which a leaf's page starts. -/
def Leaf.pageAt (l : Leaf) (pg : Nat) : Nat := Pte.addr l.entry + (if l.level == 1 then pg * 65536 % 2 ^ 29 else 0)

/-- The lowest of the pages, by DVA, that lies in a sealed frame of the owner (R493). -/
def State.sealedPage (s : State) (p : Nat) (pages : List Nat) : Option Nat :=
  pages.find? fun pg => match (s.walk windowUnit p (pg * 65536)).1 with
    | .leaf l => decide (pg < 2 ^ 39) && Pte.typ l.entry == 2 && s.sealedFrame p (l.pageAt pg)
    | _ => false

/-- The holding package checks a request for offset pages `pages` (numbers of 64 KiB), of which `last` is the offset of
the last byte, in the order of the reasons (R218), and translates them in the owner's tables (R219). -/
def State.windowCheck (s : State) (w srcPkg tenant : Nat) (pages : List Nat) (last : Nat) (rd wr : Bool) : WinAnswer × State :=
  let r := s.window w
  let e := r.1
  let s := r.2
  let low := pages.headD 0
  let p := Win.owner e
  let v := s.pav p
  let b := Win.base e / 65536
  let pool := s.poolRefusal w pages wr
  if s.regs.winBase.isNone || !Win.enabled e then (.refused 0x01 low, s)
  else if !Win.anyPkg e && srcPkg != Win.srcPkg e then (.refused 0x02 low, s)
  else if tenant != Win.tenant e then (.refused 0x03 low, s)
  else if (rd && !Win.rd e) || (wr && !Win.wr e) then (.refused 0x04 low, s)
  else
    match (if v.bound then s.sealedPage p (pages.map (b + ·)) else none) with
    | some pg => (.refused 0x04 (pg - b), s)
    | none =>
      if (pool.map fun x => x.1 == 4).getD false then (.refused 0x04 ((pool.map Prod.snd).getD low), s)
      else if last ≥ Win.length e then
        (.refused 0x05 ((pages.find? fun pg => decide ((pg + 1) * 65536 > Win.length e)).getD low), s)
      else if !v.bound || v.away then (.refused 0x06 low, s)
      else
        let q := s.walkOwner p { rd := rd, wr := wr } (pages.map (b + ·))
        match pool, q.1 with
        | some x, .error (pg, none) => (.refused 0x07 (min x.2 (pg - b)), q.2)
        | some x, _ => (.refused 0x07 x.2, s)
        | none, .error (pg, none) => (.refused 0x07 (pg - b), q.2)
        | none, .error (pg, some key) => (.refused 0x09 (pg - b), (q.2.bedUncorrectable key).startReset p 0x03 (channelLoc (key / 2 ^ 33)) [])
        | none, .ok ls =>
          (.served p (ls.map fun x => match x.2.1 with | .leaf l => (x.1 - b, l.pageAt x.1) | _ => (0, 0)), q.2)

/-- An access to an offset page of a window of this package sets AC, and DI for a write, in the owner's leaf (R194, R219). -/
def State.touchWindow (s : State) (w page : Nat) (a : Access) : State :=
  let e := (s.window w).1
  let pg := Win.base e / 65536 + page
  let r := s.walkPages windowUnit (Win.owner e) [(pg, a)]
  match r.1 with
  | .all ls => r.2.touchAll windowUnit (Win.owner e) ls
  | _ => s

/-- A window request of another package: its checks, and, where it is served, the accessed bits (R218, R219). -/
def State.windowRequest (s : State) (w srcPkg tenant : Nat) (pages : List Nat) (last : Nat) (rd wr : Bool) : WinAnswer × State :=
  let q := s.windowCheck w srcPkg tenant pages last rd wr
  match q.1 with
  | .served _ _ => (q.1, pages.foldl (fun s pg => s.touchWindow w pg { rd := rd, wr := wr }) q.2)
  | _ => q

/-- Number under which Gaold's messages of the session protocol stand in the requests sent. -/
def poolCore : Nat := 1089

/-- Send a message of the session protocol: a write between the control processors of two packages, or, for a pavilion, by its Mirror
(R238, R239). The protocol's KIND and VC are DEDUCED (notes/assumptions/78.md). -/
def State.sendPoolOf (s : State) (pav : Option Nat) (num pkg : Nat) (m : PoolMsg) (bytes : List Byte) (last : Bool := true) : State :=
  let msg : BulkMsg := { stream := BitVec.ofNat 20 controlProcessor, sys := true, srcPkg := BitVec.ofNat 12 s.ownPkg, dstPkg := BitVec.ofNat 12 pkg
                         dstLoc := BitVec.ofNat 16 controlProcessor, kind := 1, payload := bytes, last := last, pool := some m }
  let msg := match pav with
    | some p => { msg with stream := pavStream p .mirror, sys := false, winding := (s.pav p).winding }
    | none => msg
  s.request { core := poolCore, strand := 0, num := num, msg := { msg with vc := msg.channel } }

/-- Send a message of the session protocol to another package, the bytes of a page, or its words, in messages of at most 4 KiB (R237). -/
def State.sendPoolFor (s : State) (pav : Option Nat) (num pkg : Nat) (m : PoolMsg) (bytes : List Byte) : State :=
  if m.words.length > 448 then
    let n := ceilDiv m.words.length 448
    (List.range n).foldl (fun s i => s.sendPoolOf pav num pkg { m with words := (m.words.drop (i * 448)).take 448 } [] (i + 1 == n)) s
  else if bytes.length + 8 * m.words.length ≤ 4096 then s.sendPoolOf pav num pkg m bytes
  else (List.range (ceilDiv bytes.length 4096)).foldl
    (fun s i => s.sendPoolOf pav num pkg { m with other := m.other + i * 4096 } ((bytes.drop (i * 4096)).take 4096)) s

/-- Send a message of the session protocol by the control processor. -/
def State.sendPool (s : State) (pkg : Nat) (m : PoolMsg) (bytes : List Byte) : State := s.sendPoolFor none 0 pkg m bytes

/-- Writes to the target of a move, by number from `a` up to `b`, that it has not yet answered (R329). -/
def State.fillsOpen (s : State) (a b : Nat) : Bool :=
  s.net.sent.any fun q => q.core == poolCore && (q.msg.pool.map PoolMsg.op) == some .fill && decide (a ≤ q.num) && decide (q.num < b)

/-- The answers of the window writes that both pools of a move have applied (R329). -/
def State.settleTwice (s : State) : State :=
  let done := s.dir.twice.filter fun t => !s.fillsOpen t.first t.last
  done.foldl (fun s t => s.sendOut t.answer) { s with dir := { s.dir with twice := s.dir.twice.filter fun t => s.fillsOpen t.first t.last } }

/-- A session page was written: it stands changed since the last Mirror update, and while a move's copy is complete the write
is applied at the target too (R329, R336). -/
def State.poolWrote (s : State) (i page off : Nat) (bs : List Byte) : State :=
  match Tab.find page (s.pool i).pages with
  | none => s
  | some g =>
    let s1 := s.modPool i fun x => { x with pages := Tab.put page { g with dirty := true } x.pages }
    match s.holding i g.session with
    | none => s1
    | some h =>
      match h.copyTo, h.pages.findIdx? fun x => x == page with
      | some t, some j =>
        if t / 16 == s.ownPkg then
          match s1.holding (t % 16) g.session with
          | some k => s1.writePool (t % 16) (nthD k.pages j 0) off bs
          | none => s1
        else
          let n := s.dir.nextFill
          { s1 with dir := { s1.dir with nextFill := n + 1 } }.sendPoolFor none n (t / 16)
            { op := .fill, pool := t, session := g.session, pages := j, other := off } bs
      | _, _ => s1

/-- Write bytes of a window page of this package, whose page starts at channel-set address `cs` of pavilion `p` (R219, R329). -/
def State.writeWindow (s : State) (w page p cs off : Nat) (bs : List Byte) : State :=
  let s1 := s.writeCs p (cs + off) bs
  match s1.poolOfWindow w with
  | none => s1
  | some i => s1.poolWrote i (page / 4) (page % 4 * 65536 + off) bs

/-- DETAIL of WINDOW_REFUSED (R220). -/
def winDetail (pkg w page reason : Nat) : Nat := pkg <<< 52 + w <<< 40 + page * 65536 + reason

end Sys2Proof.Machine
end

