-- ==== Sys2Proof/Machine/Tile.lean ====
section
/-! DEFINITION. Tile instructions in general: undefined encodings (R107, R110), the static fault checks in the order of
R152, the split into tiles (R115, R128), the resolution of a tile's pages (R200, R201), reading and writing a tile's
bytes (R129), and issue (R78, R79, R96). -/

namespace Sys2Proof.TileFields

/-- OPT[0] = 1. -/
def opt0 (f : TileFields) : Bool := f.opt.getLsbD 0
/-- OPT[1] = 1: clear after. -/
def opt1 (f : TileFields) : Bool := f.opt.getLsbD 1
/-- OPT[3] = 1: the slot is offset by XS (R138). -/
def opt3 (f : TileFields) : Bool := f.opt.getLsbD 3

end Sys2Proof.TileFields

namespace Sys2Proof.Machine

/-! ## Encodings (R107, R110, R138, R143) -/

/-- The fields a tile instruction uses. -/
structure TileShape where
  dd : Bool := false
  ds1 : Bool := false
  ds2 : Bool := false
  eng : Bool := false
  aslot : Bool := false
  xs : Bool := false
  /-- bits of OPT that the table defines -/
  opt : BitVec 8 := 0
  fnOk : Bool := true
  /-- bits of IMM it uses -/
  imm : Word32 := 0
  deriving DecidableEq, Repr

/-- The word breaks R107 for this shape. -/
def TileShape.undefined (k : TileShape) (f : TileFields) : Bool :=
  f.reserved39 || f.reserved48 != 0 || f.imm2 != 0
    || (!k.dd && f.dd != 0) || (!k.ds1 && f.ds1 != 0) || (!k.ds2 && f.ds2 != 0)
    || (if k.eng then 4 ≤ f.eng.toNat && f.eng.toNat ≤ 6 else f.eng != 0)
    || (!k.aslot && f.aslot != 0)
    || (if k.xs then f.xs == 7 else !(f.xs == 0 || f.xs == 6))
    || f.opt &&& ~~~k.opt != 0 || !k.fnOk || f.imm &&& ~~~k.imm != 0

/-- TVOP functions (R134). -/
def vopFn (fn : Nat) : Bool := decide (fn ≤ 0x0A) || (decide (0x10 ≤ fn) && decide (fn ≤ 0x15))

/-- The shape of each tile opcode (R126, R132, R139, R143). The bits of IMM that TBAR and TWAIT do not use are unused under R107 (DESIGN CHOICE,
notes/assumptions/90.md). -/
def tileShape (op : Nat) (f : TileFields) : TileShape :=
  let fn := f.fn.toNat
  let slotSrc : TileShape :=
    if f.opt0 then { dd := true, eng := true, aslot := true, xs := f.opt3, opt := 0x0B, fnOk := fn == 0 }
    else { dd := true, ds1 := true, fnOk := fn == 0 }
  match op with
  | 0x80 | 0x82 | 0xA2 | 0xA3 => { dd := true, ds1 := true, fnOk := fn == 0 }
  | 0x81 => slotSrc
  | 0x83 | 0x84 => { dd := true, ds1 := true, ds2 := true, fnOk := fn == 0 }
  | 0x90 => { dd := true, ds1 := true, ds2 := true, eng := true, aslot := true, xs := f.opt3, opt := 0x09, fnOk := fn == 0 }
  | 0x91 =>
    { dd := true, ds1 := true, ds2 := vopBinary fn, eng := true, fnOk := vopFn fn
      imm := if fn == 0x09 || fn == 0x0A then 0xFFFFFFFF else 0 }
  | 0x92 =>
    if fn == 0x10 then { ds1 := true, eng := true, aslot := true, xs := f.opt3, opt := 0x08 }
    else { dd := true, ds1 := true, eng := true, fnOk := fn ≤ 5 || fn == 8, imm := if fn == 8 then 0xFFFFFFFF else 0 }
  | 0x93 => { slotSrc with eng := true, fnOk := fn ≤ 1 }
  | 0x94 => { dd := true, ds1 := true, eng := true, fnOk := fn == 0 }
  | 0xA0 =>
    if f.opt0 then { eng := true, aslot := true, xs := true, opt := 0x09, imm := 0xFFFFFFFF }
    else { ds1 := true, xs := true, imm := 0xFFFFFFFF }
  | 0xA1 =>
    if f.opt0 then { eng := true, aslot := true, xs := true, opt := 0x01, imm := 0xFFFFFFFF }
    else { dd := true, xs := true, imm := 0xFFFFFFFF }
  | 0xB0 => { xs := true, fnOk := fn == 0, imm := 0xF }
  | 0xB1 => if fn == 0 then { imm := 0xFFFF } else { xs := true, opt := 0x07, fnOk := fn == 1 && condOk (f.opt.toNat % 8), imm := 0xFFFFFFFF }
  | 0xB2 => { xs := true, fnOk := fn == 0 }
  | _ => { fnOk := false }

/-! ## Descriptor checks (R113, R114, R117, R118, R126 to R141, R183) -/

/-- Locations by code (R113). -/
def locLs : Nat := 0
def locOrangery : Nat := 1
def locDva : Nat := 2
def locWindow : Nat := 3
def locPeer : Nat := 4

namespace Desc
/-- ORANGERY: slice handle and offset (R113). -/
def handle (d : Desc) : Nat := fld d 63 40
def sliceOff (d : Desc) : Nat := fld d 39 0
/-- WINDOW: package, window, offset (R113). -/
def winPkg (d : Desc) : Nat := fld d 63 52
def winId (d : Desc) : Nat := fld d 51 40
/-- PEER: logical core and scratch offset (R113). -/
def peer (d : Desc) : Nat := fld d 63 40
def peerOff (d : Desc) : Nat := fld d 24 0
/-- Where the operand starts in its space. -/
def start (d : Desc) : Nat :=
  match loc d with
  | 1 => sliceOff d
  | 3 => sliceOff d
  | 4 => peerOff d
  | _ => base d

/-- BASE bits that its location keeps at zero are set (R113, R186). -/
def baseBad (d : Desc) : Bool :=
  match loc d with
  | 0 => fld d 63 25 != 0
  | 2 => fld d 63 55 != 0
  | 4 => fld d 39 25 != 0
  | _ => false

/-- The checks of R114, with the DVA limit of R183 and, for a loaded handle, the slice's end (R117). -/
def invalid (d : Desc) (locs : List Nat) (v : Pav) : Bool :=
  match fmt d with
  | none => true
  | some f =>
    !locs.contains (loc d) || baseBad d || reserved d || extent0 d == 0 || extent1 d == 0 || stride0 d == 0
      || (f.dense && stride0 d != 1) || decide (stride1 d < rowBytes d)
      || (loc d == locDva && decide (base d + span d (rows d) > 2 ^ 55))
      || (loc d == locOrangery && (match Tab.find (handle d) v.slices with
          | some sl => decide (sliceOff d + span d (rows d) > sl.pieces * 65536)
          | none => false))

/-- The largest number of rows whose span is at most 4 MiB (R115, R128); 0 where a single row exceeds it. -/
def maxRows (d : Desc) : Nat :=
  if rowBytes d > 4 * 2 ^ 20 then 0
  else if stride1 d == 0 then rows d
  else (4 * 2 ^ 20 - rowBytes d) / stride1 d + 1

/-- The operand is a single tile (R132). -/
def single (d : Desc) : Bool := decide (span d (rows d) ≤ 4 * 2 ^ 20)

/-- The inner extent breaks R34 or R36. -/
def misaligned (d : Desc) : Bool :=
  match fmt d with
  | some f => (f.isMx && extent0 d % 32 != 0) || (f == .cb4 && extent0 d % 256 != 0)
  | none => false

/-- Contiguous runs of bytes of row `r`: offset from the operand's start, length (R112, R114). -/
def rowRuns (d : Desc) (r : Nat) : List (Nat × Nat) :=
  let o := r * stride1 d
  if stride0 d == 1 then [(o, rowBytes d)]
  else
    let sz := match fmt d with | some f => f.elemBits / 8 | none => 1
    (List.range (extent0 d)).map fun e => (o + e * stride0 d * sz, sz)
end Desc

/-- Operands of an instruction, each with the locations it may have (R126, R132, R139, R141). -/
def operandLocs (op : Nat) (f : TileFields) (dd ds1 ds2 : Desc) : List (Desc × List Nat) :=
  let src := [locLs, locOrangery]
  match op with
  | 0x80 => [(dd, [locLs]), (ds1, [locLs, locOrangery, locDva])]
  | 0x81 => if f.opt0 then [(dd, [locDva])] else [(dd, [locDva]), (ds1, [locLs])]
  | 0x82 => [(dd, [locLs, locDva]), (ds1, [locLs, locOrangery, locDva])]
  | 0x83 => [(dd, [locLs]), (ds1, [locOrangery, locDva]), (ds2, [locLs])]
  | 0x84 => [(dd, [locDva]), (ds1, [locLs]), (ds2, [locLs])]
  | 0x90 => [(dd, [locLs]), (ds1, src), (ds2, src)]
  | 0x91 => if vopBinary f.fn.toNat then [(dd, [locLs]), (ds1, src), (ds2, src)] else [(dd, [locLs]), (ds1, src)]
  | 0x92 => if f.fn == 0x10 then [(ds1, src)] else [(dd, [locLs]), (ds1, src)]
  | 0x93 => if f.opt0 then [(dd, [locLs])] else [(dd, [locLs]), (ds1, src)]
  | 0x94 => [(dd, [locLs]), (ds1, src)]
  | 0xA0 => if f.opt0 then [] else [(ds1, [locLs])]
  | 0xA1 => if f.opt0 then [] else [(dd, [locLs])]
  | 0xA2 => [(dd, [locPeer, locWindow, locDva]), (ds1, [locLs])]
  | 0xA3 => [(dd, [locLs]), (ds1, [locPeer, locWindow, locDva])]
  | _ => []

/-- The opcode splits its operands into tiles; a compute operand must be a single tile (R128, R132). -/
def isMove (op : Nat) : Bool := (0x80 ≤ op && op ≤ 0x84) || op == 0xA2 || op == 0xA3

/-- The operands that are split by rows together; the indexed operand of TGATHER and TSCATTER is not (R128). -/
def splitOperands (op : Nat) (f : TileFields) (dd ds1 : Desc) : List Desc :=
  match op with
  | 0x83 => [dd]
  | 0x84 => [ds1]
  | 0x81 => if f.opt0 then [dd] else [dd, ds1]
  | _ => [dd, ds1]

/-- Rows of a tile: the smallest of its split operands' maxima (R128). -/
def rowsPerTile (op : Nat) (f : TileFields) (dd ds1 : Desc) : Nat :=
  (splitOperands op f dd ds1).foldl (fun m d => min m d.maxRows) (2 ^ 24)

/-- The accumulator slot an instruction names: (ASLOT + XS) mod 16 with OPT[3] (R138). -/
def slotNum (f : TileFields) (xs : Word64) : Nat := if f.opt3 then (f.aslot.toNat + xs.toNat % 16) % 16 else f.aslot.toNat


/-- FORMAT_ILLEGAL (R25, R26, R63, R127, R130, R133, R134, R136, R137). -/
def formatIllegal (op : Nat) (f : TileFields) (dd ds1 ds2 : Desc) : Bool :=
  let ok (d : Desc) (p : Fmt → Bool) : Bool := match d.fmt with | some x => p x | none => false
  let fn := f.fn.toNat
  !(match op with
    | 0x81 => if f.opt0 then ok dd (· == Fmt.acc) else dd.fmt == ds1.fmt
    | 0x80 | 0x82 | 0xA2 | 0xA3 => dd.fmt == ds1.fmt
    | 0x83 | 0x84 => dd.fmt == ds1.fmt && ok ds2 (· == Fmt.int32)
    | 0x90 => ok ds1 Fmt.weightOk && ok ds2 Fmt.actOk && ok dd Fmt.tensorOut
    | 0x91 => ok dd Fmt.vectorOk && ok ds1 Fmt.vectorOk && (!vopBinary fn || ok ds2 Fmt.vectorOk)
    | 0x92 =>
      if fn == 0x10 then ok ds1 (· == Fmt.acc)
      else if fn ≤ 1 then ok ds1 Fmt.vectorOk && ok dd Fmt.tensorOut
      else if fn == 8 then ok ds1 Fmt.vectorOk && ok dd (· == Fmt.int32)
      else ok ds1 Fmt.vectorOk && ok dd Fmt.vectorOk
    | 0x93 =>
      let src := if f.opt0 then some Fmt.acc else ds1.fmt
      let srOk := match src, dd.fmt with
        | some a, some b => (a == .fp32 || a == .bf16 || a == .fp16) && (b == .bf16 || b == .fp16 || b == .e5m2 || b == .e4m3)
        | _, _ => false
      (match src with | some a => a.cvtSrc | none => false) && ok dd Fmt.cvtDst && (fn == 0 || srOk)
    | 0x94 => ok ds1 (fun x => x == .cb4 || x == .cb2v) && ok dd (fun x => x == .e4m3 || x == .bf16 || x == .fp16 || x == .fp32)
    | _ => true)

/-- SHAPE_MISMATCH (R127, R130, R133 to R137). `held` is the named slot, where there is one. -/
def shapeMismatch (op : Nat) (f : TileFields) (dd ds1 ds2 : Desc) (held : Option Slot) : Bool :=
  let fn := f.fn.toNat
  let same (a b : Desc) : Bool := a.extent0 == b.extent0 && a.extent1 == b.extent1
  let slotIs (n m : Nat) : Bool := match held with | some s => s.n == n && s.m == m | none => false
  !(match op with
    | 0x81 => if f.opt0 then slotIs dd.extent0 dd.extent1 else same dd ds1
    | 0x80 | 0x82 | 0xA2 | 0xA3 => same dd ds1
    | 0x83 => dd.extent0 == ds1.extent0 && ds2.extent1 == 1 && ds2.extent0 == dd.extent1
    | 0x84 => dd.extent0 == ds1.extent0 && ds2.extent1 == 1 && ds2.extent0 == ds1.extent1
    | 0x90 =>
      ds1.extent0 == ds2.extent0 && decide (ds2.extent1 ≤ 64) && decide (ds2.extent1 * ds1.extent1 ≤ 256)
        && (f.opt0 || slotIs ds1.extent1 ds2.extent1)
    | 0x91 =>
      same dd ds1 && (!vopBinary fn || ((ds2.extent0 == 1 || ds2.extent0 == ds1.extent0) && (ds2.extent1 == 1 || ds2.extent1 == ds1.extent1)))
    | 0x92 =>
      if fn == 0x10 then slotIs ds1.extent0 ds1.extent1
      else if fn == 8 then
        dd.extent0 == f.imm.toNat && dd.extent1 == ds1.extent1 && decide (1 ≤ f.imm.toNat) && decide (f.imm.toNat ≤ min 256 ds1.extent0)
      else if fn % 2 == 0 then dd.extent0 == 1 && dd.extent1 == ds1.extent1
      else dd.extent1 == 1 && dd.extent0 == ds1.extent0
    | 0x93 => if f.opt0 then slotIs dd.extent0 dd.extent1 else same dd ds1
    | 0x94 => same dd ds1
    | 0xA0 => if f.opt0 then held.isSome else true
    | _ => true)

/-- The static fault of a tile instruction, first in the order of R152: code and DETAIL. In reproducible mode a merge of elements with AUTO is
not refused (DESIGN CHOICE, notes/assumptions/89.md). -/
def State.tileFault (s : State) (p op : Nat) (f : TileFields) (dd ds1 ds2 : Desc) (xs : Word64) (held : Option Slot) : Option (Nat × Nat) :=
  let v := s.pav p
  let os := operandLocs op f dd ds1 ds2
  let n := s.logicalCount p
  match os.find? fun o => o.1.invalid o.2 v || (isCompute op && !o.1.single) || (isMove op && o.1.maxRows == 0) with
  | some o => some (0x02, o.1.base)
  | none =>
  if formatIllegal op f dd ds1 ds2 then some (0x03, 0)
  else if shapeMismatch op f dd ds1 ds2 held then some (0x04, slotNum f xs)
  else if os.any fun o => o.1.misaligned then some (0x05, 0)
  else if op == 0xB1 && f.fn == 1 && f.imm.toNat % 8 != 0 then some (0x07, f.imm.toNat)
  else if op == 0xB1 && f.fn == 1 && f.imm.toNat + 8 > v.scratchBytes then some (0x06, f.imm.toNat)
  else
    -- TMM reads and writes no byte at DD, its first operand here
    let touched := if op == 0x90 then os.drop 1 else os
    match touched.find? fun o => (o.1.loc == locLs || o.1.loc == locPeer) && decide (o.1.start + o.1.span o.1.rows > v.scratchBytes) with
    | some o => some (0x06, o.1.start)
    | none =>
      match os.find? fun o => (o.1.loc == locOrangery && (Tab.find o.1.handle v.slices).isNone) || (o.1.loc == locPeer && decide (o.1.peer ≥ n)) with
      | some o => if o.1.loc == locPeer then some (0x09, o.1.peer) else some (0x08, o.1.handle)
      | none =>
        if (op == 0xA0 || op == 0xA1) && xs.toNat ≥ n then some (0x09, xs.toNat)
        else if v.repro && (op == 0x90 || (op == 0x92 && f.fn.toNat ≤ 1)) && dd.auto then some (0x0C, 0)
        else if v.repro && op == 0x93 && f.fn == 1 then some (0x0D, 0)
        else none

/-! ## Where a tile's bytes lie -/

/-- Pages are numbered DVA / 65,536, and window pages 2^40 + window × 2^24 + page, by package in the bits above. -/
def winPage (pkg w page : Nat) : Nat := 2 ^ 60 + pkg * 2 ^ 48 + w * 2 ^ 24 + page

/-- Pages of scratch of a core of another member, by logical index. -/
def peerPage (peer page : Nat) : Nat := 2 ^ 62 + peer * 2 ^ 10 + page

/-- The PEER index names a core of another member of the span (R306). -/
def Pav.far (v : Pav) (peer : Nat) : Bool := v.isSpan && peer / max 1 v.ownCores != v.spanRank

/-- The pages of a run of bytes. -/
def runPages (a len : Nat) : List Nat := if len == 0 then [] else (List.range ((a + len - 1) / 65536 + 1 - a / 65536)).map (a / 65536 + ·)

/-- Page numbers an operand's rows touch: DVA pages, pages of a slice's home whose pieces are not resident (R158), or
window pages. -/
def Desc.pagesOf (d : Desc) (v : Pav) (rows : List Nat) : List Nat :=
  let runs := rows.flatMap d.rowRuns
  match d.loc with
  | 2 => runs.flatMap fun r => runPages (d.base + r.1) r.2
  | 1 =>
    match Tab.find d.handle v.slices with
    | none => []
    | some sl =>
      let live := fun i => ((Tab.find i sl.resident).map Piece.resident).getD false
      ((runs.flatMap fun r => runPages (d.sliceOff + r.1) r.2).filter fun i => !live i).map (sl.home.toNat / 65536 + ·)
  | 3 => runs.flatMap fun r => (runPages (d.sliceOff + r.1) r.2).map (winPage d.winPkg d.winId)
  | 4 => if v.far d.peer then runs.flatMap fun r => (runPages (d.peerOff + r.1) r.2).map (peerPage d.peer) else []
  | _ => []

/-- What has come from outside for a waiting tile: bytes of host memory by IOVA, and bytes of other packages' windows by
window page and offset. -/
structure Supply where
  host : Option Mem := none
  remote : Option Mem := none
  /-- the bytes it writes to other packages have been acknowledged -/
  written : Bool := false
  /-- other packages have checked the windows it writes, and no byte has moved yet -/
  granted : Bool := false
  deriving DecidableEq, Repr

/-- The byte at offset `o` of an operand, whose pages `m` maps. -/
def State.opByte (s : State) (p core : Nat) (m : Tab PageLoc) (io : Supply) (d : Desc) (o : Nat) : Byte :=
  let v := s.pav p
  let viaPage := fun (pg off : Nat) =>
    match Tab.find pg m with
    | some (.bed q cs) | some (.window q cs _) => let w := s.pav q; Mem.read s.beds.mem (csKey w w.channels (cs + off))
    | some .package => s.shapeByte p off
    | some (.host iova _) => Mem.read (io.host.getD []) (iova + off)
    | some _ => Mem.read (io.remote.getD []) (pg * 65536 + off)
    | none => 0
  match d.loc with
  | 0 => Mem.read s.beds.ls (lsKey core (d.base + o))
  | 4 =>
    let a := d.peerOff + o
    if v.far d.peer then viaPage (peerPage d.peer (a / 65536)) (a % 65536)
    else match s.coreAt p (d.peer % max 1 v.ownCores) with
      | some c => Mem.read s.beds.ls (lsKey c a)
      | none => 0
  | 2 => let a := d.base + o; viaPage (a / 65536) (a % 65536)
  | 3 => let a := d.sliceOff + o; viaPage (winPage d.winPkg d.winId (a / 65536)) (a % 65536)
  | _ =>
    let a := d.sliceOff + o
    match Tab.find d.handle v.slices with
    | none => 0
    | some sl =>
      match Tab.find (a / 65536) sl.resident with
      | some pc => if pc.resident then Mem.read s.beds.ls (lsKey pc.core (pc.segment * 65536 + a % 65536)) else
          let h := sl.home.toNat + a; viaPage (h / 65536) (h % 65536)
      | none => let h := sl.home.toNat + a; viaPage (h / 65536) (h % 65536)

/-- The bytes of a row, in order (R127). -/
def State.rowData (s : State) (p core : Nat) (m : Tab PageLoc) (io : Supply) (d : Desc) (r : Nat) : List Byte :=
  (d.rowRuns r).flatMap fun x => (List.range x.2).map fun i => s.opByte p core m io d (x.1 + i)

/-- Write a run of bytes at an operand offset of a destination that is not host memory. -/
def State.opWrite (s : State) (p core : Nat) (m : Tab PageLoc) (d : Desc) (o : Nat) (bs : List Byte) : State :=
  let split := fun (key : Nat → Nat) (a : Nat) => -- pieces of the run by page: page, offset in the run, bytes
    (runPages a bs.length).map fun pg =>
      let lo := max a (pg * 65536)
      (key pg, lo % 65536, (bs.drop (lo - a)).take ((pg + 1) * 65536 - lo))
  let put := fun (s : State) (x : Nat × Nat × List Byte) =>
    match Tab.find x.1 m with
    | some (.bed q cs) => s.writeCs q (cs + x.2.1) x.2.2
    | some (.window q cs a) => s.writeWindow (bits a 51 40) (bits a 39 16) q cs x.2.1 x.2.2
    | _ => s
  match d.loc with
  | 0 => s.writeLs core (d.base + o) bs
  | 4 =>
    let v := s.pav p
    if v.far d.peer then s
    else match s.coreAt p (d.peer % max 1 v.ownCores) with
      | some c => s.writeLs c (d.peerOff + o) bs
      | none => s
  | 2 => (split id (d.base + o)).foldl put s
  | 3 => (split (winPage d.winPkg d.winId) (d.sliceOff + o)).foldl put s
  | _ => s

/-- Write a row's bytes, in order, to a row of the destination. -/
def State.writeRow (s : State) (p core : Nat) (m : Tab PageLoc) (d : Desc) (r : Nat) (bs : List Byte) : State :=
  ((d.rowRuns r).foldl (fun (acc : State × List Byte) x =>
    (acc.1.opWrite p core m d x.1 (acc.2.take x.2), acc.2.drop x.2)) (s, bs)).1

/-- The outcome of resolving a tile's pages. -/
inductive Resolved where
  | pages (m : Tab PageLoc)
  | fault (page cause level : Nat) (a : Access)
  /-- WINDOW_REFUSED with its DETAIL -/
  | refused (detail : Nat)
  /-- an uncorrectable walk read at a key -/
  | hurt (key : Nat)
  deriving DecidableEq, Repr

/-- The address of a window page in the form of a WINDOW BASE (R113). -/
def winAddr (pkg w page : Nat) : Nat := pkg <<< 52 + w <<< 40 + page * 65536

/-- Replay feeds the pavilion's inputs (R572). -/
def State.replaying (s : State) (p : Nat) : Bool := s.replayer.mode == 2 && s.replayer.live && s.replayer.pav == p

/-- Replay records the pavilion's inputs (R566). -/
def State.recording (s : State) (p : Nat) : Bool := s.replayer.mode == 1 && s.replayer.live && s.replayer.pav == p

/-- Translate every DVA page of a tile in the issuer's tables, and check every page that a window gives (R200, R218, R219): the bits of
the windows' owners are set when the tile moves. -/
def State.resolve (s : State) (un p : Nat) (pages : Tab Access) : Resolved × State :=
  let v := s.pav p
  let own := (s.regs.pkgId.map BitVec.toNat).getD 0
  let dva := pages.filter fun x => decide (x.1 < 2 ^ 60)
  let r := s.walkPages un p dva
  match r.1 with
  | .fault pg c l a => (.fault pg c l a, r.2)
  | .hurt k => (.hurt k, r.2)
  | .all ls =>
    let place : Nat × Walk × Access → Nat × PageLoc × Access := fun x => match x.2.1 with
      | .leaf l =>
        let off := if l.level == 1 then x.1 * 65536 % 2 ^ 29 else 0
        match Pte.typ l.entry with
        | 2 => (x.1, .bed p (Pte.addr l.entry + off), x.2.2)
        | 3 => (x.1, .host (Pte.addr l.entry) (Pte.sealBit l.entry), x.2.2)
        | _ => (x.1, .remote (bits l.entry 63 52) (bits l.entry 51 40) (bits l.entry 39 16), x.2.2)
      | _ => (x.1, .package, x.2.2)
    let direct := (pages.filter fun x => decide (2 ^ 60 ≤ x.1)).map fun x =>
      if 2 ^ 62 ≤ x.1 then
        let n := max 1 v.ownCores
        let i := bits x.1 61 10
        (x.1, PageLoc.peer (i / n) (i % n) (bits x.1 9 0), x.2)
      else (x.1, PageLoc.remote (bits x.1 59 48) (bits x.1 47 24) (bits x.1 23 0), x.2)
    let all := ls.map place ++ direct
    let s1 := r.2.touchAll un p ls
    let m0 : Tab PageLoc := all.foldl (fun m x => Tab.put x.1 x.2.1 m) []
    -- the pages that windows of this package serve, one request for each window and kind of access
    let here := if s.replaying p then [] else all.filterMap fun x => match x.2.1 with
      | .remote pkg w page => if pkg == own then some ((w, x.2.2), x.1, page) else none
      | _ => none
    let kinds := here.foldl (fun (l : List (Nat × Access)) x => if l.contains x.1 then l else l ++ [x.1]) []
    kinds.foldl (fun (acc : Resolved × State) k =>
      match acc.1 with
      | .pages m =>
        let mine := (here.filter fun x => x.1 == k).map Prod.snd
        let pages := mine.foldl (fun l x => insertUniq x.2 l) []
        let q := acc.2.windowCheck k.1 own v.tenant pages (pages.getLastD 0 * 65536 + 65535) k.2.rd k.2.wr
        match q.1 with
        | .served o cs => (.pages (mine.foldl (fun m x => Tab.put x.1 (.window o (Tab.getD cs x.2 0) (winAddr own k.1 x.2)) m) m), q.2)
        | .refused why pg => (.refused (winDetail own k.1 pg why), q.2)
      | _ => acc) (.pages m0, s1)

/-- An uncorrectable bed line that a tile meets: whose channel set it lies in, its key, and, where a window of this package gives the
page, the page in the form of a WINDOW BASE (R175, R221). -/
structure BadLine where
  owner : Nat
  key : Nat
  win : Option Nat := none
  deriving DecidableEq, Repr

/-- Of the uncorrectable lines that a tile meets, the one that counts: one of the pavilion's own pages before any of a window, and of
those the lowest page (R220). -/
def BadLine.first (ls : List BadLine) : Option BadLine :=
  match ls.find? fun b => b.win.isNone with
  | some b => some b
  | none => ls.foldl (fun (m : Option BadLine) b => match m with
      | none => some b
      | some c => if b.win.getD 0 < c.win.getD 0 then some b else m) none

/-- The bed line with an uncorrectable error among the bytes of rows of a source (R175). -/
def State.badSource (s : State) (p : Nat) (m : Tab PageLoc) (d : Desc) (rows : List Nat) : Option BadLine :=
  let v := s.pav p
  let runs := rows.flatMap d.rowRuns
  let start := match d.loc with
    | 1 => ((Tab.find d.handle v.slices).map fun sl => sl.home.toNat + d.sliceOff).getD 0
    | 3 => d.sliceOff
    | _ => d.base
  if d.loc == 0 || d.loc == 4 then none
  else BadLine.first <| runs.flatMap fun r =>
    (runPages (start + r.1) r.2).filterMap fun pg =>
      let lo := max (start + r.1) (pg * 65536)
      let hi := min (start + r.1 + r.2) ((pg + 1) * 65536)
      let at' := fun (q cs : Nat) (win : Option Nat) =>
        let w := s.pav q
        (s.beds.badIn (csKey w w.channels) (cs + lo % 65536) (hi - lo)).map fun a => (⟨q, csKey w w.channels a, win⟩ : BadLine)
      match Tab.find (if d.loc == 3 then winPage d.winPkg d.winId pg else pg) m with
      | some (.bed q cs) => at' q cs none
      | some (.window q cs addr) => at' q cs (some addr)
      | _ => none

/-! ## Accounting of tiles (R446) -/

/-- Add bytes to the byte counter of a class: 0 HOST, 1 LINK, 2 BED, 3 LOCAL. -/
def State.addCount (s : State) (p cls n : Nat) : State :=
  s.modPav p fun v => { v with acct :=
    match cls with
    | 0 => { v.acct with hostBytes := v.acct.hostBytes + BitVec.ofNat 64 n }
    | 1 => { v.acct with linkBytes := v.acct.linkBytes + BitVec.ofNat 64 n }
    | 2 => { v.acct with bedBytes := v.acct.bedBytes + BitVec.ofNat 64 n }
    | _ => { v.acct with localBytes := v.acct.localBytes + BitVec.ofNat 64 n } }

/-- Count bytes that a pavilion moved: while it is frozen only delivered host writes count (R456). -/
def State.count (s : State) (p cls n : Nat) : State := if (s.pav p).freeze.frozen then s else s.addCount p cls n

/-- The counter an operand's location calls for (R446). -/
def State.opClass (s : State) (p : Nat) (m : Tab PageLoc) (d : Desc) : Nat :=
  match d.loc with
  | 0 => 3
  | 4 => if (s.pav p).far d.peer then 1 else 3
  | _ =>
    if m.any fun x => match x.2 with | .host _ _ => true | _ => false then 0
    else if m.any fun x => match x.2 with | .remote _ _ _ => true | .peer _ _ _ => true | _ => false then 1
    else if d.loc == 1 && m.isEmpty then 3 else 2

/-- The slices that orangery operands read have been used now (R165). -/
def State.useSlices (s : State) (p : Nat) (ds : List Desc) : State :=
  let hs := (ds.filter fun d => d.loc == locOrangery).map Desc.handle
  if hs.isEmpty then s
  else s.modPav p fun v => { v with slices := Tab.mapVals (fun h sl => if hs.contains h then { sl with lastUse := s.now } else sl) v.slices }

/-! ## Flights -/

/-- The strand's tile instruction of a number. -/
def Strand.flight (t : Strand) (num : Nat) : Option Flight := t.flights.reverse.find? fun x => x.num == num

/-- Change the tile instruction of a number. -/
def State.modFlight (s : State) (core strand num : Nat) (g : Flight → Flight) : State :=
  s.modStrand core strand fun t => { t with flights := t.flights.map fun x => if x.num == num then g x else x }

/-- Tile instructions in flight on a core (R78). -/
def State.coreFlights (s : State) (core : Nat) : Nat :=
  (s.strands.filter fun x => x.1 / 2048 == core).foldl (fun n x => n + x.2.flights.length) 0

/-- Compute instructions issued to an engine of a core and not yet completed, each with its strand (R69). -/
def State.engineQueue (s : State) (core e : Nat) : List (Nat × Flight) :=
  (s.strands.filter fun x => x.1 / 2048 == core).flatMap fun x =>
    (x.2.flights.filter fun y => isCompute y.op.toNat && y.engine == e).map fun y => (x.1 % 2048, y)

/-- The engine an instruction runs on: the one named, or for "any" the one with the fewest queued instructions, the
lowest on a tie (R69). -/
def State.pickEngine (s : State) (core : Nat) (eng : BitVec 3) : Nat :=
  if eng != 7 then eng.toNat % 4
  else
    [1, 2, 3].foldl (fun best e => if (s.engineQueue core e).length < (s.engineQueue core best).length then e else best) 0

/-- The named slot as it stands. -/
def State.slotOf (s : State) (core engine slot : Nat) : Option Slot := Tab.find (slotKey engine slot) (s.core core).slots

def State.putSlot (s : State) (core engine slot : Nat) (x : Option Slot) : State :=
  s.modCore core fun c => { c with slots := match x with
    | some y => Tab.put (slotKey engine slot) y c.slots
    | none => Tab.drop (slotKey engine slot) c.slots }

/-- The slot an instruction in flight names: engine × 16 + slot (R119, R138). -/
def Flight.slot (x : Flight) : Option Nat :=
  let named := match x.op.toNat with
    | 0x90 => true
    | 0x92 => x.f.fn == 0x10
    | 0x81 | 0x93 | 0xA0 | 0xA1 => x.f.opt0
    | _ => false
  if named then some (slotKey x.engine (slotNum x.f x.xs)) else none

/-- Instructions of one strand that name the same slot take effect in program order (R119). -/
def Strand.slotBlockers (t : Strand) (x : Flight) : List Nat :=
  (t.flights.filter fun y => x.slot.isSome && y.slot == x.slot && y.prog != .moved).map Flight.num

/-- The tile instruction that a strand would put in flight now (R78, R116). -/
def State.newFlight (s : State) (core strand op : Nat) (f : TileFields) : Flight :=
  let t := s.strand core strand
  { num := s.order, op := BitVec.ofNat 8 op, f := f, pc := t.pc, occ := Tab.getD t.occ t.pc.toNat 0, dd := t.desc f.dd, ds1 := t.desc f.ds1
    ds2 := t.desc f.ds2, xs := t.reg f.xs, engine := s.pickEngine core f.eng }

end Sys2Proof.Machine
end

