-- ==== Sys2Proof/Machine/Issue.lean ====
section
/-! DEFINITION. Issue (R66, R76 to R79): the fields of an instruction's words (R105, R107, R108, R110), the instructions that cannot
issue yet, the sequencer's pick, and the miss of the instruction cache. -/

namespace Sys2Proof.Machine

/-! ## Instruction words -/

/-- The fields of a scalar word (R108). -/
def scalarFields (w : Nat) : ScalarFields :=
  { dst := BitVec.ofNat 3 (bits w 10 8), srca := BitVec.ofNat 3 (bits w 13 11), srcb := BitVec.ofNat 3 (bits w 16 14)
    useImm := bitAt w 17, fn := BitVec.ofNat 6 (bits w 23 18), reserved := BitVec.ofNat 8 (bits w 31 24), imm := BitVec.ofNat 32 (bits w 63 32) }

/-- The fields of a tile instruction of 128 bits (R110). -/
def tileFields (w : Nat) : TileFields :=
  { dd := BitVec.ofNat 3 (bits w 10 8), ds1 := BitVec.ofNat 3 (bits w 13 11), ds2 := BitVec.ofNat 3 (bits w 16 14)
    eng := BitVec.ofNat 3 (bits w 19 17), aslot := BitVec.ofNat 4 (bits w 23 20), fn := BitVec.ofNat 8 (bits w 31 24)
    tag := BitVec.ofNat 4 (bits w 35 32), xs := BitVec.ofNat 3 (bits w 38 36), reserved39 := bitAt w 39, opt := BitVec.ofNat 8 (bits w 47 40)
    reserved48 := BitVec.ofNat 16 (bits w 63 48), imm := BitVec.ofNat 32 (bits w 95 64), imm2 := BitVec.ofNat 32 (bits w 127 96) }

/-- The shape of a scalar opcode (R120); `none` for one that the tables do not list. -/
def scalarShape (op : Nat) : Option ScalarShape :=
  match op with
  | 0x01 | 0x51 | 0x52 => some shapeNone
  | 0x10 | 0x11 | 0x12 | 0x13 | 0x14 | 0x15 | 0x16 | 0x17 | 0x18 | 0x19 | 0x1A => some shapeAlu
  | 0x1B => some shapeCmp
  | 0x1C | 0x1D => some shapeMovi
  | 0x20 => some shapeLds
  | 0x21 => some shapeSts
  | 0x28 => some shapeSetd
  | 0x29 => some shapeGetd
  | 0x2A => some shapeLdd
  | 0x2B => some shapeStd
  | 0x30 | 0x33 | 0x34 => some shapeDst
  | 0x31 => some shapeClas
  | 0x32 => some shapeSetsrc
  | 0x40 => some shapeBr
  | 0x41 => some shapeJmp
  | 0x42 => some shapeJmpr
  | 0x43 => some shapeCall
  | 0x50 => some shapeSpawn
  | 0x53 => some shapeFence
  | _ => none

/-- A tile opcode that the tables list (R126, R132, R139, R143). -/
def tileOpcode (op : Nat) : Bool :=
  [0x80, 0x81, 0x82, 0x83, 0x84, 0x90, 0x91, 0x92, 0x93, 0x94, 0xA0, 0xA1, 0xA2, 0xA3, 0xB0, 0xB1, 0xB2].contains op

/-- The word is an undefined encoding (R107). -/
def undefinedWord (w : Nat) : Bool :=
  let op := w % 256
  if op < 128 then (match scalarShape op with | some k => k.undefined (scalarFields (w % 2 ^ 64)) | none => true)
  else if tileOpcode op then (tileShape op (tileFields w)).undefined (tileFields w) else true

/-! ## Instructions that cannot issue yet (R77 to R79, R119) -/

/-- Earlier instructions of the strand that a tile instruction waits for: those whose operands overlap its own, those that name its slot,
and those that draw from SRC before it (R79, R119). -/
def Strand.waitsOn (t : Strand) (x : Flight) : List Nat :=
  t.tileBlockers x ++ t.slotBlockers x ++ (if x.drawsSrc then t.srcBlockers else [])

/-- A scalar access of `w` scratch bytes at `a` waits for an instruction in flight (R119); one that faults does not. -/
def State.accessWaits (s : State) (p : Nat) (t : Strand) (a : Word64) (w : Nat) (store : Bool) : Bool :=
  (scratchFault (s.pav p) a.toNat w).isNone && !(t.blockers ⟨0, a.toNat, w⟩ store).isEmpty

/-- A scalar instruction waits for values of instructions in flight (R77, R79, R119). -/
def State.scalarWaits (s : State) (p : Nat) (t : Strand) (op : Nat) (f : ScalarFields) : Bool :=
  let a := opAddr t f
  match op with
  | 0x20 => s.accessWaits p t a (2 ^ (f.fn.toNat % 4)) false
  | 0x21 => s.accessWaits p t a (2 ^ (f.fn.toNat % 4)) true
  | 0x2A => s.accessWaits p t a 32 false
  | 0x2B => s.accessWaits p t a 32 true
  | 0x30 | 0x31 => !t.astatBlockers.isEmpty
  | 0x32 | 0x33 => !t.srcBlockers.isEmpty
  | _ => false

/-- An in-flight limit is full (R78). -/
def State.flightsFull (s : State) (core : Nat) (t : Strand) : Bool := decide (t.flights.length ≥ 32) || decide (s.coreFlights core ≥ 256)

/-- The strand's next instruction, whose word is given, cannot issue: it needs an operand of an instruction in flight, or a place in
flight (R76 to R78). -/
def State.cannotIssue (s : State) (p core strand : Nat) (word : Nat) : Bool :=
  let t := s.strand core strand
  let op := word % 256
  if undefinedWord word then false
  else if op < 128 then s.scalarWaits p t op (scalarFields (word % 2 ^ 64))
  else s.flightsFull core t || !(t.waitsOn (s.newFlight core strand op (tileFields word))).isEmpty

/-! ## The sequencer's pick (R76) -/

/-- The word of `len` bytes at an offset from the code base, as fetches would find it now. -/
def State.codeWord (s : State) (p core pc len : Nat) : Option Nat :=
  ((List.range len).mapM fun i => s.codeByte p core ((s.core core).codeBase.toNat + pc + i)).map leNat

/-- The order in which the sequencer picks among READY strands: the highest class, the longest READY, the lowest number (R76). -/
def pickedBefore (a b : Nat × Strand) : Bool :=
  decide (b.2.cls.toNat < a.2.cls.toNat) || (a.2.cls == b.2.cls
    && (decide (a.2.readyAt < b.2.readyAt) || (a.2.readyAt == b.2.readyAt && decide (a.1 < b.1))))

/-- The strand's next instruction is a scalar one (`tile` false) or a tile instruction, the instruction cache holds it, and it can
issue (R76, R105). -/
def State.standsAt (s : State) (p core : Nat) (tile : Bool) (strand : Nat) : Bool :=
  let c := s.core core
  let pc := (s.strand core strand).pc
  let len := if tile then 16 else 8
  ((codeLines c.codeBase pc len).all fun l => c.icache.contains l) &&
    (match s.codeWord p core pc.toNat len with
      | some w => decide (w % 256 ≥ 128) == tile && !s.cannotIssue p core strand w
      | none => false)

/-- READY strands of the core that the sequencer picks before this one for an instruction of the same kind (R76). -/
def State.ahead (s : State) (p core strand : Nat) (tile : Bool) : Nat :=
  let me := (strand, s.strand core strand)
  ((s.strands.filter fun x => x.1 / 2048 == core && x.2.mode == .ready && pickedBefore (x.1 % 2048, x.2) me).filter fun x =>
    s.standsAt p core tile (x.1 % 2048)).length

/-- The sequencer picks the strand: two scalar instructions and one tile instruction issue in a clock (R76). -/
def State.picks (s : State) (p core strand : Nat) (tile : Bool) : Bool := decide (s.ahead p core strand tile < if tile then 1 else 2)

/-- A strand issues an instruction of `len` bytes: it must be READY on a bound core, and the sequencer's pick; a line of the
instruction that the instruction cache does not hold makes it WAITING (R66, R76, R77, R78). `k` receives the pavilion and the
logical index. -/
def issue (core strand len : Nat) (s : State) (k : Nat → Nat → Strand → State) : Host.Outcome State Fault Refusal :=
  if core ≥ numCores || strand ≥ numStrands then noUnit
  else
    match (s.core core).owner with
    | none => ok s
    | some (p, i) =>
      let t := s.strand core strand
      if t.mode != .ready || !s.picks p core strand (len == 16) then ok s
      else if !((codeLines (s.core core).codeBase t.pc len).all fun l => (s.core core).icache.contains l) then
        ok (s.waitFor core strand (.icache len))
      else ok (k p i t)

end Sys2Proof.Machine
end

