-- ==== Sys2Proof/Machine/Scalar.lean ====
section
/-! DEFINITION. The scalar instructions (R120 to R125), run-ahead bookkeeping of scalar loads (R87, R89, R98), and the
undefined encoding (R107). -/

namespace Sys2Proof.Machine

/-- A scalar instruction of opcode `opc` issues: an undefined encoding raises ILLEGAL_INSTRUCTION (R107, R152). -/
def scalar (core strand opc : Nat) (k : ScalarShape) (f : ScalarFields) (s : State) (body : Nat → Nat → Strand → State) :
    Host.Outcome State Fault Refusal :=
  issue core strand 8 s fun p i t => if k.undefined f then s.kernelFault core strand 0x01 opc 0 0 else body p i t

/-- The strand takes new scalar state and goes on at PC + 8. -/
def State.scalarDone (s : State) (core strand : Nat) (t : Strand) : State := (s.setStrand core strand t).advance core strand 8

/-- What an arithmetic instruction computes of a and B (R120): shift amounts are B & 63; MIN and MAX are signed. -/
def aluOp (opc : Nat) (a b : Word64) : Word64 :=
  match opc with
  | 0x10 => a + b
  | 0x11 => a - b
  | 0x12 => a * b
  | 0x13 => a &&& b
  | 0x14 => a ||| b
  | 0x15 => a ^^^ b
  | 0x16 => a <<< (b.toNat % 64)
  | 0x17 => a >>> (b.toNat % 64)
  | 0x18 => a.sshiftRight (b.toNat % 64)
  | 0x19 => if a.slt b then a else b
  | _ => if a.slt b then b else a

/-- d = op(a, B), then PC + 8 (R120). -/
def alu (core strand opc : Nat) (f : ScalarFields) (s : State) : Host.Outcome State Fault Refusal :=
  scalar core strand opc shapeAlu f s fun _ _ t => s.scalarDone core strand (t.setReg f.dst (aluOp opc (t.reg f.srca) (opB t f)))

/-- d = v, then PC + 8. -/
def setDst (core strand opc : Nat) (k : ScalarShape) (f : ScalarFields) (v : Strand → Word64) (s : State) :
    Host.Outcome State Fault Refusal :=
  scalar core strand opc k f s fun _ _ t => s.scalarDone core strand (t.setReg f.dst (v t))

/-- Move the entry to the front, replacing the least recently used beyond 1,024 entries (R89). -/
def predictorPut (l : List Pred) (e : Pred) : List Pred :=
  (e :: l.filter fun x => !(x.strand == e.strand && x.layer == e.layer && x.pc == e.pc && x.occ == e.occ)).take 1024

/-- An occurrence of the instruction at the strand's PC is counted (R72). -/
def State.countOcc (s : State) (core strand : Nat) : State :=
  s.modStrand core strand fun t => { t with occ := Tab.put t.pc.toNat (Tab.getD t.occ t.pc.toNat 0 + 1) t.occ }

/-- The predictor entry of the key of the instruction at the strand's PC takes a value (R89), and its occurrence is counted (R72).
The key's instruction address is the PC, the offset from the code base of the kernel that runs, so that two kernels of one layer
share it (notes/assumptions/69.md). -/
def State.predict (s : State) (core strand : Nat) (v : Word64) : State :=
  let t := s.strand core strand
  let e : Pred := ⟨strand, t.layer, t.pc.toNat, Tab.getD t.occ t.pc.toNat 0 % 64, v⟩
  (s.modCore core fun c => { c with predictor := predictorPut c.predictor e }).countOcc core strand

/-- The strand waits for values of instructions in flight that it needs: it stands at an unresolved predicate (R77, R87). -/
def State.waitValue (s : State) (core strand : Nat) (nums : List Nat) : State :=
  (s.waitFor core strand (.operand nums)).modStrand core strand fun t => { t with predicates := addNew t.pc.toNat t.predicates }

/-- An instruction that reads ASTAT or SRC, once the instructions in flight that write it have (R79): `ns` are those it waits for,
which makes it stand at a predicate (notes/assumptions/18.md), `v` the value it waited on, which the predictor takes if the instruction
has stood at a predicate (R89). Every execution counts as an occurrence (R72). -/
def State.statusRead (s : State) (core strand : Nat) (ns : List Nat) (v : Word64) (body : State → State) : State :=
  if !ns.isEmpty then s.waitValue core strand ns
  else
    let t := s.strand core strand
    body (if t.predicates.contains t.pc.toNat then s.predict core strand v else s.countOcc core strand)

/-- A scratch access of `w` bytes at `a` by a scalar instruction: its faults, the wait of R119 for an overlapping
in-flight instruction, the kill of R175, else `body`. `isLoad` says which overlaps wait. -/
def scratchAccess (core strand opc p : Nat) (t : Strand) (a : Word64) (w : Nat) (isLoad : Bool) (s : State) (body : State) : State :=
  match scratchFault (s.pav p) a.toNat w with
  | some code => s.kernelFault core strand code opc 0 a.toNat
  | none =>
    let r : Range := ⟨0, a.toNat, w⟩
    let bs := t.blockers r (!isLoad)
    if !bs.isEmpty then
      if isLoad then s.waitValue core strand bs else s.waitFor core strand (.operand bs)
    else if isLoad && s.lsHurt core a.toNat w then
      (s.killSram p core (lsRow ((s.badWord core a.toNat w).getD 0))).waitFor core strand .killed
    else body


/-- NOP (R120). -/
def execNop (core strand : Nat) (f : ScalarFields) (s : State) : Host.Outcome State Fault Refusal :=
  scalar core strand 0x01 shapeNone f s fun _ _ t => s.scalarDone core strand t

/-- ADD: d = a + B (R120). -/
def execAdd (core strand : Nat) (f : ScalarFields) (s : State) : Host.Outcome State Fault Refusal :=
  alu core strand 0x10 f s

/-- SUB: d = a − B (R120). -/
def execSub (core strand : Nat) (f : ScalarFields) (s : State) : Host.Outcome State Fault Refusal :=
  alu core strand 0x11 f s

/-- MUL: d = low64(a × B) (R120). -/
def execMul (core strand : Nat) (f : ScalarFields) (s : State) : Host.Outcome State Fault Refusal :=
  alu core strand 0x12 f s

/-- AND: d = a & B (R120). -/
def execAnd (core strand : Nat) (f : ScalarFields) (s : State) : Host.Outcome State Fault Refusal :=
  alu core strand 0x13 f s

/-- OR: d = a | B (R120). -/
def execOr (core strand : Nat) (f : ScalarFields) (s : State) : Host.Outcome State Fault Refusal :=
  alu core strand 0x14 f s

/-- XOR: d = a ^ B (R120). -/
def execXor (core strand : Nat) (f : ScalarFields) (s : State) : Host.Outcome State Fault Refusal :=
  alu core strand 0x15 f s

/-- SHL: d = a << (B & 63) (R120). -/
def execShl (core strand : Nat) (f : ScalarFields) (s : State) : Host.Outcome State Fault Refusal :=
  alu core strand 0x16 f s

/-- SHR: logical right shift by B & 63 (R120). -/
def execShr (core strand : Nat) (f : ScalarFields) (s : State) : Host.Outcome State Fault Refusal :=
  alu core strand 0x17 f s

/-- SAR: arithmetic right shift by B & 63 (R120). -/
def execSar (core strand : Nat) (f : ScalarFields) (s : State) : Host.Outcome State Fault Refusal :=
  alu core strand 0x18 f s

/-- MIN: signed minimum (R120). -/
def execMin (core strand : Nat) (f : ScalarFields) (s : State) : Host.Outcome State Fault Refusal :=
  alu core strand 0x19 f s

/-- MAX: signed maximum (R120). -/
def execMax (core strand : Nat) (f : ScalarFields) (s : State) : Host.Outcome State Fault Refusal :=
  alu core strand 0x1A f s

/-- CMP: d = 1 or 0 by the FN condition on a and B (R120, R122). -/
def execCmp (core strand : Nat) (f : ScalarFields) (s : State) : Host.Outcome State Fault Refusal :=
  scalar core strand 0x1B shapeCmp f s fun _ _ t =>
    s.scalarDone core strand (t.setReg f.dst (if cond f.fn.toNat (t.reg f.srca) (opB t f) then 1 else 0))

/-- MOVI: d = sext(IMM) (R120). -/
def execMovi (core strand : Nat) (f : ScalarFields) (s : State) : Host.Outcome State Fault Refusal :=
  setDst core strand 0x1C shapeMovi f (fun _ => sext64 f.imm) s

/-- MOVHI: the upper 32 bits of d become IMM (R120). -/
def execMovhi (core strand : Nat) (f : ScalarFields) (s : State) : Host.Outcome State Fault Refusal :=
  setDst core strand 0x1D shapeMovi f (fun t => (f.imm ++ (t.reg f.dst).truncate 32 : BitVec 64)) s

/-- A corrected error of a local-store row: counted, and remembered for its repair (R175, R176). -/
def State.lsCorrected (s : State) (core a : Nat) : State :=
  let r := lsRow a
  let recurs := match Tab.find r (s.core core).lsRows with | some t => decide ((s.now - t.1).toNat ≤ 24 * hourTicks) | none => false
  (s.modBeds fun b => { b with ceCount := b.ceCount + 1 }).modCore core fun c => { c with lsRows := Tab.put r (s.now, recurs) c.lsRows }

/-- An SRAM error shows at a load (R174, R175). A corrected one is counted. An uncorrectable one stands in the scratch word until that is
written, in the accumulator slot until that is, or in the shadow buffer; the strand's file is met at once, by the caller; a cached
copy goes, and is read again from where it stands (DESIGN CHOICE, notes/assumptions/83.md). -/
def State.sramError (s : State) (core a : Nat) (err : SramErr) : State :=
  match sramOutcome err.symbols, err.part with
  | .clean, _ => s
  | .corrected, .scratch => s.lsCorrected core a
  | .corrected, .store o => s.lsCorrected core (o % (384 * 65536))
  | .corrected, _ => s.modBeds fun b => { b with ceCount := b.ceCount + 1 }
  | .uncorrectable, .scratch => s.modBeds fun b => { b with lsBad := addNew (lsKey core a / 8) b.lsBad }
  | .uncorrectable, .store o => s.modBeds fun b => { b with lsBad := addNew (lsKey core (o % (384 * 65536)) / 8) b.lsBad }
  | .uncorrectable, .cache => (s.modBeds fun b => { b with ueCount := b.ueCount + 1 }).modCore core fun c => { c with icache := [], predictor := [] }
  | .uncorrectable, .slot e k => s.modCore core fun c =>
      { c with slots := match Tab.find (slotKey e k) c.slots with | some x => Tab.put (slotKey e k) { x with hurt := true } c.slots | none => c.slots }
  | .uncorrectable, .shadow b => s.modCore core fun c =>
      { c with shadows := match Tab.find b c.shadows with | some x => Tab.put b { x with hurt := true } c.shadows | none => c.shadows }
  | .uncorrectable, .file => s

/-- LDS: 1, 2, 4 or 8 scratch bytes, zero- or sign-extended (R121), with the wait of R119 and the predictor update of R89.
`err` is what its read of the local store meets, where it comes to read (R175). -/
def execLds (core strand : Nat) (f : ScalarFields) (err : SramErr) (s : State) : Host.Outcome State Fault Refusal :=
  scalar core strand 0x20 shapeLds f s fun p _ t =>
    let w := 2 ^ (f.fn.toNat % 4)
    let a := opAddr t f
    let reads := (scratchFault (s.pav p) a.toNat w).isNone && (t.blockers ⟨0, a.toNat, w⟩ false).isEmpty
    if err.part == .file && sramOutcome err.symbols == .uncorrectable then (s.killSram p core 0).waitFor core strand .killed else
    let s := if reads then s.sramError core a.toNat err else s
    let raw := leNat (s.readLs core a.toNat w)
    let v : Word64 := if f.fn.getLsbD 2 then BitVec.ofInt 64 (toSigned (8 * w) raw) else BitVec.ofNat 64 raw
    scratchAccess core strand 0x20 p t a w true s
      (((s.predict core strand v).modStrand core strand fun t => t.setReg f.dst v).advance core strand 8)

/-- STS: the low bytes of b into scratch (R121), after the wait of R119. -/
def execSts (core strand : Nat) (f : ScalarFields) (s : State) : Host.Outcome State Fault Refusal :=
  scalar core strand 0x21 shapeSts f s fun p _ t =>
    let w := 2 ^ (f.fn.toNat % 4)
    let a := opAddr t f
    scratchAccess core strand 0x21 p t a w false s
      ((s.writeLs core a.toNat (leBytes w (t.reg f.srcb).toNat)).advance core strand 8)

/-- SETD: the FN field of descriptor slot DST = the low bits of a + sext(IMM) (R123). -/
def execSetd (core strand : Nat) (f : ScalarFields) (s : State) : Host.Outcome State Fault Refusal :=
  scalar core strand 0x28 shapeSetd f s fun _ _ t =>
    s.scalarDone core strand (t.setDesc f.dst (Desc.set (t.desc f.dst) f.fn.toNat (opAddr t f)))

/-- GETD: d = the FN field of descriptor slot SRCB (R123). -/
def execGetd (core strand : Nat) (f : ScalarFields) (s : State) : Host.Outcome State Fault Refusal :=
  setDst core strand 0x29 shapeGetd f (fun t => Desc.get (t.desc f.srcb) f.fn.toNat) s

/-- The predictor's value of a descriptor that LDD loads: its low 64 bits, BASE (R89, notes/assumptions/69.md). -/
def descValue (d : Desc) : Word64 := d.truncate 64

/-- LDD: descriptor slot DST = 32 scratch bytes (R120, R121), with the wait of R119 and the predictor update of R89. -/
def execLdd (core strand : Nat) (f : ScalarFields) (s : State) : Host.Outcome State Fault Refusal :=
  scalar core strand 0x2A shapeLdd f s fun p _ t =>
    let a := opAddr t f
    let d : Desc := BitVec.ofNat 256 (leNat (s.readLs core a.toNat 32))
    scratchAccess core strand 0x2A p t a 32 true s
      (((s.predict core strand (descValue d)).modStrand core strand fun t => t.setDesc f.dst d).advance core strand 8)

/-- STD: 32 scratch bytes = descriptor slot SRCB (R120, R121). -/
def execStd (core strand : Nat) (f : ScalarFields) (s : State) : Host.Outcome State Fault Refusal :=
  scalar core strand 0x2B shapeStd f s fun p _ t =>
    let a := opAddr t f
    scratchAccess core strand 0x2B p t a 32 false s
      ((s.writeLs core a.toNat (leBytes 32 (t.desc f.srcb).toNat)).advance core strand 8)

/-- RDAS: d = ASTAT (R120), once the instructions in flight that write it have (R79). -/
def execRdas (core strand : Nat) (f : ScalarFields) (s : State) : Host.Outcome State Fault Refusal :=
  scalar core strand 0x30 shapeDst f s fun _ _ t =>
    s.statusRead core strand t.astatBlockers (t.astat.zeroExtend 64) fun s =>
      s.scalarDone core strand ((s.strand core strand).setReg f.dst (t.astat.zeroExtend 64))

/-- CLAS: ASTAT &= ~B (R120), once the instructions in flight that write it have (R79). -/
def execClas (core strand : Nat) (f : ScalarFields) (s : State) : Host.Outcome State Fault Refusal :=
  scalar core strand 0x31 shapeClas f s fun _ _ t =>
    s.statusRead core strand t.astatBlockers (t.astat.zeroExtend 64) fun s =>
      s.scalarDone core strand ((s.strand core strand).clearFlags (opB t f))

/-- SETSRC: SRC = a + sext(IMM) (R64, R120), once the instructions in flight that draw from it have (R79). -/
def execSetsrc (core strand : Nat) (f : ScalarFields) (s : State) : Host.Outcome State Fault Refusal :=
  scalar core strand 0x32 shapeSetsrc f s fun _ _ t =>
    if !t.srcBlockers.isEmpty then s.waitFor core strand (.operand t.srcBlockers)
    else s.scalarDone core strand { t with src := opAddr t f }

/-- RDSRC: d = SRC (R120), once the instructions in flight that draw from it have (R79). -/
def execRdsrc (core strand : Nat) (f : ScalarFields) (s : State) : Host.Outcome State Fault Refusal :=
  scalar core strand 0x33 shapeDst f s fun _ _ t =>
    s.statusRead core strand t.srcBlockers t.src fun s => s.scalarDone core strand ((s.strand core strand).setReg f.dst t.src)

/-- RDTIME: d = TIME of the cluster's sync node, which steps with the package's TIME (R125, R252). -/
def execRdtime (core strand : Nat) (f : ScalarFields) (s : State) : Host.Outcome State Fault Refusal :=
  setDst core strand 0x34 shapeDst f (fun _ => s.now) s

/-- BR: PC += sext(IMM) × 8 where the FN condition on a and b holds (R111, R122). -/
def execBr (core strand : Nat) (f : ScalarFields) (s : State) : Host.Outcome State Fault Refusal :=
  scalar core strand 0x40 shapeBr f s fun _ _ t =>
    if cond f.fn.toNat (t.reg f.srca) (t.reg f.srcb) then s.jumpTo core strand 0x40 (relTarget t f.imm) id
    else s.advance core strand 8

/-- JMP: PC += sext(IMM) × 8 (R111). -/
def execJmp (core strand : Nat) (f : ScalarFields) (s : State) : Host.Outcome State Fault Refusal :=
  scalar core strand 0x41 shapeJmp f s fun _ _ t => s.jumpTo core strand 0x41 (relTarget t f.imm) id

/-- JMPR: PC = a; bits [2:0] of a must be zero (R111, R121). -/
def execJmpr (core strand : Nat) (f : ScalarFields) (s : State) : Host.Outcome State Fault Refusal :=
  scalar core strand 0x42 shapeJmpr f s fun _ _ t =>
    let a := t.reg f.srca
    if a.toNat % 8 != 0 then s.kernelFault core strand 0x07 0x42 0 a.toNat
    else s.jumpTo core strand 0x42 (a.toNat : Int) id

/-- CALL: d = PC + 8, then PC += sext(IMM) × 8 (R111). -/
def execCall (core strand : Nat) (f : ScalarFields) (s : State) : Host.Outcome State Fault Refusal :=
  scalar core strand 0x43 shapeCall f s fun _ _ t =>
    s.jumpTo core strand 0x43 (relTarget t f.imm) fun t => t.setReg f.dst (t.pc.zeroExtend 64 + 8)

/-- The lowest-numbered FREE strand of a core, if there is one (R74). -/
def State.freeStrand (s : State) (core : Nat) : Option Nat :=
  let used := s.strands.filter fun x => x.1 / 2048 == core && x.2.mode != .free
  (List.range (used.length + 1)).find? fun n => decide (n < numStrands) && (s.strand core n).mode == .free

/-- The state SPAWN gives the new strand (R74). -/
def spawned (t : Strand) (target : Int) (arg : Word64) (cls : BitVec 2) : Strand :=
  { mode := .waiting, cls := cls, layer := t.layer, pc := BitVec.ofInt 32 target, s0 := arg, descs := t.descs }

/-- SPAWN: the lowest FREE strand starts at the target, or the strand waits until one is FREE (R74, R111). -/
def execSpawn (core strand : Nat) (f : ScalarFields) (s : State) : Host.Outcome State Fault Refusal :=
  scalar core strand 0x50 shapeSpawn f s fun _ _ t =>
    let target := relTarget t f.imm
    if target < 0 || target ≥ 2 ^ 32 then s.kernelFault core strand 0x07 0x50 0 (ofSigned 64 target)
    else
      match s.freeStrand core with
      | none => (s.dropShadows core strand).waitFor core strand .spawn
      | some n =>
        let s1 := (s.setStrand core n (spawned t target (t.reg f.srca) (f.fn.truncate 2))).makeReady core n
        (s1.dropShadows core strand).advance core strand 8

/-- YIELD: the strand goes to the back of its issue class (R76). -/
def execYield (core strand : Nat) (f : ScalarFields) (s : State) : Host.Outcome State Fault Refusal :=
  scalar core strand 0x51 shapeNone f s fun _ _ _ =>
    let s1 := (s.dropShadows core strand).advance core strand 8
    if (s1.strand core strand).mode == .ready then s1.makeReady core strand else s1

/-- EXIT: the strand is FREE once every instruction it has issued has completed (R75). -/
def execExit (core strand : Nat) (f : ScalarFields) (s : State) : Host.Outcome State Fault Refusal :=
  scalar core strand 0x52 shapeNone f s fun _ _ t =>
    let s1 := s.dropShadows core strand
    if t.flights.isEmpty then s1.setStrand core strand {} else s1.waitFor core strand .exit

/-- A FENCE with FN 1 of a span member sends its message on link VC 0 to every other member (R351). -/
def State.fenceSpan (s : State) (p fn : Nat) : State :=
  let v := s.pav p
  if fn != 1 || !v.isSpan || v.span.st != 2 then s
  else ((List.range (v.spanLast + 1)).filter fun r => r != v.spanRank).foldl (fun s r => s.syncSend (nthD v.span.members r 0) (.fence v.spanId v.spanRank v.winding)) s

/-- FENCE: waits until every earlier tile instruction and scalar store of the strand has completed and is visible to the core (FN 0) or the pavilion (FN 1) (R124). -/
def execFence (core strand : Nat) (f : ScalarFields) (s : State) : Host.Outcome State Fault Refusal :=
  scalar core strand 0x53 shapeFence f s fun p _ t =>
    let s1 := (s.dropShadows core strand).fenceSpan p f.fn.toNat
    if t.flights.isEmpty then s1.advance core strand 8 else s1.waitFor core strand (.fence f.fn.toNat)

end Sys2Proof.Machine
end

