-- ==== Sys2Proof/Machine/Vec.lean ====
section
/-! DEFINITION. The vector unit's FP32 operations (R59 to R61) and the reference algorithms of R65. FP32 values are
their 32-bit patterns, as natural numbers. -/

namespace Sys2Proof.Machine

/-- The canonical NaN of FP32 (R53). -/
def qnan32 : Nat := 0x7FC00000

/-- FP32 addition and whether it made a NaN from operands that are not NaN (R59). -/
def fadd (a b : Nat) : Nat × Bool := let r := (f32 a).add (f32 b); (f32Round r.1, r.2)

/-- The pattern with its sign turned. -/
def fneg (a : Nat) : Nat := if a ≥ 0x80000000 then a - 0x80000000 else a + 0x80000000

/-- The pattern with its sign cleared. -/
def fabs (a : Nat) : Nat := a % 0x80000000

/-- FP32 multiplication (R59). -/
def fmul (a b : Nat) : Nat × Bool := let r := (f32 a).mul (f32 b); (f32Round r.1, r.2)

/-- Fused multiply-add, rounded once (R59). -/
def ffma (a b c : Nat) : Nat × Bool :=
  let p := (f32 a).mul (f32 b)
  let r := p.1.add (f32 c)
  (f32Round r.1, (p.2 && !(f32 c).isNan) || r.2)

/-- Subtraction (R59). -/
def fsub (a b : Nat) : Nat × Bool := let r := (f32 a).add (f32 b).neg; (f32Round r.1, r.2)

/-- The results alone, for the reference algorithms. -/
def mulF (a b : Nat) : Nat := (fmul a b).1
def addF (a b : Nat) : Nat := (fadd a b).1
def fmaF (a b c : Nat) : Nat := (ffma a b c).1

/-- Minimum: NaN if either is NaN, −0 below +0 (R60). -/
def fmin (a b : Nat) : Nat :=
  if (f32 a).isNan || (f32 b).isNan then qnan32 else if (f32 a).le (f32 b) then a else b

/-- Maximum: NaN if either is NaN, −0 below +0 (R60). -/
def fmax (a b : Nat) : Nat :=
  if (f32 a).isNan || (f32 b).isNan then qnan32 else if (f32 a).le (f32 b) then b else a

/-- `a` with the sign of `s` (copysign of R65). -/
def withSign (a s : Nat) : Nat := fabs a + (s / 0x80000000 * 0x80000000)

/-- The FP32 pattern of an integer. -/
def f32OfInt (n : Int) : Nat := f32Round (.ofInt n)

/-- Bits [30:23] of x (R65). -/
def biasedExp (x : Nat) : Nat := x / 0x800000 % 256
/-- Bits [22:0] of x (R65). -/
def mantBits (x : Nat) : Nat := x % 0x800000
/-- x with its sign cleared and bits [30:23] replaced (R65). -/
def withExp (x b : Nat) : Nat := b * 0x800000 + mantBits x

/-- y × 2^m rounded once (R65). -/
def scalb32 (y : Nat) (m : Int) : Nat := f32Round ((f32 y).scale m)

/-- ⌊√n⌋ by bits from `2^b` down. -/
def isqrt (n : Nat) : Nat → Nat → Nat
  | 0, r => if (r + 1) * (r + 1) ≤ n then r + 1 else r
  | b + 1, r => let t := r + 2 ^ (b + 1); isqrt n b (if t * t ≤ n then t else r)

/-- rne32(num / den), for values in the normal range: the quotient to 64 bits with a sticky bit, rounded once. -/
def rneQuot (num den : Nat) : Nat :=
  let q := num * 2 ^ 64 / den
  let s := b2n (num * 2 ^ 64 % den != 0)
  f32Round (.fin false (2 * q + s) (-65))

/-- RCP_TAB[i] (R65). -/
def rcpTab (i : Nat) : Nat := rneQuot 128 (128 + i)
/-- RCP_SEED[i] (R65). -/
def rcpSeed (i : Nat) : Nat := rneQuot 256 (256 + 2 * i + 1)

/-- RSQ_SEED[i] (R65): 1/√g with g = n/128, so 1/√g = √(128/n). -/
def rsqSeed (i : Nat) : Nat :=
  let n := (128 + 2 * (i % 64) + 1) * (if i ≥ 64 then 2 else 1)
  let x := 128 * 2 ^ 80
  let q := isqrt (x / n) 40 0
  let s := b2n (q * q * n != x)
  f32Round (.fin false (2 * q + s) (-41))

/-- EXP2_TAB[j] = rne32(2^(j/64)) (R65). -/
def exp2Tab : List Nat :=
  [0x3F800000, 0x3F8164D2, 0x3F82CD87, 0x3F843A29, 0x3F85AAC3, 0x3F871F62, 0x3F88980F, 0x3F8A14D5,
   0x3F8B95C2, 0x3F8D1ADF, 0x3F8EA43A, 0x3F9031DC, 0x3F91C3D3, 0x3F935A2B, 0x3F94F4F0, 0x3F96942D,
   0x3F9837F0, 0x3F99E046, 0x3F9B8D3A, 0x3F9D3EDA, 0x3F9EF532, 0x3FA0B051, 0x3FA27043, 0x3FA43516,
   0x3FA5FED7, 0x3FA7CD94, 0x3FA9A15B, 0x3FAB7A3A, 0x3FAD583F, 0x3FAF3B79, 0x3FB123F6, 0x3FB311C4] ++
  [0x3FB504F3, 0x3FB6FD92, 0x3FB8FBAF, 0x3FBAFF5B, 0x3FBD08A4, 0x3FBF179A, 0x3FC12C4D, 0x3FC346CD,
   0x3FC5672A, 0x3FC78D75, 0x3FC9B9BE, 0x3FCBEC15, 0x3FCE248C, 0x3FD06334, 0x3FD2A81E, 0x3FD4F35B,
   0x3FD744FD, 0x3FD99D16, 0x3FDBFBB8, 0x3FDE60F5, 0x3FE0CCDF, 0x3FE33F89, 0x3FE5B907, 0x3FE8396A,
   0x3FEAC0C7, 0x3FED4F30, 0x3FEFE4BA, 0x3FF28177, 0x3FF5257D, 0x3FF7D0DF, 0x3FFA83B3, 0x3FFD3E0C]

/-- LOG_TAB[i] = rne32(−ln(RCP_TAB[i])) (R65). -/
def logTab : List Nat :=
  [0x00000000, 0x3BFF015B, 0x3C7E0545, 0x3CBDC8D6, 0x3CFC14C8, 0x3D1CF437, 0x3D3BA2CE, 0x3D5A16F0,
   0x3D785185, 0x3D8B29B9, 0x3D9A0EBA, 0x3DA8D837, 0x3DB78694, 0x3DC61A33, 0x3DD4936C, 0x3DE2F2A6,
   0x3DF1383A, 0x3DFF648A, 0x3E06BBF4, 0x3E0DB958, 0x3E14AA96, 0x3E1B8FE1, 0x3E22695A, 0x3E29372F,
   0x3E2FF983, 0x3E36B07E, 0x3E3D5C48, 0x3E43FD04, 0x3E4A92D4, 0x3E511DE0, 0x3E579E49, 0x3E5E1436] ++
  [0x3E647FBD, 0x3E6AE10A, 0x3E71383B, 0x3E778570, 0x3E7DC8C6, 0x3E82012E, 0x3E851928, 0x3E882C5F,
   0x3E8B3AE5, 0x3E8E44C6, 0x3E914A0F, 0x3E944AD0, 0x3E974716, 0x3E9A3EEE, 0x3E9D3263, 0x3EA02185,
   0x3EA30C5D, 0x3EA5F2FD, 0x3EA8D56C, 0x3EABB3BA, 0x3EAE8DED, 0x3EB16416, 0x3EB43640, 0x3EB70476,
   0x3EB9CEBF, 0x3EBC952A, 0x3EBF57C2, 0x3EC2168E, 0x3EC4D19D, 0x3EC788F5, 0x3ECA3C9F, 0x3ECCECAC] ++
  [0x3ECF991E, 0x3ED24205, 0x3ED4E766, 0x3ED78949, 0x3EDA27BD, 0x3EDCC2C5, 0x3EDF5A6D, 0x3EE1EEBE,
   0x3EE47FBF, 0x3EE70D79, 0x3EE997F4, 0x3EEC1F3A, 0x3EEEA34F, 0x3EF12441, 0x3EF3A213, 0x3EF61CCF,
   0x3EF8947A, 0x3EFB0921, 0x3EFD7AC3, 0x3EFFE96F, 0x3F012A95, 0x3F025EFD, 0x3F0391F3, 0x3F04C37B,
   0x3F05F397, 0x3F07224C, 0x3F084F9E, 0x3F097B8D, 0x3F0AA61F, 0x3F0BCF55, 0x3F0CF735, 0x3F0E1DC0] ++
  [0x3F0F42FA, 0x3F1066E6, 0x3F118987, 0x3F12AADF, 0x3F13CAF0, 0x3F14E9C0, 0x3F160750, 0x3F1723A2,
   0x3F183EBA, 0x3F19589A, 0x3F1A7144, 0x3F1B88BE, 0x3F1C9F07, 0x3F1DB423, 0x3F1EC812, 0x3F1FDADD,
   0x3F20EC7E, 0x3F21FCFE, 0x3F230C5F, 0x3F241A9F, 0x3F2527C4, 0x3F2633CE, 0x3F273EC1, 0x3F28489E,
   0x3F29516A, 0x3F2A5924, 0x3F2B5FCE, 0x3F2C656D, 0x3F2D6A01, 0x3F2E6D8E, 0x3F2F7015, 0x3F307197]

/-- Infinity with the sign of x. -/
def infSigned (x : Nat) : Nat := withSign 0x7F800000 x

/-- x < y for patterns that are not NaN, the zeros equal. -/
def fltZ (x y : Nat) : Bool := !((f32 y).le (f32 x)) && !(fabs x == 0 && fabs y == 0)

/-- vexp of R65. -/
def vexp (x : Nat) : Nat × Bool :=
  if (f32 x).isNan then (qnan32, false)
  else if fltZ 0x43000000 x then (0x7F800000, false)
  else if fltZ x 0xC3000000 then (0, false)
  else
    let y := f32 (mulF x 0x42B8AA3B)
    let n : Int := match y with
      | .fin s m e => let q : Int := ((rne m e : Nat) : Int); if s then -q else q
      | _ => 0
    let j := (n % 64).toNat
    let m := n / 64
    let nn := f32OfInt (-n)
    let r := fmaF nn 0x3C317180 x
    let r := fmaF nn 0x3417F7D1 r
    let p := mulF r (fmaF r (fmaF r 0x3E2AAAAB 0x3F000000) 0x3F800000)
    let t := nthD exp2Tab j 0
    (scalb32 (fmaF t p t) m, false)

/-- The normalised form of a nonzero finite x: x scaled by 2^24 where it is subnormal, and its exponent. -/
def normed (x : Nat) : Nat × Int :=
  if biasedExp x == 0 then
    let y := mulF x 0x4B800000
    (y, (biasedExp y : Int) - 127 - 24)
  else (x, (biasedExp x : Int) - 127)

/-- vlog of R65. -/
def vlog (x : Nat) : Nat × Bool :=
  if (f32 x).isNan then (qnan32, false)
  else if fltZ x 0 then (qnan32, true)
  else if fabs x == 0 then (0xFF800000, false)
  else if x == 0x7F800000 then (0x7F800000, false)
  else
    let n := normed x
    let i := mantBits n.1 / 65536
    let f := withExp n.1 127
    let r := fmaF f (rcpTab i) 0xBF800000
    let p := mulF r (fmaF r (fmaF r (fmaF r 0xBE800000 0x3EAAAAAB) 0xBF000000) 0x3F800000)
    let e := f32OfInt n.2
    let hi := fmaF e 0x3F317180 (nthD logTab i 0)
    let lo := fmaF e 0x3717F7D1 p
    (addF hi lo, false)

/-- vrcp of R65. -/
def vrcp (x : Nat) : Nat × Bool :=
  if (f32 x).isNan then (qnan32, false)
  else if fabs x == 0 then (infSigned x, false)
  else if fabs x == 0x7F800000 then (withSign 0 x, false)
  else
    let n := normed x
    let f := withExp n.1 127
    let step := fun y => fmaF y (fmaF (fneg f) y 0x3F800000) y
    let y := step (step (rcpSeed (mantBits n.1 / 65536)))
    (withSign (scalb32 y (-n.2)) x, false)

/-- vrsqrt of R65. -/
def vrsqrt (x : Nat) : Nat × Bool :=
  if (f32 x).isNan then (qnan32, false)
  else if fltZ x 0 then (qnan32, true)
  else if fabs x == 0 then (infSigned x, false)
  else if x == 0x7F800000 then (0, false)
  else
    let n := normed x
    let odd := n.2 % 2 == 1
    let f0 := withExp n.1 127
    let f := if odd then mulF f0 0x40000000 else f0
    let e := if odd then n.2 - 1 else n.2
    let h := mulF 0x3F000000 f
    let step := fun y => fmaF y (fmaF (fneg (mulF h y)) y 0x3F000000) y
    let y := step (step (rsqSeed (b2n odd * 64 + mantBits n.1 / 131072)))
    (scalb32 y (-(e / 2)), false)

/-- vtanh of R65. -/
def vtanh (x : Nat) : Nat × Bool :=
  if (f32 x).isNan then (qnan32, false)
  else
    let a := fabs x
    if a ≥ 0x41200000 then (withSign 0x3F800000 x, false)
    else if a < 0x39800000 then (x, false)
    else if a < 0x3E800000 then
      let s := mulF x x
      let q := fmaF s (fmaF s (fmaF s 0x3CB327A4 0xBD5D0DD1) 0x3E088889) 0xBEAAAAAB
      (fmaF (mulF x s) q x, false)
    else
      let e := (vexp (mulF 0xC0000000 a)).1
      let t := mulF (fsub 0x3F800000 e).1 (vrcp (addF 0x3F800000 e)).1
      (withSign t x, false)

/-- vsilu of R65. -/
def vsilu (x : Nat) : Nat × Bool :=
  if (f32 x).isNan then (qnan32, false)
  else if x == 0xFF800000 then (0x80000000, false)
  else
    let d := addF 0x3F800000 (vexp (fneg x)).1
    (mulF x (vrcp d).1, false)

end Sys2Proof.Machine
end

