-- ==== Sys2Proof/Machine/Compute.lean ====
section
/-! DEFINITION. What the compute instructions compute (R132 to R138): rows of result bytes, accumulator slots and the
arithmetic events, from the bytes of their operands. -/

namespace Sys2Proof.Machine

/-- The outcome of a compute instruction. -/
inductive Computed where
  /-- a kernel fault with its DETAIL -/
  | fault (code detail : Nat)
  /-- rows of result bytes; the slot, where the instruction writes it (`some none` clears it); the events; elements
  converted by stochastic rounding -/
  | done (rows : List (List Byte)) (slot : Option (Option Slot)) (flags : AFlags) (drawn : Nat)
  deriving DecidableEq, Repr

/-! ## Reading operands -/

/-- The values of row `n` of an operand of a value format. -/
def rowValues (d : Desc) (rd : Rd) (n : Nat) : List Num :=
  match d.fmt with
  | some f => (List.range d.extent0).map fun k => tileElem f rd d.stride1 d.stride0 n k
  | none => []

/-- Every row's values. -/
def tileValues (d : Desc) (rd : Rd) : List (List Num) := (List.range d.extent1).map (rowValues d rd)

/-- The ACC elements of an operand, row by row (R49). -/
def tileAccs (d : Desc) (rd : Rd) : List (List Acc) :=
  (List.range d.extent1).map fun r => (List.range d.extent0).map fun k => accAt rd (r * d.stride1 + 32 * k)

/-- Some source value is a NaN (R57). -/
def anyNan (vs : List (List Num)) : Bool := vs.any fun r => r.any Num.isNan

/-- The FP32 pattern of a BF16, FP16 or FP32 value, widened exactly (R61). -/
def widen (v : Num) : Nat := f32Round v

/-! ## Writing rows -/

/-- The little-endian bytes of a code. -/
def codeBytes (f : Fmt) (code : Nat) : List Byte := leBytes (f.elemBits / 8) code

/-- The bytes and events of a row of values converted once to the destination's format (R53 to R56); any source goes into an MX format by the
method of R56 (DESIGN CHOICE, notes/assumptions/89.md). `old` is the row's
last byte as it stands, whose high nibble an odd row of INT4 keeps (notes/assumptions/11.md). -/
def rowOut (f : Fmt) (old : Byte) (vs : List Num) : List Byte × AFlags :=
  if f.isMx then mxRow f vs
  else
    let cs := vs.map (convertPlain f)
    let fl := (cs.map Prod.snd).foldl AFlags.or .none
    if f == .int4 then
      let bs := packCodes 4 (cs.map Prod.fst)
      if vs.length % 2 == 1 then
        (bs.dropLast ++ [(bs.getLastD 0) ||| (old &&& 0xF0#8)], fl)
      else (bs, fl)
    else (cs.flatMap fun c => codeBytes f c.1, fl)

/-- Rows converted and joined, without the NAN_SEEN of the conversion itself (R54). -/
def rowsOut (d : Desc) (rd : Rd) (vs : List (List Num)) : List (List Byte) × AFlags :=
  let f := d.fmt.getD .int8
  let rs := (List.range vs.length).map fun r => rowOut f (rd (r * d.stride1 + d.rowBytes - 1)) (nthD vs r [])
  (rs.map Prod.fst, { ((rs.map Prod.snd).foldl AFlags.or .none) with nanSeen := false })

/-- Rows of ACC elements as bytes, and the event of storing one with SAT set (R49, R57). -/
def accRows (es : List (List Acc)) : List (List Byte) × AFlags :=
  (es.map fun r => r.flatMap Acc.bytes, { accSat := es.any fun r => r.any fun a => a.sat })

/-- A slot's elements by rows (m major, R133). -/
def Slot.rows (x : Slot) : List (List Acc) := chunks x.n x.m x.elems

/-! ## TMM (R133) -/

/-- The TMM of a cleared or continued slot. -/
def computeTmm (f : TileFields) (dd ds1 ds2 : Desc) (rd1 rd2 : Rd) (held : Option Slot) : Computed :=
  let n := ds1.extent1
  let m := ds2.extent1
  let start : Option (List Acc) :=
    if f.opt0 then some (List.replicate (m * n) (Acc.fresh dd.auto dd.anchor))
    else match held with
      | some x => if x.n == n && x.m == m then some x.elems else none
      | none => none
  match start with
  | none => .fault 0x04 f.aslot.toNat
  | some es =>
    if !f.opt0 && es.any fun a => !a.auto && !dd.auto && a.anchor != dd.anchor then .fault 0x0B f.aslot.toNat
    else
      let w := tileValues ds1 rd1
      let a := tileValues ds2 rd2
      let prods := (List.range (m * n)).map fun i => List.zipWith Num.mul (nthD a (i / n) []) (nthD w (i % n) [])
      let es := es.map fun x => { x with auto := x.auto || dd.auto }
      let out := List.zipWith (fun (x : Acc) ps => x.addAll (ps.map Prod.fst)) es prods
      if out.any Option.isNone then .fault 0x0E f.aslot.toNat
      else
        .done [] (some (some ⟨n, m, out.map fun x => x.getD {}, false⟩))
          { nanSeen := anyNan w || anyNan a, nanGen := prods.any fun ps => ps.any Prod.snd } 0

/-! ## TVOP (R134, R59 to R61, R65) -/

/-- One TVOP result as an FP32 pattern, and whether a NaN arose from inputs that are not NaN. -/
def vop (fn a b d imm : Nat) : Nat × Bool :=
  match fn with
  | 0x00 => (a, false)
  | 0x01 => fadd a b
  | 0x02 => fsub a b
  | 0x03 => fmul a b
  | 0x04 => ffma a b d
  | 0x05 => (fmin a b, false)
  | 0x06 => (fmax a b, false)
  | 0x07 => (if (f32 a).isNan then qnan32 else fabs a, false)
  | 0x08 => (if (f32 a).isNan then qnan32 else fneg a, false)
  | 0x09 => fmul a imm
  | 0x0A => fadd a imm
  | 0x10 => vexp a
  | 0x11 => vlog a
  | 0x12 => vrcp a
  | 0x13 => vrsqrt a
  | 0x14 => vtanh a
  | _ => vsilu a

/-- TVOP over a tile; DS2 broadcasts along a dimension of extent 1. -/
def computeTvop (f : TileFields) (dd ds1 ds2 : Desc) (rdd rd1 rd2 : Rd) : Computed :=
  let fn := f.fn.toNat
  let x := tileValues ds1 rd1
  let y := if vopBinary fn then tileValues ds2 rd2 else []
  let z := if fn == 4 then tileValues dd rdd else []
  let at2 := fun (t : List (List Num)) (d : Desc) (i j : Nat) =>
    widen (nthD (nthD t (if d.extent1 == 1 then 0 else i) []) (if d.extent0 == 1 then 0 else j) (.zero false))
  let one := fun i j =>
    vop fn (widen (nthD (nthD x i []) j (.zero false))) (at2 y ds2 i j) (widen (nthD (nthD z i []) j (.zero false))) f.imm.toNat
  let rs := (List.range ds1.extent1).map fun i => (List.range ds1.extent0).map fun j => one i j
  let gen := rs.any fun r => r.any Prod.snd
  let seen := anyNan x || anyNan y || anyNan z
  let out :=
    if dd.fmt == some .fp32 then (rs.map fun r => r.flatMap fun v => leBytes 4 v.1, AFlags.none)
    else rowsOut dd rdd (rs.map fun r => r.map fun v => f32 v.1)
  .done out.1 none (out.2.or { nanGen := gen, nanSeen := seen }) 0

/-! ## TRED (R62, R135, R136) -/

/-- Lines of a tile along dimension 0 (rows) or 1 (columns). -/
def lines (dim : Nat) (d : Desc) (vs : List (List Num)) : List (List Num) :=
  if dim == 0 then vs else (List.range d.extent0).map fun j => vs.map fun r => nthD r j (.zero false)

/-- Results of lines laid out as the destination's rows: one element a row, or one row. -/
def unline {α : Type} (dim : Nat) (xs : List α) : List (List α) := if dim == 0 then xs.map fun x => [x] else [xs]

/-- An element of the ranking comes before another: NaN above +∞, then the larger, then the lower index (R136). -/
def ranksBefore (a b : Nat × Num) : Bool :=
  match a.2.isNan, b.2.isNan with
  | true, true => decide (a.1 < b.1)
  | true, false => true
  | false, true => false
  | false, false =>
    -- equal values rank by index; −0 and +0 are equal values
    let eq := (a.2.le b.2 && b.2.le a.2) || (!a.2.isFinNonzero && !b.2.isFinNonzero && (match a.2, b.2 with | .fin _ _ _, .fin _ _ _ => true | _, _ => false))
    if eq then decide (a.1 < b.1) else b.2.le a.2

/-- Put an element at its place in the ranking. -/
def rankIn (x : Nat × Num) : List (Nat × Num) → List (Nat × Num)
  | [] => [x]
  | y :: ys => if ranksBefore x y then x :: y :: ys else y :: rankIn x ys

/-- The indices of the `k` largest elements of a row, in rank order (R136). -/
def topK (k : Nat) (vs : List Num) : List Nat :=
  (((List.range vs.length).zip vs).foldl (fun acc x => (rankIn x acc).take k) []).map Prod.fst

/-- Merge ACC elements into a slot (R48, R135, R141): ANCHOR_MISMATCH before ACC_COUNT_LIMIT. A merge carries NAN over and sets
no event of R57 (DESIGN CHOICE, notes/assumptions/70.md). -/
def mergeSlot (slot : Nat) (x : Slot) (es : List (List Acc)) : Computed :=
  let ys := es.flatten
  let pairs := x.elems.zip ys
  if pairs.any fun p => Acc.mismatch p.1 p.2 then .fault 0x0B slot
  else if pairs.any fun p => Acc.overCount p.1 p.2 then .fault 0x0E slot
  else .done [] (some (some { x with elems := pairs.map fun p => Acc.merge p.1 p.2 })) .none 0

/-- TRED over a tile. -/
def computeTred (f : TileFields) (dd ds1 : Desc) (rdd rd1 : Rd) (held : Option Slot) : Computed :=
  let fn := f.fn.toNat
  if fn == 0x10 then
    match held with
    | some x => if x.n == ds1.extent0 && x.m == ds1.extent1 then mergeSlot f.aslot.toNat x (tileAccs ds1 rd1) else .fault 0x04 f.aslot.toNat
    | none => .fault 0x04 f.aslot.toNat
  else
    let x := tileValues ds1 rd1
    let seen : AFlags := { nanSeen := anyNan x }
    let ls := lines (fn % 2) ds1 x
    if fn ≤ 1 then
      match (ls.map fun l => (Acc.fresh dd.auto dd.anchor).addAll l) with
      | es =>
        if es.any Option.isNone then .fault 0x0E 0
        else
          let rows := unline fn (es.map fun e => e.getD {})
          if dd.fmt == some .acc then let o := accRows rows; .done o.1 none (o.2.or seen) 0
          else
            let o := rowsOut dd rdd (rows.map fun r => r.map fun a => a.final.1)
            let fl := rows.foldl (fun fl r => r.foldl (fun fl a => fl.or { a.finalFlags with nanSeen := false }) fl) o.2
            .done o.1 none (fl.or seen) 0
    else if fn == 8 then
      .done (x.map fun r => (topK f.imm.toNat r).flatMap fun i => leBytes 4 i) none seen 0
    else
      let pick := fun l => match l with
        | [] => 0
        | v :: vs => vs.foldl (fun acc w => if fn ≤ 3 then fmax acc (widen w) else fmin acc (widen w)) (widen v)
      let o := rowsOut dd rdd (unline (fn % 2) (ls.map fun l => f32 (pick l)))
      .done o.1 none (o.2.or seen) 0

/-! ## TCVT and TDEC (R63, R64, R137) -/

/-- Stochastic rounding of element `e` (R64). -/
def srOne (f : Fmt) (src : Word64) (e : Nat) (v : Num) : Nat × AFlags :=
  match f.fp? with
  | some p => p.srConvert ((mix64 (src + BitVec.ofNat 64 e)).toNat % 65536) v
  | none => (0, .none)

/-- TCVT over a tile, from a slot, from ACC elements, or from values. -/
def computeTcvt (f : TileFields) (dd ds1 : Desc) (rdd rd1 : Rd) (held : Option Slot) (src : Word64) : Computed :=
  let accs : Option (List (List Acc)) :=
    if f.opt0 then (match held with | some x => if x.n == dd.extent0 && x.m == dd.extent1 then some x.rows else none | none => none)
    else if ds1.fmt == some .acc then some (tileAccs ds1 rd1) else some []
  match accs with
  | none => .fault 0x04 f.aslot.toNat
  | some es =>
    let fromAcc := f.opt0 || ds1.fmt == some .acc
    let vs := if fromAcc then es.map fun r => r.map fun a => a.final.1 else tileValues ds1 rd1
    let fl : AFlags :=
      if fromAcc then es.foldl (fun fl r => r.foldl (fun fl a => fl.or a.finalFlags) fl) .none else { nanSeen := anyNan vs }
    let slot : Option (Option Slot) :=
      if f.opt0 then
        (if f.opt1 then some none else held.map fun x => some { x with elems := x.elems.map Acc.afterFinal })
      else none
    if f.fn == 1 then
      let fmt := dd.fmt.getD .bf16
      let rs := (List.range vs.length).map fun r =>
        let row := nthD vs r []
        (List.range row.length).map fun j => srOne fmt src (r * dd.extent0 + j) (nthD row j (.zero false))
      let fl2 := rs.foldl (fun fl r => r.foldl (fun fl x => fl.or { x.2 with nanSeen := false }) fl) fl
      .done (rs.map fun r => r.flatMap fun x => codeBytes fmt x.1) slot fl2 (dd.extent0 * dd.extent1)
    else
      let o := rowsOut dd rdd vs
      .done o.1 slot (o.2.or fl) 0

/-- TDEC over a tile: the decoded values in DD's format. -/
def computeTdec (dd ds1 : Desc) (rdd rd1 : Rd) : Computed :=
  let vs := tileValues ds1 rd1
  let o := rowsOut dd rdd vs
  .done o.1 none (o.2.or { nanSeen := anyNan vs }) 0

/-- The compute opcodes (R132). -/
def compute (op : Nat) (f : TileFields) (dd ds1 ds2 : Desc) (rdd rd1 rd2 : Rd) (held : Option Slot) (src : Word64) : Computed :=
  match op with
  | 0x90 => computeTmm f dd ds1 ds2 rd1 rd2 held
  | 0x91 => computeTvop f dd ds1 ds2 rdd rd1 rd2
  | 0x92 => computeTred f dd ds1 rdd rd1 held
  | 0x93 => computeTcvt f dd ds1 rdd rd1 held src
  | _ => computeTdec dd ds1 rdd rd1

end Sys2Proof.Machine
end

