-- ==== Sys2Proof/Machine/Recorder.lean ====
section
/-! DEFINITION. The Replay complication (R565 to R574): its ring in the pavilion's memory, the records it appends, the
inputs it feeds, the step digest, and how a recording or replay ends. A ring page that the package may not read leaves the input that
needs it waiting, and a commit uncompared (notes/assumptions/87.md). -/

namespace Sys2Proof.Machine

/-! ## The pavilion's own memory by DVA -/

/-- Pieces of a DVA range by page: the DVA of the piece and its length. -/
def dvaPieces (dva n : Nat) : List (Nat × Nat) :=
  (runPages dva n).map fun pg => let lo := max dva (pg * 65536); (lo, min (dva + n) ((pg + 1) * 65536) - lo)

/-- Bytes of a pavilion's LOCAL memory; a page that is not mapped so, with RD, reads as zero. -/
def State.readDva (s : State) (p dva n : Nat) : List Byte :=
  (dvaPieces dva n).flatMap fun x => match s.dvaFor p x.1 { rd := true } with
    | some a => s.readCs p a x.2
    | none => List.replicate x.2 0

/-- Write bytes of a pavilion's LOCAL memory; what its tables do not let the package write waits on a fault record (R191). -/
def State.writeDva (s : State) (p dva : Nat) (bs : List Byte) : State :=
  (dvaPieces dva bs.length).foldl (fun s x => match s.dvaFor p x.1 { wr := true } with
    | some a => s.writeCs p a ((bs.drop (x.1 - dva)).take x.2)
    | none => s.recordAt p x.1 { wr := true } (some (x.1, (bs.drop (x.1 - dva)).take x.2))) s

/-- The ring has a page that the package may not read: its fault is recorded (R191). -/
def State.deniedRing (s : State) : Option State :=
  let r := s.replayer
  s.deniedRead r.pav ((dvaPieces r.ring.toNat r.used).map Prod.fst)

/-! ## The ring (R567, R568, R571) -/

def State.modRec (s : State) (f : Recorder → Recorder) : State := { s with replayer := f s.replayer }

/-- Pad with zeros to a multiple of 64 bytes. -/
def pad64 (bs : List Byte) : List Byte := bs ++ List.replicate (roundUp bs.length 64 - bs.length) 0

/-- A record of the ring (R568). -/
structure RingRec where
  kind : Nat
  srcPkg : Nat := 0
  stream : Nat := 0
  rseq : Nat := 0
  kpos : Nat := 0
  time : Nat := 0
  addr : Nat := 0
  step : Nat := 0
  data : List Byte := []
  deriving DecidableEq, Repr

def RingRec.bytes (r : RingRec) : List Byte :=
  leBytes 1 r.kind ++ leBytes 1 0 ++ leBytes 2 r.srcPkg ++ leBytes 4 r.stream ++ leBytes 8 r.rseq ++ leBytes 8 r.kpos ++ leBytes 8 r.time
    ++ leBytes 8 r.addr ++ leBytes 4 r.data.length ++ leBytes 4 0 ++ leBytes 8 r.step ++ leBytes 8 0 ++ pad64 r.data

/-- The record at a ring offset. -/
def State.ringRec (s : State) (o : Nat) : RingRec :=
  let r := s.replayer
  let h := s.readDva r.pav (r.ring.toNat + o) 64
  let f := fun a n => leNat ((h.drop a).take n)
  { kind := f 0 1, srcPkg := f 2 2, stream := f 4 4, rseq := f 8 8, kpos := f 16 8, time := f 24 8, addr := f 32 8, step := f 48 8
    data := s.readDva r.pav (r.ring.toNat + o + 64) (f 40 4) }

/-- Bytes a record takes in the ring. -/
def RingRec.size (r : RingRec) : Nat := 64 + roundUp r.data.length 64

/-- The ring's header (R567). -/
def State.ringHeader (s : State) (st endCode : Nat) : State :=
  let r := s.replayer
  (s.writeDva r.pav r.ring.toNat (leBytes 4 1 ++ leBytes 4 st ++ leBytes 8 r.records ++ leBytes 8 r.used)).writeDva r.pav (r.ring.toNat + 48)
    (leBytes 1 endCode ++ List.replicate 15 0)

/-- Write a record after the last one. -/
def State.ringPut (s : State) (r : RingRec) : State :=
  let s1 := s.writeDva s.replayer.pav (s.replayer.ring.toNat + s.replayer.used) r.bytes
  s1.modRec fun x => { x with used := x.used + r.size, records := x.records + 1 }

/-- A recording or replay ends: a recording with an END record, its header complete (R566, R571, R574). -/
def State.endReplay (s : State) (why : Nat) : State :=
  let r := s.replayer
  if r.mode == 0 then s
  else if r.mode == 2 then s.modRec fun x => { x with mode := 0, live := false, cause := why }
  else
    let s1 := s.ringPut { kind := 7, kpos := r.kernels, time := s.now.toNat, step := (s.pav r.pav).committed.toNat, data := [BitVec.ofNat 8 why] }
    (s1.ringHeader 2 why).modRec fun x => { x with mode := 0, live := false, cause := why }

/-- A recording or replay of the pavilion ends (R574). -/
def State.endReplayOf (s : State) (p why : Nat) : State := if s.replayer.pav == p then s.endReplay why else s

/-- Append a record, or end a recording whose ring cannot hold it and an END record (R569, R571). -/
def State.appendRec (s : State) (r : RingRec) : State :=
  let x := s.replayer
  let r := { r with kpos := x.kernels, time := s.now.toNat, step := (s.pav x.pav).committed.toNat }
  if x.used + r.size + 128 > x.len then (s.endReplay 2).raisePf0 0x0061 x.pav (detailWords [x.pav, 1]) else s.ringPut r

/-- The ordinal of the next input of a kind and stream (R568). -/
def State.takeOrdinal (s : State) (kind stream : Nat) : Nat × State :=
  let k := kind * 2 ^ 20 + stream
  let n := Tab.getD s.replayer.ordinals k 0
  (n, s.modRec fun x => { x with ordinals := Tab.put k (n + 1) x.ordinals })

/-- Record an input of the pavilion, if Replay records it. -/
def State.recordInput (s : State) (p kind srcPkg stream addr : Nat) (data : List Byte) : State :=
  if !s.recording p then s
  else
    let o := s.takeOrdinal kind stream
    o.2.appendRec { kind := kind, srcPkg := srcPkg, stream := stream, rseq := o.1, addr := addr, data := data }

/-! ## Replay (R572, R573) -/

/-- Replay meets its first difference (R573). -/
def State.diverge (s : State) (why kind stream seq : Nat) : State :=
  let s1 := s.modRec fun x => { x with diverged := true, cause := 7, divWhy := why, divKind := kind, divStream := stream, divSeq := seq
                                       divKpos := x.kernels }
  s1.raisePf0 0x0061 s.replayer.pav (detailWords [s.replayer.pav, 0])

/-- Every record before END has been used: the replay ends, the pavilion is to freeze at its next layer boundary, and
REPLAY_STOPPED is raised (R573). -/
def State.checkEnd (s : State) : State :=
  let r := s.replayer
  if r.mode != 2 || !r.live || r.diverged || r.records + 1 < leNat (s.readDva r.pav (r.ring.toNat + 8) 8) then s
  else ((s.endReplay 6).modRec fun x => { x with ending := true }).raisePf0 0x0061 r.pav (detailWords [r.pav, 0])

/-- The first record from offset `o` that passes, with its offset; `fuel` bounds the records looked at. -/
def State.findRec (s : State) (f : RingRec → Bool) : Nat → Nat → Option (Nat × RingRec)
  | 0, _ => none
  | fuel + 1, o =>
    if o + 64 > s.replayer.used then none
    else
      let r := s.ringRec o
      if f r then some (o, r) else if r.kind == 7 then none else State.findRec s f fuel (o + r.size)

/-- Serve an input from its record, or diverge (R572, R573). -/
def State.replayInput (s : State) (p kind stream addr len : Nat) : Option (List Byte) × State :=
  if !s.replaying p || s.replayer.diverged then (none, s)
  else if let some t := s.deniedRing then (none, t)
  else
    let o := s.takeOrdinal kind stream
    match s.findRec (fun r => r.kind == kind && r.stream == stream && r.rseq == o.1) (s.replayer.used / 64) 64 with
    | none => (none, o.2.diverge 1 kind stream o.1)
    | some (_, r) =>
      if r.addr != addr || r.data.length != len then (none, o.2.diverge 2 kind stream o.1)
      else (some r.data, (o.2.modRec fun x => { x with records := x.records + 1 }).checkEnd)

/-! ## Step digests (R570) -/

/-- A line of a digest: its first address, mask and bytes. -/
def digestLine (a : Nat) (bs : Tab Byte) : List Byte :=
  let inLine := bs.filter fun x => x.1 / 64 == a
  leBytes 8 (a * 64) ++ leBytes 8 (inLine.foldl (fun m x => m + 2 ^ (x.1 % 64)) 0) ++ (List.range 64).map fun i => Tab.getD inLine (a * 64 + i) 0

/-- The step digest of the bytes a step has written, by address (R570). -/
def stepDigest (bs : Tab Byte) : List Byte :=
  let lines := bs.foldl (fun l x => insertUniq (x.1 / 64) l) []
  Config.shake256 32 (lines.flatMap fun a => digestLine a bs)

/-- Bytes at an address, the later ones standing. -/
def putBytes (t : Tab Byte) (a : Nat) : List Byte → Tab Byte
  | [] => t
  | b :: bs => putBytes (Tab.put a b t) (a + 1) bs

/-- Replay notes bytes that a window write or an outgoing frame writes in the step (R570, R572). -/
def State.noteWrite (s : State) (p addr : Nat) (bs : List Byte) : State :=
  if s.recording p || s.replaying p then s.modRec fun x => { x with written := putBytes x.written addr bs } else s

/-- Step `n` of the pavilion has committed, with the host-bound writes it held: the digest is recorded or compared
(R569, R570, R572, R573). -/
def State.replayCommit (s : State) (p : Nat) (n : Word64) (held : List Held) : State :=
  let all := held.foldl (fun t h => putBytes t h.dva.toNat h.bytes) s.replayer.written
  let clear := fun (s : State) => s.modRec fun x => { x with written := [] }
  if s.recording p then clear (s.appendRec { kind := 6, data := stepDigest all })
  else if s.replaying p && !s.replayer.diverged then
    if let some t := s.deniedRing then clear t else
    match s.findRec (fun r => r.kind == 6) (s.replayer.used / 64) s.replayer.digestAt with
    | none => clear (s.diverge 3 6 0 n.toNat)
    | some (o, r) =>
      if r.data != stepDigest all then clear (s.diverge 3 6 0 n.toNat)
      else (clear (s.modRec fun x => { x with digestAt := o + r.size, records := x.records + 1 })).checkEnd
  else s

end Sys2Proof.Machine
end

