-- ==== Sys2Proof/Machine/TileRun.lean ====
section
/-! DEFINITION. Carrying out tile instructions: one tile at a time in row order (R128, R200, R201), translation faults
(R150, R203, R204), held host-bound writes (R131, R202), the counters (R446), and issue (R78, R79, R96, R119). -/

namespace Sys2Proof.Machine

/-! ## Strands of tile instructions -/

/-- A strand that waits for an instruction in flight to proceed goes on once none of them is held up (R77, R150). -/
def State.unstall (s : State) (core strand : Nat) : State :=
  let t := s.strand core strand
  if t.mode == .waiting && (t.wait == .transl || t.wait == .host) && (t.flights.findSome? Flight.stall).isNone then s.makeReady core strand else s

/-- A tile instruction raises a kernel fault at its current tile (R151). -/
def State.tileKernelFault (s : State) (core strand : Nat) (x : Flight) (code detail : Nat) : State :=
  s.kernelFaultAt core strand code x.op.toNat x.tile detail x.pc

/-! ## Movement -/

/-- The operand whose rows a movement instruction is split by. -/
def Flight.lead (x : Flight) : Desc := if x.op == 0x84 then x.ds1 else x.dd

/-- Rows of the instruction and rows of one tile; a compute instruction is one tile (R128, R132). -/
def Flight.extent (x : Flight) : Nat × Nat :=
  if isMove x.op.toNat then (x.lead.rows, rowsPerTile x.op.toNat x.f x.dd x.ds1) else (1, 1)

/-- The index that TGATHER or TSCATTER reads for row `i` (R130). -/
def State.indexAt (s : State) (p core : Nat) (d : Desc) (i : Nat) : Int :=
  toSigned 32 (leNat ((List.range 4).map fun b => s.opByte p core [] {} d (i * d.stride0 * 4 + b)))

/-- The destination and source rows of a tile: row pairs in row order (R126, R128). -/
def State.tileRows (s : State) (p core : Nat) (x : Flight) : List (Nat × Nat) :=
  let e := x.extent
  let lo := x.tile * e.2
  ((List.range (min e.2 (e.1 - lo))).map fun j => lo + j).map fun r =>
    match x.op.toNat with
    | 0x83 => (r, (s.indexAt p core x.ds2 r).toNat)
    | 0x84 => ((s.indexAt p core x.ds2 r).toNat, r)
    | _ => (r, r)

/-- The first index of the tile that lies outside the indexed operand (R130), whose rows are slice rows in CB2V (R114,
notes/assumptions/69.md). -/
def State.badIndex (s : State) (p core : Nat) (x : Flight) : Option Int :=
  let lim : Option Nat := match x.op.toNat with | 0x83 => some x.ds1.rows | 0x84 => some x.dd.rows | _ => none
  match lim with
  | none => none
  | some n =>
    let e := x.extent
    let lo := x.tile * e.2
    ((List.range (min e.2 (e.1 - lo))).map fun j => s.indexAt p core x.ds2 (lo + j)).find? fun i => decide (i < 0) || decide (i ≥ n)

/-- The slot is the source of a TST (R127). -/
def Flight.fromSlot (x : Flight) : Bool := x.op == 0x81 && x.f.opt0

/-- Pages of a tile with their accesses (R200). -/
def Flight.pages (x : Flight) (v : Pav) (rows : List (Nat × Nat)) : Tab Access :=
  let src := if isMove x.op.toNat && !x.fromSlot then x.ds1.pagesOf v (rows.map Prod.snd)
    else if readsDs1 x.op.toNat x.f && !isMove x.op.toNat then x.ds1.pagesOf v (List.range x.ds1.rows) else []
  let src2 := if readsDs2 x.op.toNat x.f && !isMove x.op.toNat then x.ds2.pagesOf v (List.range x.ds2.rows) else []
  let dst := if isMove x.op.toNat then x.dd.pagesOf v (rows.map Prod.fst) else []
  addPages (addPages [] (src ++ src2) { rd := true }) dst { wr := true }

/-- Bytes of held host-bound writes not yet committed (R131). -/
def Pav.heldBytes (v : Pav) : Nat := (v.held.filter fun h => h.step.isNone).foldl (fun n h => n + h.bytes.length) 0

/-- The runs of a row at an operand with the pages they lie in: page key, offset in the page, bytes of the row. -/
def Desc.pieces (d : Desc) (r : Nat) (bs : List Byte) : List (Nat × Nat × List Byte) :=
  let base := d.start
  let key := fun pg => match d.loc with | 3 => winPage d.winPkg d.winId pg | 4 => peerPage d.peer pg | _ => pg
  ((d.rowRuns r).foldl (fun (acc : List (Nat × Nat × List Byte) × List Byte) x =>
    let a := base + x.1
    let run := acc.2.take x.2
    let ps := (runPages a x.2).map fun pg =>
      let lo := max a (pg * 65536)
      (key pg, lo % 65536, (run.drop (lo - a)).take ((pg + 1) * 65536 - lo))
    (acc.1 ++ ps, acc.2.drop x.2)) ([], bs)).1

/-- The held host-bound writes of a row of an instruction (R131, R202). -/
def heldOf (core strand num : Nat) (m : Tab PageLoc) (d : Desc) (r : Nat) (bs : List Byte) : List Held :=
  (d.pieces r bs).filterMap fun x =>
    match Tab.find x.1 m with
    | some (.host iova sealed) => some { core := core, strand := strand, num := num, dva := BitVec.ofNat 64 (x.1 * 65536 + x.2.1)
                                         iova := BitVec.ofNat 64 (iova + x.2.1), sealed := sealed, bytes := x.2.2 }
    | _ => none

/-- Put a held write behind those of its strand whose instructions issued no later (R147). -/
def putHeld (h : Held) : List Held → List Held
  | [] => [h]
  | y :: l => if y.core == h.core && y.strand == h.strand && decide (h.num < y.num) then h :: y :: l else y :: putHeld h l

def PageLoc.isHost : PageLoc → Bool | .host _ _ => true | _ => false
def PageLoc.isRemote : PageLoc → Bool | .remote _ _ _ => true | .peer _ _ _ => true | _ => false

/-- Some page an operand uses lies in host memory. -/
def Desc.touches (d : Desc) (v : Pav) (m : Tab PageLoc) (rows : List Nat) (k : PageLoc → Bool) : Option PageLoc :=
  (d.pagesOf v rows).findSome? fun pg => match Tab.find pg m with | some l => if k l then some l else none | none => none

/-- An instruction in flight holds its strand up. A strand that already waits for something else, or has run ahead, goes on
waiting for that first (R77, R150); a kill stops it for good. -/
def State.stall (s : State) (core strand : Nat) (w : Wait) : State :=
  s.modStrand core strand fun t => if t.mode == .ready || w == .killed then { t with mode := .waiting, wait := w } else t

/-- An uncorrectable word of a core's scratch, at offset `o`, kills its pavilion (R175). -/
def State.killLs (s : State) (p core o : Nat) : State := s.killSram p core (lsRow o)

/-- The first uncorrectable word of a scratch, its own core's or a peer's on this package, that operands read: that core and the word's
offset there (R175). -/
def State.badLs (s : State) (p core : Nat) (ds : List Desc) : Option (Nat × Nat) :=
  ds.findSome? fun d =>
    let at' : Option (Nat × Nat) :=
      if d.loc == locLs then some (core, d.base)
      else if d.loc == locPeer && !(s.pav p).far d.peer then (s.coreAt p (d.peer % max 1 (s.pav p).ownCores)).map fun c => (c, d.peerOff)
      else none
    at'.bind fun x => if !s.lsHurt x.1 x.2 (d.span d.rows) then none
      else ((List.range d.rows).flatMap d.rowRuns).findSome? fun r => (s.badWord x.1 (x.2 + r.1) r.2).map fun o => (x.1, o)

/-- The instruction uses an accumulator slot that holds an uncorrectable error (R175). -/
def State.badSlot (s : State) (core : Nat) (x : Flight) : Bool :=
  x.slot.any fun k => ((Tab.find k (s.core core).slots).map Slot.hurt).getD false

/-- The source operands an instruction reads. -/
def Flight.sources (x : Flight) : List Desc :=
  (if readsDs1 x.op.toNat x.f then [x.ds1] else []) ++ (if readsDs2 x.op.toNat x.f then [x.ds2] else [])
    ++ (if readsDd x.op.toNat x.f then [x.dd] else [])

/-- The bytes of an operand's rows that lie in pages of a kind: where the byte is supplied, and its address in a record
(a DVA, or the form of a WINDOW BASE), in row order (R568, R570). -/
def Desc.outside (d : Desc) (m : Tab PageLoc) (rows : List Nat) (k : PageLoc → Bool) : List (Nat × Nat) :=
  rows.flatMap fun r => (d.pieces r (List.replicate d.rowBytes 0)).flatMap fun x =>
    match Tab.find x.1 m with
    | some l =>
      if k l then
        let base : Nat × Nat := match l with
          | .host iova _ => (iova, x.1 * 65536)
          | .remote pkg w page => (x.1 * 65536, winAddr pkg w page)
          | .window _ _ a => (x.1 * 65536, a)
          | _ => (x.1 * 65536, x.1 * 65536)
        (List.range x.2.2.length).map fun i => (base.1 + x.2.1 + i, base.2 + x.2.1 + i)
      else []
    | none => []

/-- Stream id of a core's requests (R239). -/
def State.coreStream (s : State) (p core : Nat) : Nat := p * 2048 + ((s.coresOf p).map Prod.snd).idxOf core

def PageLoc.isWindow : PageLoc → Bool | .window _ _ _ => true | .remote _ _ _ => true | _ => false

/-- The parts of a row that lie in windows: address in the form of a WINDOW BASE, bytes. -/
def Desc.windowPieces (d : Desc) (m : Tab PageLoc) (r : Nat) (bs : List Byte) : List (Nat × List Byte) :=
  (d.pieces r bs).filterMap fun x => match Tab.find x.1 m with
    | some (.remote pkg w page) => some (winAddr pkg w page + x.2.1, x.2.2)
    | some (.window _ _ a) => some (a + x.2.1, x.2.2)
    | _ => none

/-- Serve a source's outside bytes from Replay's records (R572). -/
def State.feed (s : State) (p core kind : Nat) (bs : List (Nat × Nat)) : Option Mem × State :=
  if !s.replaying p || bs.isEmpty then (none, s)
  else
    let q := s.replayInput p kind (s.coreStream p core) ((bs.headD (0, 0)).2) bs.length
    (q.1.map fun data => (bs.zip data).foldl (fun m x => Mem.write m x.1.1 x.2) [], q.2)

/-- Record the outside bytes that a source delivers (R569): HOST_DATA and WINDOW_DATA. -/
def State.recordSource (s : State) (p core : Nat) (d : Desc) (m : Tab PageLoc) (io : Supply) (rows : List Nat) : State :=
  if !s.recording p then s
  else
    let h := d.outside m rows PageLoc.isHost
    let w := d.outside m rows PageLoc.isWindow
    let st := s.coreStream p core
    let s1 := if h.isEmpty then s else s.recordInput p 2 0 st ((h.headD (0, 0)).2) (h.map fun x => Mem.read (io.host.getD []) x.1)
    if w.isEmpty then s1
    else
      let bytes := rows.flatMap fun r => (d.windowPieces m r (s.rowData p core m io d r)).flatMap Prod.snd
      s1.recordInput p 5 (((w.headD (0, 0)).2) >>> 52) st ((w.headD (0, 0)).2) bytes

/-- The bytes that a tile moves, by row (R127). -/
def State.tileData (s : State) (p core : Nat) (x : Flight) (m : Tab PageLoc) (io : Supply) (rows : List (Nat × Nat)) : List (List Byte) :=
  let held := s.slotOf core x.engine (slotNum x.f x.xs)
  rows.map fun r =>
    if x.fromSlot then ((held.map fun k => (nthD k.rows r.1 []).flatMap Acc.bytes).getD [])
    else s.rowData p core m io x.ds1 r.2

/-- A tile that moves sets AC and DI in the leaves of the owners of windows of this package (R194, R219). -/
def State.touchWindows (s : State) (m : Tab PageLoc) (pages : Tab Access) : State :=
  pages.foldl (fun s x => match Tab.find x.1 m with
    | some (.window _ _ addr) => s.touchWindow (bits addr 51 40) (bits addr 39 16) x.2
    | _ => s) s

/-- Move the bytes of one tile of a movement instruction: every source byte is read before any destination byte is
written (R127, R129). -/
def State.moveTile (s : State) (p core strand : Nat) (x : Flight) (m : Tab PageLoc) (io : Supply) (rows : List (Nat × Nat)) : State :=
  let held := s.slotOf core x.engine (slotNum x.f x.xs)
  let data := s.tileData p core x m io rows
  let total := data.foldl (fun n bs => n + bs.length) 0
  let s1 := (rows.zip data).foldl (fun s rd => s.writeRow p core m x.dd rd.1.1 rd.2) (s.touchWindows m (x.pages (s.pav p) rows))
  let hs := (rows.zip data).flatMap fun rd => heldOf core strand x.num m x.dd rd.1.1 rd.2
  let s1 := (s1.recordSource p core x.ds1 m io (if x.fromSlot then [] else rows.map Prod.snd)).useSlices p (if x.fromSlot then [] else [x.ds1])
  let ws := (rows.zip data).flatMap fun rd => x.dd.windowPieces m rd.1.1 rd.2
  let s1 := ws.foldl (fun s y => s.noteWrite p y.1 y.2) s1
  let s2 := s1.modPav p fun v => { v with held := hs.foldl (fun l h => putHeld h l) v.held }
  let hostBytes := hs.foldl (fun n h => n + h.bytes.length) 0
  let cls := min (s.opClass p m x.dd) (if x.fromSlot then 3 else s.opClass p m x.ds1)
  -- bytes read from the package page count nowhere (R300, R447)
  let shape := if x.fromSlot then 0 else (x.ds1.outside m (rows.map Prod.snd) (· == PageLoc.package)).length
  let s3 := s2.count p cls (total - hostBytes - shape)
  let sat := x.fromSlot && rows.any fun r => (held.map fun k => (nthD k.rows r.1 []).any fun a => a.sat).getD false
  let s4 := s3.modStrand core strand fun t => if sat then t.setFlags { accSat := true } else t
  if s4.dir.nextFill == s.dir.nextFill then s4
  else s4.modFlight core strand x.num fun y => { y with fills := (if y.fills.2 == 0 then s.dir.nextFill else y.fills.1, s4.dir.nextFill) }

/-! ## Compute -/

/-- Bytes an operand reads from the home of a slice (R446). -/
def State.homeBytes (s : State) (p : Nat) (d : Desc) : Nat :=
  if d.loc != locOrangery then 0
  else match Tab.find d.handle (s.pav p).slices with
    | none => 0
    | some sl => ((List.range d.rows).flatMap d.rowRuns).foldl (fun n r =>
        (runPages (d.sliceOff + r.1) r.2).foldl (fun n pg =>
          if ((Tab.find pg sl.resident).map Piece.resident).getD false then n
          else
            let a := d.sliceOff + r.1
            n + (min (a + r.2) ((pg + 1) * 65536) - max a (pg * 65536))) n) 0

/-- Carry out a compute instruction (R132). -/
def State.computeTile (s : State) (p core strand : Nat) (x : Flight) (m : Tab PageLoc) : State :=
  let rd := fun (d : Desc) (o : Nat) => s.opByte p core m {} d o
  let t := s.strand core strand
  let k := slotNum x.f x.xs
  match compute x.op.toNat x.f x.dd x.ds1 x.ds2 (rd x.dd) (rd x.ds1) (rd x.ds2) (s.slotOf core x.engine k) t.src with
  | .fault code _ => s.tileKernelFault core strand x code k
  | .done rows slot fl n =>
    let s1 := (List.range rows.length).foldl (fun s r => s.writeRow p core m x.dd r (nthD rows r [])) s
    let s2 := match slot with | some y => s1.putSlot core x.engine k y | none => s1
    let s2 := s2.useSlices p x.sources
    let home := x.sources.foldl (fun n d => n + s.homeBytes p d) 0
    (s2.count p 2 home).modStrand core strand fun t => { t.setFlags fl with src := t.src + BitVec.ofNat 64 n }

/-! ## One tile -/

/-- Outcome of an attempt at a tile: the instruction can go on to its next tile. -/
structure Attempt where
  state : State
  go : Bool

/-- A run of a tile's bytes that lie on another package: where it is (a window of a package, or a peer core), its place in
the tile's supply, its length and the bytes to write. -/
structure FarRun where
  loc : PageLoc
  off : Nat
  key : Nat
  bytes : List Byte
  deriving DecidableEq, Repr

/-- The runs of an operand's rows that lie on other packages, in row order. -/
def Desc.farRuns (d : Desc) (m : Tab PageLoc) (rows : List (Nat × List Byte)) : List FarRun :=
  rows.flatMap fun r => (d.pieces r.1 r.2).filterMap fun x => match Tab.find x.1 m with
    | some (.remote pkg w page) => some ⟨.remote pkg w 0, page * 65536 + x.2.1, x.1 * 65536 + x.2.1, x.2.2⟩
    | some (.peer rank c page) => some ⟨.peer rank c 0, page * 65536 + x.2.1, x.1 * 65536 + x.2.1, x.2.2⟩
    | _ => none

/-- What a tile asks of other packages: its source bytes, that they take its bytes, or, for a tile that may not move one (R152),
only whether their windows would take them. -/
inductive FarAsk where
  | read
  | write
  | probe
  deriving DecidableEq, Repr

/-- Bytes of a message at most: 32 payload flits (R237). -/
def messageBytes : Nat := 4096

/-- Cut a run into pieces of at most 4 KiB. -/
def FarRun.cut (r : FarRun) : List FarRun :=
  (List.range (ceilDiv r.bytes.length messageBytes)).map fun i =>
    { r with off := r.off + i * messageBytes, key := r.key + i * messageBytes, bytes := (r.bytes.drop (i * messageBytes)).take messageBytes }

/-- Share runs out to messages of at most 4 KiB, in order (R237). -/
def packRuns (rs : List FarRun) : List (List FarRun) :=
  (rs.flatMap FarRun.cut).foldr (fun r l => match l with
    | m :: rest => if (m.foldl (fun n x => n + x.bytes.length) r.bytes.length) ≤ messageBytes then (r :: m) :: rest else [r] :: l
    | [] => [[r]]) []

/-- Offset and length of runs. -/
def farSpans (rs : List FarRun) : List (Nat × Nat) := rs.map fun r => (r.off, r.bytes.length)

/-- The request for runs at one place: a window request, or a read or write of a peer's scratch (R218, R238, R239). `all` are the runs
of the tile there, and `last` says that no further message of the tile goes there. A window request goes to the host movers' unit 0 of
its package, whose translation serves it (notes/assumptions/77.md). -/
def State.farRequest (s : State) (p core strand num : Nat) (host : Option Mem) (ask : FarAsk) (l : PageLoc) (all : List FarRun) (last : Bool)
    (rs : List FarRun) : Sent :=
  let v := s.pav p
  let msg : BulkMsg :=
    { stream := BitVec.ofNat 20 (s.coreStream p core), winding := v.winding, vc := 2, srcPkg := BitVec.ofNat 12 s.ownPkg
      payload := if ask == .write then rs.flatMap FarRun.bytes else [], runs := farSpans rs, tile := if rs == all then [] else farSpans all
      last := last, tenant := BitVec.ofNat 32 v.tenant }
  let msg := match l with
    | .remote pkg w _ => { msg with dstPkg := BitVec.ofNat 12 pkg, dstLoc := BitVec.ofNat 16 (unitLoc 7), kind := if ask == .read then 5 else 6, addr := BitVec.ofNat 64 w }
    | .peer rank c _ =>
      let pkg := nthD v.span.members rank 0
      { msg with dstPkg := BitVec.ofNat 12 pkg, dstLoc := Config.memberLoc pkg v.spanId c, kind := if ask == .read then 0 else 1, addr := BitVec.ofNat 64 v.spanId }
    | _ => msg
  { core := core, strand := strand, num := num, msg := msg, keys := if ask != .read then [] else rs.map fun r => (r.key, r.bytes.length), host := host }

/-- The requests of a tile's far runs: for each place, in messages of at most 4 KiB. A request that moves no byte is one message. -/
def State.farRequests (s : State) (p core strand num : Nat) (host : Option Mem) (ask : FarAsk) (rs : List FarRun) : List Sent :=
  let places := rs.foldl (fun (l : List PageLoc) r => if l.contains r.loc then l else l ++ [r.loc]) []
  places.flatMap fun l =>
    let all := rs.filter fun r => r.loc == l
    let ms := if ask == .probe then [all] else packRuns all
    ms.zipIdx.map fun x => s.farRequest p core strand num host ask l all (x.2 + 1 == ms.length) x.1

/-- A run of the destination covers part of a line that holds an uncorrectable error: its read-merge-write meets it (R170). -/
def State.badDest (s : State) (m : Tab PageLoc) (d : Desc) (rows : List Nat) : Option BadLine :=
  BadLine.first <| (rows.flatMap fun r => d.pieces r (List.replicate d.rowBytes 0)).filterMap fun x =>
    let lo := fun (cs : Nat) => cs + x.2.1
    let n := x.2.2.length
    match Tab.find x.1 m with
    | some (.bed q cs) => (s.beds.mergeBad (csKey (s.pav q) (s.pav q).channels) (lo cs) n).map fun k => ⟨q, k, none⟩
    | some (.window q cs addr) => (s.beds.mergeBad (csKey (s.pav q) (s.pav q).channels) (lo cs) n).map fun k => ⟨q, k, some addr⟩
    | _ => none

/-- Location codes of the units of this package that hold an operand's rows, and how many bytes: channels, and cores of the pavilion
(R232, R256). -/
def State.operandUnits (s : State) (p : Nat) (m : Tab PageLoc) (d : Desc) (rows : List Nat) : List (Nat × Nat) :=
  let v := s.pav p
  let channels := (rows.flatMap fun r => d.pieces r (List.replicate d.rowBytes 0)).flatMap fun x => match Tab.find x.1 m with
    | some (.bed q cs) | some (.window q cs _) => s.setUnits q (cs + x.2.1) x.2.2.length
    | _ => []
  let cores := match d.loc with
    | 4 => if v.far d.peer then [] else ((s.coreAt p (d.peer % max 1 v.ownCores)).map fun c => (coreLoc c, rows.length * d.rowBytes)).toList
    | 1 => match Tab.find d.handle v.slices with
      | none => []
      | some sl => (rows.flatMap d.rowRuns).flatMap fun r => (runPages (d.sliceOff + r.1) r.2).filterMap fun i =>
          let n := min (d.sliceOff + r.1 + r.2) ((i + 1) * 65536) - max (d.sliceOff + r.1) (i * 65536)
          match Tab.find i sl.resident with | some pc => if pc.resident then some (coreLoc pc.core, n) else none | none => none
    | _ => []
  channels ++ cores

/-- A tile's traffic between its core and the units that hold its operands: reads of its sources and writes of its destination (R228,
R232). A CYCLE pavilion of others whose routers it crosses is no longer repeatable (R564). -/
def State.tileTraffic (s : State) (p core : Nat) (m : Tab PageLoc) (x : Flight) (srcRows dstRows : List Nat) : State :=
  let sources := if isMove x.op.toNat then (if x.fromSlot then [] else s.operandUnits p m x.ds1 srcRows)
    else x.sources.flatMap fun d => s.operandUnits p m d (List.range d.rows)
  let one := fun (kind : Nat) (s : State) (u : Nat × Nat) =>
    s.exchange (s.inside (some p) (BitVec.ofNat 20 (s.coreStream p core)) kind u.1 false) (coreLoc core) u.2
  (s.operandUnits p m x.dd dstRows).foldl (one 1) (sources.foldl (one 0) s)

/-- The package of a place on another one. -/
def Pav.farPkg (v : Pav) (l : PageLoc) : Nat :=
  match l with
  | .remote pkg _ _ => pkg
  | .peer rank _ _ => nthD v.span.members rank 0
  | _ => 0

/-- What became of a tile's requests to other packages. -/
inductive Asked where
  /-- sent: the tile waits for their answers -/
  | sent (s : State)
  /-- no route to this package, for this window and its lowest page that the tile touches (R218, R220) -/
  | noRoute (pkg w page : Nat)

/-- Send a tile's requests to other packages: its reads, or, with the bytes it moves at hand, its writes. -/
def State.askRemote (s : State) (p core strand : Nat) (x : Flight) (m : Tab PageLoc) (io : Supply) (rows : List (Nat × Nat)) (ask : FarAsk) : Asked :=
  let rs := if ask != .read then x.dd.farRuns m ((rows.map Prod.fst).zip (s.tileData p core x m io rows))
    else x.ds1.farRuns m (rows.map fun r => (r.2, List.replicate x.ds1.rowBytes 0))
  let v := s.pav p
  match rs.find? fun r => (s.reach (v.farPkg r.loc)).isNone with
  | some r => .noRoute (v.farPkg r.loc) (match r.loc with | .remote _ w _ => w | _ => v.spanId)
      ((rs.filter fun y => y.loc == r.loc).foldl (fun n y => min n (y.off / 65536)) (r.off / 65536))
  | none => .sent ((s.farRequests p core strand x.num io.host ask rs).foldl State.request s)

/-- The tile sends its requests to other packages and waits, or its instruction faults for want of a route (R142, R218, R220). -/
def State.awaitRemote (s : State) (p core strand : Nat) (x : Flight) (m : Tab PageLoc) (io : Supply) (rows : List (Nat × Nat)) (ask : FarAsk) : Attempt :=
  match s.askRemote p core strand x m io rows ask with
  | .sent s1 => ⟨s1.modFlight core strand x.num fun y => { y with prog := .remote, map := some m }, false⟩
  | .noRoute pkg w pg => ⟨s.tileKernelFault core strand x 0x13 (winDetail pkg w pg 0x08), false⟩

/-- Resident pieces of an orangery operand in which rows of it read an uncorrectable word: the slice, the piece's number, the piece and the
word's offset in the local store (R175). -/
def State.hurtPieces (s : State) (p : Nat) (d : Desc) (rows : List Nat) : List (Nat × Nat × Piece × Nat) :=
  if d.loc != locOrangery then []
  else match Tab.find d.handle (s.pav p).slices with
    | none => []
    | some sl => sl.resident.filterMap fun x =>
      if !x.2.resident || !s.lsHurt x.2.core (x.2.segment * 65536) 65536 then none
      else ((rows.flatMap d.rowRuns).findSome? fun r =>
        let lo := max (d.sliceOff + r.1) (x.1 * 65536)
        let hi := min (d.sliceOff + r.1 + r.2) ((x.1 + 1) * 65536)
        if hi ≤ lo then none else s.badWord x.2.core (x.2.segment * 65536 + lo % 65536) (hi - lo)).map fun o => (d.handle, x.1, x.2, o)

/-- A piece in which an uncorrectable word was read stops being resident and is filled again (R175). -/
def State.dropPiece (s : State) (p : Nat) (x : Nat × Nat × Piece × Nat) : State :=
  let s1 := (s.modBeds fun b => { b with ueCount := b.ueCount + 1 }).logMem 0x0A (coreLoc x.2.2.1.core) (lsRow x.2.2.2)
  s1.modPav p fun v => { v with slices := match Tab.find x.1 v.slices with
    | none => v.slices
    | some sl => Tab.put x.1 { sl with resident := Tab.drop x.2.1 sl.resident, filling := if sl.filling.isSome then sl.filling else some x.2.1 } v.slices }

/-- Orangery operands meet uncorrectable words: their pieces are read from their homes and filled again (R175). Each operand comes with
the rows of it that are read. -/
def State.dropHurt (s : State) (p : Nat) (ds : List (Desc × List Nat)) : State :=
  (ds.flatMap fun d => s.hurtPieces p d.1 d.2).foldl (fun s x => s.dropPiece p x) s

/-- Operands of the instruction's tile with the rows of them that it reads. -/
def State.tileReads (s : State) (p core : Nat) (x : Flight) : List (Desc × List Nat) :=
  if x.fromSlot then []
  else if isMove x.op.toNat then [(x.ds1, (s.tileRows p core x).map Prod.snd)]
  else x.sources.map fun d => (d, List.range d.rows)

/-- The mover of the instruction's cluster holds its tile: one whose data are on their way, or whose instruction has yet to
complete (R102). A tile that has faulted gives its place up (R201). -/
def Flight.inMover (x : Flight) : Bool :=
  isMove x.op.toNat && (match x.prog with | .hostRead _ | .remote | .moved => true | _ => false)

/-- Tiles in flight in a cluster's mover. -/
def State.moverTiles (s : State) (k : Nat) : Nat :=
  (s.strands.filter fun x => clusterOf (x.1 / 2048) == k).foldl (fun n x => n + (x.2.flights.filter Flight.inMover).length) 0

/-- The destinations of two TPUTs may be one: the same peer core, the same package's windows, or a DVA that may lead to either. -/
def sameFarEnd (a b : Desc) : Bool :=
  a.loc == locDva || b.loc == locDva || (a.loc == b.loc && (if a.loc == locPeer then a.peer == b.peer else a.winPkg == b.winPkg))

/-- An earlier TPUT of the strand to the same destination has tiles that have not landed (R142). -/
def Strand.putBefore (t : Strand) (x : Flight) : Bool :=
  x.op == 0xA2 && (t.flights.takeWhile fun y => y.num != x.num).any fun y => y.op == 0xA2 && y.prog != .moved && sameFarEnd y.dd x.dd

/-- A movement instruction's next tile has to wait for a place in its mover, or behind an earlier TPUT (R102, R142). A load whose buffer is
promoted moves no byte and needs no place (R96). -/
def State.moverFull (s : State) (core strand : Nat) (x : Flight) : Bool :=
  isMove x.op.toNat && x.map.isNone && x.prog != .promoting && (decide (s.moverTiles (clusterOf core) ≥ 32) || (s.strand core strand).putBefore x)

/-- Host-bound bytes of a tile (R131). -/
def Flight.hostBytes (x : Flight) (m : Tab PageLoc) (rows : List Nat) : Nat :=
  if isMove x.op.toNat then (rows.flatMap fun q => (x.dd.pieces q (List.replicate x.dd.rowBytes 0)).filter fun pc =>
    ((Tab.find pc.1 m).map PageLoc.isHost).getD false).foldl (fun n pc => n + pc.2.2.length) 0 else 0

/-- Host-bound bytes of tiles of a pavilion that have passed their checks and wait for other packages to write their part. -/
def State.promisedBytes (s : State) (p : Nat) : Nat :=
  (s.strands.filter fun x => s.ownerOf (x.1 / 2048) == some p).foldl (fun n x =>
    (x.2.flights.filter fun y => y.prog == .remote && s.net.sent.any fun q =>
      q.core == x.1 / 2048 && q.strand == x.1 % 2048 && q.num == y.num && !q.msg.payload.isEmpty).foldl (fun n y =>
        n + y.hostBytes (y.map.getD []) ((s.tileRows p (x.1 / 2048) y).map Prod.fst)) n) 0

/-- Places on other packages to which a tile goes. -/
def Flight.farPlaces (x : Flight) (m : Tab PageLoc) (rows : List Nat) : Nat :=
  ((x.dd.farRuns m (rows.map fun q => (q, List.replicate x.dd.rowBytes 0))).foldl (fun (l : List PageLoc) r =>
    if l.contains r.loc then l else l ++ [r.loc]) []).length

/-- Attempt the current tile of the instruction numbered `num`. -/
def State.attemptTile (s : State) (p core strand : Nat) (x : Flight) (io : Supply) : Attempt :=
  -- RETRY translates a tile whether or not it has a place (R208)
  if x.prog != .retry && s.moverFull core strand x then ⟨s.modFlight core strand x.num fun y => { y with prog := .pending }, false⟩ else
  match s.badIndex p core x with
  | some i => ⟨s.tileKernelFault core strand x 0x0A (ofSigned 64 i), false⟩
  | none =>
    let s := s.dropHurt p (s.tileReads p core x)
    let v := s.pav p
    let un := clusterOf core
    let rows := s.tileRows p core x
    let pages := x.pages v rows
    let r : Resolved × State := match x.map with | some m => (.pages m, s) | none => s.resolve un p pages
    let srcRows := if isMove x.op.toNat then rows.map Prod.snd else List.range x.ds1.rows
    let dstRows := rows.map Prod.fst
    match r.1 with
    | .fault pg c l a =>
      let w : Waiter := { tunit := .cluster un, core := core, strand := strand, num := some x.num, page := BitVec.ofNat 64 pg
                          cause := c, level := l, access := a.code }
      let s1 := (r.2.recordFault p w).modFlight core strand x.num fun y => { y with prog := .faulted (BitVec.ofNat 64 pg) }
      ⟨s1.stall core strand .transl, false⟩
    | .refused d => ⟨r.2.tileKernelFault core strand x 0x13 d, false⟩
    | .hurt key => ⟨((r.2.bedUncorrectable key).startReset p 0x03 (channelLoc (key / 2 ^ 33)) []).stall core strand .killed, false⟩
    | .pages m =>
      if x.prog == .retry && s.moverFull core strand x then ⟨r.2.modFlight core strand x.num fun y => { y with prog := .pending }, false⟩ else
      let s := r.2
      let anyHost := m.any fun y => y.2.isHost
      let srcHost := if isMove x.op.toNat && !x.fromSlot then x.ds1.touches v m srcRows PageLoc.isHost else none
      let moves0 := isMove x.op.toNat
      let moves := moves0 && !x.fromSlot
      let farSrc := moves && (x.ds1.touches v m srcRows PageLoc.isRemote).isSome
      let farDst := moves0 && (x.dd.touches v m dstRows PageLoc.isRemote).isSome
      let writeBytes := x.hostBytes m dstRows
      let fedHost := s.feed p core 2 (if moves && io.host.isNone then x.ds1.outside m srcRows PageLoc.isHost else [])
      let fedWin := fedHost.2.feed p core 5 (if moves && io.remote.isNone then x.ds1.outside m srcRows PageLoc.isWindow else [])
      let toWin := s.replaying p && moves && !(x.dd.outside m dstRows PageLoc.isWindow).isEmpty
      let io : Supply := { host := if io.host.isSome then io.host else fedHost.1
                           remote := if io.remote.isSome then io.remote else fedWin.1, written := io.written || toWin, granted := io.granted || toWin }
      let s := (if anyHost || farSrc || farDst then fedWin.2.unrepeatable p 6 else fedWin.2).tileTraffic p core m x srcRows dstRows
      if anyHost && v.chan.halted && !s.replaying p then
        ⟨(s.modFlight core strand x.num fun y => { y with prog := .hostWait, map := none }).stall core strand .host, false⟩
      else if srcHost.isSome && io.host.isNone then
        let iova := match srcHost with | some (.host i _) => i | _ => 0
        ⟨s.modFlight core strand x.num fun y => { y with prog := .hostRead (BitVec.ofNat 64 iova), map := some m }, false⟩
      else if farSrc && io.remote.isNone then s.awaitRemote p core strand x m io rows .read
      else
      let bad : Option BadLine := if io.written then none else
        match (if isMove x.op.toNat && !x.fromSlot then s.badSource p m x.ds1 srcRows
            else (x.sources.findSome? fun d => s.badSource p m d (List.range d.rows))) with
        | some b => some b
        | none => if moves0 then s.badDest m x.dd dstRows else none
      match bad.bind fun b => b.win.map fun a => (b, a) with
      | some (b, a) => ⟨(s.killOwner b.owner b.key).tileKernelFault core strand x 0x13 (a + 0x09), false⟩
      | none =>
      let tooMany := !io.written && writeBytes != 0 && decide (v.heldBytes + s.promisedBytes p + writeBytes > 64 * 2 ^ 20)
      -- no byte of a tile moves before every package it goes to would take it (R142, R151, R218)
      if farDst && !io.granted && !io.written && (tooMany || x.farPlaces m dstRows > 1) then s.awaitRemote p core strand x m io rows .probe
      else if tooMany then ⟨s.tileKernelFault core strand x 0x12 x.dd.base, false⟩
      else
        match s.badLs p core x.sources with
        | some o => ⟨(s.killLs p o.1 o.2).stall core strand .killed, false⟩
        | none =>
          if s.badSlot core x then ⟨(s.killSram p core 0).stall core strand .killed, false⟩ else
          match bad with
          | some b => ⟨(s.killOwner b.owner b.key).stall core strand .killed, false⟩
          | none =>
            if farDst && !io.written then s.awaitRemote p core strand x m io rows .write
            else if isMove x.op.toNat then ⟨s.moveTile p core strand x m io rows, true⟩
            else
              let s' := s.computeTile p core strand x m
              ⟨s', (s'.strand core strand).wait != .killed⟩

/-- The instruction's last byte has moved: a clear option takes effect (R127, R137). -/
def State.tileMoved (s : State) (core strand : Nat) (x : Flight) : State :=
  let s1 := s.modFlight core strand x.num fun y => { y with prog := .moved }
  if x.fromSlot && x.f.opt1 then s1.putSlot core x.engine (slotNum x.f x.xs) none else s1

/-- Carry out the remaining tiles of an instruction in row order, until it is done or one of them waits or faults. What
came from outside serves the first of them only. -/
def State.runTiles (s : State) (p core strand num : Nat) (io : Supply) : Nat → State
  | 0 => s
  | fuel + 1 =>
    match (s.strand core strand).flight num with
    | none => s
    | some x =>
      let a := s.attemptTile p core strand x io
      if !a.go then a.state
      else
        let e := x.extent
        let s1 := a.state.modFlight core strand num fun y =>
          { y with tile := y.tile + 1, prog := if x.prog == .promoting then .promoting else .pending, map := none }
        if (x.tile + 1) * e.2 ≥ e.1 then s1.tileMoved core strand x else s1.runTiles p core strand num {} fuel

/-- Tiles of an instruction. -/
def Flight.tiles (x : Flight) : Nat := ceilDiv x.extent.1 x.extent.2

/-- Resume or begin an instruction's tiles. -/
def State.driveTiles (s : State) (p core strand num : Nat) (io : Supply) : State :=
  match (s.strand core strand).flight num with
  | some x => (s.runTiles p core strand num io (x.tiles + 1)).unstall core strand
  | none => s

/-! ## Issue -/

/-- The shadow buffer of the strand that the instruction's address and occurrence name (R96). -/
def Core.shadowFor (c : Core) (strand : Nat) (pc : Word32) (occ : Nat) : Option (Nat × Shadow) :=
  c.shadows.find? fun x => x.2.strand == strand && !x.2.matched && x.2.load.pc == pc && x.2.load.occ == occ

/-- The buffer matches the instruction in every resolved descriptor field (R96). -/
def specMatches (l : SpecLoad) (x : Flight) : Bool := l.op == x.op && l.dst == x.dd && l.src == x.ds1 && (x.op != 0x83 || l.src2 == x.ds2)

/-- Opcodes that run-ahead can load (R91): their addresses have occurrence counters (R72). -/
def runAheadOp (op : Nat) : Bool := op == 0x80 || op == 0x83 || op == 0xA3

/-- Discard a shadow buffer. -/
def State.dropShadow (s : State) (core buf : Nat) : State := s.modCore core fun c => { c with shadows := Tab.drop buf c.shadows }

/-- A tile instruction leaves issue (R78): it is in flight, and the buffers of a predicate that the strand has passed by 64 tile
instructions are discarded (R98). -/
def State.launch (s : State) (core strand : Nat) (x : Flight) : State :=
  let t := s.strand core strand
  let t1 := { t with flights := t.flights ++ [x], issued := t.issued + 1
                     occ := if runAheadOp x.op.toNat then Tab.put x.pc.toNat (x.occ + 1) t.occ else t.occ }
  (({ s with order := s.order + 1 }).setStrand core strand t1).modCore core fun c =>
    { c with shadows := c.shadows.filter fun y => y.2.strand != strand || y.2.matched || decide (t1.issued < y.2.base + 64) }

/-- The shape that an instruction names for its slot: N and M (R127, R133, R135, R137). -/
def Flight.slotShape (x : Flight) : Option (Nat × Nat) :=
  match x.op.toNat with
  | 0x81 | 0x93 => if x.f.opt0 then some (x.dd.extent0, x.dd.extent1) else none
  | 0x90 => if x.f.opt0 then none else some (x.ds1.extent1, x.ds2.extent1)
  | 0x92 => if x.f.fn == 0x10 then some (x.ds1.extent0, x.ds1.extent1) else none
  | _ => none

/-- A slot that RESTORE has filled takes the shape of the first instruction that names it: the image holds a slot's elements and
not its shape (R462, R469). -/
def State.adoptShape (s : State) (core engine slot : Nat) (shape : Option (Nat × Nat)) : State :=
  match s.slotOf core engine slot, shape with
  | some k, some (n, m) => if k.n == 0 && n * m ≤ 256 then s.putSlot core engine slot (some { k with n := n, m := m, elems := k.elems.take (n * m) }) else s
  | _, _ => s

/-- The common checks of a tile instruction that issues (R78, R79, R107, R119, R152): the undefined encoding, the
in-flight limits, the operands it waits for, the static faults. `body` receives the launched flight. -/
def tile (core strand op : Nat) (f : TileFields) (s : State) (body : Nat → Nat → Flight → State → State) :
    Host.Outcome State Fault Refusal :=
  issue core strand 16 s fun p i t =>
    if (tileShape op f).undefined f then s.kernelFault core strand 0x01 op 0 0
    else if s.flightsFull core t then s.waitFor core strand .inflight
    else
      let x := s.newFlight core strand op f
      let bs := t.waitsOn x
      if !bs.isEmpty then s.waitFor core strand (.operand bs)
      else
        let s := s.adoptShape core x.engine (slotNum f x.xs) x.slotShape
        match s.tileFault p op f x.dd x.ds1 x.ds2 x.xs (s.slotOf core x.engine (slotNum f x.xs)) with
        | some (code, detail) => s.kernelFault core strand code op 0 detail
        | none => body p i x s

/-- An engine of the core has a compute instruction that has not completed (R69). -/
def State.engineBusy (s : State) (core : Nat) (x : Flight) : Bool :=
  isCompute x.op.toNat && !(s.engineQueue core x.engine).isEmpty

/-- The instruction in flight, its strand past it (R78). -/
def State.launched (s : State) (core strand : Nat) (x : Flight) : State := (s.launch core strand x).advance core strand 16

/-- Launch the instruction and go on at PC + 16. It carries out its tiles, or waits for its engine (R69), or for the promotion
of the shadow buffer it matches (R96). -/
def launchRun (core strand : Nat) (p _i : Nat) (x : Flight) (s : State) : State :=
  let run := fun (s : State) =>
    if s.engineBusy core x then s.launched core strand { x with prog := .queued }
    else (s.launched core strand x).driveTiles p core strand x.num {}
  match (s.core core).shadowFor strand x.pc x.occ with
  | some (buf, sh) =>
    if runAheadOp x.op.toNat && specMatches sh.load x then
      (s.modCore core fun c => { c with shadows := Tab.put buf { sh with matched := true } c.shadows }).launched core strand
        { x with prog := .promote buf }
    else run (s.dropShadow core buf)
  | none => run s

/-- An engine of the core is free: the oldest instruction that waits for it starts (R69). -/
def State.startQueued (s : State) (p core e : Nat) : State :=
  let qs := (s.engineQueue core e).filter fun x => x.2.prog == .queued
  match qs with
  | [] => s
  | q :: rest =>
    let x := rest.foldl (fun (m : Nat × Flight) y => if y.2.num < m.2.num then y else m) q
    (s.modFlight core x.1 x.2.num fun y => { y with prog := .pending }).driveTiles p core x.1 x.2.num {}

end Sys2Proof.Machine
end

