-- ==== Sys2Proof/Machine/TileComm.lean ====
section
/-! DEFINITION. Communication between cores (R139 to R142): posting of TSEND and TRECV, their match, TPUT and TGET. -/

namespace Sys2Proof.Machine

/-- Launch an instruction that waits for its partner (R140), and go on at PC + 16. -/
def launchPosted (core strand : Nat) (x : Flight) (s : State) : State :=
  (s.launch core strand { x with prog := .posted }).advance core strand 16

/-- The key of a TSEND or TRECV of logical core `me` (R140). -/
def postKey (me : Nat) (x : Flight) : MsgKey :=
  if x.op == 0xA0 then ⟨me, x.xs.toNat, x.f.fn.toNat, x.f.imm.toNat⟩ else ⟨x.xs.toNat, me, x.f.fn.toNat, x.f.imm.toNat⟩

/-- An instruction completes and leaves its strand (R78). -/
def State.finishFlight (s : State) (core strand num : Nat) : State :=
  s.modStrand core strand fun t => { t with flights := t.flights.filter fun x => x.num != num }

/-- What a posted TSEND sends: format, extents, bytes by rows, and whether the data touch a word of local store with an
uncorrectable error. A slot is sent as ACC elements. -/
def State.sendData (s : State) (p core : Nat) (x : Flight) : Option (Fmt × Nat × Nat × List (List Byte)) :=
  if x.f.opt0 then
    (s.slotOf core x.engine (slotNum x.f x.xs)).map fun k => (.acc, k.n, k.m, k.rows.map fun r => r.flatMap Acc.bytes)
  else x.ds1.fmt.map fun f =>
    (f, x.ds1.extent0, x.ds1.extent1, (List.range x.ds1.rows).map fun r => s.rowData p core [] {} x.ds1 r)

/-- Elements in rows of 32-byte ACC records. -/
def accsOf (rows : List (List Byte)) : List (List Acc) :=
  rows.map fun r => (chunks 32 r.length r).map fun b => Acc.unpack (leNat b)

/-- A TSEND to a core of another member of the span goes out in messages of at most 4 KiB that carry its IMM as SEQ (R140, R237,
R240). A source word of its local store or slot that is uncorrectable kills the pavilion instead (R175). -/
def State.sendFar (s : State) (p core strand : Nat) (x : Flight) (key : MsgKey) : State :=
  let v := s.pav p
  let n := max 1 v.ownCores
  let pkg := nthD v.span.members (x.xs.toNat / n) 0
  let hurt := if x.f.opt0 then none else s.badLs p core x.sources
  if hurt.isSome then s.killLs p core ((hurt.map Prod.snd).getD 0)
  else if s.badSlot core x then s.killSram p core 0
  else
    match s.sendData p core x with
    | none => s
    | some d =>
      let stream := BitVec.ofNat 20 (s.coreStream p core)
      let data := d.2.2.2.flatten
      let parts := max 1 (ceilDiv data.length 4096)
      let msg := fun (i : Nat) => ({
        stream := stream, seq := x.f.imm, winding := v.winding, vc := 2
        dstPkg := BitVec.ofNat 12 pkg, dstLoc := Config.memberLoc pkg v.spanId (x.xs.toNat % n), kind := 4
        srcPkg := BitVec.ofNat 12 s.ownPkg, addr := BitVec.ofNat 64 v.spanId
        payload := (data.drop (i * 4096)).take 4096, last := i + 1 == parts
        send := some { key := key, fmt := d.1.code, extent0 := d.2.1, extent1 := d.2.2.1, data := [], srcPkg := s.ownPkg, stream := stream.toNat
                       winding := v.winding.toNat, nth := v.sendNo + 1, parts := i } } : BulkMsg)
      let q : Sent := { core := core, strand := strand, num := x.num, msg := { msg (parts - 1) with payload := [] }, keys := [(0, data.length)] }
      let s1 := (s.modPav p fun v => { v with sendNo := v.sendNo + 1 }).modNet fun m => { m with sent := m.sent ++ [q] }
      (List.range parts).foldl (fun s i => s.leave (coreLoc core) (msg i)) s1

/-- TSEND: posts the sending half; a key still unmatched raises MSG_DUPLICATE (R140, R141). It ends the strand's held
shadow buffers (R92, R98). -/
def execTsend (core strand : Nat) (f : TileFields) (s : State) : Host.Outcome State Fault Refusal :=
  tile core strand 0xA0 f s fun p i x s =>
    let key := postKey (s.logicalOf p i) x
    let s := s.dropShadows core strand
    if (s.pav p).sends.any fun q => q.key == key then s.kernelFault core strand 0x0F 0xA0 0 0
    else
      let s1 := launchPosted core strand x s
      let s2 := s1.modPav p fun v => { v with sends := v.sends ++ [⟨key, core, strand, x.num⟩] }
      if (s.pav p).far x.xs.toNat then s2.sendFar p core strand x key else s2

/-- TRECV: posts the receiving half, and its strand waits until it is satisfied (R77); a key still unmatched raises
MSG_DUPLICATE (R140). -/
def execTrecv (core strand : Nat) (f : TileFields) (s : State) : Host.Outcome State Fault Refusal :=
  tile core strand 0xA1 f s fun p i x s =>
    let key := postKey (s.logicalOf p i) x
    let s := s.dropShadows core strand
    if (s.pav p).recvs.any fun q => q.key == key then s.kernelFault core strand 0x0F 0xA1 0 0
    else
      let s1 := launchPosted core strand x s
      let s2 := s1.modPav p fun v => { v with recvs := v.recvs ++ [⟨key, core, strand, x.num⟩] }
      if (s2.strand core strand).mode == .ready then s2.waitFor core strand (.recv x.num) else s2

/-- TPUT: DD = DS1, to a peer's scratch, a window or device memory (R139, R142). -/
def execTput (core strand : Nat) (f : TileFields) (s : State) : Host.Outcome State Fault Refusal :=
  tile core strand 0xA2 f s fun p i x s => launchRun core strand p i x (s.dropShadows core strand)

/-- TGET: DD = DS1, from a peer's scratch, a window or device memory (R139, R142). -/
def execTget (core strand : Nat) (f : TileFields) (s : State) : Host.Outcome State Fault Refusal :=
  tile core strand 0xA3 f s (launchRun core strand)

/-! ## The match (R140, R141) -/

/-- Deliver data to a posted TRECV: SHAPE_MISMATCH, ANCHOR_MISMATCH and ACC_COUNT_LIMIT are the TRECV's (R141). ACC elements
that pass as they are, SAT among their bits, set no ACC_SAT on either side (DESIGN CHOICE, notes/assumptions/70.md). -/
def State.deliver (s : State) (p : Nat) (r : Post) (y : Flight) (d : Fmt × Nat × Nat × List (List Byte)) : State × Bool :=
  let k := slotNum y.f y.xs
  if y.f.opt0 then
    let s := s.adoptShape r.core y.engine k (some (d.2.1, d.2.2.1))
    match s.slotOf r.core y.engine k with
    | none => (s.tileKernelFault r.core r.strand y 0x04 k, false)
    | some sl =>
      if d.1 != .acc || sl.n != d.2.1 || sl.m != d.2.2.1 then (s.tileKernelFault r.core r.strand y 0x04 k, false)
      else
        match mergeSlot k sl (accsOf d.2.2.2) with
        | .fault c _ => (s.tileKernelFault r.core r.strand y c k, false)
        | .done _ slot _ _ => (s.putSlot r.core y.engine k (slot.getD none), true)
  else if y.dd.fmt != some d.1 || y.dd.extent0 != d.2.1 || y.dd.extent1 != d.2.2.1 then
    (s.tileKernelFault r.core r.strand y 0x04 0, false)
  else
    ((List.range d.2.2.2.length).foldl (fun s i => s.writeRow p r.core [] y.dd i (nthD d.2.2.2 i [])) s, true)

/-- MESSAGE_MATCH: both halves of a key are posted; the data go straight into the receiver's destination and both
instructions complete (R140, R141). Destination bytes count once, in LOCAL, or in LINK from another member (R446). -/
def execMessageMatch (pav : Nat) (key : MsgKey) (s : State) : Host.Outcome State Fault Refusal :=
  if pav ≥ numPavs then noUnit
  else
    let v := s.pav pav
    match v.recvs.find? fun q => q.key == key with
    | none => ok s
    | some r =>
      match (s.strand r.core r.strand).flight r.num with
      | none => ok s
      | some y =>
        let unpost := fun (v : Pav) => { v with recvs := v.recvs.filter fun q => q.key != key
                                                sends := v.sends.filter fun q => q.key != key, inbox := v.inbox.filter fun q => q.key != key }
        match v.sends.find? fun q => q.key == key with
        | some q =>
          match (s.strand q.core q.strand).flight q.num with
          | none => ok s
          | some x =>
            let hurt := s.badLs pav q.core x.sources
            if hurt.isSome && !x.f.opt0 then ok (s.killLs pav q.core ((hurt.map Prod.snd).getD 0))
            else if s.badSlot q.core x then ok (s.killSram pav q.core 0)
            else
              let want := if y.f.opt0 then (s.slotOf r.core y.engine (slotNum y.f y.xs)).map fun k => (k.n, k.m) else some (y.dd.extent0, y.dd.extent1)
              let s := if x.f.opt0 then s.adoptShape q.core x.engine (slotNum x.f x.xs) want else s
              match s.sendData pav q.core x with
              | none => ok s
              | some d =>
                let a := s.deliver pav r y d
                if !a.2 then ok a.1
                else
                  let n := d.2.2.2.foldl (fun n bs => n + bs.length) 0
                  ok ((((a.1.modPav pav unpost).count pav 3 n).finishFlight q.core q.strand q.num).finishFlight r.core r.strand r.num)
        | none =>
          match v.inbox.find? fun q => q.key == key && q.whole with
          | none => ok s
          | some q =>
            match Fmt.ofCode q.fmt with
            | none => ok s
            | some f =>
              let back : BulkMsg :=
                { stream := BitVec.ofNat 20 q.stream, seq := BitVec.ofNat 32 q.key.seq, winding := BitVec.ofNat 16 q.winding, vc := 0
                  dstPkg := BitVec.ofNat 12 q.srcPkg, dstLoc := Config.sourceLoc q.srcPkg q.stream, srcPkg := BitVec.ofNat 12 s.ownPkg, kind := 3 }
              let row := if q.extent1 == 0 then 0 else q.data.length / q.extent1
              let d := (f, q.extent0, q.extent1, chunks row q.extent1 q.data)
              let a := s.deliver pav r y d
              if !a.2 then ok a.1 else ok ((((a.1.modPav pav unpost).count pav 1 q.data.length).finishFlight r.core r.strand r.num).sendOut back)

end Sys2Proof.Machine
end

