-- ==== Sys2Proof/Machine/TileSync.lean ====
section
/-! DEFINITION. Synchronisation instructions (R143 to R146): arrivals at barriers and step commits, and TWAIT. -/

namespace Sys2Proof.Machine

/-- DETAIL of BARRIER_MISMATCH: the expected and the offered count (R151). -/
def counts (expected offered : Nat) : Nat := expected % 2 ^ 32 + (offered % 2 ^ 32) <<< 32

/-- The count of a barrier use has been reached (R144). -/
def Barrier.full (b : Barrier) : Bool := b.tick.isSome || decide (b.arrived.length ≥ b.expected)

/-- An arrival with an expected count joins the first use that is not full, or begins the next; none, with the count of the use's first
arrival, if the two differ (R144). -/
def joinUse (who : Nat × Nat) (expected : Nat) : List (Nat × List (Nat × Nat)) → Option (List (Nat × List (Nat × Nat))) × Nat
  | [] => (some [(expected, [who])], 0)
  | (e, l) :: rest =>
    if l.length < e then (if e == expected then (some ((e, l ++ [who]) :: rest), 0) else (none, e))
    else let q := joinUse who expected rest; (q.1.map fun r => (e, l) :: r, q.2)

/-- A strand arrives at a barrier, with an expected count: the barrier after, or none and the count that the use's first arrival gave.
One that comes when the use is full, or its release is named, belongs to a later use (R144). -/
def Barrier.arrive (b : Option Barrier) (who : Nat × Nat) (expected : Nat) : Option Barrier × Nat :=
  if expected == 0 then (none, (b.map Barrier.expected).getD 0)
  else
    match b with
    | none => (some { expected := expected, arrived := [who] }, 0)
    | some b =>
      if !b.full then
        if b.expected == expected then (some { b with arrived := b.arrived ++ [who] }, 0) else (none, b.expected)
      else let q := joinUse who expected b.later; (q.1.map fun l => { b with later := l }, q.2)

/-- TBAR: the strand arrives at barrier IMM[3:0] with the expected count XS and waits for its release (R143, R144). -/
def execTbar (core strand : Nat) (f : TileFields) (s : State) : Host.Outcome State Fault Refusal :=
  tile core strand 0xB0 f s fun p _ x s =>
    let s := s.dropShadows core strand
    let b := f.imm.toNat % 16
    let a := Barrier.arrive (Tab.find b (s.pav p).barriers) (core, strand) x.xs.toNat
    match a.1 with
    | none => s.kernelFault core strand 0x10 0xB0 0 (counts a.2 x.xs.toNat)
    | some bar => (s.modPav p fun v => { v with barriers := Tab.put b bar v.barriers }).waitFor core strand (.barrier b)

/-- The condition of TWAIT FN 1: cond(OPT[2:0], scratch64[IMM], XS) (R145). -/
def State.waitWord (s : State) (core c off : Nat) (v : Word64) : Bool :=
  cond c (BitVec.ofNat 64 (leNat (s.readLs core off 8))) v

/-- TWAIT: FN 0 waits until no in-flight tile instruction of the strand has a TAG in IMM[15:0]; FN 1 waits for a scratch
word to meet a condition (R143, R145). -/
def execTwait (core strand : Nat) (f : TileFields) (s : State) : Host.Outcome State Fault Refusal :=
  tile core strand 0xB1 f s fun p _ x s =>
    let s := s.dropShadows core strand
    if f.fn == 0 then
      let mask : BitVec 16 := f.imm.truncate 16
      if (s.strand core strand).flights.any fun y => mask.getLsbD y.f.tag.toNat then s.waitFor core strand (.tags mask)
      else s.advance core strand 16
    else
      let c := f.opt.toNat % 8
      if s.lsHurt core f.imm.toNat 8 then (s.killLs p core ((s.badWord core f.imm.toNat 8).getD 0)).waitFor core strand .killed
      else if s.waitWord core c f.imm.toNat x.xs then s.advance core strand 16
      else s.waitFor core strand (.word c f.imm.toNat x.xs)

/-- Steps named by the strands of a pavilion that wait in TCOMMIT. -/
def State.commitSteps (s : State) (p : Nat) : List Word64 :=
  s.strands.filterMap fun x =>
    match x.2.wait with
    | .commit n => if s.ownerOf (x.1 / 2048) == some p then some n else none
    | _ => none

/-- TCOMMIT: the strand arrives at the step commit of step XS and waits for its release (R143, R146). -/
def execTcommit (core strand : Nat) (f : TileFields) (s : State) : Host.Outcome State Fault Refusal :=
  tile core strand 0xB2 f s fun p _ x s =>
    let s := s.dropShadows core strand
    match (s.commitSteps p).find? fun n => n != x.xs with
    | some n => s.kernelFault core strand 0x10 0xB2 0 (counts n.toNat x.xs.toNat)
    | none =>
      if x.xs.toNat ≤ (s.pav p).committed.toNat then s.kernelFault core strand 0x11 0xB2 0 x.xs.toNat
      else s.waitFor core strand (.commit x.xs)

end Sys2Proof.Machine
end

