-- ==== Sys2Proof/Machine/Progress.lean ====
section
/-! DEFINITION. How waiting strands and tile instructions go on: instruction-cache fills (R78, R106, R629), wakes (R77),
completions (R78, R102), translation of a waiting tile (R200), single walk reads (R187, R195), and words that are no
instruction (R107). -/

namespace Sys2Proof.Machine

/-! ## Instruction fetch -/

/-- The first line of the next instruction, of `len` bytes, that the cache does not hold (R78, R105). -/
def State.missingLine (s : State) (core strand len : Nat) : Option Nat :=
  (codeLines (s.core core).codeBase (s.strand core strand).pc len).find? fun l => !(s.core core).icache.contains l

/-- The lines of a cache with one more (R629). Its organisation is the model's: fully associative, 1,024 lines of 64 B, the
line filled longest ago leaves (DESIGN CHOICE, notes/assumptions/71.md). -/
def icachePut (l : Nat) (c : List Nat) : List Nat := (l :: c.filter fun x => x != l).take 1024

/-- Where a fetched line lies once its page translates: the key of its first byte, if it is in a bed. -/
def State.fetchKey (s : State) (p line : Nat) (w : Walk) : Option Nat :=
  match w with
  | .leaf l =>
    let v := s.pav p
    some (csKey v v.channels (Pte.addr l.entry + line * 64 % (if l.level == 1 then 2 ^ 29 else 65536)))
  | _ => none

/-- The fetch of a line of a strand's next instruction, of `len` bytes: a fault becomes a translation fault of the strand (R106), an uncorrectable line
kills the pavilion (R175), else the line is held and the strand can issue (R78). It sets no AC (DESIGN CHOICE, notes/assumptions/91.md). -/
def State.fetch (s : State) (p core strand len line : Nat) : State :=
  let un := clusterOf core
  let dva := line * 64
  let r := s.walk un p dva
  match r.1 with
  | .hurt key => ((r.2.bedUncorrectable key).startReset p 0x03 (channelLoc (key / 2 ^ 33)) []).waitFor core strand .killed
  | w =>
    match accessFault (s.pav p) w { ex := true } with
    | some (c, l) =>
      let s1 := match w with | .leaf _ => r.2.dropPage un p dva | _ => r.2
      let page := BitVec.ofNat 64 (dva / 65536 * 65536)
      let wt : Waiter := { tunit := .cluster un, core := core, strand := strand, page := page, cause := c, level := l, access := 4 }
      (s1.recordFault p wt).waitFor core strand (.fetch len)
    | none =>
      match r.2.fetchKey p line w with
      | some key =>
        if r.2.beds.bad key then
          ((r.2.bedUncorrectable key).startReset p 0x03 (channelLoc (key / 2 ^ 33)) []).waitFor core strand .killed
        else (r.2.modCore core fun c => { c with icache := icachePut line c.icache }).makeReady core strand
      | none => (r.2.modCore core fun c => { c with icache := icachePut line c.icache }).makeReady core strand

/-- ICACHE_FILL: the miss of a strand that waits for its next instruction completes (R78, R106). -/
def execIcacheFill (core strand : Nat) (s : State) : Host.Outcome State Fault Refusal :=
  if core ≥ numCores || strand ≥ numStrands then noUnit
  else
    match s.ownerOf core with
    | none => ok s
    | some p =>
      match (s.strand core strand).wait with
      | .icache len =>
        (match s.missingLine core strand len with
          | none => ok (s.makeReady core strand)
          | some l =>
            if (s.codePiece p l).isSome then ok ((s.modCore core fun c => { c with icache := icachePut l c.icache }).makeReady core strand)
            else ok (s.fetch p core strand len l))
      | _ => ok s

/-! ## Wakes -/

/-- The cause a strand waits for has cleared (R77). Barriers, step commits and kills end only at their own events. -/
def State.cleared (s : State) (core strand : Nat) : Bool :=
  let t := s.strand core strand
  match t.wait with
  | .operand ns => !(t.flights.any fun x => ns.contains x.num)
  | .inflight => !s.flightsFull core t
  | .tags mask => !(t.flights.any fun x => mask.getLsbD x.f.tag.toNat)
  | .word c o v => s.waitWord core c o v
  | .recv n => !(t.flights.any fun x => x.num == n)
  | .fence _ => t.flights.isEmpty
  | .exit => t.flights.isEmpty
  | .spawn => (s.freeStrand core).isSome
  | .icache len => (s.missingLine core strand len).isNone
  | _ => false

/-- STRAND_WAKE: the cause a strand waits for has cleared; it becomes READY at the instruction it waited in, or, in EXIT,
FREE (R75, R76, R77). -/
def execStrandWake (core strand : Nat) (s : State) : Host.Outcome State Fault Refusal :=
  if core ≥ numCores || strand ≥ numStrands then noUnit
  else if (s.strand core strand).mode != .waiting || !s.cleared core strand then ok s
  else if (s.strand core strand).wait == .exit then ok (s.setStrand core strand {})
  else ok (s.makeReady core strand)

/-- A movement instruction of the strand that has not completed stands before this one (R102). -/
def moverBefore (fs : List Flight) (pos : Nat) : Bool := (fs.take pos).any fun x => isMove x.op.toNat

/-- TILE_INSTRUCTION_COMPLETE: an instruction whose bytes have all moved leaves its strand; the mover completes one
strand's tiles in issue order (R78, R102), and an engine starts the next instruction that waits for it (R69). -/
def execTileInstructionComplete (core strand pos : Nat) (s : State) : Host.Outcome State Fault Refusal :=
  if core ≥ numCores || strand ≥ numStrands then noUnit
  else
    let t := s.strand core strand
    match t.flights[pos]? with
    | none => ok s
    | some x =>
      if x.prog != .moved || (isMove x.op.toNat && moverBefore t.flights pos) || s.fillsOpen x.fills.1 x.fills.2 then ok s
      else
        let s1 := s.finishFlight core strand x.num
        match s.ownerOf core with
        | some p => ok (if isCompute x.op.toNat then s1.startQueued p core x.engine else s1)
        | none => ok s1

/-- The instruction waits for nothing but the translation of its next tile: no fault, no reply, no host, no buffer that
is still held for it. -/
def State.canTranslate (s : State) (p core strand : Nat) (x : Flight) : Bool :=
  match x.prog with
  | .pending => true
  | .hostWait => !(s.pav p).chan.halted
  | .promote b => match Tab.find b (s.core core).shadows with
    | some sh => !(sh.strand == strand && specMatches sh.load x)
    | none => true
  | _ => false

/-- TILE_TRANSLATE: the unit translates the next tile of an instruction that waits for nothing else and moves it, or
faults it (R200, R201). -/
def execTileTranslate (core strand pos : Nat) (s : State) : Host.Outcome State Fault Refusal :=
  if core ≥ numCores || strand ≥ numStrands then noUnit
  else
    match s.ownerOf core, (s.strand core strand).flights[pos]? with
    | some p, some x =>
      if s.canTranslate p core strand x then ok (s.driveTiles p core strand x.num {}) else ok s
    | _, _ => ok s

/-! ## Walk reads -/

/-- One walk of a unit down to a level, each entry read being cached (R187, R197). -/
def State.walkDown (s : State) (un p dva target : Nat) : Nat → Nat → State × Option Nat
  | level, page =>
    let r := s.readEntry un p page dva level
    match r.1 with
    | .error key => (r.2, some key)
    | .ok e =>
      if level == target || Pte.typ e != 1 || Pte.malformed (s.pav p).capacity level e then (r.2, none)
      else
        match level with
        | 0 => (r.2, none)
        | l + 1 => State.walkDown r.2 un p dva target l (Pte.addr e)
  termination_by structural level => level

/-- PAGE_WALK_READ: a translation unit reads the table entry of a level for a DVA; an uncorrectable error kills the
pavilion (R187, R195, R197, R199). -/
def execPageWalkRead (unit pav : Nat) (dva : Word64) (level : Nat) (s : State) : Host.Outcome State Fault Refusal :=
  if unit > 76 || pav ≥ numPavs || level > 2 then noUnit
  else if !(s.pav pav).bound || !s.unitServes unit pav || (s.pav pav).chOwn == 0 || dva.toNat / 65536 * 65536 == packagePage || dva.toNat ≥ 2 ^ 55 then ok s
  else
    let r := s.walkDown unit pav dva.toNat level 2 (s.pav pav).ptRoot
    match r.2 with
    | none => ok r.1
    | some key => ok ((r.1.bedUncorrectable key).startReset pav 0x03 (channelLoc (key / 2 ^ 33)) [])

/-! ## Words that are no instruction (R107) -/

/-- UNDEFINED_ENCODING: the strand's next word is an undefined encoding, which raises ILLEGAL_INSTRUCTION (R107). A word
that is an instruction is not this command's. -/
def execUndefinedEncoding (core strand : Nat) (w0 w1 : Word64) (s : State) : Host.Outcome State Fault Refusal :=
  let w := w0.toNat + 2 ^ 64 * w1.toNat
  let op := w % 256
  issue core strand (if op < 128 then 8 else 16) s fun _ _ _ =>
    if undefinedWord w then s.kernelFault core strand 0x01 op 0 0 else s

end Sys2Proof.Machine
end

