-- ==== Sys2Proof/Machine/Mailbox.lean ====
section
/-! DEFINITION. Mailbox posts (R407 to R416, R419, R630): the copy of a request at its post, the common checks of a
command, and the commands IDENTIFY and those with no defined opcode. -/

namespace Sys2Proof.Machine

/-- Gaold starts commands (R411, R413, R514, R595, R611). -/
def State.serving (s : State) : Bool :=
  s.boot.stage == .running && !s.cp.recovering && !(s.fw.activation.any fun a => a.phase == 2)

/-- Gaold accepts posts, started or not (R410, R413, R599, R611). -/
def State.accepts (s : State) : Bool := !s.boot.testEn && (s.boot.stage == .running || s.boot.stage == .rom)

/-- The slot as a post leaves it: the request words and TAG copied, the response zeroed, BUSY (R410). -/
def MbSlot.posted (m : MbSlot) : MbSlot :=
  { m with copy := m.req, postTag := m.tag, rsp := List.replicate 16 0, status := 0, st := 1 }

/-- A function has a mailbox page: PF0, and every VF that VF Enable gives (R400, R407). -/
def State.hasFn (s : State) (fn : Nat) : Bool := decide (fn ≤ s.regs.vfs)

/-- A write of MB_POST.GO in a slot whose request words `sel` accepts (R410, R413): an IDLE or DONE slot is posted, and
its command started or kept for when service resumes; a BUSY one sets POST_ERR. -/
def post (fn slot : Nat) (sel : (Nat → Nat) → Bool) (start : Nat → State → State) (s : State) : Host.Outcome State Fault Refusal :=
  if fn ≥ numFns || slot ≥ 4 then noUnit
  else
    let m := nthD (s.fn fn).slots slot {}
    let k := postOf fn slot m.gen
    if !s.hasFn fn || !s.accepts || !sel (fun n => (nthD m.req n 0).toNat) then ok s
    else if m.st == 1 then ok (s.setMb k { m with postErr := true })
    else
      let s1 := s.setMb k m.posted
      if s.serving then ok (start k s1) else ok { s1 with posts := s1.posts ++ [k] }

/-- The request's opcode (R414). -/
def opc (n : Nat) (w : Nat → Nat) : Bool := w 0 % 256 == n

/-- The pavilion whose enabled entry names a function (R400). -/
def State.pavOfFn (s : State) (fn : Nat) : Option Nat :=
  (s.pavs.find? fun x => x.2.bound && x.2.hostFn == fn).map Prod.fst

/-- The form of a command: who may post it, which request bits it uses, what it refuses (R415, R416, R419, R630). -/
structure CmdForm where
  /-- posted by PF0 only -/
  pf0 : Bool := false
  /-- word 1 [8:0] names a pavilion -/
  named : Bool := false
  /-- used bits of request words 1, 2, ...; the words beyond are unused -/
  used : List Nat := []
  /-- answers whatever MAJOR is -/
  anyMajor : Bool := false
  /-- other grounds of MB_DENIED, given whether PF0 posts it -/
  denied : Bool → MbSlot → Bool := fun _ _ => false
  /-- a field lies in its range -/
  range : MbSlot → Bool := fun _ => true
  /-- the named pavilion's states refuse it -/
  refused : Pav → MbSlot → Bool := fun _ _ => false
  /-- accepted from rank 0 of a span only -/
  rank0 : Bool := false

/-- The pavilion a command acts on: PF0's PAV field, or a VF's own; 512 for none (R416). -/
def State.target (s : State) (k : Nat) : Nat :=
  if postFn k == 0 then (s.mb k).w 1 % 512 else (s.pavOfFn (postFn k)).getD 512

/-- The request's reserved fields and unused words are zero (R414, R415). -/
def MbSlot.clean (m : MbSlot) (used : List Nat) : Bool :=
  m.w 0 / 2 ^ 17 == 0 && (List.range 15).all fun i => let x := m.w (i + 1); x == x &&& nthD used i 0

/-- The first common check that a request fails (R415), in order. -/
def State.failedCheck (s : State) (k : Nat) (f : CmdForm) : Option Nat :=
  let m := s.mb k
  let fn := postFn k
  let p := s.target k
  let v := s.pav p
  if !f.anyMajor && m.w 0 / 256 % 256 != s.fw.cmdset.toNat / 65536 % 256 then some 0x81
  else if (f.pf0 && fn != 0) || f.denied (fn == 0) m || (f.rank0 && v.bound && v.isSpan && v.spanRank != 0) then some 0x82
  else if !m.clean f.used || !f.range m || (f.named && fn != 0 && m.w 1 % 512 != 0) then some 0x83
  else if f.named && (p == 512 || !v.bound) then some 0x84
  else if !f.anyMajor && fn != 0 && (s.pavOfFn fn).isNone then some 0x84
  else if f.named && f.refused v m then some 0x85
  else none

/-- Start a command: a failed common check completes it, else its body runs for its pavilion (R415). Replay records
commands that name its pavilion, and holds off live ones (R569, R572). -/
def State.start (s : State) (k : Nat) (f : CmdForm) (body : Nat → State → State) : State :=
  let p := s.target k
  let m := s.mb k
  let o := m.w 0 % 256
  match s.failedCheck k f with
  | some c => s.complete k c []
  | none =>
    if f.named && s.replaying p && !s.replayer.diverged && o != 0x52 && !replayPost k then s.complete k 0x85 []
    else
      if f.named && s.recording p && !([0x52, 0x01, 0x50, 0x51].contains o) then
        body p (s.recordInput p 1 0 (postFn k) (k % 4) (m.copy.flatMap fun w => leBytes 4 w.toNat))
      else body p s

/-! ## IDENTIFY (R419) -/

/-- The response words of IDENTIFY (R419). -/
def State.identity (s : State) (fn : Nat) : List Nat :=
  let p := s.pavOfFn fn
  let id := (s.regs.pkgId.map BitVec.toNat).getD 0
  [s.fw.version.toNat, s.fw.cmdset.toNat, s.fuse.grade + s.fuse.step <<< 8 + id <<< 16 + (b2n s.regs.pkgId.isSome) <<< 28,
   fn + (b2n p.isSome) <<< 9 + (p.getD 0) <<< 16, granulesPerChannel,
   s.activeChannels.length + (64 * s.fuse.perCluster) <<< 16,
   b2n s.fuse.stream + 2 * b2n s.fuse.mirror + 4 * b2n s.fuse.replay] ++ lohi s.fuse.serial.toNat

def startIdentify (k : Nat) (s : State) : State :=
  s.start k { anyMajor := true } fun _ s => s.complete k 0 (s.identity (postFn k))

/-- IDENTIFY: any function reads the package's identity, whatever MAJOR it holds (R415, R419). -/
def execIdentify (fn slot : Nat) (s : State) : Host.Outcome State Fault Refusal := post fn slot (opc 0x01) startIdentify s

/-! ## Undefined opcodes (R415) -/

/-- The defined opcodes (R419). -/
def opcodes : List Nat :=
  [0x01, 0x10, 0x11, 0x18, 0x19, 0x20, 0x21, 0x22, 0x24, 0x28, 0x30, 0x31, 0x32, 0x33, 0x40, 0x41, 0x42, 0x44, 0x45, 0x50, 0x51,
   0x52, 0x58, 0x60, 0x61, 0x62, 0x63]

def startUnknown (k : Nat) (s : State) : State := s.complete k 0x80 []

/-- MB_UNKNOWN: a post whose OPC is not defined completes at once (R415). -/
def execMbUnknown (fn slot : Nat) (s : State) : Host.Outcome State Fault Refusal :=
  post fn slot (fun w => !opcodes.contains (w 0 % 256)) startUnknown s

/-- The pavilion whose fault records a function's registers show (R225, R400, R404). -/
def State.faultPav (s : State) (fn : Nat) : Option Nat :=
  if fn == 0 then some ((s.fn 0).fltSel.toNat % 512) else s.pavOfFn fn

end Sys2Proof.Machine
end

