-- ==== Sys2Proof/Machine/Sync.lean ====
section
/-! DEFINITION. The sync tree (R144, R146, R246 to R248), releases of barriers and step commits (R147, R148, R369 to R372),
and the delivery of held host-bound writes (R202, R423, R426, R428 to R430). -/

namespace Sys2Proof.Machine

/-! ## The tree

Nodes are numbered 0 to 63 for the cluster nodes, 64 to 71 for the half hubs and 72 to 75 for the die hubs (R246). -/

/-- Cluster `c` lies under a node. -/
def nodeOver (n c : Nat) : Bool := if n < 64 then n == c else if n < 72 then n - 64 == c / 8 else n - 72 == c / 16

/-- The nodes right below a hub. -/
def nodeBelow (n : Nat) : List Nat :=
  if n < 64 then [] else if n < 72 then (List.range 8).map fun i => 8 * (n - 64) + i else [64 + 2 * (n - 72), 65 + 2 * (n - 72)]

/-- The nodes right below the root. -/
def rootBelow : List Nat := [72, 73, 74, 75]

/-- Strands of a pavilion that are not FREE: core, strand. -/
def State.liveStrands (s : State) (p : Nat) : List (Nat × Nat) :=
  s.strands.filterMap fun x =>
    if x.2.mode != .free && s.ownerOf (x.1 / 2048) == some p then some (x.1 / 2048, x.1 % 2048) else none

/-- The node serves a core of the pavilion. -/
def State.nodeServes (s : State) (p n : Nat) : Bool := (s.coresOf p).any fun x => nodeOver n (clusterOf x.2)

/-- An arrival counts once every instruction the strand issued before it has completed (R144). -/
def State.drained (s : State) (x : Nat × Nat) : Bool := (s.strand x.1 x.2).flights.isEmpty

/-! ## Arrivals at barriers -/

/-- Arrivals that a node has gathered (R247). -/
def State.barrierCount (s : State) (b : Barrier) (n : Nat) : Nat :=
  if n < 64 then (b.arrived.filter fun x => clusterOf x.1 == n && s.drained x).length
  else (nodeBelow n).foldl (fun k c => k + Tab.getD b.forwarded c 0) 0

/-- A strand can still arrive at this use of a barrier: it is live, and has not arrived at it or at a later one. Once the count is
reached none can, as what comes then counts towards a later use (R144, R247). -/
def Barrier.mayArrive (b : Barrier) (x : Nat × Nat) : Bool :=
  !decide (b.arrived.length ≥ b.expected) && !b.arrived.contains x && !b.later.any fun u => u.2.contains x

/-- No more arrivals can come from below a node (R247). -/
def State.barrierDone (s : State) (p : Nat) (b : Barrier) (n : Nat) : Bool :=
  let live := (s.liveStrands p).filter fun x => nodeOver n (clusterOf x.1)
  if n < 64 then live.all fun x => !b.mayArrive x && (!b.arrived.contains x || s.drained x)
  else (nodeBelow n).all fun c => (Tab.find c b.forwarded).isSome
    || !(live.any fun x => nodeOver c (clusterOf x.1) && (b.arrived.contains x || b.mayArrive x))

/-- A node has something to pass up for a barrier use: the one message of a package's barrier, or, in a span, whose members' arrivals it
does not see, each new count that it has gathered (R247; DESIGN CHOICE, notes/assumptions/19.md). -/
def State.barrierPasses (s : State) (p : Nat) (b : Barrier) (n : Nat) : Bool :=
  let k := s.barrierCount b n
  if (s.pav p).isSpan then decide (Tab.getD b.forwarded n 0 < k)
  else (Tab.find n b.forwarded).isNone && k != 0 && (s.barrierDone p b n || decide (k ≥ b.expected))

/-! ## Arrivals at step commits and kernel ends -/

/-- A core has arrived at the step commit (R146): every live strand waits in TCOMMIT, with nothing in flight. -/
def State.commitArrived (s : State) (p core : Nat) : Bool :=
  ((s.liveStrands p).filter fun x => x.1 == core).all fun x =>
    s.drained x && (match (s.strand x.1 x.2).wait with | .commit _ => true | _ => false)

/-- Every core of the pavilion below a node has arrived, or forwarded through the nodes below. -/
def State.treeDone (s : State) (p n : Nat) (forwarded : Tab Nat) (arrived : Nat → Bool) : Bool :=
  if n < 64 then (s.coresOf p).all fun x => clusterOf x.2 != n || arrived x.2
  else (nodeBelow n).all fun c => !s.nodeServes p c || (Tab.find c forwarded).isSome

/-- Core arrivals that a node has gathered (R247). -/
def State.coreArrivals (s : State) (p n : Nat) (forwarded : Tab Nat) : Nat :=
  if n < 64 then ((s.coresOf p).filter fun x => clusterOf x.2 == n).length
  else (nodeBelow n).foldl (fun k c => k + Tab.getD forwarded c 0) 0

/-- Core arrivals that the package's root has been sent. -/
def atRoot (forwarded : Tab Nat) : Nat := rootBelow.foldl (fun k c => k + Tab.getD forwarded c 0) 0

/-- Every core of the pavilion has arrived at the package's root. -/
def State.rootDone (s : State) (p : Nat) (forwarded : Tab Nat) : Bool :=
  rootBelow.all fun c => !s.nodeServes p c || (Tab.find c forwarded).isSome

/-- The pavilion decides its own releases: no span member, or rank 0 (R369). -/
def Pav.decides (v : Pav) : Bool := !v.isSpan || v.spanRank == 0

/-- Ticks from a decision to its release (R248, R370). -/
def Pav.leadTicks (v : Pav) : Nat := if v.isSpan then v.span.lead else 20

/-- A kernel runs on the pavilion (R146, R296). -/
def Pav.kernelRuns (v : Pav) : Bool := (v.runs.head?.map fun r => r.started).getD false

/-- The cores of a member have arrived at a step commit of its span even if none of its own strands waits: a kernel of the span has
started, and the start of the next is not named (R146). -/
def Pav.idleArrives (v : Pav) : Bool := v.isSpan && v.span.st == 2 && v.span.kernels != 0 && v.kernel.tick.isNone

/-- Arrivals with unequal steps, or unequal expected counts, that meet in the sync tree: a strand that waits there, or strand 0 of the
first core, takes the fault (R144, R146, R151; which one is a DESIGN CHOICE, notes/assumptions/90.md). -/
def State.mismatch (s : State) (p opc expected offered : Nat) : State :=
  let waits := fun (x : Nat × Nat) => match (s.strand x.1 x.2).wait with | .commit _ => opc == 0xB2 | .barrier _ => opc == 0xB0 | _ => false
  let who := ((s.liveStrands p).find? waits).getD (((s.coresOf p).head?.map fun x => (x.2, 0)).getD (0, 0))
  s.kernelFault who.1 who.2 0x10 opc 0 (expected % 2 ^ 32 + (offered % 2 ^ 32) <<< 32)

/-- SYNC_ARRIVAL_FORWARD: a node of the sync tree passes up what it has gathered for a barrier use, a step commit or a
kernel's end (R247, R296). -/
def execSyncArrivalForward (pav node : Nat) (use : SyncUse) (s : State) : Host.Outcome State Fault Refusal :=
  if pav ≥ numPavs || node > 75 then noUnit
  else
    let v := s.pav pav
    if !v.bound || !s.nodeServes pav node then ok s
    else
      match use with
      | .barrier i =>
        match Tab.find i v.barriers with
        | none => ok s
        | some b =>
          if !s.barrierPasses pav b node then ok s
          else ok (s.modPav pav fun v =>
            { v with barriers := Tab.put i { b with forwarded := Tab.put node (s.barrierCount b node) b.forwarded } v.barriers })
      | .commit =>
        let c := v.commit.getD {}
        let n := (s.commitSteps pav).headD c.step
        if (Tab.find node c.forwarded).isSome || !s.treeDone pav node c.forwarded (s.commitArrived pav) then ok s
        else if (s.commitSteps pav).isEmpty && !v.idleArrives then ok s
        else if c.step != 0 && n != c.step then ok (s.mismatch pav 0xB2 c.step.toNat n.toNat)
        else
          let c' := { c with forwarded := Tab.put node (s.coreArrivals pav node c.forwarded) c.forwarded, step := n }
          ok (s.modPav pav fun v => { v with commit := some c' })
      | .kernelStart =>
        let c := v.kernel
        if (Tab.find node c.forwarded).isSome || !s.treeDone pav node c.forwarded (fun x => !(s.core x).running) then ok s
        else if !v.kernelRuns then ok s
        else ok (s.modPav pav fun v =>
          { v with kernel := { v.kernel with forwarded := Tab.put node (s.coreArrivals pav node c.forwarded) c.forwarded } })

/-! ## Releases -/

/-- Send a sync message to every other member. -/
def State.syncAll (s : State) (p : Nat) (m : SyncMsg) : State :=
  let v := s.pav p
  (List.range v.span.members.length).foldl (fun s r => if r == v.spanRank then s else s.syncSend (nthD v.span.members r 0) m) s

/-- Send a sync message to rank 0. -/
def State.syncRank0 (s : State) (p : Nat) (m : SyncMsg) : State := s.syncSend (nthD (s.pav p).span.members 0 0) m

/-- The barrier returns to its next use, if arrivals wait for one (R144). -/
def Barrier.turn (b : Barrier) : Option Barrier :=
  match b.later with
  | [] => none
  | (e, l) :: rest => some { expected := e, arrived := l, later := rest }

def State.putBarrier (s : State) (p i : Nat) (b : Option Barrier) : State :=
  s.modPav p fun v => { v with barriers := match b with | some x => Tab.put i x v.barriers | none => Tab.drop i v.barriers }

/-- A waiting strand goes on past the 16-byte instruction it waits in. -/
def State.resume (s : State) (core strand : Nat) : State := (s.makeReady core strand).advance core strand 16

/-- Gaold starts kernels: nothing pauses the control processor (R441). -/
def State.starts (s : State) : Bool := s.serving || (s.boot.stage == .running && (s.fw.activation.any fun a => a.phase == 3))

/-- The pavilion stands before a kernel of its run, which nothing of its own holds (R295, R296, R441). -/
def State.kernelStands (s : State) (p : Nat) : Bool :=
  let v := s.pav p
  match v.runs.head? with
  | none => false
  | some r => r.begun && !r.started && !r.suspended && r.filling.isEmpty && !v.held? && !v.freeze.frozen && v.resetting.isNone

/-- A freeze of the pavilion waits for a layer boundary. -/
def State.freezeAsked (s : State) (p : Nat) : Bool :=
  !(s.pav p).freeze.frozen && (!(s.pav p).freeze.waiting.isEmpty || (s.replayer.ending && s.replayer.pav == p))

/-- Another kernel or run may not start: the pavilion is held or frozen, or an apply or a freeze that waits for its next layer boundary
takes hold now (R276, R298, R441, R458). -/
def State.stopsNext (s : State) (p : Nat) : Bool :=
  let v := s.pav p
  v.held? || v.freeze.frozen || s.freezeAsked p || (s.apply.phase == 2 && s.apply.affected.contains p)

/-- The kernel that comes next may be given its start tick (R295, R296, R441). -/
def State.kernelReady (s : State) (p : Nat) : Bool := s.kernelStands p && !s.stopsNext p && s.starts

/-- The first release tick not before `t` that is a multiple of 1,024 (R562). -/
def alignTick (t : Nat) : Nat := roundUp t 1024

/-- A hold or a freeze comes before the tick that was named for a kernel's start: the root names another once it ends (R296, R298). -/
def Pav.startVoid (v : Pav) : Commit := if v.isSpan then v.kernel else { v.kernel with tick := none }

/-- The tick of the span's next kernel is named: its members act on it, and a hold or freeze waits for the next layer boundary
(R103, R369, R370; DESIGN CHOICE, notes/assumptions/19.md). -/
def Pav.startNamed (v : Pav) : Bool := v.isSpan && v.kernel.tick.isSome

/-- A pavilion is held, or frozen, at a layer boundary. A member that has told rank 0 that it is ready for the next kernel takes that
back (R296, R298, R369). -/
def State.voidStart (s : State) (p : Nat) : State :=
  let v := s.pav p
  if v.isSpan && v.kernel.sent then
    (s.modPav p fun v => { v with kernel := { v.kernel with sent := false } }).syncRank0 p
      (.arrival v.spanId v.spanRank .kernelStart 0 0 v.span.kernels v.winding)
  else s.modPav p fun v => { v with kernel := v.startVoid }

/-- Service by Gaold pauses: the starts that are named and have not come wait for its end, and are named again (R296, R441, R514, R595). -/
def State.voidStarts (s : State) : State := { s with pavs := Tab.mapVals (fun _ v => { v with kernel := v.startVoid }) s.pavs }

/-- FW_VERSION and CMDSET_VERSION as rank 0's decision of a kernel's start carries them: those that the package runs if, at a layer's
first kernel, every member runs them, else those that the shape table shows (R366). -/
def State.startVersions (s : State) (p : Nat) : Word64 :=
  let v := s.pav p
  let boundary := (v.runs.head?.map fun r => r.kernel == 0).getD false
  let all := (List.range v.spanLast).all fun r => Tab.find (r + 1) v.span.versions == some (s.fw.version, s.fw.cmdset)
  if boundary && all then BitVec.ofNat 64 (s.fw.version.toNat * 2 ^ 32 + s.fw.cmdset.toNat)
  else BitVec.ofNat 64 (v.shapeFw.toNat * 2 ^ 32 + v.shapeCmd.toNat)

/-- Every member of a span but rank 0 has arrived. -/
def roundFull (members : List Nat) (last : Nat) : Bool := (List.range last).all fun r => members.contains (r + 1)

/-- One arrival of each member is taken: what is left came early, for a later round (R296, R369). -/
def roundTaken (members : List Nat) (last : Nat) : List Nat := (List.range last).foldl (fun l r => l.erase (r + 1)) members

/-- RELEASE_DECIDE: the root decides a release and names its tick, TIME + 20, or TIME + the lead in a span; in a span, rank
0's root decides and every other member's root sends it what it has gathered (R144, R146, R248, R296, R369, R370). -/
def execReleaseDecide (pav : Nat) (use : SyncUse) (s : State) : Host.Outcome State Fault Refusal :=
  if pav ≥ numPavs then noUnit
  else
    let v := s.pav pav
    let t := s.now + BitVec.ofNat 64 v.leadTicks
    if !v.bound then ok s
    else
      match use with
      | .barrier i =>
        match Tab.find i v.barriers with
        | none => ok s
        | some b =>
          if b.tick.isSome then ok s
          else if v.decides then
            let n := atRoot b.forwarded + b.members.foldl (fun k x => k + x.2) 0
            if n < b.expected then ok s
            else
              let s1 := s.putBarrier pav i (some { b with tick := some t })
              ok (if v.isSpan then s1.syncAll pav (.release v.spanId use 0 t v.winding) else s1)
          else
            if atRoot b.forwarded ≤ b.sent then ok s
            else
              ok ((s.putBarrier pav i (some { b with sent := atRoot b.forwarded })).syncRank0 pav
                (.arrival v.spanId v.spanRank use (atRoot b.forwarded) (BitVec.ofNat 64 b.expected) v.span.kernels v.winding))
      | .commit =>
        let c := v.commit.getD {}
        if c.tick.isSome || !s.rootDone pav c.forwarded then ok s
        else if v.decides then
          if (v.isSpan && !roundFull c.members v.spanLast) || c.step == 0 then ok s
          else
            let s1 := s.modPav pav fun v => { v with commit := some { c with tick := some t } }
            ok (if v.isSpan then s1.syncAll pav (.release v.spanId use c.step t v.winding) else s1)
        else if c.sent then ok s
        else
          ok ((s.modPav pav fun v => { v with commit := some { c with sent := true } }).syncRank0 pav
            (.arrival v.spanId v.spanRank use (atRoot c.forwarded) c.step v.span.kernels v.winding))
      | .kernelStart =>
        let c := v.kernel
        if c.tick.isSome || !s.kernelReady pav then ok s
        else if v.decides then
          if v.isSpan && !roundFull c.members v.spanLast then ok s
          else
            let first := (v.runs.head?.map fun r => r.iter == 0 && r.layer == 0 && r.kernel == 0).getD false
            let t := if v.cycle && first then BitVec.ofNat 64 (alignTick t.toNat) else t
            let n := s.startVersions pav
            let s1 := s.modPav pav fun v => { v with kernel := { v.kernel with tick := some t, step := if v.isSpan then n else v.kernel.step } }
            ok (if v.isSpan then s1.syncAll pav (.release v.spanId use n t v.winding) else s1)
        else if c.sent then ok s
        else
          ok ((s.modPav pav fun v => { v with kernel := { v.kernel with sent := true } }).syncRank0 pav
            (.arrival v.spanId v.spanRank use (s.coreCount pav) 0 v.span.kernels v.winding))

/-- The tick named for an event has come (R359: one that TIME steps over is taken at the next tick). -/
def due (t : Option Word64) (now : Word64) : Bool := match t with | some t => decide (t.toNat ≤ now.toNat) | none => false

/-! ### The order of sync messages that name one tick (R250) -/

/-- An epoch flip that affects the pavilion is named for a tick not after `t`. -/
def State.flipFirst (s : State) (p : Nat) (t : Word64) : Bool :=
  s.apply.phase == 3 && s.apply.named && s.apply.affected.contains p && due (some s.apply.tick) t

/-- A step commit of the pavilion is to be released at a tick not after `t`. -/
def Pav.commitFirst (v : Pav) (t : Word64) : Bool := v.commit.any fun c => due c.tick t

/-- A barrier of the pavilion is to be released at a tick not after `t`. -/
def Pav.barrierFirst (v : Pav) (t : Word64) : Bool := v.barriers.any fun b => due b.2.tick t

/-- A flip, a step-commit release or a barrier release of the pavilion is to come before a snapshot, or a reset, at tick `t`
(R250, R285, R505). -/
def State.syncFirst (s : State) (p : Nat) (t : Word64) : Bool := s.flipFirst p t || (s.pav p).commitFirst t || (s.pav p).barrierFirst t

/-- A member's arrivals reach rank 0, with the step or the expected count that they name; those for the next use of a barrier, or the
next step commit, wait for it (R144, R146, R369). -/
def State.memberArrives (s : State) (p rank : Nat) (use : SyncUse) (count : Nat) (n : Word64) : State :=
  match use with
  | .barrier i =>
    let b := (Tab.find i (s.pav p).barriers).getD { expected := n.toNat }
    if b.tick.isSome then s.putBarrier p i (some { b with early := Tab.put rank (count, n.toNat) b.early })
    else if b.expected != n.toNat then s.mismatch p 0xB0 b.expected n.toNat
    else s.putBarrier p i (some { b with members := Tab.put rank count b.members })
  | .commit =>
    let c := (s.pav p).commit.getD {}
    if c.tick.isSome then s.modPav p fun v => { v with commit := some { c with early := c.early ++ [(rank, n)] } }
    else if c.step != 0 && n != 0 && c.step != n then s.mismatch p 0xB2 c.step.toNat n.toNat
    else s.modPav p fun v => { v with commit := some { c with members := addNew rank c.members, step := if c.step == 0 then n else c.step } }
  | .kernelStart => s.modPav p fun v => { v with kernel := { v.kernel with members :=
      if count != 0 then v.kernel.members ++ [rank] else if v.kernel.tick.isSome then v.kernel.members else v.kernel.members.erase rank } }

/-- Arrivals of members that came before rank 0 had started the kernel that they belong to (R369). -/
def State.takeAhead (s : State) (p : Nat) : State :=
  let v := s.pav p
  (v.span.ahead.filter fun x => x.2.2.2.2 == v.span.kernels).foldl (fun s x => s.memberArrives p x.1 x.2.1 x.2.2.1 x.2.2.2.1)
    (s.modPav p fun v => { v with span := { v.span with ahead := v.span.ahead.filter fun x => decide (v.span.kernels < x.2.2.2.2) } })

/-- BARRIER_RELEASE: at the named tick, behind a flip or a step-commit release of that tick, every strand that arrived resumes
after its TBAR (R103, R144, R248, R250). -/
def execBarrierRelease (pav barrier : Nat) (s : State) : Host.Outcome State Fault Refusal :=
  if pav ≥ numPavs || barrier > 15 then noUnit
  else
    match Tab.find barrier (s.pav pav).barriers with
    | none => ok s
    | some b =>
      let t := b.tick.getD 0
      if !due b.tick s.now || s.flipFirst pav t || (s.pav pav).commitFirst t then ok s
      else
        let s1 := b.arrived.foldl (fun s x => if (s.strand x.1 x.2).wait == .barrier barrier then s.resume x.1 x.2 else s)
          (s.putBarrier pav barrier b.turn)
        ok (b.early.foldl (fun s x => s.memberArrives pav x.1 (.barrier barrier) x.2.1 (BitVec.ofNat 64 x.2.2)) s1)

/-- Protected sessions of a user pavilion wait for a Mirror update of its step (R336). -/
def State.queueMirror (s : State) (p : Nat) (n : Word64) : State :=
  let own := (s.regs.pkgId.map BitVec.toNat).getD 0
  if !(s.fuse.mirror && (s.pav p).mirror) then s
  else
    let ids := (s.dir.records.filter fun x => x.2.prot != 0 && x.2.userPkg == own && x.2.userPav == p && x.2.st != 0).map Prod.fst
    { s with dir := { s.dir with mirrorQueue := s.dir.mirrorQueue ++ ids.map fun i => (i, n) } }

/-- STEP_COMMIT_RELEASE: at the named tick, behind a flip of that tick, step n commits, its held host-bound writes begin delivery, its strands resume
after their TCOMMIT, the watchdog restarts, and Replay and Mirror take the step (R147, R250, R336, R371, R423, R500, R569). -/
def execStepCommitRelease (pav : Nat) (s : State) : Host.Outcome State Fault Refusal :=
  if pav ≥ numPavs then noUnit
  else
    let v := s.pav pav
    match v.commit with
    | none => ok s
    | some c =>
      if !due c.tick s.now || s.flipFirst pav (c.tick.getD 0) then ok s
      else
        let step := v.held.filter fun h => h.step.isNone
        let s1 := s.replayCommit pav c.step step
        let discard := s.replaying pav
        let held := if discard then v.held.filter fun h => h.step.isSome
          else v.held.map fun h => if h.step.isNone then { h with step := some c.step } else h
        let later := v.isSpan || (!step.isEmpty && !discard)
        let from_ := if v.isSpan then c.tick.getD 0 + 1024 else c.tick.getD 0
        let s2 := s1.modPav pav fun v => { v with committed := c.step, commit := none, held := held, watchdog := 0
                                                  deliveries := if later then v.deliveries ++ [(c.step, from_)] else v.deliveries }
        let s3 := (s.liveStrands pav).foldl (fun s x => match (s.strand x.1 x.2).wait with | .commit _ => s.resume x.1 x.2 | _ => s) s2
        let s4 := (c.early.foldl (fun s a => s.memberArrives pav a.1 .commit 0 a.2) s3).queueMirror pav c.step
        ok (if later then s4 else s4.raisePav pav 0x0005 (detailWords (lohi c.step.toNat)))

/-- A release with status PEER_RESET: the waiting strands stop, and held writes of uncommitted steps go (R148). -/
def State.peerReset (s : State) (p : Nat) : State :=
  let s1 := (s.liveStrands p).foldl (fun s x => match (s.strand x.1 x.2).wait with
    | .commit _ => s.waitFor x.1 x.2 .peerReset
    | .barrier _ => s.waitFor x.1 x.2 .peerReset
    | _ => s) s
  s1.modPav p fun v => { v with barriers := [], commit := none, kernel := {}, held := v.held.filter fun h => h.step.isSome }

/-! ## Host delivery -/

/-- The instruction's next tile waits for host memory data. -/
def Flight.reading (x : Flight) : Bool := match x.prog with | .hostRead _ => true | _ => false

/-- Tiles that wait for host memory data move no byte: they wait for the channel, to be retried whole (R430). -/
def State.holdReads (s : State) (p : Nat) : State :=
  (s.liveStrands p).foldl (fun s x =>
    let t := s.strand x.1 x.2
    if t.flights.any Flight.reading then
      (s.setStrand x.1 x.2 { t with flights := t.flights.map fun y => if y.reading then { y with prog := .hostWait, map := none } else y }).stall
        x.1 x.2 .host
    else s) s

/-- Commands that move bytes between the pavilion and host memory end with HOST_ERROR (R430). -/
def State.endTransfers (s : State) (p : Nat) : State :=
  let s1 := (s.transfers.filter fun t => t.pav == p).foldl (fun s t => s.complete t.post 0x07 []) s
  let s2 := (s.pav p).freeze.busy.foldl (fun s k => s.complete k 0x07 []) s1
  if (s.pav p).freeze.busy.isEmpty then { s2 with transfers := s2.transfers.filter fun t => t.pav != p }
  else { (s2.modPav p fun v => { v with freeze := { v.freeze with busy := [], saves := [] } }) with
    transfers := s2.transfers.filter fun t => t.pav != p }

/-- A host channel halts: the cause is recorded and HOST_CHANNEL_HALTED raised; the pavilion's host-mover accesses wait, and its
transfer commands end (R429, R430). -/
def State.haltChannel (s : State) (p cause : Nat) (dva : Nat) : State :=
  if (s.pav p).chan.halted then s
  else
    let s1 := s.modPav p fun v => { v with chan := { v.chan with halted := true, cause := cause, dva := BitVec.ofNat 64 (dva / 4096 * 4096) } }
    ((s1.raisePav p 0x0004 (detailWords (cause :: lohi dva))).holdReads p).endTransfers p

/-- The 96-bit IV of a record: key id, then sequence number (R426, R461). -/
def recordIv (key : Word32) (sq : Word64) : BitVec 96 := BitVec.ofNat 96 (key.toNat + sq.toNat <<< 32)

/-- The header of a record, its additional data (R425). -/
def recordHeader (key : Word32) (len : Nat) (sq : Word64) (dva : Nat) : List Byte :=
  leBytes 4 key.toNat ++ leBytes 4 len ++ leBytes 8 sq.toNat ++ leBytes 8 dva ++ List.replicate 8 0

/-- The record of a plaintext (R425, R426). -/
def sealRecord (k : HostKey) (dva : Nat) (pt : List Byte) : List Byte :=
  let h := recordHeader k.id pt.length k.seq dva
  let c := Config.gcmSeal k.key (recordIv k.id k.seq) h pt
  h ++ c.1 ++ List.replicate (4096 - c.1.length) 0 ++ leBytes 16 c.2.toNat

/-- The to-host key installed most recently (R424). -/
def HostChan.toHostKey (c : HostChan) : Option HostKey := (c.keys.filter fun k => k.toHost).getLast?

/-- Take the key's next sequence number (R426). -/
def State.nextKeySeq (s : State) (p : Nat) (k : HostKey) : State :=
  s.modPav p fun v => { v with chan := { v.chan with keys := v.chan.keys.map fun x => if x.id == k.id && x.toHost then { x with seq := x.seq + 1 } else x } }

/-- Draw an order of a list: which comes next is open (R428). -/
def State.shuffle {α : Type} (s : State) (l : List α) : Nat → List α × State
  | 0 => (l, s)
  | fuel + 1 =>
    match l with
    | [] => ([], s)
    | a :: rest =>
      let d := s.draw
      let i := d.1.toNat % l.length
      let q := State.shuffle d.2 (if i == 0 then rest else a :: rest.eraseIdx (i - 1)) fuel
      (nthD l i a :: q.1, q.2)

/-- Pieces of a held write by 4 KiB unit: the unit's DVA, the IOVA of its record, the offset in the unit, bytes (R425, R428). -/
def Held.units (h : Held) : List (Nat × Nat × Nat × List Byte) :=
  let a := h.dva.toNat
  let leaf := h.iova.toNat - a % 65536
  (List.range ((a + h.bytes.length - 1) / 4096 + 1 - a / 4096)).map fun i =>
    let u := a / 4096 + i
    let lo := max a (u * 4096)
    (u * 4096, leaf + u % 16 * 4160, lo - u * 4096, (h.bytes.drop (lo - a)).take ((u + 1) * 4096 - lo))

/-- Plaintext of the records of a step: by unit DVA, the IOVA and the bytes, writes applied in issue order onto zeros (R428). -/
def heldUnits (hs : List Held) : Tab (Nat × List Byte) :=
  hs.foldl (fun t h => h.units.foldl (fun t u =>
    let old := (Tab.getD t u.1 (u.2.1, [])).2
    let n := max old.length (u.2.2.1 + u.2.2.2.length)
    let padded := old ++ List.replicate (n - old.length) 0
    Tab.put u.1 (u.2.1, padded.take u.2.2.1 ++ u.2.2.2 ++ padded.drop (u.2.2.1 + u.2.2.2.length)) t) t) []

/-- Deliver a step's held writes to host memory: plain writes in issue order, one sealed record for each unit (R202, R428). -/
def State.deliverStep (s : State) (p : Nat) (hs : List Held) : State :=
  let plain := hs.filter fun h => !h.sealed
  let s1 := plain.foldl (fun s h => { s with host := Mem.writeN s.host ((s.pav p).hostAt h.iova.toNat) h.bytes }) s
  let units := heldUnits (hs.filter fun h => h.sealed)
  let q := s1.shuffle units units.length
  let s2 := q.1.foldl (fun s u => match (s.pav p).chan.toHostKey with
    | some k => { s.nextKeySeq p k with host := Mem.writeN s.host ((s.pav p).hostAt u.2.1) (sealRecord k u.1 u.2.2) }
    | none => s) q.2
  s2.addCount p 0 (hs.foldl (fun n h => n + h.bytes.length) 0)

/-- The pavilion's oldest committed step is delivered whole, and STEP_DELIVERED follows (R423); without a to-host key for a sealed
write the channel halts instead (R429). -/
def State.deliverNext (s : State) (pav : Nat) : State :=
  let v := s.pav pav
  match v.deliveries with
  | [] => s
  | (n, t) :: rest =>
    let hs := v.held.filter fun h => h.step == some n
    if hs.isEmpty || v.chan.halted || !due (some t) s.now then s
    else
      match hs.find? fun h => h.sealed, v.chan.toHostKey with
      | some h, none => s.haltChannel pav 2 h.dva.toNat
      | _, _ =>
        let s1 := (s.deliverStep pav hs).modPav pav fun v => { v with held := v.held.filter fun h => h.step != some n, deliveries := rest }
        s1.raisePav pav 0x0005 (detailWords (lohi n.toNat))

/-- SPAN_DELIVERY_START: 1,024 ticks after a span's release tick, a member begins to deliver the step; one with no
host-bound writes raises STEP_DELIVERED (R371, R423). -/
def execSpanDeliveryStart (pav : Nat) (s : State) : Host.Outcome State Fault Refusal :=
  if pav ≥ numPavs then noUnit
  else
    let v := s.pav pav
    match v.deliveries.find? fun d => due (some d.2) s.now && !v.held.any fun h => h.step == some d.1 with
    | none => ok s
    | some d =>
      if !v.isSpan then ok s
      else ok ((s.modPav pav fun v => { v with deliveries := v.deliveries.erase d }).raisePav pav 0x0005 (detailWords (lohi d.1.toNat)))

end Sys2Proof.Machine
end

