-- ==== Sys2Proof/Machine/Orangery.lean ====
section
/-! DEFINITION. The orangery (R156 to R166): placement, fills, eviction, and the commands MODEL_PIN and MODEL_EVICT. -/

namespace Sys2Proof.Machine

namespace Slice

/-- Resident pieces. -/
def residentCount (sl : Slice) : Nat := (sl.resident.filter fun x => x.2.resident).length
/-- Piece `i` is resident. -/
def has (sl : Slice) (i : Nat) : Bool := ((Tab.find i sl.resident).map Piece.resident).getD false
/-- The first piece from `i` on that is not resident; the piece count where there is none (R162). -/
def nextMissing (sl : Slice) (i : Nat) : Nat := (((List.range (sl.pieces - i)).map (i + ·)).find? fun j => !sl.has j).getD sl.pieces

end Slice

/-- Change a slice. -/
def State.modSlice (s : State) (p h : Nat) (f : Slice → Slice) : State :=
  s.modPav p fun v => { v with slices := match Tab.find h v.slices with | some sl => Tab.put h (f sl) v.slices | none => v.slices }

/-- Orangery segments of a core that hold or await no piece, and that no apply in progress sets aside (R154, R161, R276). -/
def State.freeSegsOf (s : State) (p core : Nat) : List Nat :=
  let v := s.pav p
  let used := (v.slices.flatMap fun x => x.2.resident.filterMap fun y => if y.2.core == core then some y.2.segment else none)
    ++ s.apply.moves.filterMap fun m => if m.1 == p && m.2.2.2.1 == core then some m.2.2.2.2 else none
  ((List.range (384 - v.scr)).map (v.scr + ·)).filter fun g => !used.contains g

/-- Orangery capacity in pieces (R154). -/
def State.orangeryPieces (s : State) (p : Nat) : Nat := s.coreCount p * (384 - (s.pav p).scr)

/-- The own cores in rotation from index `i` mod N, on a member of a span its own too (R161; notes/assumptions/19.md). -/
def State.rotation (s : State) (p i : Nat) : List Nat :=
  let cs := (s.coresOf p).map Prod.snd
  let k := i % max 1 cs.length
  cs.drop k ++ cs.take k

/-- The layer entry that a run stands at. -/
def Run.entry (r : Run) : Nat := (nthD r.layers r.layer 0).toNat

/-- Slices that a layer entry lists (R289, R291). -/
def Run.layerSlices (r : Run) (e : Nat) : List Nat :=
  (List.range (bits e 71 58)).filterMap fun i => Tab.find (bits e 57 44 + i) r.slices

/-- Slices that the layer being prepared lists (R165). -/
def Pav.pendingSlices (v : Pav) : List Nat :=
  match v.runs.head? with
  | some r => if r.begun && !r.started then r.layerSlices r.entry else []
  | none => []

/-- The slice to evict next (R165): the largest age per restream cost, the lowest handle on a tie. -/
def Pav.victim (v : Pav) (now : Word64) : Option Nat :=
  let perTick := 180 * v.channels.length
  let cands := v.slices.filter fun x => !x.2.pinned && x.2.residentCount != 0 && !v.pendingSlices.contains x.1
  (cands.foldl (fun (b : Option (Nat × Nat × Nat)) x =>
    let age := (now - x.2.lastUse).toNat
    let cost := max 1 (x.2.residentCount * 65536 / max 1 perTick)
    match b with
    | none => some (x.1, age, cost)
    | some (h, a, c) => if age * c > a * cost || (age * c == a * cost && x.1 < h) then some (x.1, age, cost) else b) none).map Prod.fst

/-- Evict a whole slice: none of its pieces is resident (R165, R166). -/
def State.evictSlice (s : State) (p h : Nat) : State := s.modSlice p h fun sl => { sl with resident := [] }

/-- Give a piece a segment of the first core in rotation that has a free one (R161). -/
def State.placeOne (s : State) (p h i : Nat) (cs : List Nat) : Option State :=
  (cs.findSome? fun c => (s.freeSegsOf p c).head?.map fun g => (c, g)).map fun x =>
    s.modSlice p h fun sl => { sl with resident := Tab.put i { core := x.1, segment := x.2 } sl.resident }

/-- Give places to the fill's next piece, and to the rest of its quad on the same core. Once no core has the segments that a quad
needs, the remaining pieces go singly, each to the next core in the rotation; evict while no segment is free (R161, R165). -/
def State.reserve (s : State) (p h i : Nat) : Nat → State
  | 0 => s
  | fuel + 1 =>
    match Tab.find h (s.pav p).slices with
    | none => s
    | some sl =>
      if i ≥ sl.pieces || (Tab.find i sl.resident).isSome then s
      else
        let quad := ((List.range 4).map fun j => i / 4 * 4 + j).filter fun j => i ≤ j && j < sl.pieces && (Tab.find j sl.resident).isNone
        let room := if sl.single.isSome then none
          else (s.rotation p (h + i / 4)).find? fun c => decide ((s.freeSegsOf p c).length ≥ quad.length)
        match room with
        | some c =>
          let gs := s.freeSegsOf p c
          s.modSlice p h fun sl => { sl with resident := (quad.zip gs).foldl (fun t x => Tab.put x.1 { core := c, segment := x.2 } t) sl.resident }
        | none =>
          let from_ := sl.single.getD i
          let s1 := s.modSlice p h fun sl => { sl with single := some from_ }
          match s1.placeOne p h i (s.rotation p (h + from_ / 4 + (i - from_))) with
          | some s2 => s2
          | none =>
            match (s.pav p).victim s.now with
            | some w => (s1.evictSlice p w).reserve p h i fuel
            | none => s

/-- The fill of a slice reserves its next piece. -/
def State.reserveNext (s : State) (p h : Nat) : State :=
  match (Tab.find h (s.pav p).slices).bind Slice.filling with
  | some i => s.reserve p h i ((s.pav p).slices.length + 1)
  | none => s

/-- Begin to fill a slice (R162, R163); `k` is the post that waits for it. -/
def State.beginFill (s : State) (p h : Nat) (k : Option Nat) : State :=
  (s.modSlice p h fun sl =>
    { sl with filling := if sl.filling.isSome then sl.filling else some (sl.nextMissing 0), single := if sl.filling.isSome then sl.single else none
              posts := sl.posts ++ k.toList }).reserveNext p h

/-- Fills may proceed: the pavilion is not frozen and Gaold is not paused (R441, R456). -/
def State.fills (s : State) (p : Nat) : Bool := !(s.pav p).freeze.frozen && s.starts

/-- Where a piece lies at its home and its bytes: none where the page is not LOCAL with RD, at which a fill stops (R159, R191; DEDUCED,
notes/assumptions/77.md). -/
def State.homePiece (s : State) (p : Nat) (sl : Slice) (i : Nat) : Option (Nat × List Byte) :=
  (s.dvaFor p (sl.home.toNat + i * 65536) { rd := true }).map fun a => (a, s.readCs p a 65536)

/-- Write a reserved piece's bytes into its segment, or kill the pavilion for an uncorrectable line (R162, R175). -/
def State.writePiece (s : State) (p h i : Nat) : State :=
  match Tab.find h (s.pav p).slices with
  | none => s
  | some sl =>
    match Tab.find i sl.resident, s.homePiece p sl i with
    | some pc, some (a, bs) =>
      let v := s.pav p
      match s.beds.badIn (csKey v v.channels) a 65536 with
      | some b => s.killOwner p (csKey v v.channels b)
      | none =>
        ((s.setTraffic p .fill false (coreLoc pc.core) a 65536).writeLs pc.core (pc.segment * 65536) bs).modSlice p h fun sl =>
          { sl with resident := Tab.put i { pc with written := true } sl.resident }
    | _, _ => s

/-- The piece that the slice's fill reads next, in ascending order: the first from where the fill stands that is not written (R162). -/
def Slice.nextRead (sl : Slice) : Option Nat :=
  sl.filling.bind fun f => ((List.range (sl.pieces - f)).map (f + ·)).find? fun j => !((Tab.find j sl.resident).map fun x => x.resident || x.written).getD false

/-- PIECE_OVERWRITE: the fill writes a segment that holds no resident piece, its pieces in ascending order (R162, R166). -/
def execPieceOverwrite (core segment : Nat) (s : State) : Host.Outcome State Fault Refusal :=
  if core ≥ numCores || segment ≥ 384 then noUnit
  else
    match s.ownerOf core with
    | none => ok s
    | some p =>
      let hit := (s.pav p).slices.findSome? fun x =>
        (x.2.resident.find? fun y => y.2.core == core && y.2.segment == segment && !y.2.resident && x.2.nextRead == some y.1).map fun y => (x.1, y.1)
      match hit with
      | some (h, i) => if s.fills p then ok (s.writePiece p h i) else ok s
      | none => ok s

/-- PIECE_RESIDENT: the fill's next piece has all its bytes and becomes resident; its bytes count in BED (R158, R162). -/
def execPieceResident (pav handle : Nat) (s : State) : Host.Outcome State Fault Refusal :=
  if pav ≥ numPavs then noUnit
  else
    match (Tab.find handle (s.pav pav).slices).bind Slice.filling with
    | none => ok s
    | some i =>
      if !s.fills pav then ok s
      else
        let s1 := s.reserveNext pav handle
        match (Tab.find handle (s1.pav pav).slices).bind fun sl => Tab.find i sl.resident with
        | none => ok s1
        | some pc =>
          let s2 := if pc.written then s1 else s1.writePiece pav handle i
          let done := (((Tab.find handle (s2.pav pav).slices).bind fun sl => Tab.find i sl.resident).map Piece.written).getD false
          if !done then ok s2
          else
            let s3 := s2.modSlice pav handle fun sl =>
              let sl := { sl with resident := Tab.put i { pc with resident := true, written := true } sl.resident }
              { sl with filling := some (sl.nextMissing (i + 1)) }
            ok ((s3.count pav 2 65536).reserveNext pav handle)

/-- The fill of a slice is at its end, or stands at a piece that it cannot place or read (R162). -/
def State.fillOver (s : State) (p h : Nat) : Bool :=
  match Tab.find h (s.pav p).slices with
  | none => false
  | some sl =>
    match sl.filling with
    | none => false
    | some i =>
      decide (i ≥ sl.pieces) || (s.homePiece p sl i).isNone
        || (((Tab.find h ((s.reserveNext p h).pav p).slices).bind fun sl => Tab.find i sl.resident).isNone)

/-! ## Commands that act on every member of a span (R157, R416) -/

/-- The post under which a member keeps a command that rank 0 passed to it. -/
def memberPost (k : Nat) : Nat := 2 ^ 50 + k

/-- A shared command whose members have all completed it completes, with this member's status or else the first of another's. A slice
that some member could not load is released on all (DESIGN CHOICE, notes/assumptions/76.md). -/
def State.settleShared (s : State) (p k : Nat) : State :=
  match Tab.find k (s.pav p).shared with
  | some { left := [], own := some (st, rsp), status := other, handle := h } =>
    let st' := if st == 0 then other else st
    let s1 := if st' == 0 || h == 0 then s
      else (s.modPav p fun v => { v with slices := Tab.drop h v.slices }).syncAll p (.slice (s.pav p).spanId 0 h [0x22, 0, h, 1] (s.pav p).winding)
    (s1.modPav p fun v => { v with shared := Tab.drop k v.shared }).complete k st' (if st' == 0 then rsp else [])
  | _ => s

/-- A command on slices completes on this package: at rank 0 once every member has, at another member by telling rank 0. -/
def State.finish (s : State) (p k status : Nat) (rsp : List Nat) : State :=
  let v := s.pav p
  if k ≥ 2 ^ 50 then s.syncRank0 p (.sliceDone v.spanId v.spanRank (k - 2 ^ 50) status v.winding)
  else
    match Tab.find k v.shared with
    | none => s.complete k status rsp
    | some x => (s.modPav p fun v => { v with shared := Tab.put k { x with own := some (status, rsp) } v.shared }).settleShared p k

/-- Rank 0 of a span passes a command on a slice to the other members, which give the slice the same handle (R157, R416). -/
def State.share (s : State) (p k h : Nat) (words : List Nat) : State :=
  let v := s.pav p
  if !v.isSpan || k ≥ 2 ^ 50 then s
  else
    (s.modPav p fun v => { v with shared := Tab.put k { left := (List.range v.spanLast).map (· + 1), handle := if nthD words 0 0 % 256 == 0x20 then h else 0 } v.shared }).syncAll p
      (.slice v.spanId k h words v.winding)

/-- Request words 0 to 8 of a post. -/
def State.sliceWords (s : State) (k : Nat) : List Nat := (List.range 9).map (s.mb k).w

/-- Another member has completed a shared command. -/
def State.memberDone (s : State) (p rank k status : Nat) : State :=
  match Tab.find k (s.pav p).shared with
  | none => s
  | some x =>
    (s.modPav p fun v => { v with shared := Tab.put k { x with left := x.left.filter fun r => r != rank
                                                               status := if x.status == 0 then status else x.status } v.shared }).settleShared p k

/-- End a fill: what waits for it goes on (R162, R163, R295, R419). Reserved pieces without bytes give their segments up. -/
def State.endFill (s : State) (p h : Nat) : State :=
  match Tab.find h (s.pav p).slices with
  | none => s
  | some sl =>
    let n := sl.residentCount
    let s1 := s.modPav p fun v =>
      { v with slices := Tab.put h { sl with filling := none, posts := [], resident := sl.resident.filter fun x => x.2.resident } v.slices
               runs := v.runs.map fun r => { r with filling := r.filling.filter fun x => x != h } }
    sl.posts.foldl (fun s k => s.finish p k 0 (if (s.mb k).w 0 % 256 == 0x20 then [h, n] else [n])) s1

/-- SLICE_FILL_COMPLETE: a fill of a slice completes, or stops at a piece it cannot place (R162, R295). -/
def execSliceFillComplete (pav handle : Nat) (s : State) : Host.Outcome State Fault Refusal :=
  if pav ≥ numPavs then noUnit
  else if s.fills pav && s.fillOver pav handle then ok (s.endFill pav handle) else ok s

/-! ## MODEL_PIN, MODEL_EVICT -/

/-- A pavilion state in which RUN, MODEL_LOAD, MODEL_PIN and MODEL_EVICT complete with MB_STATE (R364, R630). -/
def Pav.busyState (v : Pav) : Bool :=
  v.resetting.isSome || v.freeze.frozen || v.faulted || (v.isSpan && v.span.st != 2)

def pinForm : CmdForm := { named := true, used := [0x1FF, 0xFFFFFF, 1], rank0 := true, refused := fun v _ => v.busyState }
def evictForm : CmdForm := { named := true, used := [0x1FF, 0xFFFFFF, 1], rank0 := true, refused := fun v _ => v.busyState }

/-- Pin a slice (R164): refused where the pinned slices would pass the orangery's capacity. -/
def State.pinSlice (s : State) (p k h : Nat) : State :=
  let v := s.pav p
  match Tab.find h v.slices with
  | none => s.finish p k 0x02 []
  | some sl =>
    let pinned := v.slices.foldl (fun n x => if x.2.pinned && x.1 != h then n + x.2.pieces else n) 0
    if pinned + sl.pieces > s.orangeryPieces p then s.finish p k 0x03 []
    else
      let s1 := (s.share p k h (s.sliceWords k)).modSlice p h fun sl => { sl with pinned := true }
      if sl.residentCount == sl.pieces then s1.finish p k 0 [sl.pieces] else s1.beginFill p h (some k)

def startModelPin (k : Nat) (s : State) : State := s.start k pinForm fun p s => s.pinSlice p k ((s.mb k).w 2)

/-- MODEL_PIN: marks a slice pinned and fills it (R163, R164). -/
def execModelPin (fn slot : Nat) (s : State) : Host.Outcome State Fault Refusal :=
  post fn slot (fun w => opc 0x21 w && w 3 % 2 == 0) startModelPin s

/-- Clear a slice's pinned mark (R164). -/
def State.unpinSlice (s : State) (p k h : Nat) : State :=
  match Tab.find h (s.pav p).slices with
  | none => s.finish p k 0x02 []
  | some sl => ((s.share p k h (s.sliceWords k)).modSlice p h fun sl => { sl with pinned := false }).finish p k 0 [sl.residentCount]

def startModelUnpin (k : Nat) (s : State) : State := s.start k pinForm fun p s => s.unpinSlice p k ((s.mb k).w 2)

/-- MODEL_PIN with UNPIN: clears the mark (R164). -/
def execModelUnpin (fn slot : Nat) (s : State) : Host.Outcome State Fault Refusal :=
  post fn slot (fun w => opc 0x21 w && w 3 % 2 == 1) startModelUnpin s

/-- An accepted run lists the slice (R420). -/
def Pav.lists (v : Pav) (h : Nat) : Bool := v.runs.any fun r => r.slices.any fun x => x.2 == h

/-- The home of a sealed slice is zeroed before its release completes (R493). -/
def State.zeroHome (s : State) (p h : Nat) : State :=
  match Tab.find h (s.pav p).slices with
  | none => s
  | some sl =>
    if sl.key.isNone then s
    else (List.range sl.pieces).foldl (fun s i => match s.dvaLocal p (sl.home.toNat + i * 65536) with
      | some a => s.zeroCs p a 65536
      | none => s) s

/-- Evict a slice, and with `release` give its handle up (R157, R165). -/
def State.evictNow (s : State) (p k h : Nat) (release : Bool) : State :=
  let v := s.pav p
  if (Tab.find h v.slices).isNone then s.finish p k 0x02 []
  else if release && v.lists h then s.finish p k 0x05 []
  else
    let s1 := ((s.share p k h (s.sliceWords k)).evictSlice p h).endFill p h
    let s2 := if release then (s1.zeroHome p h).modPav p fun v => { v with slices := Tab.drop h v.slices } else s1
    s2.finish p k 0 []

def startModelEvict (k : Nat) (s : State) : State := s.start k evictForm fun p s => s.evictNow p k ((s.mb k).w 2) ((s.mb k).w 3 % 2 == 1)

/-- MODEL_EVICT: evicts a slice at once, pinned or not, and with RELEASE gives its handle up (R157, R165). -/
def execModelEvict (fn slot : Nat) (s : State) : Host.Outcome State Fault Refusal := post fn slot (opc 0x22) startModelEvict s

end Sys2Proof.Machine
end

