-- ==== Sys2Proof/Machine/Program.lean ====
section
/-! DEFINITION. Programs (R288 to R299, R305): RUN and the checks of a program table, the start and end of runs, layers and
kernels, and the watchdog (R500, R501). -/

namespace Sys2Proof.Machine

/-! ## Reading a program table (R292, R293) -/

/-- Why a program table is not accepted now: a refusal naming an entry, bytes awaited from outside, or an uncorrectable line. -/
inductive TableStop where
  | refused (array index : Nat)
  | need (page : Nat)
  | hurt (key : Nat)
  /-- a window page of this package whose read there met an uncorrectable line: the entry named, window, offset page, bytes (R227) -/
  | window (array index w page lo n : Nat)
  deriving DecidableEq, Repr

/-- The request for a page of a window of this package that holds part of a program table (R218, R292). -/
def State.tableWindow (s : State) (tenant w page : Nat) : WinAnswer × State :=
  s.windowRequest w s.ownPkg tenant [page] (page * 65536 + 65535) true false

/-- The owner of a window page whose read met an uncorrectable line is killed (R175, R227). -/
def State.tableHurt (s : State) (tenant w page lo n : Nat) : State :=
  let q := s.tableWindow tenant w page
  match q.1 with
  | .refused _ _ => q.2
  | .served o cs =>
    let key := csKey (s.pav o) (s.pav o).channels
    match s.beds.badIn key ((cs.headD (0, 0)).2 + lo) n with
    | some a => s.killOwner o (key a)
    | none => s

/-- Reading a table: what is read may stop it, and window entries come into force at their first use (R217, R292). -/
abbrev TableM := ExceptT TableStop (StateM State)

/-- Bytes of a page piece of the table, for the entry named by `why` (R292). -/
def State.tablePiece (s : State) (p : Nat) (a : Accept) (why : TableStop) (lo n : Nat) : Except TableStop (List Byte) :=
  let v := s.pav p
  match (s.walk 64 p lo).1 with
  | .bad _ _ => .error why
  | .hurt key => .error (.hurt key)
  | .package => .ok ((List.range n).map fun i => s.shapeByte p (lo % 65536 + i))
  | .leaf l =>
    if (accessFault v (.leaf l) { rd := true }).isSome then .error why
    else
      match Pte.typ l.entry with
      | 2 =>
        let cs := Pte.addr l.entry + lo % (if l.level == 1 then 2 ^ 29 else 65536)
        match s.beds.badIn (csKey v v.channels) cs n with
        | some b => .error (.hurt (csKey v v.channels b))
        | none => .ok (s.readCs p cs n)
      | 4 =>
        if bits l.entry 63 52 == s.ownPkg then
          let hurt := fun (_ : Unit) => match why with
            | .refused arr i => TableStop.window arr i (bits l.entry 51 40) (bits l.entry 39 16) (lo % 65536) n
            | x => x
          match (s.tableWindow v.tenant (bits l.entry 51 40) (bits l.entry 39 16)).1 with
          | .served o cs =>
            let a := (cs.headD (0, 0)).2 + lo % 65536
            if (s.beds.badIn (csKey (s.pav o) (s.pav o).channels) a n).isSome then .error (hurt ()) else .ok (s.readCs o a n)
          | .refused r _ => .error (if r == 0x09 then hurt () else why)
        else if a.refused.contains (lo / 65536) then .error why
        else if a.pages.contains (lo / 65536) then .ok (Mem.readN a.bytes lo n) else .error (.need (lo / 65536))
      | _ => if a.pages.contains (lo / 65536) then .ok (Mem.readN a.bytes lo n) else .error (.need (lo / 65536))

/-- The state once a piece of the table is read: where a WINDOW page of this package holds it, the window's entry is in force (R217), and
AC is set in the owner's leaf of an access that succeeds (R194, R219). -/
def State.windowUsed (s : State) (p lo n : Nat) : State :=
  match (s.walk 64 p lo).1 with
  | .leaf l =>
    let w := bits l.entry 51 40
    if Pte.typ l.entry == 4 && bits l.entry 63 52 == s.ownPkg && (accessFault (s.pav p) (.leaf l) { rd := true }).isNone then
      let q := s.tableWindow (s.pav p).tenant w (bits l.entry 39 16)
      match q.1 with
      | .served o cs =>
        if (s.beds.badIn (csKey (s.pav o) (s.pav o).channels) ((cs.headD (0, 0)).2 + lo % 65536) n).isSome then (s.window w).2 else q.2
      | .refused _ _ => (s.window w).2
    else s
  | _ => s

/-- Bytes of the table at a DVA. -/
def tableRead (p : Nat) (a : Accept) (why : TableStop) (dva n : Nat) : TableM Nat :=
  if dva + n > 2 ^ 55 then throw why
  else do
    let bs ← (dvaPieces dva n).foldlM (fun (bs : List Byte) x => do
      let s ← get
      set (s.windowUsed p x.1 x.2)
      match s.tablePiece p a why x.1 x.2 with
      | .ok cs => pure (bs ++ cs)
      | .error e => throw e) []
    return leNat bs

/-- A range of DVA touches the package page (R184, R293). -/
def inPackagePage (dva n : Nat) : Bool := decide (dva < packagePage + 65536) && decide (packagePage < dva + n)

/-- A check of an entry: the refusal names it. -/
def needs (b : Bool) (why : TableStop) : TableM Unit := if b then pure () else throw why

/-- The header's fields that the rest of the check uses: LAYERS, KERNELS, SLICES and the arrays. -/
structure TableHead where
  kernels : Nat
  slices : Nat
  layerDva : Nat
  kernelDva : Nat
  sliceDva : Nat
  deriving DecidableEq, Repr

/-- Check the header (R288, R293). -/
def checkHead (p : Nat) (a : Accept) (dva first last repeats : Nat) : TableM TableHead := do
  let why := TableStop.refused 0 0
  let s ← get
  needs (s.coreCount p != 0) why
  needs (dva % 64 == 0) why
  let h ← tableRead p a why dva 64
  let layers := bits h 31 16
  let kernels := bits h 47 32
  let slices := bits h 63 48
  let ld := bits h 127 64
  let kd := bits h 191 128
  let sd := bits h 255 192
  needs (bits h 15 0 == 1 && bits h 511 256 == 0) why
  needs (1 ≤ layers && layers ≤ 1024 && 1 ≤ kernels && kernels ≤ 4096 && slices ≤ 16384) why
  needs (first ≤ last && last < layers && repeats != 0) why
  needs (!(inPackagePage ld (32 * layers) || inPackagePage kd (32 * kernels) || inPackagePage sd (4 * slices))) why
  needs (ld % 32 == 0 && kd % 32 == 0 && sd % 4 == 0 && (slices != 0 || sd == 0)) why
  return { kernels := kernels, slices := slices, layerDva := ld, kernelDva := kd, sliceDva := sd }

/-- Check a layer entry (R289, R293). -/
def checkLayer (p : Nat) (a : Accept) (h : TableHead) (j : Nat) : TableM Nat := do
  let why := TableStop.refused 1 j
  let e ← tableRead p a why (h.layerDva + 32 * j) 32
  needs (bits e 255 72 == 0 && bits e 35 28 != 0) why
  needs (bits e 27 16 + bits e 35 28 ≤ h.kernels && bits e 57 44 + bits e 71 58 ≤ h.slices) why
  return e

/-- Check a kernel entry (R290, R293). -/
def checkKernel (p : Nat) (a : Accept) (h : TableHead) (k : Nat) : TableM Nat := do
  let why := TableStop.refused 2 k
  let e ← tableRead p a why (h.kernelDva + 32 * k) 32
  needs (bits e 127 96 == 0 && bits e 255 192 == 0) why
  needs (!inPackagePage (bits e 63 0) 1) why
  needs (bits e 11 0 == 0 && bits e 63 55 == 0 && bits e 66 64 == 0) why
  return e

/-- Check a slice-list entry (R291, R293). -/
def checkSlice (p : Nat) (a : Accept) (h : TableHead) (i : Nat) : TableM Nat := do
  let why := TableStop.refused 3 i
  let e ← tableRead p a why (h.sliceDva + 4 * i) 4
  let s ← get
  needs (bits e 31 24 == 0) why
  needs (Tab.find (bits e 23 0) (s.pav p).slices).isSome why
  return bits e 23 0

/-- Check a list of entries in order, keeping their words by index. -/
def checkAll (f : Nat → TableM Nat) : List Nat → TableM (Tab Nat)
  | [] => pure []
  | i :: rest => do
    let e ← f i
    let t ← checkAll f rest
    return Tab.put i e t

/-- The indices of ranges (first, count), ascending, each once. -/
def rangeUnion (rs : List (Nat × Nat)) : List Nat :=
  rs.foldl (fun l r => (List.range r.2).foldl (fun l i => insertUniq (r.1 + i) l) l) []

/-- Check the whole table, in the order of R293, and make the run's copy of it (R292). -/
def checkTable (p : Nat) (a : Accept) (slot : Option Nat) (dva first last repeats : Nat) : TableM Run := do
  let h ← checkHead p a dva first last repeats
  let ls ← checkAll (checkLayer p a h) ((List.range (last + 1 - first)).map (first + ·))
  let es := ls.map Prod.snd
  let ks ← checkAll (checkKernel p a h) (rangeUnion (es.map fun e => (bits e 27 16, bits e 35 28)))
  let ss ← checkAll (checkSlice p a h) (rangeUnion (es.map fun e => (bits e 57 44, bits e 71 58)))
  return { slot := slot, table := dva, first := first, last := last, repeats := repeats, layers := es.map (BitVec.ofNat 256)
           kernels := ks.map (fun x => (x.1, BitVec.ofNat 256 x.2)), slices := ss }

/-- The table of a RUN as read and checked now, and the state after. -/
def State.readTable (s : State) (p : Nat) (a : Accept) (slot : Option Nat) (dva first last repeats : Nat) : Except TableStop Run × State :=
  ((checkTable p a slot dva first last repeats).run).run s

/-! ## RUN (R292 to R294, R421) -/

/-- The arguments of RUN and where it is refused (R421). -/
def runForm : CmdForm :=
  { named := true, used := [0x1FF, 2 ^ 32 - 1, 2 ^ 32 - 1, 0x3FF03FF, 2 ^ 32 - 1], rank0 := true, refused := fun v _ => v.busyState }

/-- The RUN that an acceptance is of: table DVA, FIRST, LAST and the repeat count (R367, R419). -/
def State.runNames (s : State) (a : Accept) : Nat × Nat × Nat × Nat :=
  let m := s.mb a.post
  match a.passed.or a.restored with
  | some x => (x.table, x.first, x.last, x.repeats)
  | none => (m.w2 2, bits (m.w 4) 9 0, bits (m.w 4) 25 16, m.w 5)

/-- An acceptance waits no longer. -/
def State.dropAccept (s : State) (p : Nat) (a : Accept) : State :=
  s.modPav p fun v => { v with accepting := v.accepting.filter fun x => x.post != a.post }

/-! ## The end of runs (R299, R422) -/

/-- The end of a run is reported: in its slot, or by RUN_DONE (R422). -/
def State.runEnds (s : State) (p : Nat) (r : Run) (code : Nat) : State :=
  let c := (s.pav p).committed.toNat
  match r.slot with
  | some k => s.complete k code (r.iter :: lohi c)
  | none => if r.passed then s else s.raisePav p 0x0006 (detailWords ([code, r.iter] ++ lohi c))

/-- Every run of the pavilion ends: those begun or suspended with `code`, the others with RUN_CANCELLED (R299, R503). -/
def State.endRuns (s : State) (p code : Nat) : State :=
  let rs := (s.pav p).runs
  rs.foldl (fun s r => s.runEnds p r (if r.begun || r.suspended || r.unread then code else 0x06))
    (s.modPav p fun v => { v with runs := [], kernel := {} })

/-- The restored run of a number. -/
def Run.restoredAs (r : Run) (no : Nat) : Bool := r.unread && r.no == no

/-- A restored run whose table is refused at the thaw ends with RUN_DONE, as a RUN would be refused (DESIGN CHOICE,
notes/assumptions/28.md). -/
def State.refuseRestored (s : State) (p no : Nat) : State :=
  let rs := (s.pav p).runs
  (rs.filter fun r => r.restoredAs no).foldl (fun s r => s.runEnds p r 0x01) (s.modPav p fun v => { v with runs := rs.filter fun r => !r.restoredAs no })

/-- A RUN is refused, naming an entry by its array and index (R293): in its slot, or to rank 0, which refuses it on every member
(R367). -/
def State.refuseRun (s : State) (p : Nat) (a : Accept) (entry : Nat) : State :=
  let v := s.pav p
  let s1 := s.dropAccept p a
  match a.passed with
  | some x => s1.syncRank0 p (.runAnswer v.spanId v.spanRank x.no (some entry) v.winding)
  | none =>
    match a.restored with
    | some x => s1.refuseRestored p x.no
    | none => s1.complete a.post 0x01 ([0] ++ lohi v.committed.toNat ++ [entry])

/-- Runs that a pavilion holds accepted at once, at most (R421). -/
def runLimit : Nat := 4

/-- A run takes its place among the accepted runs: on a member, that of rank 0's number (R294, R367). -/
def placeRun (r : Run) (l : List Run) : List Run :=
  if r.passed then l.takeWhile (fun x => !x.passed || decide (x.no < r.no)) ++ r :: l.dropWhile (fun x => !x.passed || decide (x.no < r.no)) else l ++ [r]

/-- Change the run that executes. -/
def State.modRun (s : State) (p : Nat) (f : Run → Run) : State :=
  s.modPav p fun v => { v with runs := match v.runs with | r :: rest => f r :: rest | [] => [] }

/-- Gaold fills the slices that the layer lists and that are not fully resident (R163, R295). -/
def State.layerFills (s : State) (p : Nat) : State :=
  match (s.pav p).runs.head? with
  | none => s
  | some r =>
    let hs := ((r.layerSlices r.entry).foldl (fun l h => addNew h l) []).filter fun h => match Tab.find h (s.pav p).slices with
      | some sl => sl.residentCount != sl.pieces
      | none => false
    hs.foldl (fun s h => s.beginFill p h none) (s.modRun p fun r => { r with filling := hs })

/-- The run stands at the first kernel of a layer, not started and not suspended: the layer's fills start when it comes to stand there. -/
def Run.atLayer (r : Run) : Bool := r.begun && !r.started && !r.suspended && r.kernel == 0

/-- A restored run as its table reads: it stands at its saved layer and kernel (R462, R466, R469). -/
def Run.readAs (u r : Run) : Run :=
  let r := { r with slot := none, no := u.no, suspended := u.suspended, iter := u.iter, layer := u.layer }
  let k := u.kernel - bits r.entry 27 16
  { r with kernel := k, begun := u.iter != 0 || u.layer != 0 || k != 0 }

/-- The table of a restored run has been read; the fills of the layer that it stands at start if it is the first (R163, R469). -/
def State.takeRestored (s : State) (p no : Nat) (r : Run) : State :=
  let s1 := s.modPav p fun v => { v with runs := v.runs.map fun (u : Run) => if u.restoredAs no then u.readAs r else u }
  if (s.pav p).runs.head?.any fun u => u.restoredAs no && (u.readAs r).atLayer then s1.layerFills p else s1

/-- A RUN is accepted: it joins the runs, unless four are held; rank 0 of a span numbers it and passes it on, another member tells rank
0 (R294, R367, R421). -/
def State.takeRun (s : State) (p : Nat) (a : Accept) (r : Run) : State :=
  let v := s.pav p
  let s0 := s.dropAccept p a
  match a.passed with
  | some x =>
    let r := { r with no := x.no, waiting := [0], passed := true }
    (s0.modPav p fun v => { v with runs := placeRun r v.runs }).syncRank0 p (.runAnswer v.spanId v.spanRank x.no none v.winding)
  | none =>
    if let some x := a.restored then s0.takeRestored p x.no r
    else if v.runs.length ≥ runLimit then s0.complete a.post 0x07 ([0] ++ lohi v.committed.toNat)
    else if !v.isSpan then s0.modPav p fun v => { v with runs := v.runs ++ [r] }
    else
      let n := v.span.runNo + 1
      let r := { r with no := n, waiting := (List.range v.spanLast).map (· + 1) }
      (s0.modPav p fun v => { v with runs := v.runs ++ [r], span := { v.span with runNo := n } }).syncAll p
        (.run v.spanId n (BitVec.ofNat 64 r.table) r.first r.last r.repeats v.winding)

/-- Core number under which Gaold's own requests for program tables stand in the requests sent. -/
def gaoldCore : Nat := 1088

/-- Ask for a page of the table in a window of another package, as host mover 0, in requests of 4 KiB (R218, R237, R292). -/
def State.askTable (s : State) (p : Nat) (a : Accept) (pg : Nat) (e : Nat) : State :=
  let v := s.pav p
  let o := bits e 39 16 * 65536
  let msg : BulkMsg := { stream := pavStream p (.hostMover 0), dstLoc := BitVec.ofNat 16 (unitLoc 7), winding := v.winding, vc := 2
                         srcPkg := BitVec.ofNat 12 s.ownPkg, dstPkg := BitVec.ofNat 12 (bits e 63 52), kind := 5, addr := BitVec.ofNat 64 (bits e 51 40)
                         tenant := BitVec.ofNat 32 v.tenant, tile := [(o, 65536)] }
  (List.range 16).foldl (fun s i => s.request
    { core := gaoldCore, strand := p, num := a.post, msg := { msg with runs := [(o + i * 4096, 4096)], last := i == 15 }
      keys := [(pg * 65536 + i * 4096, 4096)] }) s

/-- Read and check the table of a RUN: it is accepted or refused, or waits for a page from outside the package (R292, R293). A package
that cannot be reached counts as refusing its page. `fuel` bounds the pages that are found so. -/
def State.acceptOn (s : State) (p : Nat) : Nat → Accept → State
  | 0, _ => s
  | fuel + 1, a =>
    let n := s.runNames a
    let q := s.readTable p a (if (a.passed.or a.restored).isSome then none else some a.post) n.1 n.2.1 n.2.2.1 n.2.2.2
    let s := q.2
    match q.1 with
    | .ok r => s.takeRun p a r
    | .error (.refused arr i) => s.refuseRun p a (i + arr <<< 16)
    | .error (.window arr i w pg lo n) => (s.tableHurt (s.pav p).tenant w pg lo n).refuseRun p a (i + arr <<< 16)
    | .error (.hurt key) => ((s.dropAccept p a).killOwner p key).complete a.post 0x86 []
    | .error (.need pg) =>
      let s1 := (s.dropAccept p a).modPav p fun v => { v with accepting := v.accepting ++ [a] }
      match (s.walk 64 p (pg * 65536)).1 with
      | .leaf l =>
        if Pte.typ l.entry != 4 then s1
        else if (s.reach (bits l.entry 63 52)).isNone then State.acceptOn s p fuel { a with refused := pg :: a.refused }
        else s1.askTable p a pg l.entry
      | _ => s1

/-- Pages that a program table can touch, at most. -/
def tablePages : Nat := 8

/-- Go on with the acceptance of a RUN. -/
def State.acceptRun (s : State) (p : Nat) (a : Accept) : State := s.acceptOn p tablePages a

/-- The first of the four slots of the pavilion's host function under which no RUN waits that has no slot of its own, passed to this
member or restored: its pages from host memory come as for that slot (R292, R367, R469). -/
def State.passedPost (s : State) (p : Nat) : Nat :=
  let v := s.pav p
  let at' := fun (i : Nat) => memberPost (v.hostFn * 4 + i)
  at' (((List.range 4).find? fun i => !v.accepting.any fun a => a.post == at' i).getD 0)

/-- Read the tables of the restored runs that have not been read, as a RUN's is read (R292, R469). -/
def State.readRestored (s : State) (p : Nat) : State :=
  ((s.pav p).runs.filter fun r => r.unread && !(s.pav p).accepting.any fun a => a.restored.any fun x => x.no == r.no).foldl
    (fun s r => s.acceptRun p { post := s.passedPost p, restored := some ⟨r.no, r.table, r.first, r.last, r.repeats⟩ }) s

def startRun (k : Nat) (s : State) : State :=
  s.start k runForm fun p s =>
    if (s.pav p).runs.length ≥ runLimit then s.complete k 0x07 ([0] ++ lohi (s.pav p).committed.toNat) else s.acceptRun p { post := k }

/-- RUN: Gaold reads and checks a program table and accepts a run (R292, R293, R421). -/
def execRun (fn slot : Nat) (s : State) : Host.Outcome State Fault Refusal := post fn slot (opc 0x28) startRun s

/-! ## Freezing (R454, R455, R458, R573, R574) -/

/-- The pavilion freezes: every accepted run is suspended, and those that hold a slot complete it with RUN_SUSPENDED; FREEZE posts
that wait complete; a recording or replay of it pauses. -/
def State.freezeNow (s : State) (p : Nat) : State :=
  let v := s.pav p
  let c := v.committed.toNat
  let s1 := v.runs.foldl (fun s r => match r.slot with | some k => s.complete k 0x05 (r.iter :: lohi c) | none => s) s
  let s2 := s1.modPav p fun v => { v with runs := v.runs.map fun r => { r with slot := none, suspended := true }
                                          freeze := { v.freeze with frozen := true, at_ := s.now, waiting := [] } }
  let s3 := v.freeze.waiting.foldl (fun s w => s.complete w.1 0 []) (s2.voidStart p)
  if s.replayer.pav == p then s3.modRec fun x => { x with live := false, ending := false } else s3

/-- Freeze a pavilion that stands at a layer boundary, if that was asked for (R458). -/
def State.freezeWaiting (s : State) (p : Nat) : State := if s.freezeAsked p then s.freezeNow p else s

/-! ## Layers and kernels -/

/-- The cause of R564 that is in force for a pavilion, 0 for none: a channel of its set refreshes at four times the base rate, or the
droop clamp acts in a half that holds its cores. -/
def State.cycleCause (s : State) (p : Nat) : Nat :=
  if (s.pav p).channels.any fun q => (s.channel q).refresh == 4 then 1
  else if (s.coresOf p).any fun c => (Tab.getD s.power.halves (halfOfCluster (clusterOf c.2)) {}).droopClamp then 3 else 0

/-- A CYCLE pavilion begins a run: its predictors, instruction caches and translation caches are invalidated, and it is
repeatable unless a cause is in force (R562, R564). -/
def State.beginCycle (s : State) (p : Nat) : State :=
  let v := s.pav p
  if !v.cycle then s
  else
    let s1 := (s.coresOf p).foldl (fun s x => s.modCore x.2 fun c => { c with predictor := [], icache := [] }) s
    let s2 := { s1 with tcache := Tab.mapVals (fun _ l => l.filter fun c => c.pav != p) s1.tcache }
    let why := s.cycleCause p
    s2.modPav p fun v => { v with obs := { v.obs with repeatable := why == 0, cycleCause := if why == 0 then v.obs.cycleCause else why } }

/-- The pavilion stands at a layer boundary where its next run may begin: no apply or freeze waits for the boundary (R294, R298, R441),
and a member has no earlier RUN of rank 0 to accept (R367). -/
def State.mayBegin (s : State) (p : Nat) : Bool :=
  let v := s.pav p
  v.bound && !s.stopsNext p && v.resetting.isNone && s.starts
    && (match v.runs.head? with
      | some r => !r.begun && !r.suspended && !r.unread && r.waiting.isEmpty
          && v.accepting.all fun a => match a.passed with | some x => decide (r.no < x.no) | none => true
      | none => false)

/-- The first accepted run begins, if it may; the watchdog restarts and the first layer's fills start (R163, R294, R500, R562). -/
def State.beginRun (s : State) (p : Nat) : State :=
  if !s.mayBegin p then s
  else
    let s1 := (s.modRun p fun r => { r with begun := true, iter := 0, layer := 0, kernel := 0, started := false }).modPav p fun v =>
      { v with watchdog := 0, kernel := { members := v.kernel.members } }
    (s1.beginCycle p).layerFills p

/-- Arrivals of members that are left once rank 0 has taken a round of them. -/
def Pav.roundLeft (v : Pav) : List Nat := if v.isSpan && v.decides then roundTaken v.kernel.members v.spanLast else []

/-- Start the kernel that the run stands at: strand 0 of every own core (R70, R73, R296, R305). -/
def State.startKernel (s : State) (p : Nat) : State :=
  match (s.pav p).runs.head? with
  | none => s
  | some r =>
    let e := r.entry
    let k := (Tab.getD r.kernels (bits e 27 16 + r.kernel) 0).toNat
    let s1 := (s.modRun p fun r => { r with started := true }).modPav p fun v =>
      { v with kernel := { members := v.roundLeft }, commit := none
               shapeFw := if v.isSpan then BitVec.ofNat 32 (v.kernel.step.toNat / 2 ^ 32) else s.fw.version
               shapeCmd := if v.isSpan then BitVec.ofNat 32 v.kernel.step.toNat else s.fw.cmdset
               span := { v.span with kernels := if v.isSpan then v.span.kernels + 1 else 0 } }
    let s2 := (s.coresOf p).foldl (fun s x =>
      let s := s.modCore x.2 fun c => { c with running := true, codeBase := BitVec.ofNat 64 (bits k 63 0) }
      let s := { s with order := s.order + 1 }
      s.setStrand x.2 0
        { mode := .ready, cls := 1, pc := BitVec.ofNat 32 (bits k 95 64), s0 := BitVec.ofNat 64 (s.logicalOf p x.1)
          s1 := BitVec.ofNat 64 (bits k 191 128), s2 := BitVec.ofNat 64 (bits e 15 0), layer := bits e 15 0, readyAt := s.order }) s1
    let s3 := if s.recording p || s.replaying p then s2.modRec fun x => { x with kernels := x.kernels + 1 } else s2
    s3.takeAhead p

/-- The kernel may start now: its tick has come and nothing holds it (R296, R441). In a span a pause of service that begins once the
tick is named holds it no longer: the cores have the release (R370; DESIGN CHOICE, notes/assumptions/19.md). -/
def State.kernelDue (s : State) (p : Nat) : Bool := s.kernelStands p && (s.starts || (s.pav p).isSpan) && due (s.pav p).kernel.tick s.now

/-- KERNEL_COMPLETE_CORE: the last strand of a core has exited; the kernel ends there and the core's shadow buffers go
(R75, R98). -/
def execKernelCompleteCore (core : Nat) (s : State) : Host.Outcome State Fault Refusal :=
  if core ≥ numCores then noUnit
  else if !(s.core core).running || s.strands.any (fun x => x.1 / 2048 == core && x.2.mode != .free) then ok s
  else ok (s.modCore core fun c => { c with running := false, shadows := [] })

/-- The run after the kernel it stood at: the next kernel, layer or iteration, or none (R294, R295). -/
def Run.next (r : Run) : Option Run :=
  if r.kernel + 1 < bits r.entry 35 28 then some { r with kernel := r.kernel + 1, started := false }
  else if r.layer + 1 < r.layers.length then some { r with kernel := 0, layer := r.layer + 1, started := false }
  else if r.iter + 1 < r.repeats then some { r with kernel := 0, layer := 0, iter := r.iter + 1, started := false }
  else none

/-- KERNEL_COMPLETE_PAVILION: the kernel has completed on every own core; the run goes on to its next kernel, whose layer's
fills start if it is a new layer, or completes (R75, R163, R294, R295, R299). -/
def execKernelCompletePavilion (pav : Nat) (s : State) : Host.Outcome State Fault Refusal :=
  if pav ≥ numPavs then noUnit
  else
    let v := s.pav pav
    match v.runs.head? with
    | none => ok s
    | some r =>
      if !r.started || !s.rootDone pav v.kernel.forwarded || (s.coresOf pav).any (fun x => (s.core x.2).running) then ok s
      else
        match r.next with
        | some r' =>
          let s1 := (s.modRun pav fun _ => r').modPav pav fun v => { v with kernel := { members := v.kernel.members } }
          ok (if r'.kernel == 0 then s1.layerFills pav else s1)
        | none =>
          if v.isSpan && v.decides && !roundFull v.kernel.members v.spanLast then ok s
          else
            let s1 := s.modPav pav fun v => { v with runs := v.runs.drop 1, kernel := { members := v.roundLeft } }
            let s2 := s1.runEnds pav { r with iter := r.iter + 1 } 0
            ok (if v.isSpan && !v.decides then
              s2.syncRank0 pav (.arrival v.spanId v.spanRank .kernelStart (s.coreCount pav) 0 v.span.kernels v.winding) else s2)

/-! ## The watchdog (R500, R501) -/

/-- The watchdog of a pavilion advances (R211, R456, R500, R595). -/
def State.watching (s : State) (p : Nat) : Bool :=
  let v := s.pav p
  (v.runs.any fun r => r.begun && !r.suspended) && !v.freeze.frozen && v.faults.isEmpty && s.starts && v.resetting.isNone

/-- WATCHDOG_EXPIRE: a watchdog that has reached its period kills the pavilion with cause HANG (R501). -/
def execWatchdogExpire (pav : Nat) (s : State) : Host.Outcome State Fault Refusal :=
  if pav ≥ numPavs then noUnit
  else
    let v := s.pav pav
    if !s.watching pav || v.watchdog < v.wdogTicks then ok s
    else ok ((s.modPav pav fun v => { v with watchdog := 0 }).startReset pav 0x02 0 [])

end Sys2Proof.Machine
end

