-- ==== Sys2Proof/Machine/Regulate.lean ====
section
/-! DEFINITION. Regulation of bed accesses (R380 to R398): shares and pressure, arbitration in an access slot, windows and
misses, scales and shortfalls, and the urgency of streams. -/

namespace Sys2Proof.Machine

/-! ## The regulation table in force (R381, R382) -/

/-- A range entry of a regulation table: valid, first and last page. -/
def rgRange (t r : Nat) : Bool × Nat × Nat :=
  let lo := 512 + 96 * r
  (bitAt t (lo + 39), bits t (lo + 38) lo, bits t (lo + 86) (lo + 48))

namespace Pav
def rgTarget (v : Pav) (k : Nat) : Nat := bits v.reg.table.toNat (0x100 + 64 * k + 15) (0x100 + 64 * k)
def rgMinBw (v : Pav) (k : Nat) : Nat := bits v.reg.table.toNat (0x100 + 64 * k + 31) (0x100 + 64 * k + 16)
def rgWeight (v : Pav) (k : Nat) : Nat := bits v.reg.table.toNat (0x100 + 64 * k + 35) (0x100 + 64 * k + 32)
/-- The meter of a class on a channel (R386). -/
def meter (v : Pav) (k q : Nat) : Meter := Tab.getD v.reg.meters (k * 512 + q) {}
/-- Channels of the set (C in R387). -/
def chans (v : Pav) : Nat := popcount 384 v.chMask
/-- Served bytes are below share × 1 µs, the share scaled by `scale` / 1,024 (R387). -/
def within (v : Pav) (k served scale : Nat) : Bool := decide (served * v.chans * 1024 < v.rgMinBw k * 100 * scale)
/-- Pressure of a class with a target, from its latency L, a fraction of 10 ns (R387); compatibility mode ignores the target (R382). -/
def pressure (v : Pav) (k : Nat) (l : Nat × Nat) : Nat :=
  if v.rgCompat || v.rgTarget k == 0 then 0 else min 7 (14 * l.1 / (l.2 * v.rgTarget k) - 7)
/-- The class of a DVA: that of the valid range it lies in, else DEFAULT_CLASS (R382, R383). -/
def classOf (v : Pav) (dva : Nat) : Nat :=
  let t := v.reg.table.toNat
  let page := dva / 65536 % 2 ^ 39
  match (List.range 16).find? fun r => let x := rgRange t r; x.1 && decide (x.2.1 ≤ page) && decide (page ≤ x.2.2) with
  | some r => bits t (512 + 96 * r + 41) (512 + 96 * r + 40)
  | none => bits t 17 16
/-- Change a meter. -/
def putMeter (v : Pav) (k q : Nat) (f : Meter → Meter) : Pav :=
  { v with reg := { v.reg with meters := Tab.mod v.reg.meters (k * 512 + q) {} f } }
end Pav

/-- A stream of a pavilion. -/
def State.stream (s : State) (p i : Nat) : Stream := Tab.getD s.streams (p * 64 + i) {}
def State.setStream (s : State) (p i : Nat) (x : Stream) : State := { s with streams := Tab.put (p * 64 + i) x s.streams }

/-! ## Arbitration (R388, R389, R391) -/

/-- Bytes of the stream reserve in a window: 5 % of the nominal derated bandwidth (R391, R392). -/
def streamReserve : Nat := 818

/-- The pavilion and class that an access is charged to: its own, by the DVA that it serves, or for a window access the owner's, by
the owner DVA DVA_BASE + offset (R385). -/
def State.charged (s : State) : McKind → Option (Nat × Nat)
  | .tenant p dva | .spec p dva => some (p, (s.pav p).classOf dva)
  | .window w off => let e := (s.window w).1; some (Win.owner e, (s.pav (Win.owner e)).classOf (Win.base e + off))
  | _ => none

/-- L of a class, a fraction of 10 ns: the mean of the last window, or the age of its oldest waiting access (R386). -/
def State.latencyNow (s : State) (p k q : Nat) (ws : List McAccess) : Nat × Nat :=
  let m := (s.pav p).meter k q
  let age := ws.foldl (fun l a => match a.kind with
    | .spec _ _ => l
    | _ => if s.charged a.kind == some (p, k) then max l a.age else l) 0
  if m.lastSum ≤ age * m.lastCount then (age, 1) else (m.lastSum, m.lastCount)

/-- Priority E of a waiting access (R388, R389); 16 for the slot that background traffic is due. -/
def State.priority (s : State) (q : Nat) (ws : List McAccess) (a : McAccess) : Nat :=
  let c := s.channel q
  match a.kind with
  | .tenant _ _ | .window _ _ =>
    let (p, k) := (s.charged a.kind).getD (0, 0)
    let v := s.pav p
    if !v.within k (v.meter k q).served c.scale then 4
    else if v.rgCompat then 12
    else if v.rgTarget k == 0 then 4
    else 4 + v.pressure k (s.latencyNow p k q ws)
  | .spec _ _ => 3
  | .stream p i => match (s.stream p i).urgency with
    | 3 => if c.reserve + 64 ≤ streamReserve then 15 else 13
    | 2 => 13
    | 1 => 9
    | _ => 5
  | .sys => 4
  | .background => if c.backSlots ≥ 63 then 16 else 1
  | .scrub => 0
  | .copy => 14

/-- Data lines of a channel. -/
def linesPerChannel : Nat := granulesPerChannel * 1024 * 16

/-- A spare copy is served in one slot of every four, and only while it has lines to copy (R178, R388). -/
def State.mayServe (s : State) (q : Nat) (a : McAccess) : Bool :=
  if a.kind == .copy then (s.channel q).copyPoint.any (fun n => decide (n < linesPerChannel)) && decide ((s.channel q).copySlots ≥ 3) else true

/-- Key and weight of the class whose turn an access at E = 4 takes (R389). -/
def State.turn (s : State) (a : McAccess) : Nat × Nat :=
  match s.charged a.kind with
  | some (p, k) => (p * 4 + k, (s.pav p).rgWeight k)
  | none => (2048, 1)

/-- The oldest of a list of accesses, the first on a tie: its place in the whole list and the access. -/
def oldest (l : List (Nat × McAccess)) : Option (Nat × McAccess) :=
  l.foldl (fun (b : Option (Nat × McAccess)) x => match b with
    | none => some x
    | some y => if x.2.age > y.2.age then some x else b) none

/-- The class whose turn it is among accesses at E = 4, by deficit round robin, and the deficits after it is served (R389). -/
def State.roundRobin (s : State) (q : Nat) (l : List (Nat × McAccess)) : Nat × Tab Nat :=
  let ts := l.map fun x => s.turn x.2
  let d0 := (s.channel q).deficit
  let most := ts.foldl (fun m t => max m (Tab.getD d0 t.1 0)) 0
  let d1 := if most < 64 then (ts.foldl (fun (a : Tab Nat × List Nat) t =>
      if a.2.contains t.1 then a else (Tab.put t.1 (Tab.getD a.1 t.1 0 + 64 * max 1 t.2) a.1, t.1 :: a.2)) (d0, [])).1 else d0
  let best := ts.foldl (fun (b : Nat × Nat) t => let x := Tab.getD d1 t.1 0; if x > b.2 || (x == b.2 && t.1 < b.1) then (t.1, x) else b) (2049, 0)
  (best.1, Tab.put best.1 (best.2 - 64) d1)

/-- The access that the slot serves: its place in the list and the deficits after it. -/
def State.choose (s : State) (q : Nat) (ws : List McAccess) : Option (Nat × McAccess × Tab Nat) :=
  let l := (ws.zipIdx.map fun x => (x.2, x.1)).filter fun x => s.mayServe q x.2
  let e := l.foldl (fun m x => max m (s.priority q ws x.2)) 0
  let top := l.filter fun x => s.priority q ws x.2 == e
  if e == 4 then
    let r := s.roundRobin q top
    (oldest (top.filter fun x => (s.turn x.2).1 == r.1)).map fun x => (x.1, x.2, r.2)
  else (oldest top).map fun x => (x.1, x.2, (s.channel q).deficit)

/-! ## Scales and shortfalls (R394, R396) -/

/-- The nominal derated bandwidth, exactly: MB/s as a fraction (R392). -/
def dbNum : Nat := 19200 * 16 * 92 * 63
def dbDen : Nat := 17 * 100 * 64

/-- The factor F of a channel's capacity, as a fraction (R394, R549). -/
def State.factor (s : State) (q : Nat) : Nat × Nat :=
  let c := s.channel q
  if c.retired then (0, 1)
  else
    let hot := if c.refresh == 4 then (84, 92) else (1, 1)
    let copy := if c.copyPoint.isSome then (3, 4) else (1, 1)
    let cap := if s.power.emergency then (3, 4) else (1, 1)
    (hot.1 * copy.1 * cap.1, hot.2 * copy.2 * cap.2)

/-- G of a channel: the nominal shares of every class on it, in MB/s as a fraction (R393, R394). -/
def State.shares (s : State) (q : Nat) : Nat × Nat :=
  (s.pavs.filter fun x => x.2.bound && bitAt x.2.chMask q).foldl (fun g x =>
    let n := (x.2.rgMinBw 0 + x.2.rgMinBw 1 + x.2.rgMinBw 2 + x.2.rgMinBw 3) * 100
    (g.1 * x.2.chans + n * g.2, g.2 * x.2.chans)) (0, 1)

/-- The scale that a channel's capacity gives, in 1/1,024 (R394). -/
def State.scaleFor (s : State) (q : Nat) : Nat :=
  let f := s.factor q
  let g := s.shares q
  if g.1 == 0 then 1024
  else
    -- (DB × F − DB / 20) / G, with DB × F over the common denominator dbDen × F₂ × 20
    let num := dbNum * (20 * f.1 - f.2) * g.2
    let den := dbDen * f.2 * 20 * g.1
    min 1024 (1024 * num / den)

/-- The lowest scale over a pavilion's channels. -/
def State.lowestScale (s : State) (p : Nat) : Nat := (s.pav p).channels.foldl (fun m q => min m (s.channel q).scale) 1024

/-- A function may be sent another event of a kind limited to one in 1 ms. -/
def spaced (last : Option Word64) (now : Word64) : Bool := match last with | some t => decide ((now - t).toNat ≥ 100000) | none => true

/-- A pavilion's lowest scale is looked at: a change of it raises RG_SHORTFALL once the function's 1 ms has passed, and the last change
within the 1 ms, though it lead back, is raised at its end (R396). -/
def State.shortfall (s : State) (p : Nat) : State :=
  let v := s.pav p
  let m := s.lowestScale p
  let due := v.reg.shortDue || m != v.reg.scale
  let s1 := s.modPav p fun v => { v with reg := { v.reg with scale := m, shortDue := due } }
  let f := s.fn v.hostFn
  if !v.bound || !due || !spaced f.lastShort s.now then s1
  else
    let s2 := s1.setFn v.hostFn { f with lastShort := some s.now }
    (s2.modPav p fun v => { v with reg := { v.reg with shortDue := false } }).raisePav p 0x0011 (detailWords [m, b2n (decide (m < 1024))])

/-- Pavilions with a share on a channel: those whose CH_MASK names it (R393). -/
def State.sharersOn (s : State) (q : Nat) : List Nat := (s.pavs.filter fun x => x.2.bound && bitAt x.2.chMask q).map Prod.fst

/-- Pavilions whose own set names a channel. -/
def State.pavsOn (s : State) (q : Nat) : List Nat := (s.pavs.filter fun x => x.2.bound && x.2.chOwn != 0 && bitAt x.2.chMask q).map Prod.fst

/-- Put a scale in force on a channel. -/
def State.putScale (s : State) (q n : Nat) : State :=
  (s.sharersOn q).foldl (fun s p => s.shortfall p) (s.setChannel q { s.channel q with scale := n })

/-- Capacity of a channel has stayed restored for 1 ms (R394). -/
def State.restored (s : State) (q : Nat) : Bool :=
  let since := fun (t : Word64) => decide ((s.now - t).toNat ≥ 100000)
  since (s.channel q).capAt && since s.power.emergAt

/-- A flip recomputes the scales of the channels that affected pavilions have shares on, with the new G, and the pavilions on them see
the change at once (R393, R394, R397). The return to 1 of a channel whose capacity came back less than 1 ms ago waits for
REG_SCALE_RESTORE (DESIGN CHOICE, notes/assumptions/84.md). -/
def State.rescale (s : State) (qs : List Nat) : State :=
  let s1 := qs.foldl (fun s q =>
    let n := s.scaleFor q
    let f := s.factor q
    if n == 1024 && f.1 == f.2 && !s.restored q then s else s.setChannel q { s.channel q with scale := n }) s
  ((s1.pavs.filter fun x => x.2.bound && qs.any fun q => bitAt x.2.chMask q).map Prod.fst).foldl (fun s p => s.shortfall p) s1

/-- REG_SCALE_CHANGE: within 20 µs of a change of capacity the channel's shares are rescaled; the return to 1 is
REG_SCALE_RESTORE's (R394). -/
def execRegScaleChange (channel : Nat) (s : State) : Host.Outcome State Fault Refusal :=
  if channel ≥ numChannels then noUnit
  else
    let n := s.scaleFor channel
    ok (if n == (s.channel channel).scale || n == 1024 then s else s.putScale channel n)

/-- REG_SCALE_RESTORE: capacity that has stayed restored for 1 ms returns the scale to 1 (R394). -/
def execRegScaleRestore (channel : Nat) (s : State) : Host.Outcome State Fault Refusal :=
  if channel ≥ numChannels then noUnit
  else
    ok (if (s.channel channel).scale != 1024 && s.scaleFor channel == 1024 && s.restored channel then s.putScale channel 1024 else s)

/-! ## Windows (R386, R395) -/

/-- A class misses on a channel in the window that ends (R395). -/
def State.misses (s : State) (v : Pav) (k q age : Nat) (throughout : Bool) : Bool :=
  let m := v.meter k q
  let scale := (s.channel q).scale
  let t := v.rgTarget k
  if v.rgCompat then throughout && v.within k (m.served + 128) scale
  else t != 0 && v.within k m.served scale && (decide (m.latSum > t * m.latCount) || decide (age > t))

/-- One class's window on a channel ends: the meter restarts, and a miss is counted. -/
def State.endWindow (s : State) (p k q age : Nat) (throughout judged : Bool) : State :=
  let v := s.pav p
  let miss := judged && s.misses v k q age throughout
  s.modPav p fun v =>
    let v1 := v.putMeter k q fun m =>
      let l := if m.latSum ≤ age * m.latCount then (age, 1) else (m.latSum, m.latCount)
      { served := 0, lastServed := m.served, latSum := 0, latCount := 0, lastSum := m.latSum, lastCount := m.latCount
        latency := l.1 / l.2, press := v.pressure k l, misses := if miss then min 65535 (m.misses + 1) else m.misses }
    if miss then { v1 with reg := { v1.reg with missClasses := v1.reg.missClasses ||| BitVec.ofNat 4 (2 ^ k) } } else v1

/-- The flip that last affected the pavilion lies in the window that ends, one of its 100 ticks before now (R386, R395). -/
def State.flippedIn (s : State) (v : Pav) : Bool :=
  let d := (s.now - s.regs.flipTime).toNat
  v.epochBound == s.regs.epoch && s.regs.pvFlipped && decide (1 ≤ d) && decide (d ≤ 100)

/-- REG_WINDOW_END: at a TIME multiple of 100 the 1 µs window ends on every channel; misses are judged, RG_MISS is raised
on a class's first, and misses and shortfalls that waited for their 1 ms are raised (R386, R395, R396; log 84). `waiting` says what waits at the window's
end, `stalled` which channels a stall or seam pause of the window touched. -/
def execRegWindowEnd (waiting : List McWait) (stalled : List Nat) (s : State) : Host.Outcome State Fault Refusal :=
  if s.now.toNat % 100 != 0 then ok s
  else
    let one := fun (s : State) (p : Nat) =>
      let v := s.pav p
      let ws := waiting.filter fun w => w.pav == p && w.cls < 4 && bitAt v.chMask w.channel
      let keys := ws.foldl (fun l w => insertUniq (w.cls * 512 + w.channel) l) (v.reg.meters.map Prod.fst)
      let s1 := keys.foldl (fun s key =>
        let w := ws.find? fun w => w.cls * 512 + w.channel == key
        s.endWindow p (key / 512) (key % 512) ((w.map McWait.age).getD 0) ((w.map McWait.throughout).getD false)
          (!stalled.contains (key % 512) && !s.flippedIn v)) s
      let new := v.reg.missDue ||| ((s1.pav p).reg.missClasses &&& ~~~v.reg.missClasses)
      let f := s1.fn v.hostFn
      let go := spaced f.lastMiss s.now
      let s2 := s1.modPav p fun v => { v with reg := { v.reg with missDue := if go then 0 else new } }
      let s2 := if new != 0 && go then (s2.setFn v.hostFn { f with lastMiss := some s.now }).raisePav p 0x0010 new.toNat else s2
      if (s2.pav p).reg.shortDue then s2.shortfall p else s2
    let s1 := ((s.pavs.filter fun x => x.2.bound).map Prod.fst).foldl one s
    ok (s1.modBeds fun b => { b with channels := Tab.mapVals (fun _ c => { c with reserve := 0 }) b.channels })

/-! ## Streams and the registers -/

/-- Bytes of a frame: its header and payload (R432). -/
def Stream.frameBytes (x : Stream) : Nat := 64 + x.lines * 64

/-- An engine's margin in bytes of its four-frame buffer (R435): IN, the free part; OUT, the part of the four frames ahead of its next
tick that it holds ready. `moved` bytes of the frame in progress have left, or reached, the buffer. -/
def Stream.margin (x : Stream) (moved : Nat) : Nat :=
  let part := min moved x.frameBytes
  let held := (x.buffer.filter fun f => f.2.isSome).length
  let ready := ((List.range 4).filter fun i => x.buffer.any fun f => f.1 == x.next + i && f.2.isSome).length
  if x.dir then min (4 * x.frameBytes) (ready * x.frameBytes + part)
  else if held == 0 then 4 * x.frameBytes else (4 - held) * x.frameBytes + part

/-- Urgency of a margin `m` of a buffer of `n` (R390). -/
def urgencyOf (m n : Nat) : Nat := if 2 * m ≥ n then 0 else if 4 * m ≥ n then 1 else if 8 * m ≥ n then 2 else 3

/-- STREAM_URGENCY_CHANGE: a stream engine's buffer margin gives its urgency (R390, R435). Which fraction `num / den` of the frame in
progress has moved comes with the command (DESIGN CHOICE, notes/assumptions/80.md). -/
def execStreamUrgencyChange (pav stream num den : Nat) (s : State) : Host.Outcome State Fault Refusal :=
  if pav ≥ numPavs || stream ≥ 64 then noUnit
  else
    let x := s.stream pav stream
    ok (s.setStream pav stream { x with urgency := urgencyOf (x.margin (x.frameBytes * num / den)) (4 * x.frameBytes) })

/-- RG_PAV_STAT of a pavilion (R398). -/
def State.rgPavStat (s : State) (p : Nat) : Nat :=
  let v := s.pav p
  let m := s.lowestScale p
  let short := if m < 1024 then (List.range 4).foldl (fun n k => n + (if v.rgMinBw k != 0 then 2 ^ k else 0)) 0 else 0
  m + (b2n (decide (m < 1024))) <<< 11 + v.reg.missClasses.toNat <<< 16 + short <<< 20

/-- The pavilion that a function's regulation registers describe: RG_SEL.PAV for PF0, its own for a VF (R398). -/
def State.rgPav (s : State) (fn : Nat) : Option Nat :=
  if fn == 0 then some ((s.fn 0).rgSel.toNat % 512) else s.pavOfFn fn

/-- RG_PAV_STAT_READ: the read restarts MISS_CLASSES (R398). A function without a
pavilion reads zero (R400). -/
def execRgPavStatRead (fn : Nat) (s : State) : Host.Outcome State Fault Refusal :=
  if fn ≥ numFns then noUnit
  else if !s.exposed then ok (s.answered 0)
  else if !s.hasFn fn then ok s
  else
    match s.rgPav fn with
    | none => ok (s.answered 0)
    | some p => ok ((s.modPav p fun v => { v with reg := { v.reg with missClasses := 0 } }).answered (s.rgPavStat p))

end Sys2Proof.Machine
end

