-- ==== Sys2Proof/Machine/Code.lean ====
section
/-! DEFINITION. The erasure code of protected sessions (R335), in GF(2^8) with the field polynomial of R168. -/

namespace Sys2Proof.Machine

/-- Row of fragment `j` of a K + M code: what multiple of each data fragment it sums (R335). -/
def codeRow (k m j : Nat) : List Nat :=
  (List.range k).map fun i => if j < k then (if i == j then 1 else 0) else gfInv ((j - k) ^^^ (m + i))

/-- Dot product. -/
def gfDot (a b : List Nat) : Nat := (a.zip b).foldl (fun n x => n ^^^ gfMul x.1 x.2) 0

/-- Bytes of data fragment `j` of a page: page byte K × b + j, zero beyond the page's end (R335). -/
def dataFragment (k j : Nat) (page : List Byte) : List Byte :=
  (List.range 262144).map fun b => if k * b + j < 262144 then nthD page (k * b + j) 0 else 0

/-- Bytes of fragment `j` of a page (R335). -/
def codeFragment (k m j : Nat) (page : List Byte) : List Byte :=
  if j < k then dataFragment k j page
  else
    let row := codeRow k m j
    (List.range 262144).map fun b => BitVec.ofNat 8 (gfDot row ((List.range k).map fun i => if k * b + i < 262144 then (nthD page (k * b + i) 0).toNat else 0))

/-- Clear column `c` of a row by a row whose entry there is 1. -/
def gfClear (c : Nat) (pivot row : List Nat) : List Nat :=
  let f := nthD row c 0
  (row.zip pivot).map fun x => x.1 ^^^ gfMul f x.2

/-- Gauss elimination on the rows of an invertible matrix with what is joined to them, from column `c` for `n` columns. -/
def gfSolve : Nat → Nat → List (List Nat) → List (List Nat)
  | 0, _, rows => rows
  | n + 1, c, rows =>
    let head := rows.take c
    let tail := rows.drop c
    match tail.find? fun r => nthD r c 0 != 0 with
    | none => rows
    | some p =>
      let inv := gfInv (nthD p c 0)
      let pivot := p.map (gfMul inv)
      let rest := tail.erase p
      gfSolve n (c + 1) (head.map (gfClear c pivot) ++ pivot :: rest.map (gfClear c pivot))

/-- A page from K of its fragments: (fragment, bytes) (R335). -/
def rebuildPage (k m : Nat) (frags : List (Nat × List Byte)) : List Byte :=
  let rows := frags.zipIdx.map fun x => codeRow k m x.1.1 ++ (List.range k).map fun i => if i == x.2 then 1 else 0
  let inv := (gfSolve k 0 rows).map fun r => r.drop k
  (List.range 262144).map fun a =>
    BitVec.ofNat 8 (gfDot (nthD inv (a % k) []) (frags.map fun f => (nthD f.2 (a / k) 0).toNat))

end Sys2Proof.Machine
end

