-- ==== Sys2Proof/Machine/Session.lean ====
section
/-! DEFINITION. Sessions and their directory (R318 to R333, R337 to R341): records, the session commands, moves, commits,
leases, and the loss of a pool. What the rules leave open of them is settled in notes/assumptions/82.md. -/

namespace Sys2Proof.Machine

def State.modDir (s : State) (f : Dir → Dir) : State := { s with dir := f s.dir }

/-- Change a record in place: what is not part of its 64 bytes. -/
def State.modSession (s : State) (id : Nat) (f : Session → Session) : State :=
  s.modDir fun d => { d with records := match Tab.find id d.records with | some r => Tab.put id (f r) d.records | none => d.records }

/-! ## Records (R319, R320, R324) -/

/-- A place of SET whose pool is lost: its name reads as zero (R319, R337; DESIGN CHOICE, notes/assumptions/82.md). -/
def noPool : Nat := 65536

/-- TARGET names the target of a move in progress: MOVING or PREPARED (R319). -/
def Session.moving (r : Session) : Bool := r.st == 2 || r.st == 3

/-- The record of a session that is LOST (R319, R337). -/
def Session.lost (r : Session) : Session := { r with st := 5, target := 0, hasTarget := false, source := none, newProt := none }

/-- The record as a move that ended leaves it: ACTIVE, with its owner and epoch (R330, R338). -/
def Session.unmoved (r : Session) : Session := { r with st := 1, target := 0, hasTarget := false, newProt := none }

/-- The 512 bits of a record (R319). -/
def Session.pack (r : Session) (id : Nat) : BitVec 512 :=
  let names := (List.range 12).foldl (fun n j => n + (nthD r.set j 0 % 65536) <<< (224 + 16 * j)) 0
  BitVec.ofNat 512 (id % 2 ^ 48 + (r.owner % 65536) <<< 48 + (r.epoch % 2 ^ 32) <<< 64 + ((if r.moving then r.target else 0) % 65536) <<< 96 + (r.st % 8) <<< 112
    + b2n r.single <<< 115 + (r.prot % 4) <<< 128 + (r.k % 16) <<< 132 + (r.m % 16) <<< 136 + (r.root % 2 ^ 32) <<< 144
    + (r.userPkg % 4096) <<< 192 + (r.userPav % 512) <<< 204 + names + (r.pages % 2 ^ 32) <<< 416 + (r.pstep.toNat % 2 ^ 32) <<< 448)

/-- The record in 512 bits, and its session (R319). -/
def unpackSession (w : Nat) : Nat × Session :=
  let k := bits w 135 132
  let m := bits w 139 136
  let n := match bits w 129 128 with | 1 => 1 | 2 => k + m | _ => 0
  (bits w 47 0,
   { owner := bits w 63 48, epoch := bits w 95 64, target := bits w 111 96, st := bits w 114 112, single := bitAt w 115, prot := bits w 129 128
     k := k, m := m, root := bits w 175 144, userPkg := bits w 203 192, userPav := bits w 212 204
     set := (List.range n).map fun j => let x := bits w (224 + 16 * j + 15) (224 + 16 * j); if x == 0 && n > 1 then noPool else x, pages := bits w 447 416
     pstep := BitVec.ofNat 64 (bits w 479 448), hasTarget := bits w 114 112 == 2 || bits w 114 112 == 3 })

namespace Dir
/-- PV_DIR_CTL's fields (R340). -/
def sole (d : Dir) : Bool := d.ctl.getLsbD 15
def adopt (d : Dir) : Bool := d.ctl.getLsbD 14
def enabled (d : Dir) : Bool := d.ctl.getLsbD 13
def partner (d : Dir) : Nat := d.ctl.toNat % 4096
end Dir

/-- The directory partner can be reached; a package that is not SYNC counts as unreachable (R361). -/
def State.partnerUp (s : State) : Bool := s.dir.enabled && (s.reach s.dir.partner).isSome

/-- This package keeps and changes the session's record: its own, or, with ADOPT, its partner's (R324). -/
def State.directs (s : State) (id : Nat) : Bool :=
  directoryOf id == s.ownPkg || (s.dir.adopt && directoryOf id == s.dir.partner)

/-- The record of a session that is not FREE. -/
def State.session (s : State) (id : Nat) : Option Session :=
  match Tab.find id s.dir.records with
  | some r => if r.st == 0 then none else some r
  | none => none

/-- Record changes are refused (R320, R324, R341). -/
def State.fenced (s : State) : Bool := !s.dir.ready || !(s.partnerUp || s.dir.sole)

/-- The sessions that this package directs, and those that it is creating (R318). -/
def State.directed (s : State) : Nat :=
  (s.dir.records.filter fun x => s.directs x.1).length + (s.dir.jobs.filter fun j => j.why == .create).length
    + (s.dir.changes.filter fun c => c.why == .create).length

/-- A change as it takes effect on the record that stands: PSTEP, the user and ROOT change on their own. -/
def Pending.onto (c : Pending) (old : Option Session) : Option Session :=
  match c.new, old with
  | some r, some o =>
    match c.why with
    | .pstep => some { o with pstep := r.pstep }
    | .user => some { o with userPkg := r.userPkg, userPav := r.userPav }
    | .root => some { o with root := r.root }
    | _ => some { r with pstep := o.pstep, userPkg := o.userPkg, userPav := o.userPav, root := if r.owner == o.owner then o.root else r.root }
  | x, _ => x

/-- The record of a session as all changes that wait will leave it, those of PSTEP, user and ROOT too. -/
def State.coming (s : State) (id : Nat) : Option Session :=
  (s.dir.changes.filter fun c => c.id == id).foldl (fun r c => c.onto r) (s.session id)

/-- A changed record goes to the partner's copy (R320). -/
def State.sendRecord (s : State) (id : Nat) (new : Option Session) : State :=
  let w := match new with | some r => (({ r with single := false } : Session).pack id).toNat | none => id
  s.sendPool s.dir.partner { op := .record, session := id } (leBytes 64 w)

/-- A record change goes to both copies (R320): to the partner's when it can be reached. -/
def State.change (s : State) (id : Nat) (why : Change) (new : Option Session) (asker : Option Nat) : State :=
  let c : Pending := { id := id, why := why, new := new, asker := asker, sent := s.partnerUp }
  let s1 := s.modDir fun d => { d with changes := d.changes ++ [c] }
  if s.partnerUp then s1.sendRecord id (c.onto (s.coming id)) else s1

/-- The oldest change of a session goes to the partner, which can be reached again (R320). -/
def State.sendChange (s : State) (id : Nat) : State :=
  match s.dir.changes.find? fun c => c.id == id with
  | none => s
  | some c =>
    let i := s.dir.changes.findIdx fun x => x.id == id
    (s.modDir fun d => { d with changes := d.changes.set i { c with sent := true } }).sendRecord id (c.onto (s.session id))

/-! ## Pools by name (R310) -/

/-- The name of a pool of this package. -/
def State.poolName (s : State) (i : Nat) : Nat := s.ownPkg * 16 + i
/-- The pool lies on this package. -/
def State.localPool (s : State) (name : Nat) : Bool := name / 16 == s.ownPkg
/-- The pool can be reached. -/
def State.poolReachable (s : State) (name : Nat) : Bool :=
  if s.localPool name then (s.pool (name % 16)).defined else (s.reach (name / 16)).isSome

/-- A message for a pool's package: nothing is sent for a pool of this package, whose command follows from the record. -/
def State.tellPool (s : State) (m : PoolMsg) (bytes : List Byte) : State :=
  if s.localPool m.pool then s else s.sendPool (m.pool / 16) m bytes

/-- A session's pages in a pool are zeroed and freed (R317). -/
def State.releasePool (s : State) (name id : Nat) : State :=
  if s.localPool name then s.freePages (name % 16) id else s.sendPool (name / 16) { op := .free, pool := name, session := id } []

/-- Who may use a pool (R326): a session's user. -/
structure Poster where
  pkg : Nat
  fn : Nat
  pav : Option Nat
  span : Nat
  /-- its own pavilion and those of its span's other members, as far as they have told them: package + 4,096 × pavilion -/
  users : List Nat := []
  tenant : Nat
  /-- the Mirror complication of its package is granted to it -/
  mirror : Bool
  /-- tenant and MIRROR grant of the session's user on another package, as its package has told them (R326, R334) -/
  known : Option (Nat × Bool) := none
  deriving DecidableEq, Repr

/-- The pool refuses the user: it is not defined, not in the POOL_MASK, or its window turns the user away (R326). A pool of another
package answers for itself. -/
def State.poolRefuses (s : State) (u : Poster) (name : Nat) : Bool :=
  if !s.localPool name then false
  else
    let x := s.pool (name % 16)
    let e := (s.window x.window).1
    let h := s.pav (Win.owner e)
    !x.defined || (u.pkg == s.ownPkg && !(u.pav.map fun p => bitAt (s.pav p).poolMask (name % 16)).getD false)
      || !Win.enabled e || !Win.rd e || !Win.wr e || !h.bound || h.away || (!Win.anyPkg e && Win.srcPkg e != u.pkg) || Win.tenant e != u.tenant

/-- The window entries of some pools of this package are in force: read at this use where none was since an INVALIDATE named them
(R217). -/
def State.useWindows (s : State) (names : List Nat) : State :=
  names.foldl (fun s n => if s.localPool n then (s.window (s.pool (n % 16)).window).2 else s) s

/-! ## Completion of session commands (R325, R326) -/

/-- A session command completes, here or, for one that another package forwarded, there. -/
def State.sessionDone (s : State) (k status : Nat) (rsp : List Nat) : State :=
  if k < 2 ^ 32 then s.complete k status rsp
  else
    match Tab.find (k - 2 ^ 32) s.dir.asks with
    | none => s
    | some m =>
      (s.modDir fun d => { d with asks := Tab.drop (k - 2 ^ 32) d.asks }).sendOut
        { stream := m.stream, seq := m.seq, sys := true, dstPkg := m.srcPkg, dstLoc := BitVec.ofNat 16 m.stream.toNat, srcPkg := BitVec.ofNat 12 s.ownPkg, kind := 2
          pool := some { op := .command, words := status :: rsp } }

/-- The words of a session id. -/
def idWords (id : Nat) : List Nat := lohi id

/-- Bytes that this package's units moved for a session, by their class: they count to its user pavilion where that is bound here, and
to no pavilion elsewhere (R446, R447). -/
def State.countMoved (s : State) (id cls n : Nat) : State :=
  match s.session id with
  | some r => if r.userPkg == s.ownPkg && (s.pav r.userPav).bound then s.count r.userPav cls n else s
  | none => s

/-- An event goes to the user's function (R331, R337). -/
def State.tellUser (s : State) (r : Session) (code : Nat) (ws : List Nat) : State :=
  if r.userPkg == s.ownPkg then s.raisePav r.userPav code (detailWords ws)
  else s.sendPool r.userPkg { op := .event, other := code, pages := r.userPav, words := ws } []

/-! ## Taking pages in several pools -/

/-- Pages of a session in a pool of this package are taken; the root, or none where it is full. -/
def State.takeHere (s : State) (m : PoolMsg) : Option (Nat × State) :=
  let i := m.pool % 16
  match m.op with
  | .take => s.takePages i m.session m.pages m.epoch
  | .extend => s.extendPages i m.session m.pages
  | .takeProt => (s.takeProt i m.session m.pages m.other).map fun t => (0, t)
  | _ => none

/-- Ask each pool for pages: the state, the lowest failing status (0 for none), the answers to come, and the root that the
first pool gave. -/
def State.askPools (s : State) : List PoolMsg → State × Nat × Nat × Nat
  | [] => (s, 0, 0, 0)
  | m :: rest =>
    if s.localPool m.pool then
      match s.takeHere m with
      | none => (s, 4, 0, 0)
      | some (root, s1) => let q := State.askPools s1 rest; (q.1, q.2.1, q.2.2.1, root)
    else
      let s1 := s.sendPool (m.pool / 16) m []
      let q := State.askPools s1 rest
      (q.1, q.2.1, q.2.2.1 + 1, 0)

/-- Put the root that a pool gave where the change keeps it. -/
def Job.rooted (j : Job) (root : Nat) : Job :=
  match j.why with
  | .moving => { j with new := { j.new with targetRoot := root } }
  | .rebuilt => { j with new := { j.new with root := root } }
  | .create => { j with new := { j.new with root := root } }
  | _ => j

/-- What an extension appended to a session is given back: its pages, and those of its protection (R327). -/
def State.unextend (s : State) (id : Nat) (r : Session) : State :=
  let lists := ceilDiv r.pages listSpan
  let trim := fun (s : State) (n key k : Nat) =>
    if s.localPool n then s.trimPages (n % 16) key r.pages k
    else s.sendPool (n / 16) { op := .free, pool := n, session := key, pages := r.pages, other := k, flag := true } []
  r.set.foldl (fun s n => if n == noPool then s else trim s n (protKey id) (if r.prot == 1 then lists else 0)) (trim s r.owner id lists)

/-- The pools whose pages a move has taken: the target, and those of a new protection that the present one does not name (R329). -/
def Session.moveTakes (r : Session) : List Nat := ((r.newProt.map fun p => p.2.2.2).getD []).filter fun n => !r.set.contains n

/-- Every pool has answered: the change of the record begins, or what was taken is given back. The owner copies to the target of a
move that has its pages; a move whose target lacks them ends (R329, R330). -/
def State.endJob (s : State) (j : Job) : State :=
  let ok := j.status == 0
  match j.why with
  | .moving =>
    match s.session j.id with
    | none => s
    | some r =>
      if !(r.st == 2 && r.target == j.new.target) then s
      else if ok then
        (s.modSession j.id fun r => { r with targetRoot := j.new.targetRoot }).tellPool { op := .copy, pool := r.owner, session := j.id, other := r.target } []
      else ((s.sessionDone j.asker j.status []).modSession j.id fun r => { r with move := none }).change j.id .abort (some r.unmoved) none
  | .close => s.sessionDone j.asker 0 []
  | .grown => s.sessionDone j.asker j.status (if ok then idWords j.id ++ [j.new.root] else [])
  | .rebuilt =>
    -- the first pool in SET order that has the pages is sought (R337)
    if ok then s.change j.id j.why (some j.new) none
    else s.modSession j.id fun r => { r with noRoom := addNew j.new.owner r.noRoom }
  | .extend =>
    if ok then s.change j.id j.why (some j.new) (some j.asker)
    else match s.session j.id with
      | some r => (s.unextend j.id r).sessionDone j.asker j.status []
      | none => s.sessionDone j.asker j.status []
  | _ =>
    if ok then s.change j.id j.why (some j.new) (some j.asker)
    else (j.pools.foldl (fun s n => (s.releasePool n j.id).releasePool n (protKey j.id)) s).sessionDone j.asker j.status []

/-- Start a command's job. -/
def State.startJob (s : State) (j : Job) (ms : List PoolMsg) : State :=
  let q := s.askPools ms
  let j1 := { (j.rooted q.2.2.2) with left := q.2.2.1, status := q.2.1 }
  if j1.left == 0 || j1.status != 0 then q.1.endJob j1 else q.1.modDir fun d => { d with jobs := d.jobs ++ [j1] }

/-- A pool of another package answers a command that takes pages, or one whose pages are taken already: its status, and the root where it
took a session whole. -/
def State.jobAnswer (s : State) (id status root : Nat) (first grown : Bool) : State :=
  let mine := fun (j : Job) => j.id == id && j.why != .close && (j.why == .grown) == grown
  match s.dir.jobs.find? mine with
  | none => s
  | some j =>
    let j1 := { (if first then j.rooted root else j) with left := j.left - 1, status := if j.status == 0 then status else j.status }
    if j1.left == 0 then (s.modDir fun d => { d with jobs := d.jobs.filter fun x => !mine x }).endJob j1
    else s.modDir fun d => { d with jobs := d.jobs.map fun (x : Job) => if mine x then j1 else x }

/-! ## The session commands (R325 to R334) -/

/-- Pool names in request words from word `i`, two a word. -/
def setNames (w : Nat → Nat) (i n : Nat) : List Nat := (List.range n).map fun j => bits (w (i + j / 2)) (16 * (j % 2) + 15) (16 * (j % 2))

/-- The code a request asks for: K and M, 4 and 2 where it gives neither (R334). -/
def codeOf (x : Nat) : Nat × Nat := if bits x 11 4 == 0 then (4, 2) else (bits x 7 4, bits x 11 8)

/-- The protection that a request asks for (R334): PROT, K, M and the set, from word `i`. -/
def protOf (w : Nat → Nat) (x i : Nat) : Nat × Nat × Nat × List Nat :=
  match bits x 1 0 with
  | 1 => (1, 0, 0, setNames w i 1)
  | 2 => let c := codeOf x; (2, c.1, c.2, setNames w i (min 12 (c.1 + c.2)))
  | _ => (0, 0, 0, [])

/-- Protection is refused (R334). -/
def State.protRefused (s : State) (u : Poster) (owner target : Nat) (pr : Nat × Nat × Nat × List Nat) : Bool :=
  let set := pr.2.2.2
  pr.1 != 0 &&
    (!u.mirror
      || (pr.1 == 2 && !(decide (2 ≤ pr.2.1) && decide (pr.2.1 ≤ 8) && decide (1 ≤ pr.2.2.1) && decide (pr.2.2.1 ≤ 4) && decide (pr.2.1 + pr.2.2.1 ≤ 12)))
      || (set.foldl (fun (l : List Nat) x => addNew x l) []).length != set.length
      || set.any (fun n => n == owner || n == target || !s.poolReachable n || s.poolRefuses u n))

/-- Who is to use the pages: what a pool of another package checks (R326, R334). -/
def Poster.words (u : Poster) : List Nat := [u.pkg, u.pav.getD 512, u.tenant]

/-- Requests for the PROT pages of a set (R335). -/
def protMsgs (u : Poster) (id n lists : Nat) (pr : Nat × Nat × Nat × List Nat) : List PoolMsg :=
  (pr.2.2.2.filter fun p => p != noPool).map fun p => { op := .takeProt, pool := p, session := protKey id, pages := n, other := if pr.1 == 1 then lists else 0, words := u.words }

/-- The posting function may command the session (R325): the user's, another member's of the user's span, or PF0 of the
directory package. -/
def State.mayCommand (s : State) (u : Poster) (r : Session) : Bool :=
  (u.pkg == s.ownPkg && u.fn == 0) || (u.pav.isSome && u.users.contains (r.userPkg + 4096 * r.userPav))

/-- A session that a command names and may act on, or the status with which it completes. -/
def State.named (s : State) (u : Poster) (id : Nat) (closing : Bool) : Except Nat Session :=
  match s.session id with
  | none => .error 0x01
  | some r => if !s.mayCommand u r then .error 0x02 else if r.st == 5 && !closing then .error 0x0B else .ok r

/-- A change of the session's record, other than of its PSTEP, user or ROOT, waits. -/
def State.changing (s : State) (id : Nat) : Bool :=
  s.dir.changes.any fun c => c.id == id && c.why != .pstep && c.why != .user && c.why != .root && c.why != .prepared

/-- Such a change waits, or a command waits for pools to take pages. -/
def State.settling (s : State) (id : Nat) : Bool := s.dir.jobs.any (fun j => j.id == id) || s.changing id

/-- The poster is the session's user. -/
def Poster.isUser (u : Poster) (r : Session) : Bool := u.pkg == r.userPkg && u.pav == some r.userPav

/-- The session's user, for which `u` asks: what is known of it here, from itself, or from its package (R326, R334). -/
def State.userOf (s : State) (u : Poster) (r : Session) : Poster :=
  let told := if u.isUser r then (u.tenant, u.mirror) else ((if u.known.isSome then u.known else r.user).getD (0, false))
  let is := if r.userPkg == s.ownPkg then ((s.pav r.userPav).tenant, s.fuse.mirror && (s.pav r.userPav).mirror) else told
  { pkg := r.userPkg, fn := u.fn, pav := some r.userPav, span := u.span, users := u.users, tenant := is.1, mirror := is.2 }

/-- The user is a pavilion of another package that has not posted the command, and its package has not told of it. -/
def State.mustAsk (s : State) (u : Poster) (r : Session) : Bool := r.userPkg != s.ownPkg && !u.isUser r && u.known.isNone

/-- Ask a user's package for its tenant and MIRROR grant; the command waits for the answer (DESIGN CHOICE, notes/assumptions/25.md). -/
def State.askUser (s : State) (k id : Nat) (r : Session) : State :=
  if (s.routeTo r.userPkg).isNone then s.sessionDone k 0x05 []
  else s.sendPoolOf none k r.userPkg { op := .mirror, session := id, pages := r.userPav } []

/-- SESSION_CREATE at the directory package (R318, R327). -/
def State.createSession (s : State) (k : Nat) (u : Poster) (w : Nat → Nat) : State :=
  let pool := w 2 % 65536
  let n := w 3
  let pr := protOf w (w 4) 7
  let id := s.ownPkg * 2 ^ 36 + s.dir.nextSerial
  match u.pav with
  | none => s.sessionDone k 0x02 []
  | some p =>
    if s.fenced || !s.dir.enabled then s.sessionDone k 0x08 [] else
    let s := s.useWindows (pool :: pr.2.2.2)
    if s.poolRefuses u pool then s.sessionDone k 0x03 []
    else if !s.poolReachable pool then s.sessionDone k 0x05 []
    else if s.protRefused u pool pool pr then s.sessionDone k 0x0A []
    else if n > 4194304 || s.directed ≥ 1048576 then s.sessionDone k 0x0D []
    else
      let r : Session := { owner := pool, root := 0, userPkg := u.pkg, userPav := p, pages := n, prot := pr.1, k := pr.2.1, m := pr.2.2.1
                           set := pr.2.2.2 }
      let ms : List PoolMsg := { op := .take, pool := pool, session := id, pages := n, epoch := 1, words := u.words } :: protMsgs u id n (ceilDiv n listSpan) pr
      (s.modDir fun d => { d with nextSerial := d.nextSerial + 1 }).startJob ⟨id, .create, r, k, ms.map PoolMsg.pool, 0, 0⟩ ms

/-- SESSION_CREATE with EXTEND (R327). -/
def State.extendSession (s : State) (k : Nat) (u : Poster) (w : Nat → Nat) : State :=
  let id := w 5 + 2 ^ 32 * w 6
  let n := w 3
  match s.named u id false with
  | .error c => s.sessionDone k c []
  | .ok r =>
    let v := s.userOf u r
    if r.st != 1 || r.commitAt.isSome || s.settling id then s.sessionDone k 0x06 []
    else if s.fenced || !s.dir.enabled then s.sessionDone k 0x08 []
    else if s.mustAsk u r then s.askUser k id r else
    let s := s.useWindows [r.owner]
    if s.poolRefuses v r.owner then s.sessionDone k 0x03 []
    else if !s.poolReachable r.owner then s.sessionDone k 0x05 []
    else if r.pages + n > 4194304 then s.sessionDone k 0x0D []
    else
      let lists := ceilDiv (r.pages + n) listSpan - ceilDiv r.pages listSpan
      let ms : List PoolMsg := { op := .extend, pool := r.owner, session := id, pages := n, words := v.words } :: protMsgs v id n lists (r.prot, r.k, r.m, r.set)
      let full := ms.any fun m => s.localPool m.pool && ((s.pool (m.pool % 16)).free (n + lists)).isNone
      if full then s.sessionDone k 0x04 []
      else s.startJob ⟨id, .extend, { r with pages := r.pages + n }, k, [], 0, 0⟩ ms

/-- SESSION_MOVE: phase 1 begins (R329). -/
def State.moveSession (s : State) (k : Nat) (u : Poster) (w : Nat → Nat) : State :=
  let id := w 2 + 2 ^ 32 * w 3
  let target := w 4 % 65536
  match s.named u id false with
  | .error c => s.sessionDone k c []
  | .ok r =>
    let v := s.userOf u r
    let pr := if bitAt (w 5) 3 then protOf w (w 5) 6 else (r.prot, r.k, r.m, r.set)
    if r.st != 1 || r.commitAt.isSome || target == r.owner || s.settling id then s.sessionDone k 0x06 []
    else if s.fenced then s.sessionDone k 0x08 []
    else if s.mustAsk u r then s.askUser k id r else
    let s := s.useWindows (target :: pr.2.2.2)
    if s.poolRefuses v target then s.sessionDone k 0x03 []
    else if !s.poolReachable target || !s.poolReachable r.owner then s.sessionDone k 0x05 []
    else if s.protRefused v r.owner target pr then s.sessionDone k 0x0A []
    else
      let r1 := { r with st := 2, target := target, hasTarget := true, newProt := if bitAt (w 5) 3 then some pr else none, move := some k
                         user := u.known }
      let lists := ceilDiv r.pages listSpan
      let lacks := fun (n m : Nat) => s.localPool n && ((s.pool (n % 16)).free m).isNone
      if lacks target (lists + r.pages) || r1.moveTakes.any fun n => lacks n (r.pages + if pr.1 == 1 then lists else 0) then s.sessionDone k 0x04 []
      else s.change id .moving (some r1) (some k)

/-- The record has become MOVING: the target, and the pools of a new protection, take FREE pages (R329). -/
def State.takeTarget (s : State) (id k : Nat) (u : Poster) (r : Session) : State :=
  let lists := ceilDiv r.pages listSpan
  let pr := r.newProt.getD (0, 0, 0, [])
  let ms : List PoolMsg := { op := .take, pool := r.target, session := id, pages := r.pages, epoch := r.epoch, words := u.words }
    :: protMsgs u id r.pages lists (pr.1, pr.2.1, pr.2.2.1, r.moveTakes)
  s.startJob ⟨id, .moving, r, k, ms.map PoolMsg.pool, 0, 0⟩ ms

/-- SESSION_MOVE with ABORT (R330); a move that waits for its target's pages ends too, and what they answer counts no more. -/
def State.abortMove (s : State) (k : Nat) (u : Poster) (w : Nat → Nat) : State :=
  let id := w 2 + 2 ^ 32 * w 3
  match s.named u id false with
  | .error c => s.sessionDone k c []
  | .ok r =>
    if !(r.st == 2 || r.st == 3) || s.changing id then s.sessionDone k 0x06 []
    else if s.fenced then s.sessionDone k 0x08 []
    else (s.modDir fun d => { d with jobs := d.jobs.filter fun j => !(j.id == id && j.why == .moving) }).change id .abort (some r.unmoved) (some k)

/-- SESSION_COMMIT: phase 2 begins (R331). -/
def State.commitSession (s : State) (k : Nat) (u : Poster) (w : Nat → Nat) : State :=
  let id := w 2 + 2 ^ 32 * w 3
  match s.named u id false with
  | .error c => s.sessionDone k c []
  | .ok r =>
    if r.st != 3 || s.settling id then s.sessionDone k 0x06 []
    else if w 4 != r.epoch then s.sessionDone k 0x07 []
    else if s.fenced then s.sessionDone k 0x08 []
    else if !s.poolReachable r.target then s.sessionDone k 0x05 []
    else
      let pr := r.newProt.getD (r.prot, r.k, r.m, r.set)
      let r1 := { r with owner := r.target, epoch := r.epoch + 1, st := 1, target := 0, hasTarget := false, root := r.targetRoot, prot := pr.1, k := pr.2.1
                         m := pr.2.2.1, set := pr.2.2.2, newProt := none, source := some r.owner, commit := some k, dropAcked := false
                         lostSet := if r.newProt.isSome then [] else r.lostSet }
      s.change id .commit (some r1) (some k)

/-- SESSION_CLOSE (R333). -/
def State.closeSession (s : State) (k : Nat) (u : Poster) (w : Nat → Nat) : State :=
  let id := w 2 + 2 ^ 32 * w 3
  match s.named u id true with
  | .error c => s.sessionDone k c []
  | .ok _ => if s.fenced then s.sessionDone k 0x08 [] else s.change id .close none (some k)

/-- A session command at the directory package, by its opcode; none is accepted before the records are back from the partner
(R341). -/
def State.sessionCommand (s : State) (k : Nat) (u : Poster) (w : Nat → Nat) : State :=
  if s.dir.enabled && !s.dir.ready then s.sessionDone k 0x08 []
  else match w 0 % 256 with
  | 0x30 => if bitAt (w 4) 2 then s.extendSession k u w else s.createSession k u w
  | 0x31 => if bitAt (w 5) 2 then s.abortMove k u w else s.moveSession k u w
  | 0x32 => s.commitSession k u w
  | _ => s.closeSession k u w

/-- The session that a request names; none where it creates one. -/
def sessionNamed (w : Nat → Nat) : Option Nat :=
  if w 0 % 256 == 0x30 then (if bitAt (w 4) 2 then some (w 5 + 2 ^ 32 * w 6) else none) else some (w 2 + 2 ^ 32 * w 3)

/-- Who posts a session command. -/
def State.poster (s : State) (fn : Nat) : Poster :=
  let p := s.pavOfFn fn
  let known := fun (q : Nat) => (s.pav q).span.pavs.map fun (x : Nat × Nat) => nthD (s.pav q).span.members x.1 0 + 4096 * x.2
  { pkg := s.ownPkg, fn := fn, pav := p, span := (p.map fun q => (s.pav q).spanId).getD 0, users := (p.map fun q => (s.ownPkg + 4096 * q) :: known q).getD []
    tenant := (p.map fun q => (s.pav q).tenant).getD 0, mirror := (p.map fun q => s.fuse.mirror && (s.pav q).mirror).getD false }

/-- Who posted a session command that another package forwarded (R325). -/
def posterFrom (x : PoolMsg) (pkg : Nat) : Poster :=
  { pkg := pkg, fn := x.pages, pav := if x.flag then some x.pool else none, span := x.other, tenant := x.epoch, users := x.words.drop 17
    mirror := nthD x.words 16 0 == 1 }

/-- Who posted the session command that waits under a number, here or at another package. -/
def State.asker (s : State) (k : Nat) : Poster :=
  if k < 2 ^ 32 then s.poster (postFn k)
  else match Tab.find (k - 2 ^ 32) s.dir.asks with
    | some m => posterFrom (m.pool.getD { op := .command }) m.srcPkg.toNat
    | none => { pkg := 4096, fn := 0, pav := none, span := 0, tenant := 0, mirror := false }

/-- Request words 0 to 15 of the session command that waits under a number. -/
def State.askWords (s : State) (k : Nat) : Nat → Nat :=
  if k < 2 ^ 32 then (s.mb k).w
  else fun n => nthD (((Tab.find (k - 2 ^ 32) s.dir.asks).bind BulkMsg.pool).map PoolMsg.words |>.getD []) n 0

/-- The user's package has answered: the command that waits goes on (R326, R334). -/
def State.userKnown (s : State) (k tenant : Nat) (mirror : Bool) : State :=
  s.sessionCommand k { (s.asker k) with known := some (tenant, mirror) } (s.askWords k)

/-- A session command is done here, or forwarded to its directory package (R325). -/
def State.routeSession (s : State) (k : Nat) : State :=
  let m := s.mb k
  let u := s.poster (postFn k)
  let id := (sessionNamed m.w).getD 0
  if (sessionNamed m.w).isNone || s.directs id then s.sessionCommand k u m.w
  else if (s.routeTo (directoryOf id)).isNone then s.complete k 0x09 []
  else
    let x : PoolMsg := { op := .command, session := id, pages := u.fn, epoch := u.tenant, other := u.span, flag := u.pav.isSome
                         pool := u.pav.getD 0, words := (List.range 16).map m.w ++ b2n u.mirror :: u.users }
    s.sendPoolOf none k (directoryOf id) x []

/-- The PROT field names no reserved mode, and names of the set that it does not use are zero (R326, R415). -/
def protClean (m : MbSlot) (x i : Nat) : Bool :=
  let pr := protOf m.w x i
  bits x 1 0 != 3 && (List.range 12).all fun j => decide (j < pr.2.2.2.length) || (setNames m.w i 12).getD j 0 == 0

def createForm : CmdForm :=
  { used := [0, 0xFFFF, 2 ^ 32 - 1, 0xFF7, 2 ^ 32 - 1, 0xFFFF] ++ List.replicate 6 (2 ^ 32 - 1), range := fun m => m.w 3 != 0 && protClean m (m.w 4) 7 }
def moveForm : CmdForm :=
  { used := [0, 2 ^ 32 - 1, 0xFFFF, 0xFFFF, 0xFFF] ++ List.replicate 6 (2 ^ 32 - 1), range := fun m => protClean m (m.w 5) 6 }
def commitForm : CmdForm := { used := [0, 2 ^ 32 - 1, 0xFFFF, 2 ^ 32 - 1] }
def closeForm : CmdForm := { used := [0, 2 ^ 32 - 1, 0xFFFF] }

def startSessionCreate (k : Nat) (s : State) : State := s.start k createForm fun _ s => s.routeSession k
def startSessionMove (k : Nat) (s : State) : State := s.start k moveForm fun _ s => s.routeSession k
def startSessionMoveAbort (k : Nat) (s : State) : State := s.start k moveForm fun _ s => s.routeSession k
def startSessionCommit (k : Nat) (s : State) : State := s.start k commitForm fun _ s => s.routeSession k
def startSessionClose (k : Nat) (s : State) : State := s.start k closeForm fun _ s => s.routeSession k

/-- SESSION_CREATE: creates a session in an owner pool, or extends one (R318, R325 to R328, R334). -/
def execSessionCreate (fn slot : Nat) (s : State) : Host.Outcome State Fault Refusal := post fn slot (opc 0x30) startSessionCreate s

/-- SESSION_MOVE: phase 1 of a move (R325, R326, R329, R334). -/
def execSessionMove (fn slot : Nat) (s : State) : Host.Outcome State Fault Refusal :=
  post fn slot (fun w => opc 0x31 w && !bitAt (w 5) 2) startSessionMove s

/-- SESSION_MOVE with ABORT: ends a move that has not committed (R330). -/
def execSessionMoveAbort (fn slot : Nat) (s : State) : Host.Outcome State Fault Refusal :=
  post fn slot (fun w => opc 0x31 w && bitAt (w 5) 2) startSessionMoveAbort s

/-- SESSION_COMMIT: phase 2 of a move (R331). -/
def execSessionCommit (fn slot : Nat) (s : State) : Host.Outcome State Fault Refusal := post fn slot (opc 0x32) startSessionCommit s

/-- SESSION_CLOSE: frees a session (R333). -/
def execSessionClose (fn slot : Nat) (s : State) : Host.Outcome State Fault Refusal := post fn slot (opc 0x33) startSessionClose s

end Sys2Proof.Machine
end

