-- ==== Sys2Proof/Machine/SessionFlow.lean ====
section
/-! DEFINITION. What follows a change of a directory record (R320), at the directory and at the pools: moves and commits
(R329 to R331), leases (R321 to R323), the loss of a pool (R337, R338), the directory's control (R324, R341) and the Mirror
complication (R335, R336, R440). -/

namespace Sys2Proof.Machine

/-- The state of a session's pages in a pool. -/
def State.heldState (s : State) (i id : Nat) : Nat :=
  match s.holding i id with
  | some h => (Tab.getD (s.pool i).pages ((Pool.pagesOf h).headD 0) { st := 0, session := 0 }).st
  | none => 0

/-! ## At a pool -/

/-- The pools that hold pages of the session itself, and those of its protection, present, coming and past (R333, R337). -/
def Session.dataPools (r : Session) : List Nat := (r.owner :: (if r.hasTarget then [r.target] else [])) ++ r.source.toList
def Session.protPools (r : Session) : List Nat := (r.set ++ r.moveTakes ++ r.oldSet).filter fun n => n != noPool

/-- Bring a session's pages to another pool: the data pages in list order, and every later write with them (R329). A page that holds
an uncorrectable line is not copied, and its holder is killed (R175); nor one that the holder's tables do not let the package read, which
goes on a fault record (R191). -/
def State.copySession (s : State) (i id target : Nat) : State :=
  match s.holding i id with
  | none => s
  | some h =>
    let read := fun (s : State) (page : Nat) (put : State → List Byte → State) => match s.hurtPoolPage i page with
      | some k => s.killOwner (s.pool i).holder k
      | none => match s.deniedPages i [page] with
        | some t => t
        | none => put s (s.readPoolPage i page)
    let s1 := if s.localPool target then
        match s.holding (target % 16) id with
        | some g => (h.pages.zip g.pages).foldl (fun s x => read s x.1 fun s bs => (s.writePool (target % 16) x.2 0 bs).countMoved id 2 bs.length) s
        | none => s
      else h.pages.zipIdx.foldl (fun s x => read s x.1 fun s bs =>
        (s.sendPool (target / 16) { op := .fill, pool := target, session := id, pages := x.2 } bs).countMoved id 1 bs.length) s
    s1.modHolding i id fun h => { h with copyTo := some target }

/-- A session has a page in a pool that the package may not read: its fault is recorded (R191). -/
def State.deniedSession (s : State) (i id : Nat) : Option State := (s.holding i id).bind fun h => s.deniedPages i h.pages

/-- A target that has OWN and SEAL, and no fetch to make, serves: its pages become OWNED, and the directory is told (R331). -/
def State.tryServe (s : State) (i id : Nat) : State :=
  match s.holding i id with
  | none => s
  | some h =>
    if !(h.own && h.sealed && !h.fetch && s.heldState i id == 2) then s
    else
      let s1 := s.markHolding i id 1
      if s.directs id then s1
      else s1.sendPool (s.directorAt i id) { op := .served, pool := s.poolName i, session := id, epoch := h.epoch, flag := h.fetched } []

/-- All pages of a session stand changed, when its protection is new (R336). -/
def State.allDirty (s : State) (i id : Nat) : State := s.markDirty i id (List.range (((s.holding i id).map fun h => h.pages.length).getD 0))

/-- A session's mirror becomes the session itself (R337). -/
def State.adoptMirror (s : State) (i id epoch : Nat) : State :=
  match s.holding i (protKey id) with
  | none => s
  | some h =>
    let s1 := s.modPool i fun x => { (x.mark 1 id h.lists h.pages) with held := Tab.put id { h with epoch := epoch, own := true, sealed := true } (Tab.drop (protKey id) x.held) }
    s1.writeLists i h.pages h.lists

/-- The directory names this pool the owner at an epoch; `whole`: its copy lacks nothing, so that it takes no SEAL (R327, R331, R323,
R337). -/
def State.ownPool (s : State) (i id epoch : Nat) (fetch whole : Bool) : State :=
  match s.heldState i id with
  | 1 => s.modHolding i id fun h => { h with epoch := epoch, own := true }
  | 2 => (s.modHolding i id fun h => { h with epoch := epoch, own := true, sealed := h.sealed || whole, fetch := h.fetch || (fetch && !h.sealed) }).tryServe i id
  | 3 => ((s.markHolding i id 1).modHolding i id fun h => { h with epoch := epoch, own := true, copyTo := none })
  | 4 => s.modHolding i id fun h => { h with epoch := epoch, own := true }
  | _ => if fetch then s else s.adoptMirror i id epoch

/-- A session that protection can give has enough of it (R335, R337). -/
def Session.need (r : Session) : Nat := if r.prot == 2 then r.k else 1

/-- Nothing is left to the pool's acknowledgement of a DROP but, for the record's owner, the way free for another (R322), and for a pool
that the record does not name, its pages (R323). -/
def State.dropAck (s : State) (name key : Nat) : State :=
  match s.session (key % 2 ^ 48) with
  | none => s.releasePool name (key % 2 ^ 48)
  | some r =>
    if key ≥ 2 ^ 48 then if r.protPools.contains name then s else s.releasePool name key
    else if r.owner == name then s.modSession key fun r => { r with dropAcked := true }
    else if r.dataPools.contains name then s
    else s.releasePool name key

/-- The directory tells this pool that it no longer owns: it stops serving and keeps its pages; SEAL goes to the target behind
its last write, with the pages that have changed since the last Mirror update (R331, R336). -/
def State.dropPool (s : State) (i id target : Nat) : State :=
  let s1 := (s.markHolding i id 3).modHolding i id fun h => { h with own := false, copyTo := none }
  let s2 := s1.tellPool { op := .seal, pool := target, session := id, words := (s.dirtyIndices i id).map Prod.fst } []
  if s.directs id then s2.dropAck (s.poolName i) id
  else s2.sendPool (s.directorAt i id) { op := .drop, pool := s.poolName i, session := id, flag := true } []

/-- A DROP for what the record does not name this pool the owner or source of: it serves no more, and acknowledges (R323). -/
def State.dropOther (s : State) (i key : Nat) : State :=
  let s1 := s.modHolding i key fun h => { h with own := false }
  if s.directs (key % 2 ^ 48) then s1.dropAck (s.poolName i) key
  else s1.sendPool (s.directorAt i (key % 2 ^ 48)) { op := .drop, pool := s.poolName i, session := key, flag := true } []

/-- SEAL reaches this pool: what had changed at the source since the last Mirror update stands changed here (R331, R336). -/
def State.sealPool (s : State) (i id : Nat) (dirty : List Nat) : State :=
  ((s.markDirty i id dirty).modHolding i id fun h => { h with sealed := true }).tryServe i id

/-- SESSION_DROP_RECEIVE: the source pool of a commit receives DROP (R331). -/
def execSessionDropReceive (pool session target : Nat) (s : State) : Host.Outcome State Fault Refusal :=
  if pool ≥ 16 then noUnit
  else if s.heldState pool session != 1 then ok s
  else if !s.directs session then ok (s.dropPool pool session target)
  else
    match s.session session with
    | none => ok (s.freePages pool session)
    | some r =>
      if r.owner == s.poolName pool then ok s
      else if r.source == some (s.poolName pool) then ok (s.dropPool pool session r.owner)
      else ok (s.freePages pool session)

/-- The record's owner may serve: it is ACTIVE, MOVING or PREPARED (R329, R331). -/
def Session.serves (r : Session) : Bool := r.st == 1 || r.moving

/-- SESSION_OWN_RECEIVE: a pool receives OWN at an epoch, with FETCH or without (R323, R331, R337). -/
def execSessionOwnReceive (pool session epoch : Nat) (fetch : Bool) (s : State) : Host.Outcome State Fault Refusal :=
  if pool ≥ 16 then noUnit
  else if !s.directs session then ok (s.ownPool pool session epoch fetch false)
  else
    match s.session session with
    | none => ok s
    | some r => if r.owner == s.poolName pool && r.epoch == epoch && r.serves then ok (s.ownPool pool session epoch r.fetch false) else ok s

/-- SESSION_SEAL_RECEIVE: the target receives SEAL, behind the last write of a source that has dropped the session, with what stands changed
there (R331, R336). -/
def execSessionSealReceive (pool session : Nat) (s : State) : Host.Outcome State Fault Refusal :=
  if pool ≥ 16 then noUnit
  else
    let others := (List.range 16).filter fun i => i != pool
    if others.any fun i => s.heldState i session == 1 then ok s
    else
      match others.find? fun i => s.heldState i session == 3 with
      | some i => ok (s.sealPool pool session ((s.dirtyIndices i session).map Prod.fst))
      -- the source's package does not tell what has changed
      | none => ok ((s.allDirty pool session).sealPool pool session [])

/-! ## At the directory -/

/-- The owner's pages serve from now on (R327, R337); `marks`: what had changed since the last Mirror update is not known here, so that
every page counts as changed (R336). -/
def State.grantPool (s : State) (name id epoch : Nat) (fetch marks : Bool) : State :=
  if s.localPool name then
    let s1 := if s.heldState (name % 16) id == 2 && !fetch then
        (s.markHolding (name % 16) id 1).modHolding (name % 16) id fun h => { h with epoch := epoch, own := true, sealed := true }
      else s.ownPool (name % 16) id epoch fetch false
    if marks then s1.allDirty (name % 16) id else s1
  else s.sendPool (name / 16)
    { op := .own, pool := name, session := id, epoch := epoch, flag := fetch, pages := (if fetch then 0 else 1) + 8 * b2n marks } []

/-- The pages that an extension appended are OWNED too (R327). -/
def State.growPool (s : State) (i id epoch : Nat) : State :=
  (s.markHolding i id 1).modHolding i id fun h => { h with epoch := epoch }

/-- Free a session everywhere: owner, target, source and set (R333, R337). -/
def State.releaseSession (s : State) (id : Nat) (r : Session) : State :=
  r.protPools.foldl (fun s n => s.releasePool n (protKey id)) (r.dataPools.foldl (fun s n => s.releasePool n id) s)

/-- A session's protection is new: no page of it is written there (R331, R336). -/
def State.newProtection (s : State) (i id : Nat) : State := (s.allDirty i id).modHolding i id fun h => { h with unwritten := true }

/-- Writes to the target of a move that ended are waited for no longer (R329, R330). -/
def State.endFills (s : State) (target id : Nat) : State :=
  let waits : Sent → Bool := fun q => match q.msg.pool with | some x => q.core == poolCore && x.op == .fill && x.pool == target && x.session == id | none => false
  { s with net := { s.net with sent := s.net.sent.map fun (q : Sent) => if waits q then { q with num := 0 } else q } }.settleTwice

/-- The response words of SESSION_COMMIT (R419). -/
def commitWords (r : Session) : List Nat := [r.epoch, r.owner, r.root]

/-- What follows a change that has taken effect; `old` is the record before it. -/
def State.afterChange (s : State) (c : Pending) (old : Option Session) : State :=
  let id := c.id
  let done := fun (s : State) (k : Option Nat) (st : Nat) (ws : List Nat) => match k with | some k => s.sessionDone k st ws | none => s
  match c.new, c.why with
  | some r, .create => done (s.grantPool r.owner id r.epoch false false) c.asker 0 (idWords id ++ [r.root])
  | some r, .extend =>
    -- the new pages are OWNED when the command completes (R327)
    if s.localPool r.owner then done (s.growPool (r.owner % 16) id r.epoch) c.asker 0 (idWords id ++ [r.root])
    else
      let s1 := s.sendPool (r.owner / 16) { op := .own, pool := r.owner, session := id, epoch := r.epoch, pages := 2 } []
      match c.asker with
      | some k => s1.modDir fun d => { d with jobs := d.jobs ++ [⟨id, .grown, r, k, [r.owner], 1, 0⟩] }
      | none => s1
  | some r, .moving =>
    match c.asker with
    | some k => s.takeTarget id k (s.userOf (s.asker k) r) r
    | none => s
  | some r, .prepared => done (s.modSession id fun r => { r with move := none }) r.move 0 [r.targetRoot]
  | some r, .abort =>
    let o := old.getD r
    let s1 := (s.releasePool o.target id).endFills o.target id
    let s2 := o.moveTakes.foldl (fun s n => s.releasePool n (protKey id)) s1
    let s3 := if s.localPool r.owner then s2.modHolding (r.owner % 16) id fun h => { h with copyTo := none }
      else s2.sendPool (r.owner / 16) { op := .copy, pool := r.owner, session := id, flag := true } []
    done (done (s3.modSession id fun r => { r with move := none }) o.move 0x06 []) c.asker 0 []
  | some r, .commit =>
    let o := old.getD r
    let s1 := s.modSession id fun r => { r with commitAt := some s.now, late := false, oldSet := o.set.filter fun n => n != noPool && !r.set.contains n }
    let s2 := s1.tellPool { op := .drop, pool := o.owner, session := id, other := r.owner } []
    let s3 := if o.newProt.isSome && s.localPool r.owner then s2.newProtection (r.owner % 16) id else s2
    s3.tellPool { op := .own, pool := r.owner, session := id, epoch := r.epoch, pages := if o.newProt.isSome then 4 else 0 } []
  | some r, .rebuilding => done (s.modSession id fun r => { r with move := none }) r.move 0x06 []
  | some r, .rebuilt =>
    let s1 := s.modSession id fun r => { r with commitAt := some s.now }
    s1.grantPool r.owner id r.epoch r.fetch (r.prot != 0 && (old.map fun o => o.hasTarget && o.target == r.owner).getD false)
  | some r, .lost =>
    let s1 := ((done (done s r.move 0x0B []) r.commit 0x0B []).releaseSession id r).releaseSession id (old.getD r)
    (s1.modSession id fun r => { r with move := none, commit := none, commitAt := none, source := none }).tellUser r 0x0020 (idWords id)
  | none, .close =>
    match old with
    | none => done s c.asker 0x01 []
    | some o =>
      let later := s.dir.changes.filter fun x => x.id == id
      let s0 := later.foldl (fun s x => done s x.asker 0x01 []) s
      let s1 := (s0.releaseSession id o).modDir fun d => { d with mirrorQueue := d.mirrorQueue.filter fun x => x.1 != id, changes := d.changes.filter fun x => x.id != id }
      let s2 := done (done s1 o.move 0x01 []) o.commit 0x01 []
      -- the command completes when the pools of other packages have freed their pages
      let far := (o.dataPools ++ o.protPools).filter fun n => !s.localPool n
      match c.asker with
      | some k => if o.st == 5 || far.isEmpty then s2.sessionDone k 0 []
          else s2.modDir fun d => { d with jobs := d.jobs ++ [⟨id, .close, o, k, far, far.length, 0⟩] }
      | none => s2
  | _, _ => s

/-- SESSION_COPY_COMPLETE: phase 1's copy ends; the record becomes PREPARED (R329). -/
def execSessionCopyComplete (session : Nat) (s : State) : Host.Outcome State Fault Refusal :=
  match s.session session with
  | none => ok s
  | some r =>
    if r.st != 2 || !s.directs session || s.dir.changes.any (fun c => c.id == session) || s.dir.jobs.any (fun j => j.id == session) then ok s
    else
      if let some t := (if s.localPool r.owner then s.deniedSession (r.owner % 16) session else none) then ok t else
      let s1 := if s.localPool r.owner then s.copySession (r.owner % 16) session r.target else s
      ok (s1.change session .prepared (some { r with st := 3 }) none)

/-- The target serves: the retained pages are freed and the commit completes (R331). -/
def State.served (s : State) (id : Nat) (fetched : Bool) : State :=
  match s.session id with
  | none => s
  | some r =>
    if r.commitAt.isNone then s
    else
      let s1 := (r.source.toList.foldl (fun s n => s.releasePool n id) s)
      let s2 := r.oldSet.foldl (fun s n => s.releasePool n (protKey id)) s1
      let s3 := s2.modSession id fun r =>
        { r with commitAt := none, source := none, oldSet := [], dropAcked := false, commit := none, late := false, fetch := false }
      let s4 := match r.commit with | some k => s3.sessionDone k 0 (commitWords r) | none => s3
      let s5 := if r.late then s4.tellUser r 0x0022 (idWords id ++ [r.epoch, r.owner]) else s4
      -- an owner on another package has taken the session from its protection
      if fetched then s5.tellUser r 0x0021 (idWords id ++ [r.pstep.toNat]) else s5

/-- SESSION_SERVE_REPORT: the target reports to the directory that it serves (R331). -/
def execSessionServeReport (session : Nat) (s : State) : Host.Outcome State Fault Refusal :=
  match s.session session with
  | none => ok s
  | some r =>
    let serves := !s.localPool r.owner || (s.heldState (r.owner % 16) session == 1 && ((s.holding (r.owner % 16) session).map Holding.own).getD false)
    if s.directs session && serves then ok (s.served session false) else ok s

/-- COMMIT_PENDING_TIMEOUT: 10 ms after the commit point the target does not serve yet (R331). -/
def execCommitPendingTimeout (session : Nat) (s : State) : Host.Outcome State Fault Refusal :=
  match s.session session with
  | none => ok s
  | some r =>
    match r.commitAt, r.commit with
    | some t, some k =>
      if s.now.toNat < t.toNat + 1000000 then ok s
      else ok ((s.modSession session fun r => { r with commit := none, late := true }).sessionDone k 0x0C (commitWords r))
    | _, _ => ok s

/-! ## Fetch (R337) -/

/-- Fragments of a page that stand in pools of this package, without an uncorrectable line and readable for the package (R175, R191). -/
def State.fragments (s : State) (r : Session) (id j : Nat) : List (Nat × List Byte) :=
  r.set.zipIdx.filterMap fun x =>
    if !s.localPool x.1 then none
    else (s.holding (x.1 % 16) (protKey id)).bind fun h =>
      let g := nthD h.pages j 0
      if (s.hurtPoolPage (x.1 % 16) g).isSome || (s.deniedPages (x.1 % 16) [g]).isSome then none else some (x.2, s.readPoolPage (x.1 % 16) g)

/-- Page `j` of a session from its protection, where this package holds enough of it (R335). -/
def State.protPage (s : State) (r : Session) (id j : Nat) : Option (List Byte) :=
  let fs := s.fragments r id j
  match r.prot with
  | 1 => (fs.head?).map Prod.snd
  | 2 => if fs.length ≥ r.k then some (rebuildPage r.k r.m (fs.take r.k)) else none
  | _ => none

/-- The session's pages are as its protection has them. -/
def State.cleanPages (s : State) (i id : Nat) : State :=
  match s.holding i id with
  | none => s
  | some h => (s.modHolding i id fun h => { h with unwritten := false }).modPool i fun x => { x with pages := x.pages.map fun y => if h.pages.contains y.1 then (y.1, { y.2 with dirty := false }) else y }

/-- The record that this package knows of a session. -/
def State.recordOf (s : State) (id : Nat) : Session := (s.session id).getD { owner := 0, root := 0, userPkg := 0, userPav := 0, pages := 0 }

/-- The owner takes back the pages written since PSTEP, once all are at hand; it does not serve the session before that (R339). A protection that no update has written has none of them. -/
def State.restoreFrom (s : State) (i id : Nat) (data : List (Nat × List Byte)) : State :=
  if ((s.holding i id).map Holding.unwritten).getD false then s else
  let page := fun (j : Nat) => match data.find? fun x => x.1 == j with
    | some x => some (x.2.take 262144, 1)
    | none => (s.protPage (s.recordOf id) id j).map fun bs => (bs, 2)
  match (s.dirtyIndices i id).mapM fun x => (page x.1).map fun bs => (x.2, bs) with
  | none => s.modHolding i id fun h => { h with restore := true }
  | some ps => ((ps.foldl (fun s x => (s.writePool i x.1 0 x.2.1).countMoved id x.2.2 x.2.1.length) s).cleanPages i id).modHolding i id fun h => { h with restore := false }

/-- SESSION_FETCH: an owner takes the whole session before it serves, from the retained source, or from its protection; what
other packages hold comes with the command (R337). A session to be restored takes back the pages written since PSTEP (R339). -/
def execSessionFetch (pool session : Nat) (data : List (Nat × List Byte)) (s : State) : Host.Outcome State Fault Refusal :=
  if pool ≥ 16 then noUnit
  else
    match s.holding pool session with
    | none => ok s
    | some h =>
      if h.restore then ok (s.restoreFrom pool session data)
      else if !h.fetch || !h.own then ok s
      else
        let r := s.recordOf session
        let src : Option (Nat × Holding) := match r.source with
          | some n => if s.localPool n then (s.holding (n % 16) session).map fun g => (n % 16, g) else none
          | none => none
        let ready := (src.map fun x => s.heldState x.1 session == 3).getD true
        let page := fun (s : State) (j : Nat) =>
          match data.find? fun x => x.1 == j with
          | some x => some (x.2.take 262144, 1)
          | none =>
            match src with
            | some (i, g) => some (s.readPoolPage i (nthD g.pages j 0), 2)
            | none => (s.protPage r session j).map fun bs => (bs.take 262144, 2)
        if !ready then ok s else
        if let some t := src.bind fun x => s.deniedPages x.1 x.2.pages then ok t else
        match src.bind fun x => (x.2.pages.findSome? fun g => s.hurtPoolPage x.1 g).map fun k => (x.1, k) with
        | some (i, k) => ok (s.killOwner (s.pool i).holder k)
        | none =>
        let s1 := h.pages.zipIdx.foldl (fun s x => match page s x.2 with
          | some (bs, cls) => (s.writePool pool x.1 0 bs).countMoved session cls bs.length
          | none => s) s
        -- what had changed at the source since the last Mirror update stands changed here (R336)
        let s1 := match src with
          | some (i, _) => s1.markDirty pool session ((s.dirtyIndices i session).map Prod.fst)
          | none => if r.source.isSome then s1.allDirty pool session else s1
        let s2 := (s1.modHolding pool session fun h => { h with fetch := false, sealed := true, fetched := r.source.isNone && r.prot != 0 }).tryServe pool session
        ok (if s.directs session && r.source.isNone && r.prot != 0 then s2.tellUser r 0x0021 (idWords session ++ [r.pstep.toNat]) else s2)

/-! ## Leases (R321 to R323) -/

/-- The pools that hold pages of a session (R321). -/
def Session.pools (r : Session) : List Nat := r.dataPools ++ r.protPools

/-- The directory answers one of a pool's holdings: OWN at the record's epoch, FETCH with it, or DROP (R323, R337). -/
def State.answerHolding (s : State) (i id : Nat) : State :=
  match s.session (id % 2 ^ 48) with
  | none => s.dropOther i id
  | some r =>
    let name := s.poolName i
    if id ≥ 2 ^ 48 then if r.protPools.contains name then s.ownPool i id r.epoch false false else s.dropOther i id
    else if r.owner == name then
      if r.st == 5 then s.freePages i id
      else if !r.serves then s
      else if s.heldState i id == 2 && !((s.holding i id).map Holding.sealed).getD false then
        (s.modSession id fun r => { r with fetch := true }).ownPool i id r.epoch true false
      else s.ownPool i id r.epoch false false
    else if r.source == some name then
      if s.heldState i id == 1 then s.dropPool i id r.owner else s.dropOther i id
    else s.dropOther i id

/-- What a pool holds of a directory's sessions: their pages, and PROT pages, by the number under which it keeps them. -/
def State.holdingsOf (s : State) (i dir : Nat) : List Nat :=
  ((s.pool i).held.map Prod.fst).filter fun id => directoryOf (id % 2 ^ 48) == dir

/-- The states of a holding's pages, its list pages last, three bits each (R323). -/
def State.pageStates (s : State) (i id : Nat) : Nat :=
  ((s.holding i id).map fun h => (Pool.pagesOf h).foldr (fun g n => (Tab.getD (s.pool i).pages g { st := 0, session := 0 }).st + 8 * n) 0).getD 0

/-- What a pool reports of a session it holds: its id, PROT pages or its own, whether SEAL has come, the epoch, and the states of its pages
(R323; the form is the model's, notes/assumptions/86.md). -/
def State.holdingWord (s : State) (i id : Nat) : Nat :=
  let h := (s.holding i id).getD { epoch := 0, lists := [], pages := [] }
  id % 2 ^ 48 + b2n (id ≥ 2 ^ 48) * 2 ^ 51 + b2n h.sealed * 2 ^ 52 + (h.epoch % 2 ^ 32) * 2 ^ 64 + s.pageStates i id * 2 ^ 96

/-- The pool serves no session of a directory until the directory has answered (R323). -/
def State.disown (s : State) (i dir : Nat) : State :=
  (s.holdingsOf i dir).foldl (fun s id => s.modHolding i id fun h => { h with own := false }) s

/-- A renewal reaches a pool; after a lapse the pool reports its holdings, and serves again only once they are answered (R323).
`sender` is the directory package, or the partner that has adopted its records (R324). -/
def State.takeRenewal (s : State) (sender dir i : Nat) (tick : Word64) : State :=
  let last := Tab.find dir (s.pool i).leases
  let lapsed : Bool := match last with | some t => decide (s.now.toNat ≥ t.toNat + 200000) | none => true
  let newest := match last with | some t => if t.toNat > tick.toNat then t else tick | none => tick
  let s1 := (if lapsed then s.disown i dir else s).modPool i fun x => { x with leases := Tab.put dir newest x.leases, dirs := Tab.put dir sender x.dirs }
  if !lapsed then s1
  else if sender == s.ownPkg then (s1.holdingsOf i dir).foldl (fun s id => s.answerHolding i id) s1
  else
    let ws := (s1.holdingsOf i dir).map (s1.holdingWord i)
    s1.sendPool sender { op := .holdings, pool := s.poolName i, pages := ws.length, words := ws } []

/-- RENEWAL_SEND: the directory package sends its TIME to every pool that holds pages of its sessions, and notes those that it
cannot reach (R321, R337). -/
def execRenewalSend (s : State) : Host.Outcome State Fault Refusal :=
  let names := (s.dir.records.filter fun x => x.2.st != 0 && s.directs x.1).foldl (fun (l : List Nat) x =>
    x.2.pools.foldl (fun l n => insertUniq (directoryOf x.1 * 65536 + n) l) l) []
  ok (names.foldl (fun s y =>
    let n := y % 65536
    if s.localPool n then
      (s.modDir fun d => { d with renewals := Tab.put n s.now d.renewals }).takeRenewal s.ownPkg (y / 65536) (n % 16) s.now
    else if (s.reach (n / 16)).isSome then
      (s.modDir fun d => { d with renewals := Tab.put n s.now d.renewals, unreachable := Tab.drop n d.unreachable }).syncSend (n / 16)
        (.renewal (y / 65536) n s.now s.ownPkg)
    else s.modDir fun d => { d with unreachable := if (Tab.find n d.unreachable).isSome then d.unreachable else Tab.put n s.now d.unreachable }) s)

/-- RENEWAL_RECEIVE: a pool receives a renewal; one of another package does not reach a package that is not SYNC (R321, R323, R361). -/
def execRenewalReceive (directory pool : Nat) (renewal : Renewal) (s : State) : Host.Outcome State Fault Refusal :=
  if pool ≥ 16 || directory ≥ 4096 || renewal.sender ≥ 4096 then noUnit
  else if renewal.sender != s.ownPkg && !s.links.tsync.sync then ok s else ok (s.takeRenewal renewal.sender directory pool renewal.tick)

/-- LEASE_LAPSE: 2 ms after the last renewal the pool stops serving the directory's sessions (R321, R323). -/
def execLeaseLapse (directory pool : Nat) (s : State) : Host.Outcome State Fault Refusal :=
  if pool ≥ 16 || directory ≥ 4096 then noUnit
  else
    match Tab.find directory (s.pool pool).leases with
    | none => ok s
    | some t => if s.now.toNat < t.toNat + 200000 then ok s else ok (s.disown pool directory)

/-! ## The loss of a pool (R337, R338) -/

/-- A pool can give a session's pages: it can be reached, and one of this package holds them. -/
def State.gives (s : State) (name id : Nat) : Bool :=
  if s.localPool name then (s.holding (name % 16) id).isSome else s.poolReachable name

/-- Enough of a session's protection can be reached (R335, R337). -/
def State.protected (s : State) (id : Nat) (r : Session) : Bool :=
  r.prot != 0 && decide ((r.set.filter fun n => s.gives n (protKey id) && !r.lostSet.contains n).length ≥ r.need)

/-- The session with its next owner, from the first available source of R337. -/
def State.rebuilt (s : State) (id : Nat) (r : Session) : Option Session :=
  let next := { r with epoch := r.epoch + 1, st := 1, target := 0, hasTarget := false, source := none, dropAcked := false, fetch := false, newProt := none }
  let members := r.set.filter fun n => s.gives n (protKey id) && !r.lostSet.contains n
  let rootAt := fun (n key : Nat) => if s.localPool n then ((s.holding (n % 16) key).map fun h => h.lists.headD 0).getD 0 else 0
  let retained := r.source.toList.filter fun n => n != r.owner && s.gives n id
  if r.hasTarget && s.gives r.target id then some { next with owner := r.target, root := r.targetRoot }
  else match retained.head? with
    | some n => some { next with owner := n, root := rootAt n id }
    | none =>
      if r.prot == 1 && !members.isEmpty then
        let n := members.headD 0
        some { next with owner := n, prot := 0, set := [], lostSet := [], root := rootAt n (protKey id) }
      else if r.prot == 2 && members.length ≥ r.k then
        let need := r.pages + ceilDiv r.pages listSpan
        (members.find? fun n => !r.noRoom.contains n && (!s.localPool n || ((s.pool (n % 16)).free need).isSome)).map fun n =>
          { next with owner := n, fetch := true, set := r.set.map (fun n => if members.contains n then n else noPool), lostSet := [], noRoom := [] }
      else none

/-- The owner of a session is lost: it is REBUILDING if another pool or its protection can give it, else LOST (R337). -/
def State.ownerLost (s : State) (id : Nat) (r : Session) : State :=
  let s0 := r.moveTakes.foldl (fun s n => s.releasePool n (protKey id)) s
  let s1 := if r.st == 2 then (s0.releasePool r.target id).endFills r.target id else s0
  let r1 := if r.st == 2 then { r with target := 0, hasTarget := false } else r
  -- no DROP went to the owner that is lost
  let r2 := { r1 with st := 4, newProt := none, dropAcked := false, source := if r.source == some r.owner then none else r.source }
  if (s1.rebuilt id r2).isSome then s1.change id .rebuilding (some r2) none else s1.change id .lost (some r2.lost) none

/-- What the loss of a pool does to one session of this directory (R337, R338). -/
def State.sessionLoses (s : State) (name id : Nat) (r : Session) : State :=
  if r.st == 0 || r.st == 5 then s
  else if r.owner == name then if r.st == 4 then s else s.ownerLost id r
  else if r.target == name && r.moving then s.change id .abort (some r.unmoved) none
  else if r.source == some name && r.commitAt.isSome then
    let whole := s.localPool r.owner && ((s.holding (r.owner % 16) id).map Holding.sealed).getD false
    let s1 := s.modSession id fun r => { r with source := none }
    if whole then s1
    else if s.protected id r then
      (s1.modSession id fun r => { r with fetch := true }).grantPool r.owner id r.epoch true false
    else if s.localPool r.owner then s1.change id .lost (some r.lost) none
    else s1.grantPool r.owner id r.epoch true false
  else if r.set.contains name then s.modSession id fun r => { r with lostSet := addNew name r.lostSet }
  else s

/-- The record of a session as the changes that wait will leave it. -/
def State.latest (s : State) (id : Nat) : Option Session :=
  match (s.dir.changes.filter fun c => c.id == id && c.why != .pstep && c.why != .user && c.why != .root).getLast? with
  | some c => c.new
  | none => s.session id

/-- A pool of another package has freed a session's pages, or, where no session is named, is lost: a SESSION_CLOSE that waited for it
alone completes (R333); an extension's pages at a lost pool are not to be had. -/
def State.closeAnswer (s : State) (name : Nat) (session : Option Nat) : State :=
  let less := s.dir.jobs.map fun (j : Job) =>
    if j.why == .grown && session.isNone && j.pools.contains name then { j with pools := [], left := 0, status := 5 }
    else if j.why == .close && (match session with | some id => j.id == id | none => true) then
      let ps := if session.isSome then j.pools.erase name else j.pools.filter fun n => n != name
      { j with pools := ps, left := ps.length }
    else j
  let over_ := fun (j : Job) => (j.why == .close || j.why == .grown) && j.left == 0
  (less.filter over_).foldl State.endJob (s.modDir fun d => { d with jobs := less.filter fun j => !over_ j })

/-- A pool is lost (R337). A pool of this package gives its pages up; POOL_LOST goes to PF0. -/
def State.losePool (s : State) (name : Nat) : State :=
  let i := name % 16
  let mine := s.localPool name
  let s1 := if mine then
      (s.zeroPages i ((s.pool i).pages.map Prod.fst)).modPool i fun x => { x with pages := [], held := [] }
    else s.closeAnswer name none
  let ours := s1.dir.records.filter fun x => s1.directs x.1 && x.2.st != 0 && x.2.pools.contains name
  let s3 := if mine || !ours.isEmpty then s1.raisePf0 0x0024 0 (detailWords [name]) else s1
  let s4 := if mine then ((s.pool i).held.foldl (fun (l : List Nat) x => let d := s.directorAt i (x.1 % 2 ^ 48); if d == s.ownPkg then l else addNew d l) []).foldl
      (fun s d => s.sendPool d { op := .lost, pool := name } []) s3 else s3
  ours.foldl (fun s x => match s.latest x.1 with | some r => s.sessionLoses name x.1 r | none => s) s4

/-- The defined pools of this package whose holder passes a test (R337). -/
def State.losePoolsOf (s : State) (p : Nat → Bool) : State :=
  ((s.pools.filter fun x => x.2.defined && p x.2.holder).map Prod.fst).foldl (fun s i => s.losePool (s.poolName i)) s

/-- The partner has refused a record write: the session's oldest waiting change does not take place, what it took is given back, and
its command completes with DIR_FENCED (R320, R324). -/
def State.changeRefused (s : State) (id : Nat) : State :=
  match s.dir.changes.find? fun c => c.id == id with
  | none => s
  | some c =>
    let s1 := s.modDir fun d => { d with changes := d.changes.erase c }
    let s2 := match c.why, c.new with
      | .create, some r => s1.releaseSession id r
      | .extend, some _ => match s1.session id with | some r => s1.unextend id r | none => s1
      | _, _ => s1
    match c.asker with | some k => s2.sessionDone k 0x08 [] | none => s2

/-- The user's package, if it is another one, learns the record: its Mirror works by it (R336), and its reports of a kill count it
(R339). -/
def State.tellRecord (s : State) (id : Nat) (old new : Option Session) : State :=
  let tell := fun (s : State) (pkg w : Nat) => if pkg == s.ownPkg then s else s.sendPool pkg { op := .record, session := id, flag := true } (leBytes 64 w)
  let left := fun (s : State) => match old with
    | some o => if (new.map Session.userPkg) == some o.userPkg then s else tell s o.userPkg id
    | none => s
  match new with
  | some r => tell (left s) r.userPkg (r.pack id).toNat
  | none => left s

/-- DIRECTORY_RECORD_WRITE: the later of the two copies of a record is written, and the session's oldest waiting change takes
effect (R320, R327 to R333, R337). A change that waited while the partner could not be reached is first sent to it. -/
def execDirectoryRecordWrite (session : Nat) (s : State) : Host.Outcome State Fault Refusal :=
  match s.dir.changes.find? fun c => c.id == session with
  | none => ok s
  | some c =>
    let old := s.session session
    if !(s.partnerUp || s.dir.sole) then ok (if c.asker.isSome then s.changeRefused session else s)
    else if s.partnerUp && !c.sent then ok (s.sendChange session)
    else if old.isNone && c.why != .create then ok (s.changeRefused session)
    else
      let c := { c with new := c.onto old }
      let records := match c.new with
        | some r => Tab.put session { r with single := !s.partnerUp } s.dir.records
        | none => Tab.drop session s.dir.records
      let changes := s.dir.changes.eraseIdx (s.dir.changes.findIdx fun x => x.id == session)
      let s1 := { s with dir := { s.dir with changes := changes, records := records } }
      let s2 := (s1.afterChange c old).tellRecord session old c.new
      -- a source that was lost before the commit point leaves its target without SEAL (R338)
      let gone : Option Nat := match c.why, old with
        | .commit, some o => if s.localPool o.owner && (s.holding (o.owner % 16) session).isNone then some o.owner else none
        | _, _ => none
      match gone, s2.session session with
      | some n, some r => ok (s2.sessionLoses n session r)
      | _, _ => ok s2

/-- POOL_LOSS: a pool is lost (R337, R338). -/
def execPoolLoss (pool : Nat) (s : State) : Host.Outcome State Fault Refusal :=
  if pool ≥ 65536 then noUnit else ok (s.losePool pool)

/-- POOL_UNREACHABLE_TIMEOUT: the directory has been unable to reach a pool for 10 ms (R337). -/
def execPoolUnreachableTimeout (pool : Nat) (s : State) : Host.Outcome State Fault Refusal :=
  if pool ≥ 65536 then noUnit
  else
    match Tab.find pool s.dir.unreachable with
    | none => ok s
    | some t =>
      if s.now.toNat < t.toNat + 1000000 || (s.reach (pool / 16)).isSome then ok s
      else ok ((s.modDir fun d => { d with unreachable := Tab.drop pool d.unreachable }).losePool pool)

/-- The directory may make another pool the owner: the owner has acknowledged a DROP, or its lease is over for certain (R322). -/
def State.mayTakeOver (s : State) (r : Session) : Bool :=
  r.dropAcked || (match Tab.find r.owner s.dir.renewals with | some t => decide (s.now.toNat ≥ t.toNat + 200100) | none => true)

/-- OWNERSHIP_TAKEOVER: a session that is REBUILDING gets its next owner (R322, R337, R338). -/
def execOwnershipTakeover (session : Nat) (s : State) : Host.Outcome State Fault Refusal :=
  match s.session session with
  | none => ok s
  | some r =>
    if r.st != 4 || !s.directs session || !s.mayTakeOver r || s.dir.changes.any (fun c => c.id == session) || s.dir.jobs.any (fun j => j.id == session) then ok s
    else
      match s.rebuilt session r with
      | none => ok (s.change session .lost (some r.lost) none)
      | some n =>
        -- the pages of a rebuild from fragments are taken for the session, whoever uses it
        let take : PoolMsg := { op := .take, pool := n.owner, session := session, pages := r.pages, epoch := n.epoch, flag := true }
        let s1 := if !n.fetch then s.change session .rebuilt (some n) none
          else s.startJob ⟨session, .rebuilt, n, 0, [n.owner], 0, 0⟩ [take]
        ok (if r.prot == 1 && n.prot == 0 then s1.tellUser r 0x0021 (idWords session ++ [r.pstep.toNat]) else s1)

/-! ## The Mirror complication (R335, R336, R440) -/

/-- Write page `j` of a session to its protection pools: the page itself, or its fragments; the bytes written. -/
def State.protectPage (s : State) (r : Session) (id j : Nat) (page : List Byte) : State :=
  let p := if s.localPool r.owner then some (s.pool (r.owner % 16)).holder else none
  (r.set.zipIdx.filter fun x => x.1 != noPool).foldl (fun s x =>
    let bs := if r.prot == 1 then page else codeFragment r.k r.m x.2 page
    let s1 := s.modDir fun d => { d with mirrorBytes := d.mirrorBytes + BitVec.ofNat 64 bs.length }
    if s.localPool x.1 then
      match s.holding (x.1 % 16) (protKey id) with
      | some h => (s1.writePool (x.1 % 16) (nthD h.pages j 0) 0 bs).countMoved id 2 bs.length
      | none => s1
    else (s1.sendPoolFor p 0 (x.1 / 16) { op := .fill, pool := x.1, session := protKey id, pages := j } bs).countMoved id 1 bs.length) s

/-- Session pages written since the last update, with their contents. -/
def State.dirtyPages (s : State) (i id : Nat) : List (Nat × List Byte) := (s.dirtyIndices i id).map fun x => (x.1, s.readPoolPage i x.2)

/-- MIRROR_UPDATE_COMPLETE: the oldest queued update of a session is written to its protection, and its PSTEP follows; pages of
an owner on another package come with the command (R336, R440). -/
def execMirrorUpdateComplete (session : Nat) (data : List (Nat × List Byte)) (s : State) : Host.Outcome State Fault Refusal :=
  match s.dir.mirrorQueue.find? fun x => x.1 == session, s.session session with
  | some q, some r =>
    let here := s.localPool r.owner
    if let some t := (if here then s.deniedPages (r.owner % 16) ((s.dirtyIndices (r.owner % 16) session).map Prod.snd) else none) then ok t else
    match (if here then (s.dirtyIndices (r.owner % 16) session).findSome? fun x => s.hurtPoolPage (r.owner % 16) x.2 else none) with
    | some k => ok ((s.killOwner (s.pool (r.owner % 16)).holder k).modDir fun d => { d with mirrorQueue := d.mirrorQueue.erase q })
    | none =>
    let ps := if here then s.dirtyPages (r.owner % 16) session else data.map fun x => (x.1, x.2.take 262144)
    let s1 := ps.foldl (fun s x => s.protectPage r session x.1 x.2) s
    let s2 := (if here then s1.cleanPages (r.owner % 16) session else s1.tellPool { op := .clean, pool := r.owner, session := session } []).modDir fun d => { d with mirrorQueue := d.mirrorQueue.erase q }
    ok (if s.directs session then s2.change session .pstep (some { r with pstep := q.2 }) none
      else s2.sendPool (r.keeper.getD (directoryOf session)) { op := .pstep, session := session, pages := q.2.toNat } [])
  | some q, none => ok (s.modDir fun d => { d with mirrorQueue := d.mirrorQueue.erase q })
  | none, _ => ok s

/-- A killed user's protected sessions whose PSTEP is its committed step go back to it: the owner restores the pages written
since from the protection set (R339). -/
def State.restoreProtected (s : State) (p : Nat) (step : Word64) : State :=
  (s.dir.records.filter fun x => x.2.st != 0 && x.2.prot != 0 && x.2.userPkg == s.ownPkg && x.2.userPav == p && x.2.pstep == step).foldl (fun s x =>
    if s.localPool x.2.owner then s.restoreFrom (x.2.owner % 16) x.1 []
    else s.tellPool { op := .restore, pool := x.2.owner, session := x.1 } (leBytes 64 (x.2.pack x.1).toNat)) s

/-! ## Sessions of a restored pavilion (R467) -/

/-- A saved session is re-created, unprotected, in the lowest-numbered pool of the pavilion's POOL_MASK with room, or lost; a directory that
holds as many records as it may has no room (R318). -/
def State.recreate (s : State) (x : Restored) : State :=
  let n := x.pages.length
  let here := (List.range 16).filter fun i => bitAt (s.pav x.pav).poolMask i && (s.pool i).defined && ((s.pool i).free (ceilDiv n listSpan + n)).isSome
  let id := s.ownPkg * 2 ^ 36 + s.dir.nextSerial
  match (if s.directed ≥ 1048576 then none else here.head?).bind fun i => (s.takePages i id n 1).map fun t => (i, t) with
  | none => s.raisePav x.pav 0x0020 (detailWords (idWords x.id))
  | some (i, root, s1) =>
    let h := (s1.holding i id).getD { epoch := 1, lists := [], pages := [] }
    let s2 := (h.pages.zip x.pages).foldl (fun s y => s.writePool i y.1 0 y.2) s1
    let r : Session := { owner := s.poolName i, root := root, userPkg := s.ownPkg, userPav := x.pav, pages := n }
    ((s2.modDir fun d => { d with nextSerial := d.nextSerial + 1 }).change id .create (some r) none).raisePav x.pav 0x0023
      (detailWords (idWords x.id ++ idWords id))

/-- The directory makes a restored pavilion the user of a session that is ACTIVE at the saved epoch: whether it could. -/
def State.repoint (s : State) (id epoch pkg p : Nat) : Option State :=
  match s.session id with
  | none => none
  | some r =>
    if r.st != 1 || r.epoch != epoch || r.commitAt.isSome || s.fenced then none
    else some (s.change id .user (some { r with userPkg := pkg, userPav := p }) none)

/-- A saved session goes back to the restored pavilion, here or by its directory package's word, or is re-created. -/
def State.restoreSession (s : State) (x : Restored) (epoch : Nat) : State :=
  if s.directs x.id then (match s.repoint x.id epoch s.ownPkg x.pav with | some t => t | none => s.recreate x)
  else if (s.routeTo (directoryOf x.id)).isNone then s.recreate x
  else
    (s.modDir fun d => { d with restored := d.restored ++ [x] }).sendPool (directoryOf x.id)
      { op := .user, pool := x.pav, session := x.id, epoch := epoch } []

/-- The directory package has answered for a saved session. -/
def State.userAnswer (s : State) (id p status : Nat) : State :=
  match s.dir.restored.find? fun x => x.id == id && x.pav == p with
  | none => s
  | some x =>
    let s1 := s.modDir fun d => { d with restored := d.restored.erase x }
    if status == 0 then s1 else s1.recreate x

/-! ## Directory control (R324, R340, R341) -/

/-- The package that has held and changed its partner's records sends the partner what both are to hold (R324). -/
def State.sendRecords (s : State) : State :=
  let both := s.dir.records.filter fun x => directoryOf x.1 == s.ownPkg || directoryOf x.1 == s.dir.partner
  both.foldl (fun s x => s.sendPool s.dir.partner { op := .record, session := x.1 } (leBytes 64 (x.2.pack x.1).toNat))
    (s.sendPool s.dir.partner { op := .resync, pages := both.length } [])

/-- PV_DIR_CTL_WRITE: SOLE, ADOPT, ENABLE and PARTNER; when ADOPT is cleared the partners copy records (R324, R340). -/
def execPvDirCtlWrite (value : Word32) (s : State) : Host.Outcome State Fault Refusal :=
  if !s.exposed then ok s else
  let new := value &&& 0xEFFF#32
  let cleared := s.dir.adopt && !new.getLsbD 14
  let adopts := !s.dir.adopt && new.getLsbD 14
  -- an adopter does not know when the partner last renewed: not after now
  let owners := if adopts then (s.dir.records.filter fun x => directoryOf x.1 == new.toNat % 4096 && x.2.st != 0).map fun x => x.2.owner else []
  let s1 := s.modDir fun d => { d with ctl := new, syncing := d.syncing || cleared || (new.getLsbD 13 && !d.ready)
                                       renewals := owners.foldl (fun t n => Tab.put n s.now t) d.renewals }
  ok (if cleared then s1.sendRecords else s1)

/-- DIRECTORY_RESYNC_COMPLETE: the records copied from the partner are in, and session commands are accepted (R324, R341). -/
def execDirectoryResyncComplete (records : List (BitVec 512)) (s : State) : Host.Outcome State Fault Refusal :=
  if !s.dir.enabled then ok s
  else
    ok (s.modDir fun d =>
      let rs := (records.map fun w => unpackSession w.toNat).filter fun x => x.2.st != 0 && (directoryOf x.1 == s.ownPkg || directoryOf x.1 == d.partner)
      let next := rs.foldl (fun n x => if directoryOf x.1 == s.ownPkg then max n (x.1 % 2 ^ 36 + 1) else n) d.nextSerial
      { d with ready := true, syncing := false, syncLeft := 0, syncGot := [], records := rs.foldl (fun t x => Tab.put x.1 x.2 t) d.records, nextSerial := next })

/-- A record that the partner copies here has come; with the last of them both hold the same set (R324). -/
def State.copied (s : State) (id : Nat) : State :=
  s.modDir fun d =>
    if d.syncLeft == 0 then d
    else
      let got := addNew id d.syncGot
      if d.syncLeft > 1 then { d with syncLeft := d.syncLeft - 1, syncGot := got }
      else { d with syncLeft := 0, syncGot := [], syncing := false
                    records := d.records.filter fun y => !(directoryOf y.1 == s.ownPkg || directoryOf y.1 == d.partner) || got.contains y.1 }

/-- The directory answers what a pool of another package reports that it holds: OWN at the record's epoch, FETCH with it, or DROP (R323,
R337). An extension's pages become OWNED with OWN; PROT pages that the record names stand at its epoch (DEDUCED,
notes/assumptions/86.md). -/
def State.answerReport (s : State) (name w : Nat) : State :=
  let id := w % 2 ^ 48
  let key := if bitAt w 51 then protKey id else id
  let states := w / 2 ^ 96
  let whole := !(states % 8 == 2) || bitAt w 52
  let drop : PoolMsg := { op := .drop, pool := name, session := key, pages := 1 }
  let msg : PoolMsg := match s.session id with
    | none => drop
    | some r =>
      if bitAt w 51 then
        if r.protPools.contains name then { op := .own, pool := name, session := key, epoch := r.epoch } else drop
      else if r.owner == name && r.serves then
        if states % 8 == 1 && (List.range r.pages).any (fun j => states / 8 ^ j % 8 == 2) then
          { op := .own, pool := name, session := id, epoch := r.epoch, pages := 2 }
        else { op := .own, pool := name, session := id, epoch := r.epoch, flag := r.fetch || !whole }
      else if r.source == some name then { op := .drop, pool := name, session := id, other := r.owner }
      else drop
  s.sendPool (name / 16) msg []

/-! ## Messages of the session protocol from other packages -/

/-- Sessions that a pool owns by their records and does not report among its holdings: its package has lost them (R323, R337). -/
def State.missing (s : State) (name : Nat) (ids : List Nat) : State :=
  (s.dir.records.filter fun x => s.directs x.1 && x.2.owner == name && x.2.serves && !ids.contains x.1).foldl
    (fun s x => match s.latest x.1 with | some r => s.sessionLoses name x.1 r | none => s) s

/-- The pavilion that uses a session, on another package, is disabled: the session is closed (R269). -/
def State.userGone (s : State) (id pkg p : Nat) : State :=
  match s.session id with
  | some r => if s.directs id && r.userPkg == pkg && r.userPav == p then s.change id .close none none else s
  | none => s

/-- Answer a message of the session protocol. -/
def State.poolAnswer (s : State) (m : BulkMsg) (ws : List Nat) : State :=
  s.sendOut { stream := m.stream, seq := m.seq, sys := m.sys, winding := m.winding, dstPkg := m.srcPkg
              dstLoc := if m.sys then BitVec.ofNat 16 m.stream.toNat else Config.sourceLoc m.srcPkg.toNat m.stream.toNat
              srcPkg := BitVec.ofNat 12 s.ownPkg, kind := 2, pool := some { op := ((m.pool.map PoolMsg.op).getD .take), words := ws } }

/-- A message of the session protocol arrives (R320 to R338). -/
def State.poolIn (s : State) (m : BulkMsg) : State :=
  match m.pool with
  | none => s
  | some x =>
    let i := x.pool % 16
    match x.op with
    | .take | .takeProt | .extend =>
      let u : Poster := { pkg := nthD x.words 0 0, fn := 0, pav := some (nthD x.words 1 512), span := 0, tenant := nthD x.words 2 0, mirror := true }
      let s := s.useWindows [x.pool]
      if !x.flag && s.poolRefuses u x.pool then s.poolAnswer m [if x.op == .takeProt then 0x0A else 0x03, 0]
      else match s.takeHere x with | some (root, t) => t.poolAnswer m [0, root] | none => s.poolAnswer m [4, 0]
    | .free => (if x.flag then s.trimPages i x.session x.pages x.other else s.freePages i x.session).poolAnswer m []
    | .copy => (if x.flag then s.modHolding i x.session fun h => { h with copyTo := none } else s.copySession i x.session x.other).poolAnswer m []
    | .fill =>
      match s.holding i x.session with
      | some h => (s.writePool i (nthD h.pages x.pages 0) x.other m.payload).poolAnswer m []
      | none => s.poolAnswer m []
    | .drop =>
      (if x.flag then s.dropAck x.pool x.session
        else if x.pages == 1 then s.dropOther i x.session
        else s.dropPool i x.session x.other).poolAnswer m []
    | .own =>
      let s0 := if bitAt x.pages 1 then s.growPool i x.session x.epoch else s.ownPool i x.session x.epoch x.flag (bitAt x.pages 0)
      let s1 := if bitAt x.pages 2 then s0.newProtection i x.session else if bitAt x.pages 3 then s0.allDirty i x.session else s0
      let h := s1.holding i x.session
      s1.poolAnswer m [b2n (s1.heldState i x.session == 2 && !(h.map Holding.sealed).getD true), (h.map fun h => h.lists.headD 0).getD 0]
    | .clean => (s.cleanPages i x.session).poolAnswer m []
    | .restore =>
      let r := (unpackSession (leNat m.payload)).2
      let s1 := if (s.session x.session).isSome then s else s.modDir fun d => { d with records := Tab.put x.session r d.records }
      (s1.restoreFrom i x.session []).poolAnswer m []
    | .seal => (s.sealPool i x.session x.words).poolAnswer m []
    | .served => (s.served x.session x.flag).poolAnswer m []
    | .lost => (s.losePool x.pool).poolAnswer m []
    | .record =>
      let q := unpackSession (leNat m.payload)
      if !x.flag && (!s.dir.enabled || m.srcPkg.toNat != s.dir.partner || s.dir.adopt) then s.poolAnswer m [8]
      else
        let r := { q.2 with keeper := if x.flag then some m.srcPkg.toNat else none }
        let s1 := s.modDir fun d => { d with records := if r.st == 0 then Tab.drop q.1 d.records else Tab.put q.1 r d.records }
        (if x.flag then s1 else s1.copied q.1).poolAnswer m []
    | .command =>
      let k := s.dir.nextAsk
      (s.modDir fun d => { d with nextAsk := k + 1, asks := Tab.put k m d.asks }).sessionCommand (2 ^ 32 + k) (posterFrom x m.srcPkg.toNat) fun n => nthD x.words n 0
    | .event => (s.raisePav x.pages x.other (detailWords x.words)).poolAnswer m []
    | .mirror => s.poolAnswer m [if s.fuse.mirror && (s.pav x.pages).bound && (s.pav x.pages).mirror then 0 else 0x0A, (s.pav x.pages).tenant]
    | .resync =>
      if m.srcPkg.toNat != s.dir.partner || s.dir.adopt then s.poolAnswer m []
      else (if x.pages == 0 then ({ s with dir := { s.dir with syncLeft := 1 } } : State).copied (2 ^ 48)
        else s.modDir fun d => { d with syncing := true, syncLeft := x.pages, syncGot := [] }).poolAnswer m []
    | .holdings =>
      -- a report that comes in parts shows no pool that has lost what it held
      let s1 := if x.words.length == x.pages then s.missing x.pool ((x.words.filter fun w => !bitAt w 51).map fun w => w % 2 ^ 48) else s
      (x.words.foldl (fun s w => s.answerReport x.pool w) s1).poolAnswer m []
    | .user => if x.flag then (s.userGone x.session m.srcPkg.toNat x.pool).poolAnswer m [] else (match s.repoint x.session x.epoch m.srcPkg.toNat x.pool with
        | some t => t.poolAnswer m [0]
        | none => s.poolAnswer m [6])
    | .pstep => (match s.session x.session with
        | some r => s.change x.session .pstep (some { r with pstep := BitVec.ofNat 64 x.pages }) none
        | none => s).poolAnswer m []

/-- The answer to a message of the session protocol that was sent as `q`. -/
def State.poolReply (s : State) (q : Sent) (m : BulkMsg) : State :=
  let ws := (m.pool.map PoolMsg.words).getD []
  let s := if m.srcPkg.toNat == s.dir.partner then s.modDir fun d => { d with heard := some s.now } else s
  match q.msg.pool with
  | none => s
  | some x =>
    match x.op with
    | .command => s.complete q.num (ws.headD 9) (ws.drop 1)
    | .own =>
      if bitAt x.pages 1 then s.jobAnswer x.session 0 0 false true
      else
        match s.session x.session with
        | none => s
        | some r =>
          -- a target that has no SEAL, and neither source nor protection (R338)
          if ws.headD 0 == 1 then
            if r.commitAt.isSome && r.source.isNone && !s.protected x.session r then s.change x.session .lost (some r.lost) none else s
          else if nthD ws 1 r.root == r.root || r.owner != x.pool then s
          else s.change x.session .root (some { r with root := nthD ws 1 r.root }) none
    | .record => if ws.headD 0 == 8 then s.changeRefused x.session else s
    | .take | .extend => s.jobAnswer (x.session % 2 ^ 48) (ws.headD 5) (nthD ws 1 0) true false
    | .user => if x.flag then s else s.userAnswer x.session x.pool (ws.headD 5)
    | .mirror => s.userKnown q.num (nthD ws 1 0) (ws.headD 10 == 0)
    | .takeProt => s.jobAnswer (x.session % 2 ^ 48) (ws.headD 5) 0 false false
    | .fill => if q.num == 0 then s else s.settleTwice
    | .free => if x.flag then s else s.closeAnswer x.pool (some (x.session % 2 ^ 48))
    | _ => s

end Sys2Proof.Machine
end

