-- ==== Sys2Proof/Machine/Beds.lean ====
section
/-! DEFINITION. The beds' own events (R155, R167 to R181, R284): refresh, patrol scrubbing, row shadows, retired frames, spare
channels and zeroing. -/

namespace Sys2Proof.Machine

/-! ## Refresh (R171, R172) -/

/-- Some bound pavilion is in cycle-repeatable mode. -/
def State.cycleMode (s : State) : Bool := s.pavs.any fun x => x.2.bound && x.2.cycle

/-- The refresh rate that a temperature calls for, in multiples of the base rate (R171, R172). -/
def State.refreshAt (s : State) (celsius : Int) : Nat :=
  if celsius > 105 then 4 else if celsius > 85 || s.cycleMode then 2 else 1

/-- The channel refreshes at the rate its temperature calls for; the rise to four times the base rate is logged, and ends
the repeatability of the pavilions on the channel (R171, R172, R564). -/
def State.setRefresh (s : State) (channel : Nat) (celsius : Int) : State :=
  let c := s.channel channel
  let r := s.refreshAt celsius
  let turned := (r == 4) != (c.refresh == 4)
  let s1 := s.setChannel channel { c with celsius := celsius, refresh := r, capAt := if turned then s.now else c.capAt }
  if r == 4 && c.refresh != 4 then
    (s1.pavsOn channel).foldl (fun s p => if (s.pav p).cycle then s.unrepeatable p 1 else s) (s1.logMem 0x0C (channelLoc channel) 0)
  else s1

/-- REFRESH: a refresh of a populated channel falls due, at the rate that its temperature and the cycle-repeatable mode
set (R171, R172). -/
def execRefresh (channel : Nat) (s : State) : Host.Outcome State Fault Refusal :=
  if channel ≥ numChannels then noUnit
  else if !s.fuse.populated channel then ok s
  else
    let s1 := s.setRefresh channel (s.channel channel).celsius
    ok (s1.setChannel channel { s1.channel channel with refreshes := (s1.channel channel).refreshes + 1 })

/-- DRAM_TEMPERATURE_REPORT: the device's report sets the refresh rate (R171, R172). -/
def execDramTemperatureReport (channel : Nat) (celsius : Int) (s : State) : Host.Outcome State Fault Refusal :=
  if channel ≥ numChannels then noUnit
  else if !s.fuse.populated channel then ok s
  else ok (s.setRefresh channel celsius)

/-! ## Patrol scrubbing (R173) -/

/-- The scrubber runs: MC_SCRUB_CFG.ENABLE (R180). -/
def State.scrubs (s : State) : Bool := s.regs.scrubCfg.toNat % 2 == 1

/-- The memory group of a channel is on (R534). -/
def State.groupOn (s : State) (q : Nat) : Bool := !s.power.off.contains (memoryGroup q)

/-- PATROL_SCRUB_READ: the scrubber reads a channel's next line, writes corrected data back, and reports the frame of an
uncorrectable line as retiring (R173, R175, R176). Its read travels in VC 3, from the controller to its own channel, past no hop (R235). -/
def execPatrolScrubRead (channel : Nat) (errs : SymbolErrors) (s : State) : Host.Outcome State Fault Refusal :=
  if channel ≥ numChannels then noUnit
  else
    let c := s.channel channel
    if !s.scrubs || !s.fuse.populated channel || c.retired || !s.groupOn channel then ok s
    else
      let key := bedKey channel (c.scrubLine * 64)
      let s1 := (s.background (channelLoc channel) (channelLoc channel) 64).setChannel channel { c with scrubLine := (c.scrubLine + 1) % linesPerChannel }
      let err := if c.rowShadows.contains (c.scrubLine / 32) then shadowOutcome errs else lineOutcome errs
      if err == .uncorrectable || s.beds.bad key then
        let s2 := s1.modBeds fun b => if b.bad key then b else { b with badLines := b.badLines ++ [key / 64] }
        ok ((s2.bedUncorrectable key).retireFrame key)
      else if err == .corrected then ok (s1.bedCorrected key)
      else ok s1

/-! ## Spare channels (R178, R179) -/

/-- The group's spare stands in, or is being copied to stand in, the place of one of its channels. -/
def State.spareTaken (s : State) (g : Nat) : Bool :=
  (List.range 24).any fun i => let c := s.channel (g * 24 + i); c.spared || c.copyPoint.isSome

/-- More than 1,000 corrected errors lie within one hour, at `now` (R176). -/
def Channel.errorRate (c : Channel) (now : Word64) : Bool :=
  match c.ceTimes[1000]? with | some t => decide ((now - t).toNat ≤ hourTicks) | none => false

/-- A channel passes a threshold of sparing: corrected errors, shadows in use, or predicted wear-out (R176). -/
def Channel.worn (c : Channel) (now : Word64) (wear : Bool) : Bool := c.errorRate now || decide (c.rowShadows.length ≥ 8) || wear

/-- SPARE_CHANNEL_START: a channel over a threshold begins its copy to the group's spare (R176, R178). `wear` is what the
ageing monitors predict. -/
def execSpareChannelStart (channel : Nat) (wear : Bool) (s : State) : Host.Outcome State Fault Refusal :=
  if channel ≥ numChannels then noUnit
  else
    let c := s.channel channel
    if !s.place channel || c.retired || s.spareTaken (groupOf channel) || !c.worn s.now wear then ok s
    else ok ((s.setChannel channel { c with copyPoint := some 0, capAt := s.now }).logMem 0x05 (channelLoc channel) 0)

/-- Lose what a channel's device held (R179). -/
def Beds.lose (b : Beds) (q : Nat) : Beds :=
  { b with mem := Mem.clear b.mem (bedKey q 0) (bedKey (q + 1) 0), badLines := b.badLines.filter fun l => l * 64 / 2 ^ 33 != q
           listed := b.listed.filter fun l => l * 64 / 2 ^ 33 != q, zeroGranules := b.zeroGranules.filter fun g => g / 4096 != q }

/-- A failed channel: its contents go, the pavilions on it are killed, and the spare comes in zeroed; where the group's spare is already
in use, by this channel too, the channel is retired, and package memory is lost with it (R179, R260). -/
def State.failChannel (s : State) (q : Nat) : State :=
  let c := s.channel q
  let taken := (List.range 24).any fun i => let p := groupOf q * 24 + i; let x := s.channel p; x.spared || (p != q && x.copyPoint.isSome)
  let loc := channelLoc q
  let s1 := ((s.modBeds fun b => b.lose q).logMem 0x07 loc 0).losePoolsOf fun h => (s.pav h).chOwn != 0 && bitAt (s.pav h).chMask q
  let s2 := (s1.pavsOn q).foldl (fun s p =>
    let s := s.startReset p 0x06 loc []
    if (s.pav p).cycle then s.unrepeatable p 2 else s) s1
  if taken then
    let s3 := s2.setChannel q { c with retired := true, copyPoint := none, capAt := s.now }
    (s3.modRegs fun r => { r with tableLost := true }).raisePf0 0x0041 0 loc
  else
    (s2.setChannel q { refresh := c.refresh, celsius := c.celsius, refreshes := c.refreshes, spared := true, scale := c.scale, capAt := s.now }).logMem
      0x06 loc 0

/-- CHANNEL_FAILURE (R179). -/
def execChannelFailure (channel : Nat) (s : State) : Host.Outcome State Fault Refusal :=
  if channel ≥ numChannels then noUnit
  else if !s.place channel || (s.channel channel).retired then ok s
  else ok (s.failChannel channel)

/-- Lines in the bad-line list of a channel's controller (R178). -/
def State.listedOf (s : State) (q : Nat) : List Nat := s.beds.listed.filter fun l => l * 64 / 2 ^ 33 / 8 == q / 8

/-! ## An access slot (R178, R385 to R391) -/

/-- The pavilion whose own access it is: of a window access, none of this package's (R385). -/
def mcOwner : McKind → Option Nat
  | .tenant p _ | .spec p _ | .stream p _ => some p
  | _ => none

/-- CYCLE pavilions whose set has the channel are no longer repeatable once another's access is served on it (R564). -/
def State.sharedOn (s : State) (q : Nat) (k : McKind) : State :=
  if k == .scrub then s
  else
    ((s.pavs.filter fun x => x.2.bound && x.2.cycle && bitAt x.2.chMask q && mcOwner k != some x.1).map Prod.fst).foldl
      (fun s p => s.unrepeatable p 5) s

/-- A spare copy enters a line that it cannot correct in the controller's bad-line list; with its 64th entry the list is full, and the
channel has failed (R178). -/
def State.enterLine (s : State) (q key : Nat) : State :=
  let s1 := s.modBeds fun b => { b with listed := addNew (key / 64) b.listed, badLines := b.badLines.filter fun l => l != key / 64 }
  if (s1.listedOf q).length ≥ 64 then s1.failChannel q else s1

/-- What the controller makes of a line's read, by the code of the memory that holds its row (R168, R174, R176). -/
def Channel.outcome (c : Channel) (line : Nat) (es : SymbolErrors) : ReadErr :=
  if c.rowShadows.contains (line / 32) then shadowOutcome es else lineOutcome es

/-- What the read of a served access meets (R168, R170, R173, R175). A corrected error is counted, logged and feeds the repair
rules. A line found uncorrectable is bad from then on: the read of a tenant, a stream or a window kills the pavilion whose memory it
is, the scrubber reports the frame, a spare copy lists the line, and any other reader meets the bad line in its own command. -/
def State.lineError (s : State) (q : Nat) (a : McAccess) : State :=
  let key := bedKey q (a.line * 64)
  if a.op == .whole then s
  else if s.beds.bad key then (if a.kind == .copy then s.enterLine q key else s)
  else match (s.channel q).outcome a.line a.errs with
  | .clean => s
  | .corrected => s.bedCorrected key
  | .uncorrectable =>
    let s1 := s.modBeds fun b => { b with badLines := b.badLines ++ [key / 64] }
    match a.kind with
    | .tenant p _ | .stream p _ => (s1.bedUncorrectable key).startReset p 0x03 (channelLoc q) []
    | .window w _ => (s1.bedUncorrectable key).startReset (Win.owner (s.window w).1) 0x03 (channelLoc q) []
    | .scrub => (s1.bedUncorrectable key).retireFrame key
    | .copy => s1.enterLine q key
    | _ => s1

/-- An access as the slot serves it: a spare copy reads the line at its copy point (R178). -/
def Channel.placed (c : Channel) (a : McAccess) : McAccess := if a.kind == .copy then { a with line := c.copyPoint.getD a.line } else a

/-- What a slot adds to the meter of the class that the access is charged to: 64 bytes, and of what is no speculation its latency (R386). -/
def Meter.charge (m : Meter) (a : McAccess) : Meter :=
  match a.kind with
  | .spec _ _ => { m with served := m.served + 64 }
  | _ => { m with served := m.served + 64, latSum := m.latSum + a.age, latCount := m.latCount + 1 }

/-- MC_SERVE_ACCESS: in an access slot of a channel of a populated group (R20) the waiting access of highest priority is served and charged to its
class; the answer is its place in the list (R385, R386, R388, R389, R391). A served copy access copies the line at the copy point,
which moves on (R178). A slot that serves nothing counts for the copy's one in four too. -/
def execMcServeAccess (channel : Nat) (waiting : List McAccess) (s : State) : Host.Outcome State Fault Refusal :=
  if channel ≥ numChannels then noUnit
  else if !s.fuse.populated channel then ok s
  else
    let c := s.channel channel
    match s.choose channel waiting with
    | none => ok (s.setChannel channel { c with copySlots := c.copySlots + 1, backSlots := 0 })
    | some (i, x, d) =>
      let a := c.placed x
      let back := waiting.any fun x => x.kind == .background
      let e := s.priority channel waiting a
      let c1 := { c with deficit := d, copySlots := if a.kind == .copy then 0 else c.copySlots + 1
                         backSlots := if a.kind == .background || !back then 0 else c.backSlots + 1
                         reserve := if e == 15 then c.reserve + 64 else c.reserve
                         copyPoint := if a.kind == .copy then c.copyPoint.map (· + 1) else c.copyPoint }
      let s1 := (s.setChannel channel c1).sharedOn channel a.kind
      let s1 := if a.kind == .copy then s1.background (channelLoc channel) (channelLoc (s.spareOf (groupOf channel))) 64 else s1
      let s2 := match s.charged a.kind with
        | some (p, k) => s1.modPav p fun v => v.putMeter k channel fun m => m.charge a
        | none => s1
      ok ((s2.lineError channel a).answered i)

/-- SPARE_COPY_COMPLETE: a copy that has come to the end ends and the mapping switches; the lines that it could not correct stand in
the controller's bad-line list, and of a line that went bad behind the copy point the spare holds what was copied (R178). -/
def execSpareCopyComplete (channel : Nat) (s : State) : Host.Outcome State Fault Refusal :=
  if channel ≥ numChannels then noUnit
  else
    let c := s.channel channel
    if c.copyPoint != some linesPerChannel then ok s
    else
      let s1 := s.modBeds fun b => { b with badLines := b.badLines.filter fun l => l * 64 / 2 ^ 33 != channel }
      let s2 := s1.setChannel channel { refresh := c.refresh, celsius := c.celsius, refreshes := c.refreshes, scrubLine := c.scrubLine
                                        spared := true, scale := c.scale, capAt := s.now }
      ok (s2.logMem 0x06 (channelLoc channel) 0)

/-- Line `j` of code block `b` of a channel as its storage holds it: data lines 0 to 15, and the check bytes in line 16 (R168). -/
def State.bedLine (s : State) (q b j : Nat) : List Byte :=
  if j < 16 then Mem.readN s.beds.mem (bedKey q (b * 1024 + j * 64)) 64 else checkLine (Mem.readN s.beds.mem (bedKey q (b * 1024)) 1024)

/-! ## Local stores (R155, R176) -/

/-- LS_ROW_REPAIR: a local-store row whose corrected errors recur takes one of its bank's eight spare rows (R176). A row is
the 1 KiB of a segment that lies in one bank. -/
def execLsRowRepair (core bank segment : Nat) (s : State) : Host.Outcome State Fault Refusal :=
  if core ≥ numCores || bank ≥ 64 || segment ≥ 384 then noUnit
  else
    let n := Tab.getD (s.core core).lsRepairs bank 0
    let row := segment * 64 + bank
    if n ≥ 8 || !((Tab.find row (s.core core).lsRows).map Prod.snd).getD false then ok s
    else
      let s1 := s.modCore core fun c => { c with lsRepairs := Tab.put bank (n + 1) c.lsRepairs, lsRows := Tab.drop row c.lsRows }
      ok (s1.logMem 0x08 (coreLoc core) (segment * 64 + bank))

/-- LS_ZERO_COMPLETE: a local store that awaited zeroing holds zeros, and its shadow rows too (R155); the zeros travel in VC 3 (R235). -/
def execLsZeroComplete (core : Nat) (s : State) : Host.Outcome State Fault Refusal :=
  if core ≥ numCores then noUnit
  else if !(s.core core).zeroing then ok s
  else ok (((s.background controlProcessor (coreLoc core) (384 * 65536)).zeroLs core).modCore core fun c => { c with zeroing := false, shadows := [] })

/-- GRANULE_ZERO_COMPLETE: a granule that left every channel set holds zeros (R284). -/
def execGranuleZeroComplete (channel granule : Nat) (s : State) : Host.Outcome State Fault Refusal :=
  if channel ≥ numChannels || granule ≥ granulesPerChannel then noUnit
  else
    let g := channel * 4096 + granule
    if !s.beds.zeroGranules.contains g then ok s
    else
      let lo := bedKey channel (granule * 2 ^ 20)
      let hi := lo + 2 ^ 20
      let out := fun (l : Nat) => !(decide (lo ≤ l * 64) && decide (l * 64 < hi))
      let s := s.background controlProcessor (channelLoc channel) (2 ^ 20)
      ok (s.modBeds fun b => { b with mem := Mem.clear b.mem lo hi, zeroGranules := b.zeroGranules.filter fun x => x != g
                                      badLines := b.badLines.filter out, listed := b.listed.filter out })

end Sys2Proof.Machine
end

