-- ==== Sys2Proof/Machine/Network.lean ====
section
/-! DEFINITION. The bulk network (R228 to R243, R498, R499, R511, R516): windings, sequencing, the service of requests from
other packages, the matching of replies, and the lanes of on-package links. -/

namespace Sys2Proof.Machine

/-! ## Windings and sequence (R241, R243, R498, R499) -/

/-- `w` precedes `v` (R499). -/
def windingBefore (w v : Word16) : Bool := let d := (v - w).toNat; decide (1 ≤ d) && decide (d ≤ 2 ^ 15 - 1)

/-- The source pavilion's index in a message's stream id (R239). -/
def bulkPav (m : BulkMsg) : Nat := m.stream.toNat / 2048

/-- Key of the pair a request belongs to, at its destination (R240). -/
def bulkPair (m : BulkMsg) : Nat :=
  m.stream.toNat * 2 ^ 29 + (b2n m.sys) * 2 ^ 28 + m.srcPkg.toNat * 2 ^ 16 + m.dstLoc.toNat

/-- A message passes the check of its winding; a newer winding of another package's pavilion restarts its numbering
(R240, R243, R498, R499). -/
def State.windingCheck (s : State) (m : BulkMsg) : Option State :=
  if m.sys then some s
  else if m.srcPkg.toNat == s.ownPkg then if m.winding == (s.pav (bulkPav m)).winding then some s else none
  else
    let k := m.srcPkg.toNat * 512 + bulkPav m
    match Tab.find k s.net.remoteWinding with
    | some w =>
      if windingBefore m.winding w then none
      else if w == m.winding then some s
      else
        let other := fun (j : Nat) => !(j / 2 ^ 29 / 2048 == bulkPav m && j / 2 ^ 16 % 4096 == m.srcPkg.toNat && j / 2 ^ 28 % 2 == 0)
        some (s.modNet fun n => { n with remoteWinding := Tab.put k m.winding n.remoteWinding, pairs := Tab.keep other n.pairs })
    | none => some (s.modNet fun n => { n with remoteWinding := Tab.put k m.winding n.remoteWinding })

/-! ## Serving requests from other packages -/

/-- The answer to a request: its STREAM and SEQ (R242). -/
def State.answerTo (s : State) (m : BulkMsg) (kind : Nat) (payload : List Byte) (why : Nat) : BulkMsg :=
  { stream := m.stream, seq := m.seq, winding := m.winding, sys := m.sys, vc := 0, dstPkg := m.srcPkg
    dstLoc := if m.sys then BitVec.ofNat 16 m.stream.toNat else Config.sourceLoc m.srcPkg.toNat m.stream.toNat, srcPkg := BitVec.ofNat 12 s.ownPkg
    kind := BitVec.ofNat 5 kind, addr := BitVec.ofNat 64 why, payload := payload }

/-- Payload bytes of each run of a request: offset and bytes. -/
def splitRuns : List (Nat × Nat) → List Byte → List (Nat × List Byte)
  | [], _ => []
  | (o, n) :: rest, bs => (o, bs.take n) :: splitRuns rest (bs.drop n)

/-- A run covers part of an uncorrectable line, or, for a read, any of one: the key of the line (R170, R175). -/
def State.hurtRun (s : State) (key : Nat → Nat) (wr : Bool) (a n : Nat) : Option Nat :=
  if wr then s.beds.mergeBad key a n
  else (s.beds.badIn key a n).map key

/-- The holding package checks a window tile request, serves it whole and answers, or refuses it (R218, R219, R227). Until it is SYNC it
takes no part in windows, and answers as one to which there is no route (R376; DEDUCED, notes/assumptions/86.md). -/
def State.serveWindow (s : State) (m : BulkMsg) : State :=
  let wr := m.kind == 6
  let whole := if m.tile.isEmpty then m.runs else m.tile
  let pages := whole.foldl (fun l r => (runPages r.1 r.2).foldl (fun l pg => insertUniq pg l) l) []
  if m.srcPkg.toNat != s.ownPkg && !s.links.tsync.sync then s.answerOut m (s.answerTo m (if wr then 3 else 2) [] (0x08 + pages.headD 0 * 65536)) else
  let last := whole.foldl (fun n r => max n (r.1 + r.2 - 1)) 0
  let q := s.windowCheck m.addr.toNat m.srcPkg.toNat m.tenant.toNat pages last (!wr) wr
  match q.1 with
  | .refused why page => q.2.answerOut m (q.2.answerTo m (if wr then 3 else 2) [] (why + page * 65536))
  | .served p cs =>
    let s1 := q.2
    let v := s1.pav p
    let key := csKey v v.channels
    -- pieces by page: offset in the window, channel-set address, length
    let pieces := m.runs.flatMap fun r => (runPages r.1 r.2).map fun pg =>
      let lo := max r.1 (pg * 65536)
      (lo, Tab.getD cs pg 0 + lo % 65536, min (r.1 + r.2) ((pg + 1) * 65536) - lo)
    let puts := fun (s : State) => ((pieces.map fun x => (x.1, x.2.2)).zip (splitRuns (pieces.map fun x => (x.2.1, x.2.2)) m.payload)).foldl
      (fun s x => s.writeWindow m.addr.toNat (x.1.1 / 65536) p (x.2.1 / 65536 * 65536) (x.2.1 % 65536) x.2.2) s
    let hurt := pieces.filterMap fun x => (s1.hurtRun key wr x.2.1 x.2.2).map fun k => (⟨p, k, some (x.1 / 65536)⟩ : BadLine)
    match BadLine.first hurt with
    | some b => (s1.killOwner p b.key).answerOut m (s1.answerTo m (if wr then 3 else 2) [] (0x09 + b.win.getD 0 * 65536))
    | none =>
      -- a request that carries no byte only asks
      if wr && m.payload.isEmpty then s1.answerOut m (s1.answerTo m 3 [] 0) else
      let s1 := pages.foldl (fun s pg => s.touchWindow m.addr.toNat pg { rd := !wr, wr := wr }) s1
      if wr then
        let s2 := puts s1
        let a := s2.answerTo m 3 [] 0
        -- a write to pages that are moving completes when the target has applied it too
        if s2.dir.nextFill == s1.dir.nextFill then s2.answerOut m a
        else { s2 with dir := { s2.dir with twice := s2.dir.twice ++ [⟨s1.dir.nextFill, s2.dir.nextFill, a⟩] } }
      else s1.answerOut m (s1.answerTo m 2 (pieces.flatMap fun x => s1.readCs p x.2.1 x.2.2) 0)

/-- The member on this package of the span that a message between members names: READY, and under the winding that the message
carries (R365). -/
def State.memberOf (s : State) (m : BulkMsg) : Option Nat :=
  (s.pavs.find? fun x => x.2.bound && x.2.isSpan && x.2.span.st == 2 && x.2.winding == m.winding
    && x.2.spanId == m.addr.toNat && x.2.span.members.contains m.srcPkg.toNat).map Prod.fst

/-- A read or write of the scratch of a core of a span member, from another member (R139, R142). An uncorrectable word that it would
read kills the member, and no answer goes (R175). -/
def State.servePeer (s : State) (m : BulkMsg) : State :=
  match (s.memberOf m).bind fun p => ((s.coresOf p).find? fun x => coreLoc x.2 == m.dstLoc.toNat).map Prod.snd with
  | none => s
  | some c =>
    let p := (s.memberOf m).getD 0
    let hurt := m.runs.findSome? fun r => s.badWord c r.1 r.2
    if m.kind == 0 && hurt.isSome then s.killLs p c (hurt.getD 0)
    else if m.kind == 1 then
      let s1 := (splitRuns m.runs m.payload).foldl (fun s x => s.writeLs c x.1 x.2) s
      s1.answerOut m (s1.answerTo m 3 [] 0)
    else s.answerOut m (s.answerTo m 2 (m.runs.flatMap fun r => s.readLs c r.1 r.2) 0)

/-- A message of a TSEND from another member of the span: with the last of them the TSEND stands posted here (R140, R237). One that
has come before is discarded (R356). -/
def State.serveSend (s : State) (m : BulkMsg) : State :=
  match s.memberOf m, m.send with
  | some p, some x => s.modPav p fun v =>
    let had := v.inbox.find? fun y => y.key == x.key
    let seen := ((v.sendSeen.find? fun y => y.1 == x.key).map Prod.snd).getD 0
    let next := (had.map FarSend.parts).getD 0
    if x.nth ≤ seen || x.parts != next || (had.map FarSend.whole).getD false then v
    else
      let y := { x with data := (had.map FarSend.data).getD [] ++ m.payload, parts := next + 1, whole := m.last }
      { v with inbox := (v.inbox.filter fun y => y.key != x.key) ++ [y]
               sendSeen := if m.last then (x.key, x.nth) :: v.sendSeen.filter (fun y => y.1 != x.key) else v.sendSeen }
  | _, _ => s

/-- Serve a request whole at its destination. -/
def State.serve (s : State) (m : BulkMsg) : State :=
  if m.pool.isSome then s.poolIn m
  else if m.kind == 5 || m.kind == 6 then s.serveWindow m else if m.kind == 0 || m.kind == 1 then s.servePeer m
  else s

/-- The request writes at its destination; one that carries no byte only asks (R152). -/
def putsBytes (m : BulkMsg) : Bool := m.kind == 6 || m.kind == 1

/-- The earlier messages of a tile of writes, or of one of the session protocol, and the last, as one request. -/
def joinParts (ms : List BulkMsg) (m : BulkMsg) : BulkMsg :=
  { m with runs := ms.flatMap BulkMsg.runs ++ m.runs, payload := ms.flatMap BulkMsg.payload ++ m.payload, tile := []
           pool := m.pool.map fun x => { x with words := (ms.flatMap fun y => (y.pool.map PoolMsg.words).getD []) ++ x.words } }

/-- Apply a request at its destination. The writes of a tile that came in several messages are kept, each acknowledged, and applied
or refused together with the last (R142, R218); so are the words of the session protocol that take more than one (R237). -/
def State.applyRequest (s : State) (m : BulkMsg) : State :=
  let k := bulkPair m
  let p := Tab.getD s.net.pairs k {}
  if (if m.pool.isSome then m.last && p.parts.isEmpty else !putsBytes m || m.tile.isEmpty) then s.serve m
  else if !m.last then (s.modNet fun n => { n with pairs := Tab.put k { p with parts := p.parts ++ [m] } n.pairs }).answerOut m (s.answerTo m 3 [] 0)
  else (s.modNet fun n => { n with pairs := Tab.put k { p with parts := [] } n.pairs }).serve (joinParts p.parts m)

/-- Apply the held request whose turn has come, and those behind it (R241). -/
def State.drainPair (s : State) (k : Nat) : Nat → State
  | 0 => s
  | fuel + 1 =>
    let p := Tab.getD s.net.pairs k {}
    match p.early.find? fun m => m.seq == p.expect with
    | none => s
    | some m =>
      let p' := { p with expect := p.expect + 1, early := p.early.filter fun x => x.seq != p.expect }
      State.drainPair ((s.modNet fun n => { n with pairs := Tab.put k p' n.pairs }).applyRequest m) k fuel

/-- A request takes its turn in its pair: applied with those it frees, held while it is early, discarded if it precedes the
SEQ expected (R241, R356). -/
def State.sequence (s : State) (m : BulkMsg) : State :=
  let k := bulkPair m
  let p := Tab.getD s.net.pairs k {}
  let ahead := (m.seq - p.expect).toNat
  if ahead ≥ 2 ^ 31 || p.early.any (fun x => x.seq == m.seq) || (ahead != 0 && p.early.length ≥ 63) then s
  else (s.modNet fun n => { n with pairs := Tab.put k { p with early := p.early ++ [m] } n.pairs }).drainPair k 64

/-! ## Replies (R242) -/

/-- The bytes that an answer brings, where they stand in the tile's supply. -/
def Sent.bytes (q : Sent) (payload : List Byte) : Mem := (splitRuns q.keys payload).foldl (fun m x => Mem.writeN m x.1 x.2) []

/-- The requests of a tile. -/
def State.tileSent (s : State) (core strand num : Nat) : List Sent := s.net.sent.filter fun q => q.core == core && q.strand == strand && q.num == num

/-- Forget a tile's requests. -/
def State.dropSent (s : State) (core strand num : Nat) : State :=
  s.modNet fun n => { n with sent := n.sent.filter fun q => !(q.core == core && q.strand == strand && q.num == num) }

/-- Every request of a tile is answered: the tile goes on with what the answers brought (R142, R218). -/
def State.tileAnswered (s : State) (core strand num : Nat) : State :=
  let qs := s.tileSent core strand num
  if qs.any fun q => q.got.isNone then s
  else
    match s.ownerOf core with
    | none => s.dropSent core strand num
    | some p =>
      let bytes := qs.foldl (fun m q => (q.got.getD []).foldl (fun m c => Mem.write m c.1 c.2) m) []
      let wrote := qs.any fun q => putsBytes q.msg && !q.msg.payload.isEmpty
      let granted := qs.any fun q => putsBytes q.msg
      let io : Supply := { remote := some bytes, written := wrote, granted := granted, host := qs.findSome? Sent.host }
      let at' := ((s.strand core strand).flight num).map Flight.tile
      let s1 := (s.modFlight core strand num fun y => { y with prog := .pending }).driveTiles p core strand num io
      let goes : Bool := match (s1.strand core strand).flight num with
        | some y => y.prog == Prog.remote && (some y.tile == at')
        | none => false
      if goes then s1
      else s1.modNet fun n => { n with sent := n.sent.filter fun q => !(q.core == core && q.strand == strand && q.num == num && q.got.isSome) }

/-- A reply or acknowledgement from another package is matched to its request (R242); one under an old winding, and a second
one, are dropped (R356, R498). -/
def State.matchReply (s : State) (m : BulkMsg) : State :=
  match s.net.sent.find? fun q => q.msg.stream == m.stream && q.msg.seq == m.seq && q.msg.dstPkg == m.srcPkg && q.msg.sys == m.sys && q.got.isNone with
  | none => s
  | some q =>
    if q.core == poolCore then (s.modNet fun n => { n with sent := n.sent.filter fun x => x != q }).poolReply q m
    else if m.winding != (s.pav (bulkPav m)).winding then s
    else if q.core == gaoldCore then
      let s1 := s.modNet fun n => { n with sent := n.sent.filter fun x => x != q }
      match (s.pav q.strand).accepting.find? fun a => a.post == q.num with
      | none => s1
      | some a =>
        let at' := (q.keys.headD (0, 0)).1
        let pg := at' / 65536
        let more := s1.net.sent.any fun x => x.core == gaoldCore && x.strand == q.strand && x.num == q.num && (x.keys.headD (0, 0)).1 / 65536 == pg
        if m.addr != 0 then s1.acceptRun q.strand { a with refused := pg :: a.refused }
        else
          let b := { a with bytes := Mem.writeN a.bytes at' m.payload }
          if more then s1.modPav q.strand fun v => { v with accepting := v.accepting.map fun x => if x.post == b.post then b else x }
          else s1.acceptRun q.strand { b with pages := b.pages ++ [pg] }
    else if q.msg.kind == 4 then
      let s1 := s.modNet fun n => { n with sent := n.sent.filter fun x => x != q }
      -- the bytes it sent count in LINK (R445, R446)
      ((s1.finishFlight q.core q.strand q.num).modPav (bulkPav m) fun v =>
        { v with sends := v.sends.filter fun x => !(x.core == q.core && x.strand == q.strand && x.num == q.num) }).count (bulkPav m) 1
          ((q.keys.headD (0, 0)).2)
    else if m.addr != 0 then
      let s1 := s.dropSent q.core q.strand q.num
      match (s.strand q.core q.strand).flight q.num with
      | none => s1
      | some x => s1.tileKernelFault q.core q.strand x 0x13 (winDetail q.msg.dstPkg.toNat q.msg.addr.toNat (m.addr.toNat / 65536) (m.addr.toNat % 65536))
    else
      let s1 := s.modNet fun n => { n with sent := n.sent.map fun (x : Sent) => if x == q then { x with got := some (q.bytes m.payload) } else x }
      s1.tileAnswered q.core q.strand q.num

/-- A reply arrives; the next request of its pair that waits may leave (R241, R242). -/
def State.replyIn (s : State) (m : BulkMsg) : State :=
  match s.net.sent.find? fun q => q.msg.stream == m.stream && q.msg.seq == m.seq && q.msg.dstPkg == m.srcPkg && q.msg.sys == m.sys && q.got.isNone with
  | none => s
  | some q => (s.matchReply m).sendNext (seqKey q.msg)

/-- A bulk message arrives at this package: passed on if it is for another, dropped if its winding is stale, a reply matched,
a TSEND posted, any other request sequenced (R240 to R243, R354, R498, R499). No unit sends one that is not formed as R235 to R239
have it. -/
def State.bulkIn (s : State) (m : BulkMsg) : State :=
  if m.dstPkg.toNat != s.ownPkg then s.sendOut m
  else if !m.formed then s
  else if m.isReply then s.replyIn m
  else
    match s.windingCheck m with
    | none => s
    | some s1 => if m.kind == 4 then s1.serveSend m else s1.sequence m

/-- BULK_MESSAGE_ARRIVE (R241). -/
def execBulkMessageArrive (m : BulkMsg) (s : State) : Host.Outcome State Fault Refusal := ok (s.bulkIn m)

/-- REPLY_ARRIVE (R242). -/
def execReplyArrive (m : BulkMsg) (s : State) : Host.Outcome State Fault Refusal :=
  ok (if m.dstPkg.toNat == s.ownPkg && m.isReply && m.formed then s.replyIn m else s)

/-- WINDOW_REQUEST_RECEIVE: the holding package checks a window tile request in its turn (R218). -/
def execWindowRequestReceive (m : BulkMsg) (s : State) : Host.Outcome State Fault Refusal :=
  if m.dstPkg.toNat != s.ownPkg || !(m.kind == 5 || m.kind == 6) || !m.formed then ok s
  else match s.windingCheck m with | some s1 => ok (s1.sequence m) | none => ok s

/-! ## Lanes of on-package links (R18, R511, R516) -/

/-- A pavilion has own cores, own channels or stream engines on a die (R516). -/
def State.onDie (s : State) (p d : Nat) : Bool :=
  let v := s.pav p
  v.bound && ((s.coresOf p).any (fun x => dieOf x.2 == d) || v.ownChannels.any (fun q => q / 96 == d) || v.streams.any fun e => e / 16 == d)

/-- Pavilions with something on a die. -/
def State.pavsOnDie (s : State) (d : Nat) : List Nat := (s.pavs.map Prod.fst).filter fun p => s.onDie p d

/-- A lane of an on-package link is replaced by a spare of its 64, or its die is degraded (R516, R520, R564). -/
def State.spareLane (s : State) (loc lane : Nat) : State :=
  let d := loc / 1024 % 4
  let k := loc * 65536 + lane / 64
  let n := Tab.getD s.net.lanes k 0
  let s0 := (s.pavsOnDie d).foldl (fun s p => s.unrepeatable p 2) s
  if n < 2 then
    (s0.modNet fun x => { x with lanes := Tab.put k (n + 1) x.lanes, lanesSpared := min 65535 (x.lanesSpared + 1), hopFails := Tab.drop loc x.hopFails }).raisePf0
      0x0045 0 (detailWords [loc, lane])
  else
    let s1 := s0.modNet fun x => { x with dieDegraded := x.dieDegraded ||| BitVec.ofNat 4 (2 ^ d), hopFails := Tab.drop loc x.hopFails }
    (s.pavsOnDie d).foldl (fun s p => s.startReset p 0x0B loc []) s1

/-- ONPKG_FLIT_ERROR: the hop sends the flit again; at the third failure in a row its lane is taken out (R511). -/
def execOnpkgFlitError (loc lane : Nat) (s : State) : Host.Outcome State Fault Refusal :=
  if !locOfLink loc || lane ≥ 65536 then noUnit
  else
    let n := Tab.getD s.net.hopFails loc 0 + 1
    ok (if n < 3 then s.modNet fun x => { x with hopFails := Tab.put loc n x.hopFails } else s.spareLane loc lane)

/-- ONPKG_LANE_SPARE: a failed or worn lane of a mesh link, express link or seam bridge (R516). -/
def execOnpkgLaneSpare (loc lane : Nat) (s : State) : Host.Outcome State Fault Refusal :=
  if !locOfLink loc || lane ≥ 65536 then noUnit else ok (s.spareLane loc lane)

/-- Traffic of a pavilion may cross a bridge edge: it has units on two dies whose path takes the edge (R14, R233). -/
def State.usesEdge (s : State) (p e : Nat) : Bool :=
  (List.range 4).any fun a => (List.range 4).any fun b => s.onDie p a && s.onDie p b && (edgesOf a b).contains e

/-- BRIDGE_LANE_REPAIR: a lane of a bridge module is replaced from the module's redundant lanes, which only pauses traffic
(R18). The spec gives no number of them, and the model repairs without limit (DESIGN CHOICE, notes/assumptions/71.md).
A pavilion whose traffic may cross the edge is no longer repeatable (R564). -/
def execBridgeLaneRepair (edge module lane : Nat) (s : State) : Host.Outcome State Fault Refusal :=
  if edge ≥ 4 || module ≥ 40 || lane ≥ 64 then noUnit
  else
    let k := edge * 64 + module
    let s1 := s.modNet fun x => { x with bridgeLanes := Tab.put k (Tab.getD x.bridgeLanes k 0 + 1) x.bridgeLanes }
    ok ((((s.pavs.map Prod.fst).filter fun p => s.usesEdge p edge)).foldl (fun s p => s.unrepeatable p 2) s1)

end Sys2Proof.Machine
end

