-- ==== Sys2Proof/Machine/Time.lean ====
section
/-! DEFINITION. TIME (R251 to R253, R359, R361): its ticks, its broadcasts, its register, and what counts ticks (R445, R500). -/

namespace Sys2Proof

/-- The round trip to the peer in ps, half of it in ns, and the offset of this package from the peer in ps (R359). -/
def TimeStamp.round (t : TimeStamp) : Int := (t.got - t.sent) - (t.peerSent - t.peerGot)
def TimeStamp.delayNs (t : TimeStamp) : Nat := (t.round / 2000).toNat
def TimeStamp.offsetPs (t : TimeStamp) : Int := ((t.sent - t.peerGot) + (t.got - t.peerSent)) / 2

end Sys2Proof

namespace Sys2Proof.Machine

/-- TIME advances: REFCLK runs, from which the always-on island counts (R251, R611, R612, R616). -/
def State.ticking (s : State) : Bool := s.boot.refclk

/-- Movement of the tick edge in 64 ticks: at most 625 ps towards the parent's (R359). -/
def slewStep (toMove : Int) : Int := if toMove > 625 then 625 else if toMove < -625 then -625 else toMove

/-- Ticks by which TIME advances in a REFCLK cycle, and the slewing after it: one movement in any 64 ticks (R359). -/
def Tsync.advance (t : Tsync) : Nat × Tsync :=
  if t.since < 64 || t.toMove == 0 then (1, { t with since := min 64 (t.since + 1) })
  else
    let d := slewStep t.toMove
    let w := t.slew + d
    let t1 := { t with toMove := t.toMove - d, slew := w, since := 1 }
    if w ≥ 10000 then (2, { t1 with slew := w - 10000, since := 2 }) else if w ≤ -10000 then (0, { t1 with slew := w + 10000, since := 0 }) else (1, t1)

/-- What a pavilion counts in `n` ticks: CORE_TICKS while its entry is enabled, and its watchdog (R445, R500). -/
def State.countTicks (s : State) (n : Nat) : State :=
  { s with pavs := Tab.mapVals (fun p v =>
      if !v.bound then v
      else
        let a := { v.acct with coreTicks := v.acct.coreTicks + BitVec.ofNat 64 (n * s.coreCount p) }
        { v with acct := a, watchdog := if s.watching p then v.watchdog + n else v.watchdog }) s.pavs }

/-- TIME advances by one in a REFCLK cycle, or, slewed, by none or two (R251, R359). -/
def State.tickOn (s : State) : State :=
  let a := s.links.tsync.advance
  let s1 := s.countTicks a.1
  { s1 with time := { s1.time with now := s1.time.now + BitVec.ofNat 64 a.1 }, links := { s1.links with tsync := a.2 } }

/-- TIME_BROADCAST: every 1,024 ticks the root sends TIME down the sync tree (R252). -/
def execTimeBroadcast (s : State) : Host.Outcome State Fault Refusal :=
  if s.now.toNat % 1024 != 0 then ok s else ok { s with time := { s.time with lastBroadcast := s.now } }

/-- TIME_NOW_LOW_READ: the low half is returned and the high half latched (R253). -/
def execTimeNowLowRead (s : State) : Host.Outcome State Fault Refusal :=
  if !s.exposed then ok (s.answered 0) else
  ok ((s.modRegs fun r => { r with timeLatch := BitVec.ofNat 32 (s.now.toNat / 2 ^ 32) }).answered (s.now.toNat % 2 ^ 32))

end Sys2Proof.Machine
end

