-- ==== Sys2Proof/Machine/Spans.lean ====
section
/-! DEFINITION. The state of a span (R361 to R366, R370, R373 to R375): which members agree and are reachable, READY, the lead, and
faults. -/

namespace Sys2Proof.Machine

/-! ## What the members tell each other (R363, R364) -/

/-- Fields by which members agree (R363). -/
def agree (a b : SpanAnswer) : Bool :=
  a.last == b.last && a.list == b.list && a.cores == b.cores && a.scr == b.scr && a.tenant == b.tenant && a.repro == b.repro && a.conf == b.conf
    && a.wdog == b.wdog && a.fw == b.fw

/-- The entry of a member here, as it tells it (R363). -/
def State.ownEntry (s : State) (p : Nat) : SpanAnswer :=
  let v := s.pav p
  { pkg := s.ownPkg, spanId := v.spanId, holds := true, last := v.spanLast, list := v.span.list, cores := s.coreCount p, scr := v.scr
    tenant := v.tenant, repro := v.repro, conf := v.conf, wdog := v.fld 287 280, fw := s.fw.version }

/-- The package of a rank. -/
def Pav.member (v : Pav) (r : Nat) : Nat := nthD v.span.members r 0

/-- The ranks of the other members. -/
def Pav.others (v : Pav) : List Nat := (List.range (v.spanLast + 1)).filter fun r => r != v.spanRank

/-- The member here is enabled, SYNC and not being reset. -/
def State.ownUp (s : State) (p : Nat) : Bool :=
  let v := s.pav p
  v.bound && v.isSpan && v.resetting.isNone && s.links.tsync.sync

/-- Another member is enabled, agrees, and is reachable and SYNC (R364). -/
def State.rankUp (s : State) (p r : Nat) : Bool :=
  let v := s.pav p
  ((Tab.find r v.span.told).any fun a => agree a (s.ownEntry p)) && (s.reach (v.member r)).isSome

/-- Members enabled, agreeing, reachable and SYNC (R379). -/
def State.membersUp (s : State) (p : Nat) : Nat := ((s.pav p).others.filter fun r => s.rankUp p r).length + b2n (s.ownUp p)

/-- The largest winding that this member has held for its span (R365). -/
def Pav.spanWinding (v : Pav) : Word16 := if v.span.winding.toNat > v.winding.toNat then v.span.winding else v.winding

/-- Tell a member that this one holds an enabled entry of the span, if it is up (R364). -/
def State.sayReady (s : State) (p r : Nat) : State :=
  let v := s.pav p
  if !s.ownUp p || (s.reach (v.member r)).isNone then s
  else
    (s.modPav p fun v => { v with span := { v.span with said := addNew r v.span.said } }).syncSend (v.member r)
      (.ready v.spanId v.spanRank true v.spanWinding p (s.ownEntry p))

/-- Take back what the members were told: this one is not up. -/
def State.sayDown (s : State) (p : Nat) : State :=
  let v := s.pav p
  v.span.said.foldl (fun s r => s.syncSend (v.member r) (.ready v.spanId v.spanRank false v.spanWinding p (s.ownEntry p)))
    (s.modPav p fun v => { v with span := { v.span with said := [] } })

/-! ## READY (R364 to R366, R370, R375) -/

/-- The release lead in ticks (R370). -/
def leadOf (delays : Tab Nat) : Nat := 22 + ceilDiv (delays.foldl (fun n x => max n x.2) 0) 10

/-- The span is READY once every member is up, and rank 0 knows its route to each: all take the next winding (R364, R365, R370,
R375). -/
def State.tryReady (s : State) (p : Nat) : State :=
  let v := s.pav p
  let routes := v.spanRank != 0 || v.others.all fun r => (Tab.find r v.span.delays).isSome
  if !((v.span.st == 1 || v.span.st == 3) && s.ownUp p && v.others.all (fun r => s.rankUp p r) && routes) then s
  else
    let w := (if v.span.newest.toNat > v.spanWinding.toNat then v.span.newest else v.spanWinding) + 1
    ((s.modPav p fun v => { v with winding := w, span := { v.span with
        st := 2, winding := w, newest := w, lead := if v.spanRank == 0 then leadOf v.span.delays else 0
        versions := v.span.told.map fun x => (x.1, x.2.fw, s.fw.cmdset), runNo := 0, kernels := 0, ahead := [] } }).renumber p).raisePav
      p 0x0031 (detailWords [v.spanId, w.toNat])

/-! ## Faults (R374) -/

/-- The span that a message names. -/
def syncSpan : SyncMsg → Option Nat
  | .arrival id _ _ _ _ _ _ | .release id _ _ _ _ | .flip id _ _ | .fence id _ _ | .ready id _ _ _ _ _ | .abort id _ _ | .commitLost id _
  | .rollup id _ _ _ _ _ | .diverged id _ _ | .run id _ _ _ _ _ _ | .runAnswer id _ _ _ _ | .runGo id _ _ | .slice id _ _ _ _
  | .sliceDone id _ _ _ _ | .applyReady id _ _ _ | .applyEnd id _ _ _ | .firmware id _ _ _ _ | .probe id | .delay id _ _ => some id
  | .renewal _ _ _ _ => none

/-- The span winding that a message carries, but for those by which a span forms or is aborted (R365, R373). -/
def syncWinding : SyncMsg → Option Word16
  | .arrival _ _ _ _ _ _ w | .release _ _ _ _ w | .flip _ _ w | .fence _ _ w | .rollup _ _ _ _ _ w | .diverged _ _ w | .run _ _ _ _ _ _ w
  | .runAnswer _ _ _ _ w | .runGo _ _ w | .slice _ _ _ _ w | .sliceDone _ _ _ _ w | .applyReady _ _ _ w | .applyEnd _ _ _ w
  | .firmware _ _ _ _ w => some w
  | .ready _ _ _ _ _ _ | .abort _ _ _ | .commitLost _ _ | .renewal _ _ _ _ | .probe _ | .delay _ _ _ => none

/-- A bulk message belongs to a member of the span under its winding: to the one here, or to one whose pavilion is known (R374). -/
def State.spanBulk (s : State) (p : Nat) (m : BulkMsg) : Bool :=
  let v := s.pav p
  let pkg := if m.isReply then m.dstPkg.toNat else m.srcPkg.toNat
  !m.sys && m.winding == v.winding
    && ((pkg == s.ownPkg && bulkPav m == p) || v.others.any fun r => v.member r == pkg && Tab.find r v.span.pavs == some (bulkPav m))

/-- Messages of the span under its old winding that wait to be sent or answered are dropped (R374). -/
def State.dropSpanTraffic (s : State) (p : Nat) : State :=
  let v := s.pav p
  let old := fun (i : SyncItem) => syncSpan i.msg == some v.spanId && syncWinding i.msg == some v.winding
  { (s.modNet fun n => { n with sent := n.sent.filter fun q => !(s.spanBulk p q.msg) }) with
    ports := Tab.mapVals (fun _ x => { x with queued := x.queued.filter fun m => !(s.spanBulk p m)
                                              syncQueue := if v.isSpan then x.syncQueue.filter fun i => !old i else x.syncQueue }) s.ports }

/-- What a span keeps once it is FAULTED: its members have to tell that they are up again (R374, R375). -/
def Span.faulted (x : Span) (rank : Nat) : Span :=
  { x with st := 3, faultRank := rank, told := [], said := [], delays := [], versions := [], ready := [], ahead := [] }

/-- The span is FAULTED: its waiting strands are released with PEER_RESET, its uncommitted writes go, and the member is reset. A span
that is FAULTED drops what comes of the old winding (R373 to R375). -/
def State.faultSpan (s : State) (p rank : Nat) : State :=
  let v := s.pav p
  if !v.bound || !v.isSpan || !(v.span.st == 1 || v.span.st == 2) then s
  else
    let s1 := s.modPav p fun v => { v with inbox := [], span := v.span.faulted rank }
    let s2 := (s1.dropSpanTraffic p).peerReset p
    (s2.raisePav p 0x0030 (detailWords [v.spanId, rank])).startReset p 0x08 0 []

/-! ## Changes of routes and of SYNC (R357, R361, R364, R370, R375) -/

/-- What a change of routes or of SYNC does to a span: a READY one with a member that cannot be reached is FAULTED; any other tells the
members that can now be reached, and may be READY. -/
def State.reviewSpan (s : State) (p : Nat) : State :=
  let v := s.pav p
  if !v.bound || !v.isSpan || v.span.st == 0 then s
  else
    let s1 := if s.links.tsync.sync then s else s.sayDown p
    match v.others.find? fun r => (s.reach (v.member r)).isNone with
    | some r =>
      if v.span.st == 2 then s1.faultSpan p (if s.links.tsync.sync then r else v.spanRank)
      else v.others.foldl (fun s r => if v.span.said.contains r then s else s.sayReady p r) s1
    | none => if v.span.st == 2 then s1 else (v.others.foldl (fun s r => if v.span.said.contains r then s else s.sayReady p r) s1).tryReady p

/-- Review every span, lowest pavilion first. -/
def State.reviewSpans (s : State) : State := (s.pavs.map Prod.fst).foldl State.reviewSpan s

/-- Rank 0 measures its routes to the members of a span again (R370). -/
def State.probe (s : State) (p : Nat) : State :=
  let v := s.pav p
  if !v.bound || !v.isSpan || v.spanRank != 0 then s else v.others.foldl (fun s r => s.syncSend (v.member r) (.probe v.spanId)) s

/-- Routes, ports or SYNC have changed. -/
def State.rerouted (s : State) : State := let s1 := s.reviewSpans; (s1.pavs.map Prod.fst).foldl State.probe s1

end Sys2Proof.Machine
end

