-- ==== Sys2Proof/Machine/Links.lean ====
section
/-! DEFINITION. Duncy ports (R342 to R361, R376 to R379): training, lanes, flits, routes, and time over the fabric. -/

namespace Sys2Proof.Machine

/-- Ports of the package (R11). -/
def numPorts : Nat := 16

/-- A saturating 16-bit count. -/
def sat16 (w : Word16) : Word16 := if w == 0xFFFF#16 then w else w + 1

/-- Change a port. -/
def State.modPort (s : State) (p : Nat) (f : Port → Port) : State := s.setPort p (f (s.port p))

/-- The pads of the port's die are held, or its link group is off (R533, R534, R540). -/
def State.portHeld (s : State) (p : Nat) : Bool := s.power.pads.getLsbD (p / 4) || s.power.off.contains (p / 4 * 20 + 18)

/-- A port without traffic: nothing is queued, kept or asked for. -/
def Port.idle (x : Port) : Port :=
  { x with control := [], syncQueue := [], queued := [], part := [], slot := 0, kept := [], replayFrom := none, credits := [8, 64, 64, 64], stamp := none }

/-- A port leaves UP for state `st`; LINK_DOWN is raised, and, unless it has been sent, what was queued or not acknowledged is sent
again over fresh routes, in its order. Routes have changed for spans (R356, R357, R364, R377, R378). -/
def State.leaveUp (s : State) (p st : Nat) (orderly resend : Bool) : State :=
  let x := s.port p
  let s1 := s.setPort p { x.idle with st := st, width := 0, goodLanes := if st == 4 then x.goodLanes else 0 }
  if x.st != 2 then s1
  else
    let s2 := if resend then x.bulk.foldl State.sendOut (x.items.foldl (fun s i => s.syncForward i) s1) else s1
    (s2.raisePf0 0x0034 0 (detailWords [p, b2n orderly])).rerouted

/-- DL_PORT_ENABLE: a write of DL_CTL.ENABLE lets the port train, turning its link group on, or stops it (R345, R534, R540). -/
def execDlPortEnable (port : Nat) (on : Bool) (s : State) : Host.Outcome State Fault Refusal :=
  if port ≥ numPorts then noUnit
  else if !s.exposed then ok s
  else if !s.fuse.portOn port then ok s
  else if on then
    let g := port / 4 * 20 + 18
    let own := if s.domainHeld g then 0#6 else s.power.ownPads &&& BitVec.ofNat 6 (2 ^ (port / 4))
    let s1 := { s with power := { s.power with off := s.power.off.filter fun d => d != g || s.domainHeld d
                                               pads := s.power.pads &&& ~~~own, ownPads := s.power.ownPads &&& ~~~own } }
    let x := s1.port port
    ok (s1.setPort port { x with enable := true, st := if (x.st == 0 || x.st == 4) && !s1.portHeld port then 1 else x.st })
  else ok ((s.leaveUp port 0 false true).modPort port fun x => { x with enable := false, peer := none })

/-- The peer of a port reports the package's own id (R353). -/
def State.selfPeer (s : State) (pkg : Nat) : Bool := match s.regs.pkgId with | some i => i.toNat == pkg | none => false

/-- PORT_TRAIN_COMPLETE: the port is UP on eight lanes or four, and knows its peer's port and, once it has one, its id; a
peer with the package's own id makes it FAILED (R345, R347, R353, R376). A peer without an id reports 4,096. -/
def execPortTrainComplete (port lanes peerPkg peerPort : Nat) (s : State) : Host.Outcome State Fault Refusal :=
  if port ≥ numPorts || peerPort ≥ numPorts || lanes > 9 then noUnit
  else
    let x := s.port port
    if !s.fuse.portOn port || !x.enable || x.quiesce || x.st == 2 || s.portHeld port then ok s
    else
      let peer := if peerPkg < 4096 then some (peerPkg, peerPort) else none
      if lanes < 4 || s.selfPeer peerPkg then ok (s.setPort port { x with st := 4, goodLanes := lanes, width := 0, peer := peer })
      else
        let x1 := { x.idle with st := 2, goodLanes := lanes, width := if lanes ≥ 8 then 2 else 1, laneOut := 15, peer := peer, expect := 0, nextSeq := 0 }
        ok ((s.setPort port x1).raisePf0 0x0033 0 (detailWords [port, peerPkg % 4096])).rerouted

/-- The spare lane takes the place of a lane of an UP port that trained on nine lanes and has its spare left (R345, R346). -/
def State.bringSpare (s : State) (p lane : Nat) : State :=
  let x := s.port p
  if x.st != 2 || x.width != 2 || x.laneOut != 15 || x.goodLanes ≤ 8 then s
  else s.setPort p { x with laneOut := lane, goodLanes := x.goodLanes - 1, sparings := sat16 x.sparings }

/-- DL_LANE_SPARE: a failing lane is replaced by the spare (R346). -/
def execDlLaneSpare (port lane : Nat) (s : State) : Host.Outcome State Fault Refusal :=
  if port ≥ numPorts || lane > 8 then noUnit else ok (s.bringSpare port lane)

/-- DL_SPARE_NOW: a write of DL_CTL with SPARE_NOW brings in the spare in place of LANE_SEL (R346, R379). -/
def execDlSpareNow (port lane : Nat) (s : State) : Host.Outcome State Fault Refusal :=
  if port ≥ numPorts || lane > 15 then noUnit
  else if !s.exposed then ok s
  else if !s.fuse.portOn port then ok s
  else
    let s1 := s.modPort port fun x => { x with laneSel := BitVec.ofNat 4 lane }
    ok (if lane > 8 then s1 else s1.bringSpare port lane)

/-- PORT_RETRAIN_NARROW: a lane fails with the spare in use, or with none left since training; the port runs on four lanes, or is FAILED (R347). -/
def execPortRetrainNarrow (port lanes : Nat) (s : State) : Host.Outcome State Fault Refusal :=
  if port ≥ numPorts || lanes > 9 then noUnit
  else
    let x := s.port port
    if x.st != 2 || (x.laneOut == 15 && x.width == 2 && x.goodLanes > 8) then ok s
    else if lanes < 4 then ok ((s.leaveUp port 4 false true).modPort port fun x => { x with goodLanes := lanes })
    else
      let s1 := s.setPort port { x with width := 1, goodLanes := lanes, sparings := sat16 x.sparings }
      ok (s1.raisePf0 0x0035 0 (detailWords [port, lanes]))

/-! ## Flits (R348 to R351) -/

/-- A flit of a TYPE comes to an UP port: one with an error is counted and asked for again, one out of order is discarded; what it
acknowledges is taken, and, in its turn, its credits. Whether it is taken, and the state (R348 to R350). -/
def State.flitIn (s : State) (port typ : Nat) (f : FlitBits) : Bool × State :=
  let x := s.port port
  if !f.good typ then
    (false, s.setPort port { x with crc := if f.crcOk typ then x.crc else sat16 x.crc
                                    fec := BitVec.ofNat 16 (min 65535 (x.fec.toNat + f.fecBad)), replayFrom := some x.expect })
  else
    let x1 := x.acknowledge f.ack
    if BitVec.ofNat 16 f.fseq != x.expect then (false, s.sendPort port x1)
    else (true, s.sendPort port { x1.credit f.creditVc f.credits with expect := x.expect + 1, replayFrom := none })

/-- A bulk message that came in by a port goes on to the unit that it is for, or by its route (R232, R354). -/
def State.arrive (s : State) (port : Nat) (m : BulkMsg) : State :=
  if m.dstPkg.toNat != s.ownPkg then s.leave (portLoc port) m else (s.enter port m).bulkIn m

/-- DATA_FLIT_RECEIVE: the messages that end in a flit that is taken go on in order (R348 to R350, R353). -/
def execDataFlitReceive (port : Nat) (flit : DataFlit) (s : State) : Host.Outcome State Fault Refusal :=
  if port ≥ numPorts then noUnit
  else if !s.portUp port || s.regs.pkgId.isNone then ok s
  else
    let q := s.flitIn port 1 flit.flit
    ok (if q.1 then flit.msgs.foldl (fun s m => s.arrive port m) q.2 else q.2)

/-- FLIT_REPLAY: the sender sends its kept flits again from an FSEQ, which is counted (R349). -/
def execFlitReplay (port fseq : Nat) (s : State) : Host.Outcome State Fault Refusal :=
  if port ≥ numPorts || fseq ≥ 65536 then noUnit
  else if !s.portUp port then ok s
  else ok (s.modPort port fun x => { x with replays := sat16 x.replays })

/-- What a LINK flit says: a farewell quiesces the port; credits, acknowledgements and requests for a replay are taken; an identity sets
the peer (R345, R348 to R350, R353, R377). -/
def State.linkMsg (s : State) (port : Nat) (m : LinkMsg) : State :=
  let x := s.port port
  match m with
  | .farewell => s.leaveUp port 3 true true
  | .credit vc n => s.sendPort port (x.credit vc n)
  | .ack fseq => s.sendPort port (x.acknowledge fseq)
  | .nak _ => s.setPort port { x with replays := sat16 x.replays }
  | .identity pkg q =>
    let s1 := s.setPort port { x with peer := some (pkg % 4096, q % 16) }
    if s.selfPeer pkg then s1.leaveUp port 4 false true else s1

/-- LINK_FLIT_RECEIVE (R348). -/
def execLinkFlitReceive (port : Nat) (m : LinkFlit) (s : State) : Host.Outcome State Fault Refusal :=
  if port ≥ numPorts then noUnit
  else if !s.portUp port then ok s
  else
    let q := s.flitIn port 3 m.flit
    ok (if q.1 then q.2.linkMsg port m.msg else q.2)

/-- PORT_LEAVE_UP: the link of a port is lost (R356, R378). -/
def execPortLeaveUp (port : Nat) (s : State) : Host.Outcome State Fault Refusal :=
  if port ≥ numPorts then noUnit
  else if (s.port port).st != 2 then ok s
  else ok (s.leaveUp port 4 false true)

/-- DL_QUIESCE: a write of QUIESCE sends what is queued and a farewell, and stops the port (R377). -/
def execDlQuiesce (port : Nat) (s : State) : Host.Outcome State Fault Refusal :=
  if port ≥ numPorts then noUnit
  else if !s.exposed then ok s
  else if !s.fuse.portOn port then ok s
  else
    let s1 := s.modPort port fun x => { x with quiesce := true }
    ok (if (s.port port).st == 2 then s1.leaveUp port 3 true false else s1)

/-! ## Ids and routes -/

/-- DL_PKG_ID_WRITE: the first write after a cold reset gives the package its id, which its UP ports tell their peers (R353, R376). -/
def execDlPkgIdWrite (value : Word32) (s : State) : Host.Outcome State Fault Refusal :=
  if !s.exposed then ok s
  else if s.regs.pkgId.isSome then ok s
  else
    let id := BitVec.ofNat 12 value.toNat
    let up := (List.range 16).filter fun p => (s.port p).st == 2
    let s1 := up.foldl (fun s p => let x := s.port p; s.sendPort p { x with control := x.control ++ [3] }) (s.modRegs fun r => { r with pkgId := some id })
    let same := up.filter fun p => ((s.port p).peer.map Prod.fst) == some id.toNat
    ok (same.foldl (fun s p => s.leaveUp p 4 false true) s1).rerouted

/-- DL_RT_DATA_WRITE: the routing entry of the selected destination, for messages routed after it (R354, R370, R379). -/
def execDlRtDataWrite (value : Word32) (s : State) : Host.Outcome State Fault Refusal :=
  if !s.exposed then ok s else
  ok { s with links := { s.links with routes := Tab.put (s.links.rtSel.toNat % 4096) (value &&& 0x1F1F#32) s.links.routes } }.rerouted

/-- DL_SPAN_BASE_WRITE: the first write after a cold reset names the member lists (R362). -/
def execDlSpanBaseWrite (value : Word64) (s : State) : Host.Outcome State Fault Refusal :=
  if !s.exposed then ok s
  else if s.links.spanBase.isSome then ok s
  else ok { s with links := { s.links with spanBase := some (BitVec.ofNat 64 (value.toNat / 65536 * 65536)) } }

/-! ## Time over the fabric (R358 to R361) -/

/-- Packages that can be the time master, with whether each is SYNC: this one if it is eligible and has an id, and those that the peers
follow and that can be reached (R358). -/
def State.masters (s : State) : List (Nat × Bool) :=
  let t := s.links.tsync
  (if t.eligible && s.regs.pkgId.isSome then [(s.ownPkg, t.sync)] else [])
    ++ (List.range 16).filterMap fun p => if s.portUp p then ((s.port p).stamp.map fun x => (x.master, x.sync)).filter fun x => (s.routeTo x.1).isSome else none

/-- The time master: the SYNC one of lowest id, or, with none SYNC, the eligible one of lowest id (R358). -/
def State.master (s : State) : Option Nat :=
  let ms := s.masters
  let low := fun (l : List (Nat × Bool)) => l.foldl (fun (b : Option Nat) x => match b with | none => some x.1 | some m => some (min m x.1)) none
  match low (ms.filter Prod.snd) with
  | some m => some m
  | none => low ms

/-- Take a measurement against the parent (R359 to R361). -/
def State.track (s : State) (t : TimeStamp) : State :=
  let y := s.links.tsync
  let off := t.offsetPs + t.masterOffset
  let mag := off.natAbs
  let depth := t.depth + 1
  let good := if mag ≤ 10000 then y.good + 1 else 0
  let lost := y.sync && decide (mag > 15000)
  let sync := if lost then false else y.sync || (decide (good ≥ 16) && decide (depth ≤ 8))
  let jump := !y.sync && t.offsetPs ≤ -10000 && !(s.pavs.any fun x => x.2.bound)
  let ticks := if jump then t.offsetPs.natAbs / 10000 else 0
  let y1 := { y with offsetPs := off, master := BitVec.ofNat 12 t.master, depth := depth, good := good, sync := sync
                     toMove := if jump then 0 else -t.offsetPs }
  let s1 := { s with links := { s.links with tsync := y1 }, time := { s.time with now := s.now + BitVec.ofNat 64 ticks } }
  let s2 := if lost then s1.raisePf0 0x0036 0 (detailWords (lohi (ofSigned 64 off))) else s1
  if sync == y.sync then s2 else s2.rerouted

/-- This package is the time master: it is SYNC by definition (R358). -/
def State.lead (s : State) : State :=
  let y := s.links.tsync
  let s1 := { s with links := { s.links with tsync :=
    { y with offsetPs := 0, master := BitVec.ofNat 12 s.ownPkg, depth := 0, sync := true, toMove := 0 } } }
  if y.sync then s1 else s1.rerouted

/-- The election at a measurement: this package becomes, or stays, the time master if it is the one (R358, R378). -/
def State.elect (s : State) : State := if s.master == some s.ownPkg && s.regs.pkgId.isSome then s.lead else s

/-- TIMESTAMP_EXCHANGE: both ends of an UP port exchange TIMESTAMP flits; the master counts as SYNC, and every other package
tracks its parent, the far end of its route to the master (R358 to R361). -/
def execTimestampExchange (port : Nat) (t : TimeStamp) (s : State) : Host.Outcome State Fault Refusal :=
  if port ≥ numPorts then noUnit
  else if !s.portUp port then ok s
  else
    let q := s.flitIn port 4 t.flit
    if !q.1 then ok q.2
    else
      let x := q.2.port port
      let s1 := q.2.sendPort port { x with stamp := some t, latency := BitVec.ofNat 16 t.delayNs, control := x.control ++ [4] }
      let m := s1.master
      ok (if m == some s1.ownPkg then s1.elect else if (m.bind s1.routeTo) == some port then s1.track t else s1)

end Sys2Proof.Machine
end

