-- ==== Sys2Proof/Machine/PavCheck.lean ====
section
/-! DEFINITION. The consistency check of the pavilion table (R256 to R274, R312, R362, R363, R384, R393). -/

namespace Sys2Proof.Machine

/-- Why a check or apply is refused: the reason, the entry (`none`: set-wide), the lowest bit of the field at fault and the
structure it lies in (0 entry, 1 regulation table, 2 pool table, 3 member list) (R272, R274, R419). -/
structure Finding where
  reason : Nat
  entry : Option Nat := none
  bit : Nat := 0
  struct : Nat := 0
  deriving DecidableEq, Repr

/-- A check of entry `p`: the reason and field where it fails. -/
def deny (p : Nat) (b : Bool) (reason bit : Nat) : Except Finding Unit := if b then .error ⟨reason, some p, bit, 0⟩ else .ok ()

/-! ## Fields by their lowest bits -/

/-- Lowest bits of the fields of a pavilion table entry (R261). -/
def entryFields : List Nat :=
  [0, 1, 2, 3, 4, 5, 8, 17, 26, 32, 64, 80, 92, 104, 113, 120, 121, 122, 128, 192, 256, 272, 273, 280, 288, 320, 336, 352, 368, 384, 768, 1088]

/-- Lowest bits of the fields of a regulation table (R381). -/
def regFields : List Nat :=
  [0, 16, 17, 18] ++ (List.range 4).flatMap (fun k => [256 + 64 * k, 272 + 64 * k, 288 + 64 * k, 292 + 64 * k])
    ++ (List.range 16).flatMap fun r => [512 + 96 * r, 551 + 96 * r, 552 + 96 * r, 554 + 96 * r, 560 + 96 * r, 599 + 96 * r]

/-- The field that holds a bit. -/
def fieldOf (fields : List Nat) (b : Nat) : Nat := (fields.filter fun f => decide (f ≤ b)).foldl max 0

/-! ## Reading the structures -/

/-- The first uncorrectable line of a range of package memory. -/
def State.pkgBad (s : State) (a n : Nat) : Option Nat := s.beds.badIn (pkgKey s.pkgChannels) a n

/-- The package address of the entry of pavilion `p`, and of its member list: package ids of ranks 0 to SPAN_LAST (R257, R362). -/
def State.entryAt (s : State) (p : Nat) : Nat := (s.regs.tableBase.map BitVec.toNat).getD 0 + 256 * p
def State.spanListAt (s : State) (p : Nat) : Nat := ((s.links.spanBase.map BitVec.toNat).getD 0) + p * 8192
/-- The package address of the pool table: that of the register's reset value until it is written (R311, R340). -/
def State.poolTableAt (s : State) : Nat := (s.regs.poolBase.map BitVec.toNat).getD 0

/-- What a check reads: entries and regulation tables of the selected entries, member lists, pool entries with their windows; and, by
entry, the uncorrectable line met in reading it or a structure that it names (R273, R274). -/
structure Staged where
  entries : Tab (BitVec 2048 × BitVec 2048) := []
  pools : List (BitVec 256 × BitVec 256) := []
  lists : Tab Nat := []
  hurt : Tab Finding := []
  deriving DecidableEq, Repr

/-- Read an entry, its regulation table and its member list, and note the first uncorrectable line of them: the field that holds the
line's first bit (DEDUCED: the first field of the line, notes/assumptions/73.md). -/
def State.readEntryOf (s : State) (p : Nat) (g : Staged) : Staged :=
  let base := s.entryAt p
  let e := s.pkgNat base 256
  let v : Pav := { entry := BitVec.ofNat 2048 e }
  let reg := v.bound && decide (v.regRef + 256 ≤ hostArea)
  let lst := v.bound && v.isSpan && decide (s.spanListAt p + 8192 ≤ hostArea)
  let line := fun (b a : Nat) => (b - a) / 64 * 512
  let bad : Option Finding :=
    match s.pkgBad base 256 with
    | some b => some ⟨0x3B, some p, fieldOf entryFields (line b base), 0⟩
    | none =>
      match (if reg then s.pkgBad v.regRef 256 else none) with
      | some b => some ⟨0x3B, some p, fieldOf regFields (line b v.regRef), 1⟩
      | none => if lst && (s.pkgBad (s.spanListAt p) 8192).isSome then some ⟨0x3B, some p, 0, 3⟩ else none
  let n := s.pkgNat (s.spanListAt p) 8192
  { g with entries := Tab.put p (BitVec.ofNat 2048 e, BitVec.ofNat 2048 (if reg then s.pkgNat v.regRef 256 else 0)) g.entries
           lists := if lst then Tab.put p n g.lists else g.lists
           hurt := match bad with | some f => Tab.put p f g.hurt | none => g.hurt }

/-- The packages of ranks 0 to SPAN_LAST in a member list (R362). -/
def listIds (last n : Nat) : List Nat := (List.range (last + 1)).map fun r => bits n (16 * r + 11) (16 * r)

/-- The window entry that a pool entry names, as the table in package memory has it (R313). -/
def State.poolWindowAt (s : State) (e : Nat) : Option Nat :=
  if bitAt e 0 then s.regs.winBase.map fun w => w.toNat + 32 * bits e 43 32 else none

/-- Read the pool table and the windows it names (R313). -/
def State.readPools (s : State) : Except Finding (List (BitVec 256 × BitVec 256)) :=
  let t := s.pkgNat s.poolTableAt 512
  let es := (List.range 16).map fun i => bits t (256 * i + 255) (256 * i)
  if (s.pkgBad s.poolTableAt 512).isSome || es.any (fun e => ((s.poolWindowAt e).bind fun a => s.pkgBad a 32).isSome) then .error ⟨0x3B, none, 0, 2⟩
  else .ok (es.map fun e => (BitVec.ofNat 256 e, BitVec.ofNat 256 (((s.poolWindowAt e).map fun a => s.pkgNat a 32).getD 0)))

/-- Read the pool table and the selected entries (R273, R313). -/
def State.readStaged (s : State) (sel : List Nat) : Except Finding Staged := do
  let ps ← s.readPools
  return sel.foldl (fun g p => s.readEntryOf p g) { pools := ps }

/-- The uncorrectable line of package memory that a finding names (R175). -/
def State.hurtLine (s : State) (mask : Nat) (f : Finding) : Option Nat :=
  if f.reason != 0x3B then none
  else
    match f.entry, f.struct with
    | none, 0 => s.pkgBad mask 64
    | none, _ =>
      match s.pkgBad s.poolTableAt 512 with
      | some b => some b
      | none => (List.range 16).findSome? fun i => (s.poolWindowAt (s.pkgNat (s.poolTableAt + 32 * i) 32)).bind fun a => s.pkgBad a 32
    | some p, 0 => s.pkgBad (s.entryAt p) 256
    | some p, 1 => s.pkgBad ({ entry := BitVec.ofNat 2048 (s.pkgNat (s.entryAt p) 256) } : Pav).regRef 256
    | some p, _ => s.pkgBad (s.spanListAt p) 8192

/-- A check that meets an uncorrectable line counts and logs it, and goes on to its refusal (R175, R181). -/
def State.tableError (s : State) (mask : Nat) (f : Finding) : State :=
  match s.hurtLine mask f with
  | some b => s.bedUncorrectable (pkgKey s.pkgChannels b)
  | none => s

/-! ## The resulting set (R264, R271) -/

/-- The resulting set: selected entries as staged, the others as cached; every entry that will be enabled. -/
def State.resulting (s : State) (g : Staged) : Tab Pav :=
  let all := g.entries.foldl (fun (t : Tab Pav) x => Tab.put x.1 { s.pav x.1 with entry := x.2.1, reg := { (s.pav x.1).reg with table := x.2.2 } } t) s.pavs
  all.filter fun x => x.2.bound

/-- Children of an entry in a set. -/
def childrenIn (set : Tab Pav) (p : Nat) : Tab Pav := set.filter fun x => x.2.hasParent && x.2.parent == p

/-- Own cores of an entry in cluster `k`: its count less its children's (R264). -/
def ownCoresIn (set : Tab Pav) (p k : Nat) : Nat :=
  match Tab.find p set with
  | some v => v.coresIn k - (childrenIn set p).foldl (fun n x => n + x.2.coresIn k) 0
  | none => 0

/-- Own cores of an entry. -/
def ownCount (set : Tab Pav) (p : Nat) : Nat := (List.range 64).foldl (fun n k => n + ownCoresIn set p k) 0

/-- Own streams of an entry. -/
def ownStreams (set : Tab Pav) (p : Nat) : Nat :=
  match Tab.find p set with
  | some v => v.streamsGranted - (childrenIn set p).foldl (fun n x => n + x.2.streamsGranted) 0
  | none => 0

/-- Entry `q` is a descendant of `p` or `p` itself, by at most `fuel` parents. -/
def descends (set : Tab Pav) (p : Nat) : Nat → Nat → Bool
  | 0, _ => false
  | fuel + 1, q => q == p || (match Tab.find q set with
    | some v => v.hasParent && descends set p fuel v.parent
    | none => false)

/-! ## Pools (R311, R312) -/

namespace PoolEntry
def enabled (e : Nat) : Bool := bitAt e 0
def holder (e : Nat) : Nat := bits e 24 16
def window (e : Nat) : Nat := bits e 43 32
def base (e : Nat) : Nat := bits e 127 64
def pages (e : Nat) : Nat := bits e 159 128
/-- Every reserved field is zero, and the fields lie in their ranges. -/
def clean (e : Nat) : Bool :=
  bits e 15 1 == 0 && bits e 31 25 == 0 && bits e 63 44 == 0 && bits e 255 160 == 0 && bits e 81 64 == 0 && bits e 127 119 == 0
    && decide (1 ≤ pages e) && decide (pages e ≤ 4194304)
/-- Two entries name one window or overlap in a holder's DVA space. -/
def clash (e f : Nat) : Bool :=
  window e == window f || (holder e == holder f && decide (base e < base f + pages f * 262144) && decide (base f < base e + pages e * 262144))
end PoolEntry

/-- The entry's own conditions (R312), without those against other pools. -/
def poolFits (set : Tab Pav) (e w : Nat) : Bool :=
  PoolEntry.enabled e && PoolEntry.clean e && (Tab.find (PoolEntry.holder e) set).isSome && Win.enabled w && Win.rd w && Win.wr w
    && Win.owner w == PoolEntry.holder e && Win.base w == PoolEntry.base e && Win.length w == PoolEntry.pages e * 262144

/-- Pool `i` is defined: an entry that fits, and no pool that fits clashes with it (R312). -/
def poolDefined (set : Tab Pav) (ps : List (BitVec 256 × BitVec 256)) (i : Nat) : Bool :=
  let at' := fun (j : Nat) => ((nthD ps j (0, 0)).1.toNat, (nthD ps j (0, 0)).2.toNat)
  let fits := fun (j : Nat) => poolFits set (at' j).1 (at' j).2
  fits i && (List.range 16).all fun j => j == i || !fits j || !PoolEntry.clash (at' i).1 (at' j).1

/-! ## Regulation tables (R381 to R384) -/

/-- A regulation table is malformed (R384). -/
def rgBad (t : Nat) (compat : Bool) : Bool :=
  let cls := fun (k : Nat) => bits t (256 + 64 * k + 63) (256 + 64 * k)
  bits t 15 0 != 1 || bits t 255 18 != 0
    || (List.range 4).any (fun k => let c := cls k
        bits c 63 36 != 0 || bits c 35 32 == 0 || (1 ≤ bits c 15 0 && bits c 15 0 ≤ 9) || (!compat && bits c 15 0 == 0 && bits c 31 16 != 0))
    || (List.range 16).any (fun r => let x := rgRange t r
        bits t (512 + 96 * r + 47) (512 + 96 * r + 42) != 0 || bits t (512 + 96 * r + 95) (512 + 96 * r + 87) != 0 || (x.1 && decide (x.2.2 < x.2.1))
          || (List.range r).any fun q => let y := rgRange t q; x.1 && y.1 && decide (x.2.1 ≤ y.2.2) && decide (y.2.1 ≤ x.2.2))

/-- The shares on channel `q` of the entries of a set exceed 80 % of the nominal derated bandwidth (R393). -/
def admissionOver (set : Tab Pav) (q : Nat) : Bool :=
  let g := (set.filter fun x => bitAt x.2.chMask q).foldl (fun (g : Nat × Nat) x =>
    let n := (x.2.rgMinBw 0 + x.2.rgMinBw 1 + x.2.rgMinBw 2 + x.2.rgMinBw 3) * 100
    (g.1 * x.2.chans + n * g.2, g.2 * x.2.chans)) (0, 1)
  decide (g.1 * dbDen * 10 > 8 * dbNum * g.2)

/-! ## The checks of an entry (R273, R274) -/

/-- The first reserved field of an entry that is not zero (R261, R274). -/
def reservedField (v : Pav) : Option Nat :=
  let zero := fun (hi lo : Nat) => v.fld hi lo == 0
  ([(7, 5), (17, 17), (31, 26), (127, 122), (279, 273), (319, 288), (383, 368), (2047, 1088)].find? fun x =>
    if x.2 == 17 then !v.hasParent && v.parent != 0 else !zero x.1 x.2).map Prod.snd

/-- The first field that an entry enabled before and after must keep and does not (MODE_CHANGE), in ascending bits. -/
def modeField (old new : Pav) : Option Nat :=
  ([(1, 1), (2, 2), (3, 3), (4, 4), (16, 8), (25, 17), (63, 32), (79, 64), (91, 80), (103, 92)].find? fun x =>
    old.fld x.1 x.2 != new.fld x.1 x.2).map Prod.snd

/-- Working bindable cores of a cluster: those of its bindable set (R12, R13, R516, R518). -/
def State.bindable (s : State) (k : Nat) : Nat :=
  if s.net.dieDegraded.getLsbD (k / 16) then 0 else ((s.bindSet k).filter fun c => (s.core c).health == .working).length

/-- A staged entry as a check asks the members to agree with it (R363). -/
def State.stagedEntry (s : State) (p : Nat) (v : Pav) (list : Nat) (set : Tab Pav) : SpanAnswer :=
  { pkg := s.ownPkg, spanId := v.spanId, holds := true, last := v.spanLast, list := list, cores := ownCount set p, scr := v.scr, tenant := v.tenant
    repro := v.repro, conf := v.conf, wdog := v.fld 287 280, fw := s.fw.version }

/-- A member of the span disagrees with the entry (R363, R368). -/
def State.spanDiffers (s : State) (p : Nat) (v : Pav) (list : Nat) (set : Tab Pav) : Bool :=
  s.links.answers.any fun a => a.spanId == v.spanId && (listIds v.spanLast list).contains a.pkg && a.holds && !agree a (s.stagedEntry p v list set)

/-- A listed member cannot be reached: there is no route to it, this package is not SYNC, or no answer comes (R357, R361, R363). -/
def State.spanUnreached (s : State) (v : Pav) (list : Nat) : Bool :=
  (listIds v.spanLast list).any fun g => g != s.ownPkg && ((s.reach g).isNone || !(s.links.answers.any fun a => a.pkg == g && a.spanId == v.spanId))

/-- A member list is well formed for the entry (R362). -/
def State.listFits (s : State) (p : Nat) (v : Pav) (list : Option Nat) : Bool :=
  match list with
  | none => decide (s.spanListAt p + 8192 ≤ hostArea)
  | some n =>
    let l := listIds v.spanLast n
    s.regs.pkgId.isSome && nthD l v.spanRank 4096 == s.ownPkg && (l.foldl (fun (m : List Nat) x => addNew x m) []).length == l.length

/-- The checks of span fields (R274, 0x16 to 0x1A). -/
def State.checkSpan (s : State) (p : Nat) (v : Pav) (set cmp : Tab Pav) (list : Option Nat) : Except Finding Unit := do
  let par := if v.hasParent then Tab.find v.parent set else none
  deny p ((v.isSpan && (v.hasParent || !(childrenIn cmp p).isEmpty)) || (par.map Pav.isSpan).getD false) 0x16 64
  deny p (v.spanRank > v.spanLast || (!v.isSpan && (v.spanRank != 0 || v.spanLast != 0)) || (v.isSpan && !s.listFits p v list)) 0x17 80
  deny p (v.isSpan && cmp.any fun x => x.1 != p && x.2.spanId == v.spanId) 0x18 64
  let l := list.getD 0
  deny p (v.isSpan && s.spanUnreached v l) 0x19 64
  deny p (v.isSpan && s.spanDiffers p v l set) 0x1A 64

/-- The checks of cores and local store (0x1B to 0x21). -/
def State.checkCores (s : State) (p : Nat) (v : Pav) (set cmp : Tab Pav) : Except Finding Unit := do
  let ks := List.range 64
  let all := Tab.put p v cmp
  deny p (v.ownCores == 0) 0x1B 768
  deny p (ks.any fun k => decide (v.coresIn k > s.fuse.perCluster)) 0x1C 768
  let top := all.filter fun x => !x.2.hasParent
  deny p (!v.hasParent && ks.any fun k => decide (top.foldl (fun n x => n + x.2.coresIn k) 0 > s.fuse.perCluster)) 0x1D 768
  let exceeds := fun (q : Nat) (w : Pav) => ks.any fun k => decide ((childrenIn all q).foldl (fun n x => n + x.2.coresIn k) 0 > w.coresIn k)
  let par := if v.hasParent then Tab.find v.parent set else none
  deny p (exceeds p v || (par.map (exceeds v.parent)).getD false) 0x1E 768
  deny p (ks.any fun k => v.coresIn k != 0 && decide (max (v.coresIn k) (top.foldl (fun n x => n + x.2.coresIn k) 0) > s.bindable k)) 0x1F 768
  deny p (v.scr < 16 || v.scr > 384) 0x20 104
  let pinned := v.slices.foldl (fun n x => if x.2.pinned then n + x.2.pieces else n) 0
  deny p (pinned > ownCount set p * (384 - v.scr)) 0x21 104

/-- Granule range [first, first + count) of an entry. -/
def chRange (v : Pav) : Nat × Nat := (v.chFirst, v.chFirst + v.chCount)

/-- Two entries share a channel and a granule of their ranges. -/
def chOverlap (v w : Pav) : Bool :=
  v.chMask &&& w.chMask != 0 && decide ((chRange v).1 < (chRange w).2) && decide ((chRange w).1 < (chRange v).2)

/-- A child's channels or granules lie outside what its parent leaves it (R267). -/
def chOutside (child par : Pav) : Bool :=
  child.chMask &&& par.chMask != child.chMask || decide (child.chFirst < par.chFirst + par.chOwn)
    || decide (child.chFirst + child.chCount > par.chFirst + par.chCount)

/-- The checks of channels and memory (0x22 to 0x2F). -/
def State.checkChannels (s : State) (p : Nat) (v old : Pav) (set cmp : Tab Pav) : Except Finding Unit := do
  let qs := v.channels
  deny p (v.chMask == 0 || (v.chOwn == 0 && v.chCount == 0)) 0x22 384
  deny p (qs.any fun q => !s.fuse.populated q) 0x23 384
  deny p (qs.any fun q => s.spareOf (groupOf q) == q) 0x24 384
  deny p (qs.any fun q => (s.channel q).retired || s.net.dieDegraded.getLsbD (q / 96)) 0x25 384
  deny p (v.chFirst < 4) 0x26 320
  deny p (v.chFirst + v.chCount > granulesPerChannel) 0x27 336
  deny p (v.chOwn > v.chCount || (v.chOwn == 0 && ownCount set p != 0)) 0x28 352
  let sibling := fun (x : Nat × Pav) => x.1 != p && (if v.hasParent then x.2.hasParent && x.2.parent == v.parent else !x.2.hasParent)
  deny p (cmp.any fun x => sibling x && chOverlap v x.2) 0x29 384
  let par := if v.hasParent then Tab.find v.parent set else none
  deny p ((par.map (chOutside v)).getD false || (childrenIn cmp p).any fun x => chOutside x.2 v) 0x2A 320
  if old.bound then
    deny p (old.chFirst != v.chFirst) 0x2B 320
    deny p (old.chOwn != v.chOwn) 0x2B 352
    deny p (old.chMask != v.chMask) 0x2B 384
  deny p (if v.chOwn == 0 then v.ptRoot != 0 else v.ptRoot % 65536 != 0 || decide (v.ptRoot + 65536 > v.capacity)) 0x2C 128
  deny p (v.regRef % 256 != 0 || v.regRef + 256 > hostArea) 0x2D 192
  deny p (rgBad v.reg.table.toNat v.rgCompat) 0x2E 192
  let all := Tab.put p v cmp
  deny p (qs.any fun q => admissionOver all q) 0x2F 192

/-- The granules of an entry's channel set: its channels, CH_FIRST and CH_OWN (R262, R264). -/
def Pav.granules (v : Pav) : Nat × Nat × Nat := (v.chMask, v.chFirst, v.chOwn)

/-- The checks of grants, pools and modes (0x30 to 0x3A). -/
def State.checkGrants (s : State) (p : Nat) (v old : Pav) (set cmp : Tab Pav) (ps : List (BitVec 256 × BitVec 256)) (tick : Nat) :
    Except Finding Unit := do
  let all := Tab.put p v cmp
  let par := if v.hasParent then Tab.find v.parent set else none
  let kids := childrenIn cmp p
  let streams := fun (t : Tab Pav) => t.foldl (fun n x => n + x.2.streamsGranted) 0
  deny p (v.streamsGranted != 0 && !s.fuse.stream) 0x30 113
  deny p (!v.hasParent && streams (all.filter fun x => !x.2.hasParent) > 64) 0x31 113
  deny p (v.mirror && !s.fuse.mirror) 0x32 120
  deny p (v.replay && !s.fuse.replay) 0x33 121
  deny p (v.replay && cmp.any fun x => x.1 != p && x.2.replay && !descends set p 512 x.1 && !descends set x.1 512 p) 0x34 121
  deny p (streams kids > v.streamsGranted || (par.map fun w => decide (streams (childrenIn all v.parent) > w.streamsGranted)).getD false) 0x35 113
  deny p ((v.mirror && (par.map fun w => !w.mirror).getD false) || (!v.mirror && kids.any fun x => x.2.mirror)) 0x35 120
  deny p ((v.replay && (par.map fun w => !w.replay).getD false) || (!v.replay && kids.any fun x => x.2.replay)) 0x35 121
  deny p ((List.range 16).any fun i => bitAt v.poolMask i && !poolDefined set ps i) 0x36 256
  deny p ((par.map fun w => v.poolMask &&& w.poolMask != v.poolMask).getD false || kids.any fun x => x.2.poolMask &&& v.poolMask != x.2.poolMask) 0x37 256
  let halves := ((List.range 64).filter fun k => v.coresIn k != 0).map fun k => (Tab.getD s.power.halves (halfOfCluster k) {}).div
  deny p (v.cycle && halves.any fun d => d != halves.headD 0) 0x38 2
  deny p (v.cycle && v.isSpan) 0x39 2
  let changes := old.bound && ((List.range 64).any (fun k => (s.coresOf p |>.filter fun x => clusterOf x.2 == k).length != ownCoresIn set p k)
    || ownStreams set p != old.streams.length || v.granules != old.granules)
  deny p (tick != 0 && v.isSpan && changes) 0x3A 64

/-- Check a selected entry of the resulting set against the entries of `cmp` (R273). -/
def State.checkEntry (s : State) (p : Nat) (v : Pav) (set cmp : Tab Pav) (g : Staged) (tick : Nat) : Except Finding Unit := do
  let old := s.pav p
  let held := s.power.holds.any fun d => decide (d < 80) && decide (d % 20 < 16) && v.needs d
  match Tab.find p g.hurt with
  | some f => .error f
  | none => pure ()
  deny p (v.bound && (s.power.nap || s.power.dozing || held)) 0x0B 768
  match reservedField v with
  | some b => .error ⟨0x0C, some p, b, 0⟩
  | none => pure ()
  if !v.bound then deny p (!(childrenIn cmp p).isEmpty) 0x15 0
  else
    deny p (old.freeze.frozen || !old.freeze.busy.isEmpty) 0x0D 0
    match (if old.bound then modeField old v else none) with
    | some b => .error ⟨0x0E, some p, b, 0⟩
    | none => pure ()
    deny p (v.tenant == 0) 0x0F 32
    deny p (v.hostFn > s.regs.vfs) 0x10 8
    deny p (cmp.any fun x => x.1 != p && x.2.hostFn == v.hostFn) 0x11 8
    deny p (v.conf && v.hostFn == 0) 0x12 3
    deny p (v.hasParent && descends set p 512 v.parent) 0x13 17
    deny p (v.hasParent && (Tab.find v.parent set).isNone) 0x14 17
    s.checkSpan p v set cmp (Tab.find p g.lists)
    s.checkCores p v set cmp
    s.checkChannels p v old set cmp
    s.checkGrants p v old set cmp g.pools tick

/-- Check the selected entries in ascending order (R273). -/
def State.checkEntries (s : State) (g : Staged) (set : Tab Pav) (sel : List Nat) (tick : Nat) : List Nat → Except Finding Unit
  | [] => .ok ()
  | p :: rest => do
    let e := Tab.getD g.entries p (0, 0)
    let v := { s.pav p with entry := e.1, reg := { (s.pav p).reg with table := e.2 } }
    let cmp := set.filter fun x => decide (x.1 < p) || (x.1 != p && !sel.contains x.1)
    s.checkEntry p v set cmp g tick
    State.checkEntries s g set sel tick rest

/-! ## The set-wide checks (R273) -/

/-- Entries that a stage mask selects. -/
def selected (mask : Nat) : List Nat := (List.range 512).filter fun p => bitAt mask p

/-- A set-wide refusal. -/
def denySet (b : Bool) (reason : Nat) : Except Finding Unit := if b then .error ⟨reason, none, 0, 0⟩ else .ok ()

/-- The set-wide reasons up to STAGE_EMPTY, and the stage mask (R273). -/
def State.checkStage (s : State) (addr : Nat) : Except Finding Nat := do
  denySet s.regs.tableBase.isNone 0x01
  let outside := decide ((s.regs.tableBase.map BitVec.toNat).getD 0 + 131072 > hostArea)
    || decide (s.poolTableAt + 512 > hostArea)
  denySet outside 0x3C
  denySet s.regs.tableLost 0x02
  denySet (s.apply.phase != 0) 0x05
  denySet (addr % 64 != 0 || addr + 64 > hostArea) 0x04
  denySet (s.pkgBad addr 64).isSome 0x3B
  let mask := s.pkgNat addr 64
  denySet (mask == 0) 0x03
  return mask

/-- PV_STATUS after a check or apply that is refused or passes (R272, R287). -/
def State.setReason (s : State) (f : Option Finding) (st : BitVec 2) : State :=
  s.modRegs fun r => match f with
    | none => { r with pvReason := 0, pvSet := false, pvEntry := 0, pvState := st }
    | some x => { r with pvReason := BitVec.ofNat 6 x.reason, pvSet := x.entry.isNone, pvEntry := BitVec.ofNat 9 (x.entry.getD 0), pvState := st }

/-- Response words 1 and 2 of a finding (R419). -/
def Finding.words (f : Finding) : List Nat := [f.entry.getD 0 + (b2n f.entry.isNone) <<< 9, f.bit + f.struct <<< 12]

/-- Memory groups of the tables that a check reads are on (R534). -/
def State.wakeTables (s : State) (addr : Nat) : State :=
  match s.checkStage addr with
  | .error f => if f.reason == 0x03 || f.reason == 0x3B then s.wakePkg addr 64 else s
  | .ok mask => (selected mask).foldl (fun s p => s.wakePkg ((s.regs.tableBase.map BitVec.toNat).getD 0 + 256 * p) 256) (s.wakePkg addr 64)

/-- The whole check of PV_CHECK (R272, R273). -/
def State.check (s : State) (addr : Nat) : Except Finding (Nat × Staged) := do
  let mask ← s.checkStage addr
  let sel := selected mask
  let g ← s.readStaged sel
  s.checkEntries g (s.resulting g) sel 0 sel
  return (mask, g)

def pvCheckForm : CmdForm := { pf0 := true, used := [2 ^ 32 - 1, 2 ^ 32 - 1] }

def startPvCheck (k : Nat) (s : State) : State :=
  s.start k pvCheckForm fun _ s =>
    let addr := (s.mb k).w2 1
    let target := s.regs.epoch + 1
    if s.apply.phase != 0 then
      let f : Finding := ⟨0x05, none, 0, 0⟩
      s.complete k f.reason (f.words ++ [s.regs.pvTarget.toNat])
    else
    let s := s.wakeTables addr
    match s.check addr with
    | .error f =>
      let s1 := { (s.tableError addr f).setReason (some f) 0 with apply := {} }
      s1.complete k f.reason (f.words ++ [s1.regs.pvTarget.toNat])
    | .ok (mask, g) =>
      let a : Apply := { checkAddr := BitVec.ofNat 64 addr, checkMask := BitVec.ofNat 512 mask, checked := true, checkEntries := g.entries
                         checkPools := g.pools, checkLists := g.lists }
      let s1 := ({ s with apply := a }.setReason none 1).modRegs fun r => { r with pvTarget := target }
      s1.complete k 0 [0, 0, target.toNat]

/-- PV_CHECK: reads and checks the selected entries with the rest of the set, and keeps a copy (R270 to R274). `answers` is
what the listed members of spans answer (R363). -/
def execPvCheck (fn slot : Nat) (answers : List SpanAnswer) (s : State) : Host.Outcome State Fault Refusal :=
  post fn slot (opc 0x10) startPvCheck { s with links := { s.links with answers := answers } }

end Sys2Proof.Machine
end

