-- ==== Sys2Proof/Machine/Apply.lean ====
section
/-! DEFINITION. PV_APPLY and the flip (R264 to R269, R275 to R286, R313, R368, R431). -/

namespace Sys2Proof.Machine

/-! ## The new binding (R13, R264 to R266) -/

/-- Cores of a cluster that a pavilion holds and keeps, the lowest first: at most `n` (R13). -/
def State.keptIn (s : State) (p k n : Nat) : List Nat :=
  ((List.range 17).filterMap fun i => let c := k * 17 + i; if s.ownerOf c == some p && (s.core c).health == .working then some c else none).take n

/-- The cores that each entry of a set keeps. -/
def State.keptCores (s : State) (set : Tab Pav) : Tab Nat :=
  set.foldl (fun t x => (List.range 64).foldl (fun t k => (s.keptIn x.1 k (ownCoresIn set x.1 k)).foldl (fun t c => Tab.put c x.1 t) t) t) []

/-- The pavilion of every bound core under a set: what is kept, then the lowest working cores of each cluster's bindable set that
nothing keeps (R13). -/
def State.boundCores (s : State) (set : Tab Pav) : Tab Nat :=
  set.foldl (fun t x => (List.range 64).foldl (fun t k =>
    let need := ownCoresIn set x.1 k - (s.keptIn x.1 k (ownCoresIn set x.1 k)).length
    let free := (List.range 17).filterMap fun i =>
      let c := k * 17 + i; if (Tab.find c t).isNone && (s.core c).health == .working && (s.bindSet k).contains c then some c else none
    (free.take need).foldl (fun t c => Tab.put c x.1 t) t) t) (s.keptCores set)

/-- Logical indices of a pavilion's cores, given in ascending order (R265, R266). -/
def State.newIndices (s : State) (p : Nat) (cores : List Nat) : Tab (Nat × Nat) :=
  let n := cores.length
  let old := fun (c : Nat) => match (s.core c).owner with | some (q, i) => if q == p then some i else none | none => none
  let keep := cores.filterMap fun c => match old c with | some i => if i < n then some (c, i) else none | none => none
  let left := (List.range n).filter fun i => !keep.any fun x => x.2 == i
  let high := (cores.filterMap fun c => match old c with | some i => if i < n then none else some (i, c) | none => none).foldl
    (fun (t : Tab Nat) x => Tab.put x.1 x.2 t) []
  let added := cores.filter fun c => (old c).isNone
  ((keep ++ (high.map Prod.snd ++ added).zip left).foldl (fun t x => Tab.put x.1 (p, x.2) t) [])

/-- The whole binding of a set: by core, its pavilion and index. -/
def State.binding (s : State) (set : Tab Pav) : Tab (Nat × Nat) :=
  let b := s.boundCores set
  set.foldl (fun t x => (s.newIndices x.1 ((b.filter fun y => y.2 == x.1).map Prod.fst)).foldl (fun t y => Tab.put y.1 y.2 t) t) []

/-- Entries that an apply affects (R276): a changed field, or changed own resources. -/
def State.affectedBy (s : State) (g : Staged) (set : Tab Pav) (owners : Tab (Nat × Nat)) : List Nat :=
  let names := (g.entries.map Prod.fst ++ s.pavs.map Prod.fst ++ set.map Prod.fst).foldl (fun l p => insertUniq p l) []
  names.filter fun p =>
    let old := s.pav p
    let e := Tab.getD g.entries p (old.entry, old.reg.table)
    let now := (s.coresOf p).map Prod.snd
    let next := (owners.filter fun x => x.2.1 == p).map Prod.fst
    (old.bound || bitAt e.1.toNat 0) && (e.1 != old.entry || e.2 != old.reg.table || now.any (fun c => !next.contains c) || next.any (fun c => !now.contains c)
      || (if (Tab.find p set).isSome then ownStreams set p else 0) != old.streams.length)

/-! ## The end of an apply before its flip (R277, R285, R286) -/

/-- Own resources of a span member that stays change in the apply (R368). -/
def State.spanApply (s : State) : List Nat :=
  s.apply.affected.filter fun p =>
    let v := s.pav p
    let e := Tab.getD s.apply.entries p (v.entry, v.reg.table)
    let w : Pav := { entry := e.1 }
    v.bound && v.isSpan && w.bound && ((s.apply.owners.filter fun x => x.2.1 == p).any (fun x => s.ownerOf x.1 != some p)
      || (s.coresOf p).length != (s.apply.owners.filter fun x => x.2.1 == p).length || v.streams.length != w.streamsGranted || v.granules != w.granules)

/-- An apply that has not flipped ends: the old binding stands for every entry, and its pavilions are held no longer. -/
def State.endApply (s : State) (f : Finding) : State :=
  let a := s.apply
  let s0 := s.spanApply.foldl (fun s p => s.syncAll p (.applyEnd (s.pav p).spanId (s.pav p).spanRank f.reason (s.pav p).span.winding)) s
  let s1 := a.affected.foldl (fun s p => if (s.pav p).bound then s.modPav p fun v => { v with held? := false, span := { v.span with ready := [] } } else s) s0
  let s2 := ({ s1.setReason (some f) 0 with apply := {} }).complete a.slot f.reason (f.words ++ [s.regs.epoch.toNat])
  a.heldAt.foldl (fun s p => s.freezeWaiting p) s2

/-! ## PV_APPLY (R274, R275) -/

/-- The lowest bit at which two numbers of `n` bits differ. -/
def firstDiff (n a b : Nat) : Nat := ((List.range n).find? fun i => bitAt a i != bitAt b i).getD 0

/-- The structures that PV_APPLY read differ from those that PV_CHECK kept (R274, R313): of the pools, the pool table alone. An
uncorrectable entry has nothing to compare, and is refused in its turn. -/
def State.stageChanged (s : State) (g : Staged) (sel : List Nat) : Option Finding :=
  let a := s.apply
  let one := sel.findSome? fun p =>
    let x := Tab.getD g.entries p (0, 0)
    let y := Tab.getD a.checkEntries p (0, 0)
    if (Tab.find p g.hurt).isSome then none
    else if x.1 != y.1 then some (⟨0x07, some p, fieldOf entryFields (firstDiff 2048 x.1.toNat y.1.toNat), 0⟩ : Finding)
    else if x.2 != y.2 then some ⟨0x07, some p, fieldOf regFields (firstDiff 2048 x.2.toNat y.2.toNat), 1⟩
    else if Tab.find p g.lists != Tab.find p a.checkLists then some ⟨0x07, some p, 0, 3⟩
    else none
  match one with
  | some f => some f
  | none => if g.pools.map Prod.fst != a.checkPools.map Prod.fst then some ⟨0x07, none, 0, 2⟩ else none

/-- The checks of PV_APPLY after the stage mask has been read and NOT_CHECKED passed (R273). -/
def State.checkApply (s : State) (mask tick : Nat) : Except Finding Staged := do
  let sel := selected mask
  let g ← s.readStaged sel
  match s.stageChanged g sel with
  | some f => Except.error f
  | none => pure ()
  s.checkEntries g (s.resulting g) sel tick sel
  return g

/-- Accept an apply: step 1 begins (R275, R276). Added cores that no pavilion holds are zeroed, and the domains
that the set needs are turned on (R534). -/
def State.acceptApply (s : State) (k : Nat) (early : Bool) (tick : Nat) (g : Staged) : State :=
  let set := s.resulting g
  let owners := s.binding set
  let aff := s.affectedBy g set owners
  let added := owners.filter fun x => (s.core x.1).owner.isNone
  let s1 := added.foldl (fun s x => s.modCore x.1 fun c => { c with zeroing := true }) s
  let s2 := { s1 with power := { s1.power with off := s1.power.off.filter fun d => !set.any fun x => x.2.needs d } }
  let a : Apply := { phase := 1, slot := k, early := early, namedTick := BitVec.ofNat 64 tick, entries := g.entries, pools := g.pools, lists := g.lists
                     owners := owners, affected := aff }
  ({ s2 with apply := a }.setReason none 2).modRegs fun r => { r with pvTarget := r.epoch + 1, pvFlipped := false }

def pvApplyForm : CmdForm := { pf0 := true, used := List.replicate 4 (2 ^ 32 - 1) ++ [1] }

def startPvApply (k : Nat) (s : State) : State :=
  s.start k pvApplyForm fun _ s =>
    let m := s.mb k
    let addr := m.w2 1
    let tick := m.w2 3
    let refuse := fun (s : State) (f : Finding) (st : BitVec 2) => ((s.tableError addr f).setReason (some f) st).complete k f.reason (f.words ++ [s.regs.epoch.toNat])
    let s := s.wakeTables addr
    match s.checkStage addr with
    | .error f => if f.reason == 0x05 then s.complete k f.reason (f.words ++ [s.regs.epoch.toNat]) else refuse s f s.regs.pvState
    | .ok mask =>
      let a := s.apply
      if !(a.checked && a.checkAddr.toNat == addr && a.checkMask.toNat == mask) then refuse s ⟨0x06, none, 0, 0⟩ s.regs.pvState
      else
        match s.checkApply mask tick with
        | .error f => refuse { s with apply := {} } f 0
        | .ok g => s.acceptApply k (m.w 5 % 2 == 1) tick g

/-- PV_APPLY: a checked change is accepted, and its apply starts (R273 to R276). `answers` is what the listed members of spans
answer (R363). -/
def execPvApply (fn slot : Nat) (answers : List SpanAnswer) (s : State) : Host.Outcome State Fault Refusal :=
  post fn slot (opc 0x11) startPvApply { s with links := { s.links with answers := answers } }

/-! ## Steps 1 to 4 (R276 to R278) -/

/-- Fill a pinned piece that stands on a core to be released into a free segment of a kept core, evicting as any fill does where
none is free; the segment is set aside until the flip (R162, R165, R276). `fuel` bounds the evictions. -/
def State.fillMove (s : State) (p h i scr : Nat) (kept : List Nat) : Nat → State
  | 0 => s
  | fuel + 1 =>
    let place := kept.findSome? fun c => ((s.freeSegsOf p c).find? fun g => decide (scr ≤ g)).map fun g => (c, g)
    match place with
    | some (c, g) =>
      match (Tab.find h (s.pav p).slices).bind fun sl => s.homePiece p sl i with
      | none => s
      | some (a, bs) =>
        let v := s.pav p
        match s.beds.badIn (csKey v v.channels) a 65536 with
        | some b => s.killOwner p (csKey v v.channels b)
        | none => { (s.writeLs c (g * 65536) bs).count p 2 65536 with apply := { s.apply with moves := s.apply.moves ++ [(p, h, i, c, g)] } }
    | none =>
      match (s.pav p).victim s.now with
      | some w => (s.evictSlice p w).fillMove p h i scr kept fuel
      | none => s

/-- The pinned pieces of a pavilion on cores that it releases are filled into cores that it keeps (R276 step 1). -/
def State.fillMoves (s : State) (p : Nat) : State :=
  let v := s.pav p
  let e := Tab.getD s.apply.entries p (v.entry, v.reg.table)
  let scr := max v.scr ({ entry := e.1 } : Pav).scr
  let mine := fun (c : Nat) => (Tab.find c s.apply.owners).map Prod.fst == some p
  let kept := ((s.coresOf p).map Prod.snd).filter mine
  let lost := (v.slices.filter fun x => x.2.pinned).flatMap fun x =>
    (x.2.resident.filter fun y => y.2.resident && !mine y.2.core).map fun y => (x.1, y.1)
  lost.foldl (fun s x => s.fillMove p x.1 x.2 scr kept (v.slices.length + 1)) s

/-- APPLY_PREPARE_DONE: the added cores are zeroed and the pinned pieces on cores to be released are filled into kept cores; the
affected pavilions are to be held (R276 steps 1 and 2). -/
def execApplyPrepareDone (s : State) : Host.Outcome State Fault Refusal :=
  let a := s.apply
  if a.phase != 1 || (a.owners.any fun x => (s.core x.1).owner.isNone && (s.core x.1).zeroing) then ok s
  else
    let s1 := (a.affected.filter fun p => (s.pav p).bound).foldl State.fillMoves s
    ok { s1 with apply := { s1.apply with phase := 2, holdStart := s.now } }

/-- No kernel of the pavilion runs on any core, and none of its fault records is OPEN or RESOLVING (R278). -/
def State.atBoundary (s : State) (p : Nat) : Bool :=
  !((s.coresOf p).any fun x => (s.core x.2).running) && !((s.pav p).runs.head?.map Run.started).getD false && (s.pav p).faults.isEmpty
    && !(s.pav p).startNamed

/-- APPLY_HOLD: an affected pavilion is held at a layer boundary (R276 step 2, R278). -/
def execApplyHold (pav : Nat) (s : State) : Host.Outcome State Fault Refusal :=
  if pav ≥ numPavs then noUnit
  else
    let a := s.apply
    if a.phase != 2 || !a.affected.contains pav || a.heldAt.contains pav || !(s.pav pav).bound || !s.atBoundary pav then ok s
    else ok { ((s.modPav pav fun v => { v with held? := true }).voidStart pav) with apply := { a with heldAt := a.heldAt ++ [pav] } }

/-- Granules that the resulting set binds still hold what an earlier binding left (R284). -/
def State.zeroPending (s : State) : Bool :=
  let set := s.resulting { entries := s.apply.entries }
  s.beds.zeroGranules.any fun g =>
    set.any fun x => bitAt x.2.chMask (g / 4096) && decide (x.2.chFirst ≤ g % 4096) && decide (g % 4096 < x.2.chFirst + max x.2.chOwn x.2.chCount)

/-- The members of a span that rank 0 here leads have not all reached step 4 of their applies. -/
def State.applyWaits (s : State) (p : Nat) : Bool := decide ((s.pav p).span.ready.length < (s.pav p).spanLast)

/-- New own cores of a pavilion in the apply. -/
def State.newCores (s : State) (p : Nat) : Nat := (s.apply.owners.filter fun x => x.2.1 == p).length

/-- A span's flip tick is named: the package flips at it, and rank 0 of each span that it leads tells the members (R368, R370). -/
def State.nameTick (s : State) (t : Word64) : State :=
  let s1 := (s.spanApply.filter fun p => (s.pav p).spanRank == 0).foldl (fun s p => s.syncAll p (.flip (s.pav p).spanId t (s.pav p).span.winding)) s
  { s1 with apply := { s1.apply with named := true, tick := t } }

/-- Step 4 of an apply of span members. Once every member of the spans led here has reached it, rank 0 names the tick; but where the
apply is also of a span led elsewhere, that rank 0 is told, and names it. Members with different new core counts end the apply with
SPAN_MISMATCH (R368, R370; DESIGN CHOICE for two spans of one apply, notes/assumptions/60.md). -/
def State.nameSpanTick (s : State) : State :=
  let a := s.apply
  let led := s.spanApply.filter fun p => (s.pav p).spanRank == 0
  let far := s.spanApply.filter fun p => (s.pav p).spanRank != 0
  if a.phase != 3 || a.named || s.spanApply.isEmpty then s
  else
    match led.find? fun p => (s.pav p).span.ready.any fun x => x.2 != s.newCores p with
    | some p => s.endApply ⟨0x1A, some p, 64, 0⟩
    | none =>
      if led.any s.applyWaits then s
      else if far.isEmpty then s.nameTick (s.now + BitVec.ofNat 64 (led.foldl (fun n p => max n (s.pav p).span.lead) 0))
      else if a.announced then s
      else
        let s1 := far.foldl (fun s p => s.syncRank0 p (.applyReady (s.pav p).spanId (s.pav p).spanRank (s.newCores p) (s.pav p).span.winding)) s
        { s1 with apply := { a with announced := true } }

/-- APPLY_COPY_DONE: every affected pavilion is held and every copy done; the flip tick is named, or is too late (R276 steps 3 and 4,
R284, R368). -/
def execApplyCopyDone (s : State) : Host.Outcome State Fault Refusal :=
  let a := s.apply
  let need := a.affected.filter fun p => (s.pav p).bound
  if a.phase != 2 || need.any (fun p => !a.heldAt.contains p) || s.zeroPending then ok s
  else if !s.spanApply.isEmpty then
    ok { s with apply := { a with phase := 3 } }.nameSpanTick
  else if a.namedTick != 0 && a.namedTick.toNat < s.now.toNat + 20 then ok (s.endApply ⟨0x08, none, 0, 0⟩)
  else ok { s with apply := { a with phase := 3, named := true, tick := if a.namedTick != 0 then a.namedTick else s.now + 20 } }

/-- APPLY_DRAIN_TIMEOUT: an affected pavilion has not reached a layer boundary, or the members of its span step 4, within its
watchdog period (R277, R368). -/
def execApplyDrainTimeout (pav : Nat) (s : State) : Host.Outcome State Fault Refusal :=
  if pav ≥ numPavs then noUnit
  else
    let a := s.apply
    let expired := fun (p : Nat) => decide (s.now.toNat ≥ a.holdStart.toNat + (s.pav p).wdogTicks)
    let late := fun (p : Nat) => (s.pav p).bound && expired p
      && ((a.phase == 2 && !a.heldAt.contains p) || (a.phase == 3 && !a.named && s.spanApply.contains p))
    if !a.affected.contains pav || !late pav then ok s
    else ok (s.endApply ⟨0x09, some ((a.affected.find? late).getD pav), 0, 0⟩)

/-! ## The flip (R279 to R284) -/

/-- Zero a home. -/
def State.zeroRange (s : State) (p home pieces : Nat) : State :=
  (List.range pieces).foldl (fun s i => match s.dvaLocal p (home + i * 65536) with
    | some a => s.zeroCs p a 65536
    | none => s) s

/-- Sealed loads that a reset ends: each home is zeroed, SEC_SEAL_STATUS names ABORTED, and the command completes (R492). -/
def State.abortUnseals (s : State) (which : Unsealing → Bool) : State :=
  (s.unseals.filter which).foldl (fun s u =>
    let s1 := s.zeroRange u.pav u.home (u.len / 65536)
    ({ s1 with unseals := s1.unseals.filter fun x => x != u
               gate := { s1.gate with sealCause := 0x08, sealPav := u.pav, sealPiece := 0 } }).complete u.post 0x86 []) s

/-- Commands in progress that wait on a pavilion complete with MB_ABORTED (R415). -/
def State.abortPosts (s : State) (p : Nat) : State :=
  let v := s.pav p
  let ks := v.accepting.map Accept.post ++ v.shared.map Prod.fst ++ v.slices.flatMap (fun x => x.2.posts) ++ v.freeze.waiting.map Prod.fst ++ v.freeze.busy
    ++ (s.transfers.filter fun t => t.pav == p && t.kind != 2).map Transfer.post
  let s1 := (ks.foldl (fun s k => s.complete k 0x86 []) (s.abortUnseals fun u => u.pav == p)).modPav p fun v => { v with shared := [] }
  { s1 with transfers := s1.transfers.filter fun t => !(t.pav == p && t.kind != 2) }

/-- The pavilion's strands, and what its cores hold of kernels, are gone (R104). -/
def State.clearCore (s : State) (c : Nat) : State :=
  { (s.modCore c fun x => { x with running := false, slots := [], shadows := [], predictor := [], icache := [] }) with
    strands := Tab.keep (fun k => k / 2048 != c) s.strands }

/-- Scratch bytes of a core, by offset. -/
def State.scratchOf (s : State) (c n : Nat) : Mem :=
  (s.beds.ls.filter fun x => decide (lsKey c 0 ≤ x.1) && decide (x.1 < lsKey c n)).map fun x => (x.1 - lsKey c 0, x.2)

/-- Put scratch bytes into a core whose scratch is zero. -/
def State.putScratch (s : State) (c : Nat) (m : Mem) : State :=
  s.modBeds fun b => { b with ls := m.foldl (fun l x => Mem.write l (lsKey c x.1) x.2) b.ls }

/-- The cores of a pavilion and its indices change (R266, R280, R283). -/
def State.flipCores (s : State) : State :=
  let a := s.apply
  let new := fun (c : Nat) => Tab.find c a.owners
  let moved := (List.range numCores).filter fun c => (s.core c).owner != new c
  -- scratch that follows an index to another core
  let copies := moved.filterMap fun c => match new c with
    | none => none
    | some (p, i) =>
      match s.coreAt p i with
      | none => none
      | some o =>
        let e := Tab.getD a.entries p ((s.pav p).entry, 0)
        let n := min (s.pav p).scratchBytes ({ entry := e.1 } : Pav).scratchBytes
        if s.lsHurt o 0 n then none else some (c, s.scratchOf o n)
  let hurt := moved.filterMap fun c => (new c).bind fun x => (s.coreAt x.1 x.2).map fun o => (x.1, o)
  let taken := fun (c : Nat) => match (s.core c).owner, new c with | some (p, _), some (q, _) => p != q | _, _ => false
  let gone := fun (c : Nat) => match (s.core c).owner, new c with | some (p, _), some (q, _) => p != q | some _, none => true | _, _ => false
  let changed := (moved.foldl (fun (l : List Nat) c =>
    let l1 := match (s.core c).owner with | some (p, _) => addNew p l | none => l
    match new c with | some (p, _) => addNew p l1 | none => l1) [])
  let all := changed.flatMap fun p => (s.coresOf p).map Prod.snd ++ (a.owners.filter fun x => x.2.1 == p).map Prod.fst
  let s1 := all.foldl State.clearCore s
  -- the copies travel in VC 3 (R235)
  let s1 := moved.foldl (fun t c => match (new c).bind fun x => s.coreAt x.1 x.2 with
    | some o => t.background (coreLoc o) (coreLoc c) (((new c).map fun x => (s.pav x.1).scratchBytes).getD 0)
    | none => t) s1
  let s2 := moved.foldl (fun s c => s.modCore c fun x => { x with owner := new c, zeroing := x.zeroing || gone c }) s1
  let early := copies.filter fun x => !taken x.1
  let s3 := early.foldl (fun s x =>
    let n := ((new x.1).map fun y => (s.pav y.1).scratchBytes).getD 0
    (s.zeroLsRange x.1 0 n).putScratch x.1 x.2) s2
  let s4 := hurt.foldl (fun t x => if s.lsHurt x.2 0 (s.pav x.1).scratchBytes then t.killSram x.1 x.2 (lsRow ((s.badWord x.2 0 (s.pav x.1).scratchBytes).getD 0)) else t) s3
  { s4 with apply := { a with lateCopies := (copies.filter fun x => taken x.1).foldl (fun t x => Tab.put x.1 x.2 t) [] } }

/-- A pavilion's orangery after a flip: pieces on cores it keeps, outside its scratch, and those that step 1 filled (R280). -/
def State.flipSlices (s : State) (p : Nat) : State :=
  let v := s.pav p
  let s1 := s.modPav p fun v => { v with slices := v.slices.map fun x =>
    (x.1, { x.2 with resident := x.2.resident.filter fun y => s.ownerOf y.2.core == some p && decide (v.scr ≤ y.2.segment) }) }
  (s.apply.moves.filter fun m => m.1 == p).foldl (fun s m =>
    let h := m.2.1
    let i := m.2.2.1
    let c := m.2.2.2.1
    let g := m.2.2.2.2
    if v.scr > g || s.ownerOf c != some p then s
    else s.modSlice p h fun sl => { sl with resident := Tab.put i { core := c, segment := g, resident := true, written := true } sl.resident }) s1

/-- Stream engines in use. -/
def State.enginesUsed (s : State) : List Nat := s.pavs.flatMap fun x => x.2.streams

/-- A pavilion keeps at most `n` streams: it loses the highest-numbered ones (R280, R431). -/
def State.loseStreams (s : State) (p n : Nat) : State :=
  { (s.modPav p fun v => { v with streams := v.streams.take n }) with
    streams := s.streams.filter fun x => !(x.1 / 64 == p && decide (n ≤ x.1 % 64)) }

/-- Entries of a set, parents before their children, from those of a level on; `fuel` bounds the levels. -/
def topDown (set : Tab Pav) : Nat → List Nat → List Nat
  | 0, _ => []
  | fuel + 1, level => if level.isEmpty then [] else level ++ topDown set fuel (level.flatMap fun p => (childrenIn set p).map Prod.fst)

/-- Engines in the order in which a pavilion takes them: those of a die with own cores first (R431). -/
def State.engineOrder (s : State) (p : Nat) (free : List Nat) : List Nat :=
  let dies := ((s.coresOf p).map fun x => dieOf x.2).foldl (fun l d => insertUniq d l) []
  dies.flatMap (fun d => free.filter fun e => e / 16 == d) ++ free.filter fun e => !dies.contains (e / 16)

/-- Engines that children of an entry hold. -/
def State.childEngines (s : State) (set : Tab Pav) (p : Nat) : List Nat := (childrenIn set p).flatMap fun x => (s.pav x.1).engines

/-- An entry gives up engines that it holds beyond its STREAMS: such as neither an own stream nor a child has (R431). -/
def State.trimEngines (s : State) (set : Tab Pav) (p : Nat) : State :=
  let v := s.pav p
  let all := v.engines ++ v.streams.filter fun e => !v.engines.contains e
  let used := v.streams ++ s.childEngines set p
  let spare := all.filter fun e => !used.contains e
  let keep := spare.take (v.streamsGranted - (all.length - spare.length))
  s.modPav p fun v => { v with engines := all.filter fun e => used.contains e || keep.contains e }

/-- An entry takes engines up to its STREAMS: free ones, or as a child such as its parent holds and neither uses nor has given to another
child; and its new streams take engines of these that no child has (R264, R431). -/
def State.gainEngines (s : State) (set : Tab Pav) (p : Nat) : State :=
  let v := s.pav p
  let free := if v.hasParent then
      let w := s.pav v.parent
      w.engines.filter fun e => !w.streams.contains e && !(s.childEngines set v.parent).contains e
    else (List.range 64).filter fun e => !set.any fun x => !x.2.hasParent && (s.pav x.1).engines.contains e
  let s1 := s.modPav p fun v => { v with engines := v.engines ++ (s.engineOrder p free).take (v.streamsGranted - v.engines.length) }
  let mine := (s1.pav p).engines.filter fun e => !v.streams.contains e && !(s1.childEngines set p).contains e
  s1.modPav p fun v => { v with streams := v.streams ++ (s1.engineOrder p mine).take (ownStreams set p - v.streams.length) }

/-- The flip assigns engines to the streams of a set's entries (R431). -/
def State.grantEngines (s : State) (set : Tab Pav) : State :=
  let ps := topDown set set.length ((set.filter fun x => !x.2.hasParent).map Prod.fst)
  ps.foldl (fun s p => s.gainEngines set p) (ps.reverse.foldl (fun s p => s.trimEngines set p) s)

/-- A pavilion that is disabled: its runs end, its sessions close, what it held of commands is aborted, its committed writes are
delivered, and nothing of it remains but its winding and the final values of its counters (R269, R424, R448). The sessions whose user
it is close with it, as every resource goes (DEDUCED, notes/assumptions/74.md). -/
def State.disablePav (s : State) (p : Nat) (epoch : Word32) : State :=
  -- the sessions that it uses are closed: here, or by the package that directs them
  let mine := s.dir.records.filter fun x => x.2.st != 0 && x.2.userPkg == s.ownPkg && x.2.userPav == p
  let s0 := mine.foldl (fun s x =>
    if s.directs x.1 then s.change x.1 .close none none
    else (s.modDir fun d => { d with records := Tab.drop x.1 d.records }).sendPool (x.2.keeper.getD (directoryOf x.1))
      { op := .user, pool := p, session := x.1, flag := true } []) s
  let waiting := ((s.pav p).resetting.map Resetting.slots).getD []
  let s1 := waiting.foldl (fun s k => s.complete k 0x86 []) ((s0.endRuns p 0x03).abortPosts p)
  let v := s1.pav p
  let s2 := if v.chan.halted then s1 else s1.deliverStep p (v.held.filter fun h => h.step.isSome)
  let s3 := { s2 with streams := s2.streams.filter fun x => x.1 / 64 != p, invals := s2.invals.filter fun x => x.pav != p
                      tcache := Tab.mapVals (fun _ l => l.filter fun c => c.pav != p) s2.tcache }
  s3.setPav p { winding := v.winding, epochBound := epoch, acct := (s2.pav p).acct, obs := { (s2.pav p).obs with repeatable := false } }

/-- What a flip changes in one affected pavilion, once the cores and the withdrawn streams have passed (R269, R280): segments that
change between scratch and orangery are zeroed (R155), a new PT_ROOT drops instruction lines and shadow buffers too, as after an
INVALIDATE of the whole space, and its meters restart with a new table or mode (R397). -/
def State.flipPav (s : State) (p : Nat) (epoch : Word32) : State :=
  let a := s.apply
  let old := s.pav p
  let e := Tab.getD a.entries p (old.entry, old.reg.table)
  let nv : Pav := { entry := e.1 }
  if !nv.bound then s.disablePav p epoch
  else if !old.bound then
    let list := Tab.getD a.lists p 0
    let fresh : Pav := { entry := e.1, epochBound := epoch, winding := old.winding + 1, reg := { table := e.2 }, held? := true, held := old.held
                         deliveries := old.deliveries
                         span := if nv.isSpan then { st := 1, members := listIds nv.spanLast list, list := list } else {}, shapeFw := s.fw.version, shapeCmd := s.fw.cmdset }
    (s.setPav p fresh).renumber p
  else
    let restart := e.2 != old.reg.table || nv.rgCompat != old.rgCompat
    let meters := if restart then Tab.mapVals (fun _ (m : Meter) => ({ misses := m.misses } : Meter)) old.reg.meters else old.reg.meters
    let s1 := s.modPav p fun (v : Pav) => { v with entry := e.1, epochBound := epoch, reg := { v.reg with table := e.2, meters := meters } }
    let s2 := s1.flipSlices p
    let s3 := { s2 with tcache := Tab.mapVals (fun _ l => l.filter fun c => c.pav != p) s2.tcache }
    (s3.coresOf p).foldl (fun s x =>
      let s := if nv.ptRoot == old.ptRoot then s else s.modCore x.2 fun c => { c with icache := [], shadows := [] }
      s.zeroLsRange x.2 (min old.scratchBytes nv.scratchBytes) (max old.scratchBytes nv.scratchBytes)) s3

/-- The own granules of a set's entries on a channel. -/
def grantedOn (set : Tab Pav) (q g : Nat) : Bool := set.any fun x => bitAt x.2.chMask q && decide (x.2.chFirst ≤ g) && decide (g < x.2.chFirst + x.2.chOwn)

/-- Granules that leave every channel set at a flip (R284). -/
def releasedGranules (old new : Tab Pav) : List Nat :=
  old.flatMap fun x => x.2.channels.flatMap fun q =>
    ((List.range x.2.chOwn).map (x.2.chFirst + ·)).filterMap fun g => if grantedOn new q g then none else some (q * 4096 + g)

/-- The pool table and its windows come into force; a pool left undefined while it holds pages is lost (R313). -/
def State.flipPools (s : State) (set : Tab Pav) : State :=
  let ps := s.apply.pools
  (List.range 16).foldl (fun s i =>
    let x := s.pool i
    let d := poolDefined set ps i
    let e := nthD ps i (0, 0)
    let s1 := if x.defined && !d && !x.pages.isEmpty then s.losePool (s.poolName i) else s
    if d then
      -- a page that is in no session yet is zeroed before any takes it (R316, R317)
      let old := s1.pool i
      let s2 := s1.modPool i fun x => { x with entry := e.1 }
      let y := s2.pool i
      let kept := old.defined && old.holder == y.holder && old.base == y.base
      let fresh := (List.range y.size).filter fun g => (Tab.find g y.pages).isNone && !(kept && decide (g < old.size))
      { (s2.zeroPages i fresh) with windows := Tab.put (PoolEntry.window e.1.toNat) e.2 s1.windows }
    else if x.defined then s1.modPool i fun x => { x with entry := 0 } else s1) s

/-- The apply is complete: STATE is IDLE and, unless EARLY completed it, the slot completes (R276 step 7). -/
def State.closeApply (s : State) : State :=
  let a := s.apply
  let s1 := if a.early then s else s.complete a.slot 0 ([0, 0, s.regs.epoch.toNat] ++ lohi s.regs.flipTime.toNat)
  { s1.modRegs fun r => { r with pvState := 0 } with apply := {} }

/-- Affected pavilions that are bound and have not resumed. -/
def State.toResume (s : State) : List Nat := s.apply.affected.filter fun p => (s.pav p).bound && !s.apply.resumed.contains p

/-- The flip itself (R276 step 5, R280, R397, R574). -/
def State.flip (s : State) : State :=
  let a := s.apply
  let epoch := s.regs.epoch + 1
  let old := s.pavs.filter fun x => x.2.bound
  let set := s.resulting { entries := a.entries }
  let t := lohi a.tick.toNat
  -- events go to the functions of the entries that are affected
  let fnOf := fun (p : Nat) => if (s.pav p).bound then (s.pav p).hostFn else ({ entry := (Tab.getD a.entries p (0, 0)).1 } : Pav).hostFn
  let s0 := (a.affected.foldl (fun s p => s.endReplayOf p 3) s).flipCores
  -- every stream that is withdrawn is free before any is granted (R280)
  let s1 := a.affected.foldl (fun s p => s.loseStreams p (if (Tab.find p set).isSome then ownStreams set p else 0)) s0
  let s2 := (a.affected.foldl (fun s p => s.flipPav p epoch) s1).grantEngines set
  let s3 := s2.flipPools set
  let gone := releasedGranules old set
  let s4 := s3.modBeds fun b => { b with zeroGranules := b.zeroGranules ++ gone.filter fun g => !b.zeroGranules.contains g }
  let s5 := s4.modRegs fun r => { r with epoch := epoch, flipTime := a.tick, pvFlipped := true, pvState := 3 }
  let s6 := a.affected.foldl (fun s p => s.raise (fnOf p) 0x0007 p (detailWords (epoch.toNat :: t))) s5
  let s7 := { s6 with apply := { s6.apply with phase := 4 } }
  let s8 := if a.early then s7.complete a.slot 0 ([0, 0, epoch.toNat] ++ t) else s7
  let qs := (List.range numChannels).filter fun q => a.affected.any fun p => bitAt (s.pav p).chMask q || bitAt (s8.pav p).chMask q
  let s8 := s8.rescale qs
  let s9 := a.affected.foldl (fun s p => if (s.pav p).isSpan then s.modPav p fun v => { v with span := { v.span with flipTick := a.tick, ready := [] } } else s) s8
  let s10 := a.affected.foldl State.reviewSpan s9
  if s10.toResume.isEmpty then s10.closeApply else s10

/-- EPOCH_FLIP: at tick T every affected unit takes the new binding (R276 step 5, R279, R280). -/
def execEpochFlip (s : State) : Host.Outcome State Fault Refusal :=
  if s.apply.phase != 3 || !s.apply.named || !due (some s.apply.tick) s.now then ok s else ok s.flip

/-- A flip whose tick has come is made before a reset at that tick, which finds the new binding (R250, R285). -/
def State.settleFlip (s : State) : State := if s.apply.phase == 3 && s.apply.named && due (some s.apply.tick) s.now then s.flip else s

/-- APPLY_PAVILION_RESUME: the cores that a pavilion gained are zeroed and the scratch of their indices copied; it resumes, and the
apply completes with the last (R276 steps 6 and 7, R283). -/
def execApplyPavilionResume (pav : Nat) (s : State) : Host.Outcome State Fault Refusal :=
  if pav ≥ numPavs then noUnit
  else if s.apply.phase != 4 || !s.toResume.contains pav || ((s.coresOf pav).any fun x => (s.core x.2).zeroing) then ok s
  else
    let mine := (s.coresOf pav).map Prod.snd
    let s1 := (s.apply.lateCopies.filter fun x => mine.contains x.1).foldl (fun s x => s.putScratch x.1 x.2) s
    let s2 := (s1.modPav pav fun v => { v with held? := false }).freezeWaiting pav
    let s3 := { s2 with apply := { s2.apply with resumed := s2.apply.resumed ++ [pav], lateCopies := s2.apply.lateCopies.filter fun x => !mine.contains x.1 } }
    ok (if s3.toResume.isEmpty then s3.closeApply else s3)

end Sys2Proof.Machine
end

