-- ==== Sys2Proof/Machine/Views.lean ====
section
/-! DEFINITION. Registers that other rules read: their bits as the state gives them (R181, R379, R557). -/

namespace Sys2Proof.Machine

/-- DL_ERR (R379). -/
def Port.errWord (x : Port) : Nat := x.fec.toNat + x.crc.toNat <<< 16 + x.replays.toNat <<< 32 + x.sparings.toNat <<< 48

/-- A die half. -/
def State.half (s : State) (h : Nat) : Half := Tab.getD s.power.halves h {}
def State.setHalf (s : State) (h : Nat) (x : Half) : State := { s with power := { s.power with halves := Tab.put h x s.power.halves } }
def State.modHalf (s : State) (h : Nat) (f : Half → Half) : State := s.setHalf h (f (s.half h))

/-- The issue budget in force, in 1/64: the lowest of the cap's, the escapement's and a clamp's (R541, R544, R550, R553). -/
def Half.issue (x : Half) : Nat := min (min x.budget x.escape) (if x.droopClamp || x.thermalClamp then 16 else 64)

/-- PWR_HALF_STAT (R557). -/
def Half.statWord (x : Half) : Nat :=
  x.div % 16 + b2n x.droopClamp <<< 6 + b2n (decide (x.floor > 6)) <<< 7 + (x.trim % 32) <<< 16 + (x.vset / 10 % 1024) <<< 22 + (x.issue % 128) <<< 32
    + (x.tj % 256) <<< 40 + x.droops.toNat <<< 48

/-- Bits by bed group of the package whose group has a channel with a property. -/
def State.groupBits (s : State) (f : Channel → Bool) : Nat :=
  (List.range 16).foldl (fun n g => if (List.range 24).any fun i => f (s.channel (g * 24 + i)) then n + 2 ^ g else n) 0

/-- MC_STATUS (R181). -/
def State.mcStatus (s : State) : Nat :=
  s.groupBits (fun c => c.spared) + s.groupBits (fun c => c.retired) <<< 16 + (s.beds.retiredFrames.length % 65536) <<< 32
    + (s.beds.channels.foldl (fun n x => n + x.2.rowShadows.length) 0 % 65536) <<< 48

/-- RG_CLASS_STAT.MISSES of a class: over the channels of the set (R398). -/
def State.classMisses (s : State) (p cls : Nat) : Nat :=
  min 65535 ((s.pav p).reg.meters.foldl (fun n x => if x.1 / 512 == cls then n + x.2.misses else n) 0)

end Sys2Proof.Machine
end

