-- ==== Sys2Proof/Machine/Belvedere.lean ====
section
/-! DEFINITION. Snapshots and configuration fingerprints (R575 to R583). -/

namespace Sys2Proof.Machine

/-! ## Snapshots (R575 to R577, R583) -/

/-- A pavilion's items, from 16p on (R577). -/
def State.snapPav (s : State) (p : Nat) : List Nat :=
  let v := s.pav p
  [v.acct.cycles.toNat, v.acct.coreTicks.toNat, v.acct.localBytes.toNat, v.acct.bedBytes.toNat, v.acct.linkBytes.toNat, v.acct.hostBytes.toNat,
   v.acct.energy / 1000, v.acct.unreconciled.toNat, v.committed.toNat, s.classMisses p 0, s.classMisses p 1, s.classMisses p 2, s.classMisses p 3,
   v.winding.toNat + v.epochBound.toNat <<< 32]

/-- The items of a snapshot, those that are not zero (R577). -/
def State.snapItems (s : State) (p : Nat) : Tab Word64 :=
  let ps := if p == 0x1FF then s.pavs.map Prod.fst else [p]
  let mine := ps.flatMap fun q => (s.snapPav q).zipIdx.map fun x => (16 * q + x.2, x.1)
  let pkg := if p == 0x1FF then
      [(8193, s.power.overhead / 1000), (8194, s.beds.ceCount.toNat), (8195, s.beds.ueCount.toNat)]
        ++ (List.range 16).map (fun i => (8196 + i, (s.port i).errWord)) ++ (List.range 8).map (fun h => (8212 + h, (s.half h).statWord))
        ++ [(8220, s.mcStatus)]
    else []
  (mine ++ [(8192, s.regs.epoch.toNat)] ++ pkg).foldl (fun (t : Tab Word64) (x : Nat × Nat) => if x.2 == 0 then t else Tab.put x.1 (BitVec.ofNat 64 x.2) t) []

/-- SNAPSHOT's words: a pavilion or, from PF0, the package (R419, R575). -/
def snapshotForm (pkg : Bool) : CmdForm :=
  { named := !pkg, used := [0x1FF, 2 ^ 32 - 1, 2 ^ 32 - 1] }

def startSnapshot (k : Nat) (s : State) : State :=
  let m := s.mb k
  let pkg := postFn k == 0 && m.w 1 % 512 == 0x1FF
  s.start k (snapshotForm pkg) fun p s =>
    let tick := m.w2 2
    if tick < s.now.toNat + 20 then s.complete k 0x01 []
    else
      match s.belv.sets.findIdx? fun x => x.st == 0 with
      | none => s.complete k 0x02 []
      | some i =>
        let x : Snap := { id := s.belv.nextId, pav := if pkg then 0x1FF else p, st := 1, tick := BitVec.ofNat 64 tick, post := k }
        { s with belv := { s.belv with sets := setNth s.belv.sets i x, nextId := s.belv.nextId + 1 } }

/-- SNAPSHOT: a shadow set is reserved for a named tick (R249, R575). -/
def execSnapshot (fn slot : Nat) (s : State) : Host.Outcome State Fault Refusal := post fn slot (opc 0x50) startSnapshot s

/-- SNAPSHOT_TICK: at the named tick, behind the flips and releases of that tick (R250), the counters are copied into the set and the command completes (R576). -/
def execSnapshotTick (set : Nat) (s : State) : Host.Outcome State Fault Refusal :=
  if set ≥ 4 then noUnit
  else
    let x := nthD s.belv.sets set {}
    let flips := s.apply.phase == 3 && s.apply.named && due (some s.apply.tick) x.tick
    let behind := if x.pav == 0x1FF then flips || s.pavs.any fun p => s.syncFirst p.1 x.tick else s.syncFirst x.pav x.tick
    if x.st != 1 || !due (some x.tick) s.now || behind then ok s
    else
      let s1 := { s with belv := { s.belv with sets := setNth s.belv.sets set { x with st := 2, items := s.snapItems x.pav } } }
      ok (s1.complete x.post 0 [x.id.toNat])

/-- SNAP_FREE_WRITE: frees shadow sets; the SNAPSHOT of a PENDING one completes with MB_ABORTED (R583). -/
def execSnapFreeWrite (value : Word32) (s : State) : Host.Outcome State Fault Refusal :=
  if !s.exposed then ok s else
  ok ((List.range 4).foldl (fun s i =>
    if !value.getLsbD i then s
    else
      let x := nthD s.belv.sets i {}
      let s1 := if x.st == 1 then s.complete x.post 0x86 [] else s
      { s1 with belv := { s1.belv with sets := setNth s1.belv.sets i {} } }) s)

/-! ## Fingerprints (R578, R579) -/

/-- The first 8 bytes of SHAKE256 (R578). -/
def fp8 (bs : List Byte) : Nat := leNat ((Config.shake256 8 bs).take 8)

/-- Fields of given widths in bytes, little-endian. -/
def fieldBytes (fs : List (Nat × Nat)) : List Byte := fs.flatMap fun f => leBytes f.1 f.2

/-- The fingerprint of a core; zero for one that no pavilion holds (R578). -/
def State.coreFp (s : State) (c : Nat) : Nat :=
  match (s.core c).owner with
  | none => 0
  | some (p, i) =>
    let v := s.pav p
    fp8 (fieldBytes [(2, p), (4, v.tenant), (1, b2n v.repro), (1, b2n v.cycle), (1, b2n v.conf), (2, v.scr), (2, s.logicalOf p i), (4, v.epochBound.toNat)])

/-- The fingerprint of the memory controller of a bed (die × 12 + bed). -/
def State.bedFp (s : State) (b : Nat) : Nat :=
  let qs := (List.range 8).map (b * 8 + ·)
  let chans := qs.flatMap fun q =>
    let c := s.channel q
    let st := if c.retired then 2 else if s.place q then 0 else 1
    let runs := (s.pavs.filter fun x => x.2.bound && bitAt x.2.chMask q).flatMap fun x =>
      fieldBytes [(2, x.1), (2, x.2.chFirst), (2, x.2.chOwn)] ++ Config.shake256 8 (leBytes 256 x.2.reg.table.toNat)
    fieldBytes [(1, st)] ++ runs ++ fieldBytes [(1, c.refresh)]
  fp8 (chans ++ leBytes 4 s.regs.scrubCfg.toNat)

/-- The fingerprint of a port. -/
def State.portFp (s : State) (p : Nat) : Nat :=
  let table := s.links.routes.flatMap fun x => leBytes 2 x.1 ++ leBytes 4 x.2.toNat
  fp8 (fieldBytes [(2, s.ownPkg), (1, b2n (s.port p).enable), (1, (s.port p).laneOut)] ++ Config.shake256 8 table)

/-- The fingerprint of a package unit. -/
def State.unitFp (s : State) : Nat :=
  fp8 (fieldBytes [(8, (s.regs.tableBase.map BitVec.toNat).getD 0), (8, (s.regs.winBase.map BitVec.toNat).getD 0),
    (8, (s.regs.poolBase.map BitVec.toNat).getD 0), (8, (s.links.spanBase.map BitVec.toNat).getD 0), (4, s.fw.version.toNat), (4, s.fw.policy.toNat),
    (4, s.power.cap), (4, s.power.ramp)])

/-- Bytes of a list of fingerprints. -/
def fpBytes (l : List Nat) : List Byte := l.flatMap (leBytes 8)

/-- The rollup of a cluster (die × 16 + cluster), of a die, and of the package (R579). -/
def State.clusterFp (s : State) (k : Nat) : Nat := fp8 (fpBytes ((List.range 17).map fun i => s.coreFp (k * 17 + i)))
def State.dieFp (s : State) (d : Nat) : Nat :=
  fp8 (fpBytes ((List.range 16).map (fun k => s.clusterFp (d * 16 + k)) ++ (List.range 12).map (fun b => s.bedFp (d * 12 + b))
    ++ (List.range 4).map fun p => s.portFp (d * 4 + p)))
def State.packageFp (s : State) : Nat := fp8 (fpBytes ((List.range 4).map s.dieFp ++ (List.range 15).map fun _ => s.unitFp))

/-- The fingerprint of the unit with a location code, if it names one that keeps a fingerprint (R23, R578). A memory controller of
an unpopulated group answers as the others do (DESIGN CHOICE, notes/assumptions/71.md). -/
def State.locFp (s : State) (loc : Nat) : Option Nat :=
  let d := bits loc 11 10
  let i := bits loc 9 0
  match loc / 4096 with
  | 0 => if i % 32 ≤ 16 && i < 512 then some (s.coreFp ((d * 16 + i / 32) * 17 + i % 32)) else none
  | 2 => if i < 12 then some (s.bedFp (d * 12 + i)) else none
  | 4 => if i < 16 && i / 4 == d then some (s.portFp i) else none
  | 8 => if d == 0 && i < 15 then some s.unitFp else none
  | _ => none

/-- The fingerprint or rollup that FINGERPRINT names (R582). -/
def State.namedFp (s : State) (loc level : Nat) : Option Nat :=
  match level with
  | 0 => s.locFp loc
  | 1 => if loc / 4096 == 1 && bits loc 9 0 < 16 then some (s.clusterFp (bits loc 11 10 * 16 + bits loc 3 0)) else none
  | 2 => if loc == bits loc 11 10 * 1024 then some (s.dieFp (loc / 1024)) else none
  | 3 => if loc == 0 then some s.packageFp else none
  | _ => none

def fingerprintForm (s : State) : CmdForm :=
  { pf0 := true, used := [0xFFFFF], range := fun m => (s.namedFp (m.w 1 % 65536) (m.w 1 / 65536)).isSome }

def startFingerprint (k : Nat) (s : State) : State :=
  s.start k (fingerprintForm s) fun _ s =>
    let m := s.mb k
    s.complete k 0 (lohi ((s.namedFp (m.w 1 % 65536) (m.w 1 / 65536)).getD 0) ++ [s.regs.epoch.toNat])

/-- FINGERPRINT: the fingerprint that a unit or rollup holds now (R582). -/
def execFingerprint (fn slot : Nat) (s : State) : Host.Outcome State Fault Refusal := post fn slot (opc 0x51) startFingerprint s

/-! ## The comparisons at each 100,000 ticks (R580, R581) -/

/-- Group rollups of a span member: 16 member-local indices each (R581). -/
def State.groupFps (s : State) (p : Nat) : List Nat :=
  let v := s.pav p
  let n := s.coreCount p
  let one := fun (i : Nat) => fp8 (fieldBytes [(4, v.tenant), (1, b2n v.repro), (1, b2n v.cycle), (1, b2n v.conf), (2, v.scr), (2, i), (2, v.span.winding.toNat)])
  (List.range (ceilDiv n 16)).map fun g => fp8 (fpBytes ((List.range (min 16 (n - 16 * g))).map fun j => one (16 * g + j)))

/-- The span rollup of a member (R581). -/
def State.spanFp (s : State) (p : Nat) : Nat :=
  fp8 ((List.range 128).map (s.shapeByte p) ++ fpBytes (s.groupFps p))

/-- Where a unit stands in the descent: its die and cluster first (R580). -/
def fpOrder (loc : Nat) : Nat :=
  let d := bits loc 11 10
  if loc / 4096 == 8 then 2 ^ 20 + loc else d * 2 ^ 17 + (if loc / 4096 == 0 then loc % 1024 else 2 ^ 16 + loc)

/-- Report that a group of a span member differs from another's (R581). -/
def State.spanDiverged (s : State) (p group peer : Nat) : State :=
  let loc := ((s.coreAt p (16 * group)).map coreLoc).getD 0
  s.raisePf0 0x0060 p (detailWords [1, loc, s.regs.epoch.toNat, peer])

/-- FINGERPRINT_TICK: at a TIME multiple of 100,000 the units that differ from what Gaold gave them are `units`; the lowest is
reported once until it matches again, and each span member sends its rollup to rank 0 (R580, R581). -/
def execFingerprintTick (units : List Nat) (s : State) : Host.Outcome State Fault Refusal :=
  if s.now.toNat % 100000 != 0 then ok s
  else
    let bad := units.filter fun l => (s.locFp l).isSome
    let kept := s.belv.divergent.filter fun l => bad.contains l
    let low := bad.foldl (fun (b : Option Nat) l => match b with | some m => some (if fpOrder l < fpOrder m then l else m) | none => some l) none
    let s1 := { s with belv := { s.belv with divergent := kept } }
    let s2 := match low with
      | some l => if kept.contains l then s1
          else { s1 with belv := { s1.belv with divergent := kept ++ [l] } }.raisePf0 0x0060 0 (detailWords [0, l, s.regs.epoch.toNat, s.ownPkg])
      | none => s1
    let members := (s2.pavs.filter fun x => x.2.bound && x.2.isSpan && x.2.span.st == 2 && x.2.spanRank != 0).map Prod.fst
    ok (members.foldl (fun s p =>
      let v := s.pav p
      s.syncRank0 p (.rollup v.spanId v.spanRank v.span.flipTick (BitVec.ofNat 64 (s.spanFp p)) ((s.groupFps p).map (BitVec.ofNat 64)) v.winding)) s2)

/-- Rank 0 compares a member's rollup with its own (R581). -/
def State.compareRollup (s : State) (p rank : Nat) (flipTick rollup : Word64) (groups : List Word64) : State :=
  let v := s.pav p
  if !v.bound || !v.isSpan || v.spanRank != 0 || v.span.st != 2 || rank == 0 || rank > v.spanLast || flipTick != v.span.flipTick
      || rollup.toNat == s.spanFp p then s
  else
    let own := s.groupFps p
    let g := ((List.range own.length).find? fun i => (groups[i]?.map BitVec.toNat) != own[i]?).getD 0
    let peer := nthD v.span.members rank 0
    (s.spanDiverged p g peer).syncSend peer (.diverged v.spanId g v.winding)

/-- SPAN_ROLLUP_COMPARE: rank 0 receives a member's rollup, and compares it if both were formed after the same flip (R581). -/
def execSpanRollupCompare (pav rank : Nat) (flipTick rollup : Word64) (groups : List Word64) (s : State) : Host.Outcome State Fault Refusal :=
  if pav ≥ numPavs then noUnit else ok (s.compareRollup pav rank flipTick rollup groups)

end Sys2Proof.Machine
end

