-- ==== Sys2Proof/Machine/Gate.lean ====
section
/-! DEFINITION. The gatehouse as SPDM responder (R475 to R480), its vendor messages and the keys and releases it holds (R471,
R481 to R487). A transport is a function's DOE by function number, or 512 for MCTP over SMBus; session 0 stands for none. -/

namespace Sys2Proof.Machine

/-! ## Connections and sessions -/

/-- The transport exists: MCTP, or the DOE of a function (R475). -/
def State.hasVia (s : State) (via : Nat) : Bool := via == 512 || s.hasFn via

def State.spdm (s : State) (via : Nat) : SpdmLink := Tab.getD s.gate.links via {}
def State.modGate (s : State) (f : Gate → Gate) : State := { s with gate := f s.gate }
def State.modSpdm (s : State) (via : Nat) (f : SpdmLink → SpdmLink) : State :=
  s.modGate fun g => { g with links := Tab.put via (f (s.spdm via)) g.links }

/-- The bytes of a response that can be large. -/
def SpdmAnswer.body (a : SpdmAnswer) : List Byte :=
  match a with
  | .digests bs => bs
  | .certificate bs _ => bs
  | .challengeAuth bs => bs
  | .measurements blocks sig => (blocks.flatMap Prod.snd) ++ sig
  | .keyExchange _ bs sig => bs ++ sig
  | .vendor _ bs => bs
  | _ => []

/-- The gatehouse answers a request: a response longer than the transport takes waits for CHUNK_GET (R475). -/
def State.reply (s : State) (via : Nat) (a : SpdmAnswer) : State :=
  s.modSpdm via fun l =>
    if a.body.length ≤ l.most then { l with reply := some a } else { l with reply := some (.error .largeResponse), large := a.body }

/-- Sessions a transport can hold (R475). -/
def sessionLimit (via : Nat) : Nat := if via == 512 then 4 else 2

/-- A session lasts two heartbeat periods of 10 s after its last message (R476). -/
def State.alive (s : State) (x : SpdmSession) : Bool := decide (s.now.toNat < x.beat.toNat + 2000000000)

/-- A session of a transport. -/
def State.session? (s : State) (via id : Nat) : Option SpdmSession :=
  s.gate.sessions.find? fun x => x.via == via && x.id == id && s.alive x

/-- Change a session. -/
def State.modSpdmSession (s : State) (via id : Nat) (f : SpdmSession → SpdmSession) : State :=
  s.modGate fun g => { g with sessions := g.sessions.map fun x => if x.via == via && x.id == id then f x else x }

/-- A request in no session, or in a secured one; it keeps its session alive (R476). -/
def State.inSession (s : State) (via session : Nat) : Option State :=
  if session == 0 then some s
  else
    match s.session? via session with
    | some x => if x.secured then some (s.modSpdmSession via session fun x => { x with beat := s.now }) else none
    | none => none

/-- Handle a request that comes over a transport at a stage of its connection; the gatehouse that is not ready answers nothing
(R476, R496). -/
def spdm (via session stage : Nat) (s : State) (f : State → State) : Host.Outcome State Fault Refusal :=
  if via > 512 then noUnit
  else if !s.hasVia via || !s.gate.ready then ok s
  else if (s.spdm via).stage < stage then ok (s.reply via (.error .unexpectedRequest))
  else
    match s.inSession via session with
    | none => ok (s.reply via (.error .unexpectedRequest))
    | some s1 => ok (f s1)

/-- GET_VERSION: version 1.3 only; the connection starts anew (R475, R476). -/
def execGetVersion (via : Nat) (s : State) : Host.Outcome State Fault Refusal :=
  spdm via 0 0 s fun s => (s.modSpdm via fun _ => { stage := 1 }).reply via .version

/-- GET_CAPABILITIES: the capabilities of R476; the requester says how much it takes in one piece, 64 B over SMBus (R475). -/
def execGetCapabilities (via transfer : Nat) (s : State) : Host.Outcome State Fault Refusal :=
  spdm via 0 1 s fun s => (s.modSpdm via fun l => { l with stage := 2, most := if via == 512 then 64 else transfer }).reply via .capabilities

/-- The algorithms that the gatehouse accepts (R477). -/
def SpdmAlgs.accepted (a : SpdmAlgs) : Bool :=
  a.asym == (0x04, 0xA701) && a.kex == (0x04, 0xA702) && a.sha384 && a.rawStream && a.aes256Gcm && a.standardSchedule

/-- NEGOTIATE_ALGORITHMS: any other algorithm fails with InvalidRequest (R477). -/
def execNegotiateAlgorithms (via : Nat) (algs : SpdmAlgs) (s : State) : Host.Outcome State Fault Refusal :=
  spdm via 0 2 s fun s =>
    if SpdmAlgs.accepted algs then (s.modSpdm via fun l => { l with stage := 3 }).reply via .algorithms
    else s.reply via (.error .invalidRequest)

/-- GET_DIGESTS (R474, R476). -/
def execGetDigests (via session : Nat) (s : State) : Host.Outcome State Fault Refusal :=
  spdm via session 3 s fun s => s.reply via (.digests Config.certDigest)

/-- GET_CERTIFICATE: a part of the chain of slot 0, the only slot (R474, R476). -/
def execGetCertificate (via session slot offset len : Nat) (s : State) : Host.Outcome State Fault Refusal :=
  spdm via session 3 s fun s =>
    let all := Config.certChain
    if slot != 0 || offset ≥ all.length then s.reply via (.error .invalidRequest)
    else s.reply via (.certificate ((all.drop offset).take len) (all.length - min all.length (offset + len)))

/-- CHALLENGE: answered with a signature by the identity key over a fresh nonce (R472, R476). -/
def execChallenge (via session slot : Nat) (nonce : List Byte) (s : State) : Host.Outcome State Fault Refusal :=
  spdm via session 3 s fun s =>
    if slot != 0 then s.reply via (.error .invalidRequest)
    else
      let d := s.draw
      d.2.reply via (.challengeAuth (Config.sign (nonce ++ leBytes 8 d.1.toNat)))

/-! ## Measurements (R479, R480) -/

/-- The block-6 record of a pavilion (R480). -/
def State.pavRecord (s : State) (p : Nat) : List Byte :=
  let v := s.pav p
  let b := fieldBytes [(4, v.tenant), (2, v.hostFn), (2, b2n v.conf + 2 * b2n v.repro + 4 * b2n v.cycle + 8 * b2n v.mirror + 16 * b2n v.replay),
    (2, v.spanId), (2, v.spanRank), (2, v.spanLast), (2, v.scr), (4, s.coreCount p), (4, v.epochBound.toNat), (2, v.winding.toNat),
    (2, v.streamsGranted), (1, v.chan.keys.length)]
  b ++ List.replicate (64 - b.length) 0

/-- A 64-byte measurement digest (R479). -/
def measDigest (bs : List Byte) : List Byte := Config.shake256 64 bs

/-- The blocks that a request over a transport can read (R479). -/
def State.measBlocks (s : State) (via : Nat) : Tab (List Byte) :=
  let state := fieldBytes [(1, s.fuse.grade), (1, s.fuse.step), (1, s.gate.svn.toNat), (1, b2n s.fuse.debugOpen), (4, s.fw.policy.toNat)]
  let five := [(1, Config.romDigest), (2, Config.gateDigest s.gate.svn), (3, Config.imageDigest s.fw.version), (4, measDigest state),
    (5, measDigest (fieldBytes [(8, s.packageFp), (4, s.regs.epoch.toNat)]))]
  match (if via == 0 || via == 512 then none else s.pavOfFn via) with
  | some p => five ++ [(6, s.pavRecord p)]
  | none => five

/-- GET_MEASUREMENTS: one block, every block (index 0xFF), or, with index 0, none but their count (R476, R479). -/
def execGetMeasurements (via session index : Nat) (signed : Bool) (nonce : List Byte) (s : State) : Host.Outcome State Fault Refusal :=
  spdm via session 3 s fun s =>
    let all := s.measBlocks via
    let some := if index == 0xFF then all else all.filter fun x => x.1 == index
    if some.isEmpty && index != 0 then s.reply via (.error .invalidRequest)
    else
      let d := s.draw
      d.2.reply via (.measurements some (if signed then Config.sign (nonce ++ leBytes 8 d.1.toNat ++ some.flatMap Prod.snd) else []))

/-! ## Sessions (R475, R476, R478) -/

/-- KEY_EXCHANGE: the requester's 1,568-byte encapsulation key opens a session, which FINISH secures (R475, R478). -/
def execKeyExchange (via slot : Nat) (key : List Byte) (s : State) : Host.Outcome State Fault Refusal :=
  spdm via 0 3 s fun s =>
    if slot != 0 || key.length != 1568 then s.reply via (.error .invalidRequest)
    else if (s.gate.sessions.filter fun x => x.via == via && s.alive x).length ≥ sessionLimit via then s.reply via (.error .sessionLimit)
    else
      let d := s.draw
      let id := s.gate.nextSession
      let c := Config.encapsulate key d.1
      let s1 := d.2.modGate fun g =>
        { g with sessions := (g.sessions.filter fun x => s.alive x) ++ [{ via := via, id := id, beat := s.now }], nextSession := id + 1 }
      s1.reply via (.keyExchange id c (Config.sign (key ++ c)))

/-- FINISH: the session is secured; the gatehouse asks for no requester authentication (R476). -/
def execFinish (via session : Nat) (s : State) : Host.Outcome State Fault Refusal :=
  spdm via 0 3 s fun s =>
    match s.session? via session with
    | some x =>
      if x.secured then s.reply via (.error .unexpectedRequest)
      else (s.modSpdmSession via session fun x => { x with secured := true, beat := s.now }).reply via .finished
    | none => s.reply via (.error .unexpectedRequest)

/-- A request that only a secured session can carry. -/
def inOne (via session : Nat) (s : State) (f : State → State) : Host.Outcome State Fault Refusal :=
  spdm via session 3 s fun s => if session == 0 then s.reply via (.error .unexpectedRequest) else f s

/-- HEARTBEAT (R476). -/
def execHeartbeat (via session : Nat) (s : State) : Host.Outcome State Fault Refusal := inOne via session s fun s => s.reply via .heartbeatAck

/-- KEY_UPDATE (R476). -/
def execKeyUpdate (via session : Nat) (s : State) : Host.Outcome State Fault Refusal := inOne via session s fun s => s.reply via .keyUpdateAck

/-- END_SESSION (R476, R486): keys installed through the session outlive it. -/
def execEndSession (via session : Nat) (s : State) : Host.Outcome State Fault Refusal :=
  inOne via session s fun s =>
    (s.modGate fun g => { g with sessions := g.sessions.filter fun x => !(x.via == via && x.id == session) }).reply via .endSessionAck

/-! ## Chunks (R475) -/

/-- CHUNK_SEND: a chunk of a large request is gathered; the request's own command follows the last (R475). -/
def execChunkSend (via : Nat) (chunk : List Byte) (last : Bool) (s : State) : Host.Outcome State Fault Refusal :=
  spdm via 0 2 s fun s =>
    if via == 512 && (chunk.length > 64 || (!last && chunk.length != 64)) then s.reply via (.error .invalidRequest)
    else
      let l := s.spdm via
      let l1 := if l.whole then { l with gathered := [], chunks := 0, whole := false } else l
      (s.modSpdm via fun _ => { l1 with gathered := l1.gathered ++ chunk, chunks := l1.chunks + 1, whole := last }).reply via .chunkAck

/-- CHUNK_GET: a chunk of the large response (R475). -/
def execChunkGet (via number : Nat) (s : State) : Host.Outcome State Fault Refusal :=
  spdm via 0 2 s fun s =>
    let l := s.spdm via
    let n := max 1 l.most
    if number * n ≥ l.large.length then s.reply via (.error .invalidRequest)
    else s.modSpdm via fun l => { l with reply := some (.chunk ((l.large.drop (number * n)).take n) (decide ((number + 1) * n ≥ l.large.length))) }

/-- SPDM_UNSUPPORTED_REQUEST: any other request code is answered with ERROR UnsupportedRequest (R476). -/
def execSpdmUnsupportedRequest (via : Nat) (s : State) : Host.Outcome State Fault Refusal :=
  spdm via 0 0 s fun s => s.reply via (.error .unsupportedRequest)

/-! ## Vendor messages (R481 to R487) -/

/-- The head is one of a message that R481 lists: PCI-SIG's StandardID, the package's own VendorID, a CODE of the list. Another
VENDOR_DEFINED_REQUEST is answered as a request the gatehouse does not know (DEDUCED from R476, notes/assumptions/80.md). -/
def vendorKnown (h : VendorHead) : Bool := h.standard == 3 && h.ownVendor && h.code.isNone

/-- A vendor message completes with a STATUS (R481, R482). A nonzero STATUS in a request is BAD_REQUEST, as a reserved field is. -/
def vendor (via session : Nat) (h : VendorHead) (s : State) (f : State → State × Nat) : Host.Outcome State Fault Refusal :=
  spdm via session 3 s fun s =>
    if !vendorKnown h then s.reply via (.error .unsupportedRequest)
    else
      let r := f s
      r.1.reply via (.vendor r.2 [])

/-- The first status of a list of checks whose condition holds, 0 for none (R482). -/
def firstStatus (l : List (Bool × Nat)) : Nat := ((l.find? fun x => x.1).map Prod.snd).getD 0

/-- GET_KEM_CERT (R474, R481). -/
def execGetKemCert (via : Nat) (ask : KemAsk) (s : State) : Host.Outcome State Fault Refusal :=
  spdm via ask.session 3 s fun s => s.reply via
    (if !vendorKnown ask.head then .error .unsupportedRequest else if ask.head.status != 0 then .vendor 7 [] else .vendor 0 Config.kemCert)

/-- The host keys of a pavilion. -/
def State.hostKeys (s : State) (p : Nat) : List HostKey := (s.pav p).chan.keys

/-- INSTALL_HOST_KEY: a key of the carrying VF's confidential pavilion; a to-host key becomes its sealing key, SEQ from zero
(R471, R481 to R483). -/
def execInstallHostKey (via session : Nat) (m : KeyMsg) (s : State) : Host.Outcome State Fault Refusal :=
  vendor via session m.head s fun s =>
    let p := (s.pavOfFn via).getD 512
    let keys := s.hostKeys p
    let why := firstStatus [(session == 0, 1), (via == 0 || via == 512, 2), (!(s.pav p).conf, 3), (decide (keys.length ≥ 4), 4),
      (keys.any fun k => k.id == m.id, 5), (!m.sized || m.head.status != 0 || m.reserved != 0 || m.dir > 1, 7), (s.fuse.debugOpen, 8)]
    if why != 0 then (s, why)
    else (s.modPav p fun v => { v with chan := { v.chan with keys := v.chan.keys ++ [{ id := m.id, key := m.key, toHost := m.dir == 1 }] } }, 0)

/-- REMOVE_HOST_KEY (R482, R483). -/
def execRemoveHostKey (via session : Nat) (m : KeyMsg) (s : State) : Host.Outcome State Fault Refusal :=
  vendor via session m.head s fun s =>
    let p := (s.pavOfFn via).getD 512
    let why := firstStatus [(session == 0, 1), (via == 0 || via == 512, 2), (!(s.pav p).conf, 3), (!((s.hostKeys p).any fun k => k.id == m.id), 6),
      (!m.sized || m.head.status != 0, 7)]
    if why != 0 then (s, why)
    else (s.modPav p fun v => { v with chan := { v.chan with keys := v.chan.keys.filter fun k => k.id != m.id } }, 0)

/-- The release held for a model and a tenant (R487, R489). -/
def State.releaseOf (s : State) (model : Word64) (tenant : Nat) : Option Release :=
  s.gate.releases.find? fun r => r.model == model && r.tenant.toNat == tenant

/-- RELEASE_MODEL: adds an entry of the release table of 256 (R471, R481, R482, R487). -/
def execReleaseModel (via session : Nat) (m : ReleaseMsg) (s : State) : Host.Outcome State Fault Refusal :=
  vendor via session m.head s fun s =>
    let why := firstStatus [(session == 0, 1), (decide (s.gate.releases.length ≥ 256), 4), ((s.releaseOf m.model m.tenant.toNat).isSome, 5),
      (!m.sized || m.head.status != 0 || m.reserved != 0, 7), (s.fuse.debugOpen, 8)]
    if why != 0 then (s, why)
    else (s.modGate fun g => { g with releases := g.releases ++ [{ model := m.model, tenant := m.tenant, secret := m.secret }] }, 0)

/-- REVOKE_MODEL: slices already loaded stay (R482, R487). -/
def execRevokeModel (via session : Nat) (m : ReleaseMsg) (s : State) : Host.Outcome State Fault Refusal :=
  vendor via session m.head s fun s =>
    let why := firstStatus [(session == 0, 1), ((s.releaseOf m.model m.tenant.toNat).isNone, 6), (!m.sized || m.head.status != 0, 7)]
    if why != 0 then (s, why)
    else (s.modGate fun g => { g with releases := g.releases.filter fun r => !(r.model == m.model && r.tenant == m.tenant) }, 0)

/-- The tenant that an image key installed over a function's DOE belongs to: the VF's pavilion's, or the one PF0 names (R485). -/
def State.keyTenant (s : State) (via : Nat) (m : KeyMsg) : Nat :=
  if via == 0 then m.tenant.toNat else ((s.pavOfFn via).map fun p => (s.pav p).tenant).getD 0

/-- An image key by id. -/
def State.imageKey (s : State) (id : Nat) : Option ImageKey := s.gate.imageKeys.find? fun k => k.id.toNat == id

/-- INSTALL_IMAGE_KEY: adds a seal or an open key to the image-key table of 32; a seal key's SEQ counts from zero (R471, R481,
R482, R485). -/
def execInstallImageKey (via session : Nat) (m : KeyMsg) (s : State) : Host.Outcome State Fault Refusal :=
  vendor via session m.head s fun s =>
    let why := firstStatus [(session == 0, 1), (via == 512, 2), (via != 0 && (s.pavOfFn via).isNone, 3), (decide (s.gate.imageKeys.length ≥ 32), 4),
      ((s.imageKey m.id.toNat).isSome, 5), (!m.sized || m.head.status != 0 || m.reserved != 0 || m.dir > 1 || (via != 0 && m.tenant != 0), 7),
      (s.fuse.debugOpen, 8), (via == 0 && m.tenant == 0, 9)]
    if why != 0 then (s, why)
    else
      let k : ImageKey := { id := m.id, tenant := BitVec.ofNat 32 (s.keyTenant via m), opens := m.dir == 1, key := m.key }
      (s.modGate fun g => { g with imageKeys := g.imageKeys ++ [k] }, 0)

/-- REMOVE_IMAGE_KEY (R482, R485). -/
def execRemoveImageKey (via session : Nat) (m : KeyMsg) (s : State) : Host.Outcome State Fault Refusal :=
  vendor via session m.head s fun s =>
    let other := match s.imageKey m.id.toNat, s.pavOfFn via with
      | some k, some p => k.tenant.toNat != (s.pav p).tenant
      | _, _ => false
    let why := firstStatus [(session == 0, 1), (via == 512, 2), (via != 0 && (s.pavOfFn via).isNone, 3), ((s.imageKey m.id.toNat).isNone, 6),
      (!m.sized || m.head.status != 0, 7), (other, 9)]
    if why != 0 then (s, why)
    else (s.modGate fun g => { g with imageKeys := g.imageKeys.filter fun k => k.id != m.id }, 0)

/-- Every session of a transport ends (R486). -/
def State.endSpdm (s : State) (via : Nat) : State :=
  s.modGate fun g => { g with sessions := g.sessions.filter fun x => x.via != via, links := Tab.drop via g.links }

end Sys2Proof.Machine
end

