-- ==== Sys2Proof/Machine/Seal.lean ====
section
/-! DEFINITION. MODEL_LOAD (R156, R157, R419, R420) and the unsealing of sealed models (R488 to R492), which TIME_TICK carries
on. -/

namespace Sys2Proof.Machine

/-- The LOCAL leaf of a pavilion's page, if it is readable: the channel-set address. -/
def State.readable (s : State) (p dva : Nat) : Option Nat :=
  match (s.walk 64 p dva).1 with
  | .leaf l =>
    if Pte.typ l.entry == 2 && Pte.rd l.entry then some (Pte.addr l.entry + dva % (if l.level == 1 then 2 ^ 29 else 65536)) else none
  | _ => none

/-- Bytes of a pavilion's memory whose pages are all mapped LOCAL with RD. -/
def State.readMapped (s : State) (p dva n : Nat) : Option (List Byte) :=
  ((dvaPieces dva n).mapM fun (x : Nat × Nat) => (s.readable p x.1).map fun a => s.readCs p a x.2).map List.flatten

/-- The first uncorrectable line that such a read meets (R175). -/
def State.hurtMapped (s : State) (p dva n : Nat) : Option Nat :=
  let v := s.pav p
  let key := csKey v v.channels
  ((dvaPieces dva n).findSome? fun (x : Nat × Nat) => (s.readable p x.1).bind fun a => s.beds.badIn key a x.2).map key

/-! ## Unsealing -/

/-- Why a sealed load fails: CAUSE, the piece, and whether the home is zeroed (R492); an uncorrectable line that it met kills the
pavilion and so aborts it (R175). -/
structure SealFail where
  cause : Nat
  piece : Nat := 0
  zero : Bool := false
  hurt : Option Nat := none
  deriving DecidableEq, Repr

/-- A check of the unsealing. -/
def sealNeeds (b : Bool) (f : SealFail) : Except SealFail Unit := if b then .ok () else .error f

/-- An option whose absence is a failure. -/
def sealSome {α : Type} (o : Option α) (f : SealFail) : Except SealFail α := match o with | some a => .ok a | none => .error f

/-- The status that the command completes with: SEAL_REFUSED, or MB_ABORTED (R492). -/
def SealFail.status (f : SealFail) : Nat := if f.cause == 0x08 then 0x86 else 0x06

/-- Nothing that the load reads is uncorrectable. -/
def sealWhole (bad : Option Nat) : Except SealFail Unit :=
  match bad with | none => .ok () | some key => .error { cause := 0x08, hurt := some key }

/-- The model key of a wrap record, with its MODEL_ID and the DVA of its tag table (R488, R489, R491 steps 1 and 2). -/
def State.unwrap (s : State) (p wrap len : Nat) : Except SealFail (BitVec 256 × Nat × Nat) := do
  sealNeeds (!s.fuse.debugOpen) { cause := 0x06 }
  sealNeeds (wrap % 64 == 0 && decide (wrap + 64 ≤ 2 ^ 55)) { cause := 0x01 }
  sealWhole (s.hurtMapped p wrap 64)
  let h ← sealSome (s.readMapped p wrap 64) { cause := 0x01 }
  let f := fun a n => leNat ((h.drop a).take n)
  let count := f 4 4
  let model := f 8 8
  let tags := f 24 8
  sealNeeds (f 0 4 == 1 && decide (1 ≤ count) && decide (count ≤ 64) && f 16 8 == len && f 32 32 == 0 && tags % 16 == 0) { cause := 0x01 }
  sealWhole (s.hurtMapped p (wrap + 64) (1648 * count))
  let es ← sealSome (s.readMapped p (wrap + 64) (1648 * count)) { cause := 0x01 }
  let entry := fun j => (es.drop (1648 * j)).take 1648
  let j ← sealSome ((List.range count).find? fun j => leNat ((entry j).take 32) == Config.identityDigest.toNat) { cause := 0x02 }
  let rel ← sealSome (s.releaseOf (BitVec.ofNat 64 model) (s.pav p).tenant) { cause := 0x03 }
  let e := entry j
  let ss := Config.decapsulate ((e.drop 32).take 1568)
  let kek := leNat (Config.shake256 32 (leBytes 1 1 ++ leBytes 32 ss.toNat ++ leBytes 32 rel.secret.toNat ++ leBytes 8 model
    ++ leBytes 32 Config.identityDigest.toNat))
  let mk := kek ^^^ leNat ((e.drop 1600).take 32)
  sealNeeds (Config.shake256 16 (leBytes 32 mk ++ leBytes 8 model) == (e.drop 1632).take 16) { cause := 0x04 }
  return (BitVec.ofNat 256 mk, model, tags)

/-- The IV of a piece (R490). -/
def pieceIv (i : Nat) : BitVec 96 := BitVec.ofNat 96 (i % 2 ^ 64)

/-- The additional data of a sealed home's pieces (R490). -/
def pieceAad (model len : Nat) : List Byte := leBytes 8 model ++ leBytes 8 len

/-- Decrypt the pieces of a home in place, in ascending order, each tag checked before its plaintext is written (R490, R491 step
3): the state, and the failure that ended it, if any. -/
def State.decryptPieces (s : State) (p home len model tags : Nat) (key : BitVec 256) : List Nat → State × Option SealFail
  | [] => (s, none)
  | i :: rest =>
    match s.hurtMapped p (tags + 16 * i) 16 with
    | some key => (s, some { cause := 0x08, zero := true, hurt := some key })
    | none =>
    match s.readMapped p (tags + 16 * i) 16 with
    | none => (s, some { cause := 0x07, zero := decide (i != 0) })
    | some tag =>
      match s.dvaLocal p (home + 65536 * i) with
      | none => (s, some { cause := 0x01, zero := decide (i != 0) })
      | some a =>
        let v := s.pav p
        match s.beds.badIn (csKey v v.channels) a 65536 with
        | some b => (s, some { cause := 0x08, zero := true, hurt := some (csKey v v.channels b) })
        | none =>
          match Config.gcmOpen key (pieceIv i) (pieceAad model len) (s.readCs p a 65536) (BitVec.ofNat 128 (leNat tag)) with
          | none => (s, some { cause := 0x05, piece := i, zero := true })
          | some pt => State.decryptPieces (s.writeCs p a pt) p home len model tags key rest

/-- SEC_SEAL_STATUS records a failure (R492, R496); an uncorrectable line kills the pavilion (R175). -/
def State.sealFailed (s : State) (p pieces home : Nat) (f : SealFail) : State :=
  let s0 := match f.hurt with | some key => s.killOwner p key | none => s
  let s1 := if f.zero then s0.zeroRange p home pieces else s0
  s1.modGate fun g => { g with sealCause := f.cause, sealPav := p, sealPiece := f.piece }

/-- Unseal a home: the state, and its model key and MODEL_ID or why it failed (R491, R492). -/
def State.unseal (s : State) (p home len wrap : Nat) : State × Except SealFail (BitVec 256 × Nat) :=
  match s.unwrap p wrap len with
  | .error f => (s.sealFailed p (len / 65536) home f, .error f)
  | .ok (key, model, tags) =>
    let r := s.decryptPieces p home len model tags key (List.range (len / 65536))
    match r.2 with
    | some f => (r.1.sealFailed p (len / 65536) home f, .error f)
    | none => (r.1, .ok (key, model))

/-! ## MODEL_LOAD -/

/-- The range of a home meets R156: its pages are LOCAL leaves without WR. -/
def State.homeOk (s : State) (p home len : Nat) : Bool :=
  home % 65536 == 0 && len % 65536 == 0 && decide (65536 ≤ len) && decide (len ≤ 2 ^ 40) && decide (home + len ≤ 2 ^ 55)
    && (List.range (len / 65536)).all fun i => match (s.walk 64 p (home + 65536 * i)).1 with
      | .leaf l => Pte.typ l.entry == 2 && !Pte.wr l.entry
      | _ => false

/-- The first handle from `h` on, around 2^24, that is not 0 and not taken; `fuel` bounds the search. -/
def freeHandle (taken : List Nat) : Nat → Nat → Nat
  | 0, h => h
  | fuel + 1, h => let h := h % 2 ^ 24; if h == 0 || taken.contains h then freeHandle taken fuel (h + 1) else h

/-- Register a slice under a handle of Gaold's choice among the free ones (R157): the handle. -/
def State.addSlice (s : State) (p : Nat) (sl : Slice) : Nat × State :=
  let d := s.draw
  let taken := (s.pav p).slices.map Prod.fst
  let h := freeHandle taken (taken.length + 2) d.1.toNat
  (h, d.2.modPav p fun v => { v with slices := Tab.put h sl v.slices })

def modelLoadForm : CmdForm :=
  { named := true, used := [0x1FF, 2 ^ 32 - 1, 2 ^ 32 - 1, 2 ^ 32 - 1, 2 ^ 32 - 1, 7, 2 ^ 32 - 1, 2 ^ 32 - 1], rank0 := true
    refused := fun v _ => v.busyState, range := fun m => bitAt (m.w 6) 2 || m.w2 7 == 0 }

/-- A home is registered, under the handle that rank 0 of the span gave or one of Gaold's choice, and filled where FILL asks; the
command completes with the handle (R157, R419, R491 step 4). -/
def State.loadSlice (s : State) (k p handle : Nat) (fill : Bool) (sl : Slice) : State :=
  let r := if handle == 0 then s.addSlice p sl else (handle, s.modPav p fun v => { v with slices := Tab.put handle sl v.slices })
  let s1 := r.2.share p k r.1 (s.sliceWords k)
  if fill then s1.beginFill p r.1 (some k) else s1.finish p k 0 [r.1, 0]

/-- Slices that the pavilion holds or is about to hold (R157). -/
def State.sliceCount (s : State) (p : Nat) : Nat := (s.pav p).slices.length + (s.unseals.filter fun u => u.pav == p).length

/-- Load a slice from its home with the options of a MODEL_LOAD, under `handle` if it is not 0 (R156, R157, R491). -/
def State.loadModel (s : State) (k p handle home len o wrap : Nat) : State :=
  let slice : Slice := { home := BitVec.ofNat 64 home, pieces := len / 65536, code := bitAt o 1, lastUse := s.now }
  if !s.homeOk p home len then s.finish p k 0x01 []
  else if s.sliceCount p ≥ 65536 then s.finish p k 0x04 []
  else if !bitAt o 2 then s.loadSlice k p handle (bitAt o 0) slice
  else
    match s.unwrap p wrap len with
    | .error f => (s.sealFailed p (len / 65536) home f).finish p k f.status []
    | .ok (key, model, tags) =>
      { s with unseals := s.unseals ++ [{ post := k, pav := p, home := home, len := len, model := model, tags := tags, wrap := wrap, key := key, code := bitAt o 1, fill := bitAt o 0, handle := handle, since := s.now }] }

def startModelLoad (k : Nat) (s : State) : State :=
  s.start k modelLoadForm fun p s => let m := s.mb k; s.loadModel k p 0 (m.w2 2) (m.w2 4) (m.w 6) (m.w2 7)

/-- A member carries out a command on a slice that rank 0 passed to it, from its own home and under rank 0's handle (R157, R416). -/
def State.memberSlice (s : State) (p post h : Nat) (ws : List Nat) : State :=
  let w := fun (i : Nat) => nthD ws i 0
  let w2 := fun (i : Nat) => w i + 2 ^ 32 * w (i + 1)
  let k := memberPost post
  match w 0 % 256 with
  | 0x20 => s.loadModel k p h (w2 2) (w2 4) (w 6) (w2 7)
  | 0x21 => if w 3 % 2 == 0 then s.pinSlice p k h else s.unpinSlice p k h
  | _ => s.evictNow p k h (w 3 % 2 == 1)

/-- MODEL_LOAD: registers a home as a slice, and fills it where FILL asks; where SEALED asks, its decryption begins (R156, R157,
R419, R420, R491). -/
def execModelLoad (fn slot : Nat) (s : State) : Host.Outcome State Fault Refusal := post fn slot (opc 0x20) startModelLoad s

/-! ## Decryption in time -/

/-- Bytes of a sealed home that are decrypted in a tick: 640 for 64 GB/s, or the channel set's data bytes where they are fewer, 180 for
each channel (R165, R491). -/
def Pav.unsealRate (v : Pav) : Nat := min 640 (180 * v.channels.length)

/-- Pieces that are decrypted by now at a rate (R491). -/
def Unsealing.due (u : Unsealing) (rate now : Nat) : Nat := min (u.len / 65536) ((now - u.since.toNat) * rate / 65536)

/-- A sealed load goes on to the pieces due; with the last its slice is registered (R491, R492). -/
def State.unsealOn (s : State) (u : Unsealing) : State :=
  let n := u.due (s.pav u.pav).unsealRate s.now.toNat
  if n ≤ u.next then s
  else
    let r := s.decryptPieces u.pav u.home u.len u.model u.tags u.key ((List.range (n - u.next)).map (u.next + ·))
    match r.2 with
    | some f =>
      let s1 := { r.1 with unseals := r.1.unseals.filter fun x => x != u }
      (s1.sealFailed u.pav (u.len / 65536) u.home f).finish u.pav u.post f.status []
    | none =>
      if n < u.len / 65536 then { r.1 with unseals := r.1.unseals.map fun x => if x == u then { u with next := n } else x }
      else
        let sl : Slice := { home := BitVec.ofNat 64 u.home, pieces := u.len / 65536, code := u.code, lastUse := s.now, key := some u.key, model := BitVec.ofNat 64 u.model, wrap := BitVec.ofNat 64 u.wrap }
        ({ r.1 with unseals := r.1.unseals.filter fun x => x != u }).loadSlice u.post u.pav u.handle u.fill sl

/-- At every 1,024th tick a package that no peer has yet to tell of a master may become it (R358, R359). -/
def State.electAlone (s : State) : State :=
  if s.now.toNat % 1024 == 0 && (List.range 16).all fun p => !s.portUp p || (s.port p).stamp.isSome then s.elect else s

/-- TIME_TICK: TIME advances in a REFCLK cycle, and the decryption of sealed homes goes on (R251, R358, R359, R491). -/
def execTimeTick (s : State) : Host.Outcome State Fault Refusal :=
  if !s.ticking then ok s
  else
    let s1 := s.tickOn.electAlone
    ok (s1.unseals.foldl (fun s u => s.unsealOn u) s1)

end Sys2Proof.Machine
end

