-- ==== Sys2Proof/Machine/Span.lean ====
section
/-! DEFINITION. Messages of spans (R351, R364 to R375): what each does at the member that it reaches. -/

namespace Sys2Proof.Machine

/-- The member of a span on this package (R268). -/
def State.memberOfSpan (s : State) (id : Nat) : Option Nat := (s.pavs.find? fun x => x.2.bound && x.2.isSpan && x.2.spanId == id).map Prod.fst

/-- WINDING_ABORT_RECEIVE: a member says that it is being reset, under the winding that the span has (R373, R374). -/
def execWindingAbortReceive (spanId winding rank : Nat) (s : State) : Host.Outcome State Fault Refusal :=
  match s.memberOfSpan spanId with
  | none => ok s
  | some p => if (s.pav p).span.winding.toNat == winding then ok (s.faultSpan p rank) else ok s

/-- PEER_LOSS_DETECT: a member finds that a peer is gone (R373, R374). -/
def execPeerLossDetect (pav rank : Nat) (s : State) : Host.Outcome State Fault Refusal :=
  if pav ≥ numPavs then noUnit
  else if rank > (s.pav pav).spanLast || rank == (s.pav pav).spanRank then ok s
  else ok (s.faultSpan pav rank)

/-- A pavilion held for an apply that has not gone further takes the start of its span's kernel after all (R369, R370; DESIGN CHOICE,
notes/assumptions/19.md). -/
def State.unhold (s : State) (p : Nat) : State :=
  if s.apply.phase == 2 && s.apply.heldAt.contains p then
    { (s.modPav p fun v => { v with held? := false }) with apply := { s.apply with heldAt := s.apply.heldAt.erase p } }
  else s

/-- Rank 0's decision reaches a member (R366, R369, R370). -/
def State.memberRelease (s : State) (p : Nat) (use : SyncUse) (n tick : Word64) : State :=
  match use with
  | .barrier i =>
    match Tab.find i (s.pav p).barriers with
    | some b => s.putBarrier p i (some { b with tick := some tick })
    | none => s
  | .commit => s.modPav p fun v => { v with commit := some { v.commit.getD {} with step := n, tick := some tick } }
  | .kernelStart => (s.unhold p).modPav p fun v => { v with kernel := { v.kernel with step := n, tick := some tick } }

/-- Rank 0 passes an accepted RUN to this member, which reads and checks its own table, waiting for pages from outside as any RUN
does; `repeats` 0 takes it back (R292, R367). -/
def State.memberRun (s : State) (p no : Nat) (table : Word64) (first last repeats : Nat) : State :=
  if repeats == 0 then
    s.modPav p fun v => { v with runs := v.runs.filter fun r => !(r.passed && r.no == no)
                                 accepting := v.accepting.filter fun a => !(a.passed.any fun x => x.no == no) }
  else s.acceptRun p { post := s.passedPost p, passed := some ⟨no, table.toNat, first, last, repeats⟩ }

/-- The RUN of a number may begin. -/
def State.runGoes (s : State) (p no : Nat) : State :=
  s.modPav p fun v => { v with runs := v.runs.map fun (r : Run) => if r.no == no && r.passed then { r with waiting := [] } else r }

/-- A member's answer to a RUN. A refusal on any member refuses it on all, with the entry that the member named; once all have accepted
it, it may begin on all (R293, R367). -/
def State.runAnswered (s : State) (p rank no : Nat) (refused : Option Nat) : State :=
  let v := s.pav p
  match v.runs.find? fun r => r.no == no && r.waiting.contains rank with
  | none => s
  | some r =>
    match refused with
    | none =>
      let left := r.waiting.erase rank
      let s1 := s.modPav p fun v => { v with runs := v.runs.map fun (x : Run) => if x.no == no then { x with waiting := left } else x }
      if left.isEmpty then s1.syncAll p (.runGo v.spanId no v.winding) else s1
    | some e =>
      let s1 := (s.modPav p fun v => { v with runs := v.runs.filter fun x => x.no != no }).syncAll p (.run v.spanId no 0 0 0 0 v.winding)
      match r.slot with
      | some k => s1.complete k 0x01 ([0] ++ lohi v.committed.toNat ++ [e])
      | none => s1

/-- A member reports, or takes back, that it is up, with the delays of the hops that the report has taken (R361, R364, R365, R370,
R374). A member that has not heard of this one is told; rank 0 is told the delay of its route. -/
def State.memberReady (s : State) (p rank : Nat) (up : Bool) (winding : Word16) (q : Nat) (entry : SpanAnswer) (delay : Nat) : State :=
  let v := s.pav p
  if rank > v.spanLast || rank == v.spanRank then s
  else if !up then
    let s1 := s.modPav p fun v => { v with span := { v.span with told := Tab.drop rank v.span.told } }
    if v.span.st == 2 then s1.faultSpan p rank else s1
  else
    let known := (Tab.find rank v.span.told).isSome
    let s1 := s.modPav p fun v => { v with span := { v.span with
      told := Tab.put rank entry v.span.told, pavs := Tab.put rank q v.span.pavs
      newest := if winding.toNat > v.span.newest.toNat then winding else v.span.newest } }
    let s2 := if known || v.span.st == 2 then s1 else s1.sayReady p rank
    let s3 := if rank == 0 then s2.syncRank0 p (.delay v.spanId v.spanRank delay) else s2
    s3.tryReady p

/-- At rank 0, the delay of the route to a member is known: the lead follows it (R370). -/
def State.memberDelay (s : State) (p rank ns : Nat) : State :=
  (s.modPav p fun v =>
    let ds := Tab.put rank ns v.span.delays
    { v with span := { v.span with delays := ds, lead := if v.span.st == 2 then leadOf ds else v.span.lead } }).tryReady p

/-- A member's arrivals at a barrier or a step commit belong to a kernel of the span: those for one that has ended are dropped, those for
the next wait until rank 0 has started it (R369). -/
def State.memberArrival (s : State) (p rank : Nat) (use : SyncUse) (count : Nat) (n : Word64) (kernel : Nat) : State :=
  let k := (s.pav p).span.kernels
  if use == .kernelStart || kernel == k then s.memberArrives p rank use count n
  else if kernel < k then s
  else s.modPav p fun v => { v with span := { v.span with ahead := v.span.ahead ++ [(rank, use, count, n, kernel)] } }

/-- A message of a span reaches its member here. One under another winding is dropped (R365, R374). -/
def State.spanMsg (s : State) (p : Nat) (m : SyncMsg) (delay : Nat) : State :=
  let v := s.pav p
  let current := match syncWinding m with | some w => w == v.span.winding | none => true
  let ready := v.span.st == 2
  if !current then s
  else
    match m with
    | .arrival _ rank use count n kernel _ => if ready && v.spanRank == 0 && rank != 0 then s.memberArrival p rank use count n kernel else s
    | .release _ use n tick _ => if ready && v.spanRank != 0 then s.memberRelease p use n tick else s
    | .flip _ tick _ => if s.apply.phase == 3 && !s.apply.named && s.spanApply.contains p then s.nameTick tick else s
    | .fence _ _ _ => s
    | .ready _ rank up winding q entry => s.memberReady p rank up winding q entry delay
    | .probe _ => s.syncRank0 p (.delay v.spanId v.spanRank delay)
    | .delay _ rank ns => if v.spanRank == 0 && rank ≤ v.spanLast then s.memberDelay p rank ns else s
    | .abort _ rank winding => if winding == v.span.winding then s.faultSpan p rank else s
    | .commitLost id n => s.raisePav p 0x0032 (detailWords (id :: lohi n.toNat))
    | .rollup _ rank flipTick rollup groups _ => s.compareRollup p rank flipTick rollup groups
    | .diverged _ group _ => s.spanDiverged p group (v.member 0)
    | .run _ no table first last repeats _ => if ready && v.spanRank != 0 then s.memberRun p no table first last repeats else s
    | .runAnswer _ rank no refused _ => if v.spanRank == 0 then s.runAnswered p rank no refused else s
    | .runGo _ no _ => if v.spanRank != 0 then s.runGoes p no else s
    | .slice _ k h ws _ => if ready && v.spanRank != 0 then s.memberSlice p k h ws else s
    | .sliceDone _ rank k status _ => if v.spanRank == 0 then s.memberDone p rank k status else s
    | .firmware _ rank version cmdset _ => s.modPav p fun v => { v with span := { v.span with versions := Tab.put rank (version, cmdset) v.span.versions } }
    | .applyReady _ rank cores _ => (s.modPav p fun v => { v with span := { v.span with ready := Tab.put rank cores v.span.ready } }).nameSpanTick
    | .applyEnd _ _ reason _ =>
      if (s.apply.phase == 1 || s.apply.phase == 2 || s.apply.phase == 3) && s.spanApply.contains p then
        s.endApply ⟨if reason == 0x1A || reason == 0x09 then reason else 0x0A, some p, if reason == 0x1A then 64 else 0, 0⟩
      else s.modPav p fun v => { v with span := { v.span with ready := [] } }
    | .renewal _ _ _ _ => s

/-- A message of link VC 0 for this package: a renewal, which counts once this package is SYNC, or one of a span (R321, R351, R361). -/
def State.syncMsg (s : State) (m : SyncMsg) (delay : Nat) : State :=
  match m with
  | .renewal dir pool tick sender => if s.links.tsync.sync then s.takeRenewal sender dir (pool % 16) tick else s
  | m =>
    match (syncSpan m).bind s.memberOfSpan with
    | some p => s.spanMsg p m delay
    | none => s

/-- A message of link VC 0 comes in: passed on if it is for another package, dropped if it has come before (R351, R354, R356). -/
def State.syncIn (s : State) (i : SyncItem) : State :=
  if i.dst != s.ownPkg then s.syncForward i
  else
    match (Tab.getD s.links.syncGot i.src {}).take i.boot i.no with
    | none => s
    | some g => ({ s with links := { s.links with syncGot := Tab.put i.src g s.links.syncGot } }).syncMsg i.msg i.delay

/-- SYNC_FLIT_RECEIVE: the messages of a SYNC flit that is taken are taken in order (R348 to R351, R353, R367 to R375, R581, R321). -/
def execSyncFlitReceive (port : Nat) (m : SyncFlit) (s : State) : Host.Outcome State Fault Refusal :=
  if port ≥ numPorts then noUnit
  else if !s.portUp port || s.regs.pkgId.isNone then ok s
  else
    let q := s.flitIn port 2 m.flit
    ok (if q.1 then m.items.foldl State.syncIn q.2 else q.2)

end Sys2Proof.Machine
end

