-- ==== Sys2Proof/Machine/Stage.lean ====
section
/-! DEFINITION. Firmware slots, the refusal policy, and the start of FW_STAGE and FW_ACTIVATE one after the other (R587 to R594). -/

namespace Sys2Proof.Machine

/-- A slot of boot flash: `b` false for A, true for B. -/
def Fw.slot (f : Fw) (b : Bool) : FwSlot := if b then f.slotB else f.slotA
def Fw.setSlot (f : Fw) (b : Bool) (x : FwSlot) : Fw := if b then { f with slotB := x } else { f with slotA := x }
/-- The slot that is not ACTIVE. -/
def Fw.spare (f : Fw) : FwSlot := f.slot (!f.active)
def State.modFw (s : State) (f : Fw → Fw) : State := { s with fw := f s.fw }

/-- The shortest and the longest image (R588, R592). -/
def imageMin : Nat := 0x40 + 4627
def imageMax : Nat := 16 * 2 ^ 20

/-- The header of a verified image, as the slot that will hold it shows it; none where verification fails (R588, R589). -/
def Fw.verify (f : Fw) (bs : List Byte) : Option FwSlot :=
  let n := fun (a k : Nat) => leNat ((bs.drop a).take k)
  if n 0 4 != 1 || n 0x0E 2 != 0 || n 0x24 12 != 0 || 0x40 + n 0x10 4 + 4627 > bs.length || n 0x0C 1 < f.svnFloor.toNat || !Config.imageVerified bs then none
  else some { st := 3, version := BitVec.ofNat 32 (n 4 4), cmdset := BitVec.ofNat 32 (n 8 4), svn := BitVec.ofNat 8 (n 0x0C 1), floor := BitVec.ofNat 8 (n 0x0D 1) }

/-- PV_STATUS.STATE is APPLYING or CLOSING (R287, R593). -/
def State.applyRuns (s : State) : Bool := s.regs.pvState == 2 || s.regs.pvState == 3

/-- A pavilion is frozen, or a SAVE or RESTORE is in progress. -/
def State.migrates (s : State) : Bool := s.pavs.any fun x => x.2.bound && (x.2.freeze.frozen || !x.2.freeze.busy.isEmpty)

/-- FW_POLICY refuses FW_ACTIVATE (R593). -/
def State.activateBarred (s : State) : Bool :=
  let on := fun (i : Nat) => s.fw.policy.getLsbD i
  on 0 || (on 1 && s.applyRuns) || (on 2 && s.migrates) || (on 3 && s.power.emergency) || (on 4 && s.replayer.mode != 0)
    || (s.fw.spare.st == 2 && s.fw.spare.cmdset.toNat / 65536 != s.fw.cmdset.toNat / 65536 && s.pavs.any fun x => x.2.bound)

/-- FW_STAGE begins: the image is read from host memory (R592). -/
def State.beginStage (s : State) (k : Nat) : State :=
  let m := s.mb k
  if s.fw.policy.getLsbD 0 then s.complete k 0x02 []
  else { s.modFw fun f => { f with staging := some k } with
    transfers := s.transfers ++ [{ post := k, pav := numPavs, kind := 2, iova := m.w2 1, len := m.w 3 }] }

/-- FW_ACTIVATE begins: the staged slot is verified again (R594). -/
def State.beginActivate (s : State) (k : Nat) : State :=
  if s.activateBarred then s.complete k 0x02 []
  else if s.fw.spare.st != 2 then s.complete k 0x03 []
  else s.modFw fun f => { f with activation := some { post := k, phase := 1, handover := bitAt ((s.mb k).w 1) 0 } }

/-- Begin an FW_STAGE or an FW_ACTIVATE. -/
def State.beginFw (s : State) (k : Nat) : State := if (s.mb k).w 0 % 256 == 0x60 then s.beginStage k else s.beginActivate k

/-- A staging or an activation is in progress. -/
def Fw.busy (f : Fw) : Bool := f.staging.isSome || f.activation.isSome

/-- Begin an FW_STAGE or an FW_ACTIVATE, or let it wait for those before it (R592). -/
def State.queueFw (s : State) (k : Nat) : State :=
  if s.fw.busy then s.modFw fun f => { f with waiting := f.waiting ++ [k] } else s.beginFw k

/-- Posts that wait begin in order until one is in progress. -/
def State.fwNext : Nat → State → State
  | 0, s => s
  | n + 1, s =>
    match s.fw.waiting with
    | [] => s
    | k :: rest => if s.fw.busy then s else State.fwNext n ((s.modFw fun f => { f with waiting := rest }).beginFw k)

/-- The FW_STAGE of a post is over. -/
def State.fwDone (s : State) (k : Nat) : State :=
  if s.fw.staging == some k then State.fwNext s.fw.waiting.length (s.modFw fun f => { f with staging := none }) else s

/-- An FW_STAGE that a failure of the control processor ends leaves its slot INVALID (R514, R592). -/
def State.stageAborted (s : State) (k : Nat) : State :=
  if s.fw.staging == some k then (s.modFw fun f => f.setSlot (!f.active) { st := 1 }).fwDone k else s

/-- A host error ends the transfer of an FW_STAGE in progress, which is the control processor's own (R420). -/
def State.stageError (s : State) : State :=
  match s.transfers.find? fun t => t.pav == numPavs with
  | none => s
  | some t =>
    let s1 := s.complete t.post 0x07 []
    ({ s1 with transfers := s1.transfers.filter fun y => y.post != t.post } : State).fwDone t.post

end Sys2Proof.Machine
end

