-- ==== Sys2Proof/Machine/Host.lean ====
section
/-! DEFINITION. The host port's registers of one function (R226, R227, R287, R340, R418), host channels (R424 to R430), and
MEM_COPY (R419, R420, R630). -/

namespace Sys2Proof.Machine

/-! ## Event and fault registers -/

/-- EVT_TAIL_WRITE: records up to the written count are consumed; the event vector follows while records are left (R418). -/
def execEvtTailWrite (fn : Nat) (value : Word32) (s : State) : Host.Outcome State Fault Refusal :=
  if fn ≥ numFns then noUnit
  else if !s.exposed then ok s
  else if !s.hasFn fn then ok s
  else
    let x := s.fn fn
    let s1 := s.setFn fn { x with tail := value }
    ok (if x.head != value then s1.sendVector fn (bits x.vec.toNat 14 12) else s1)

/-- EVT_OVERFLOW_CLEAR: clearing OVERFLOW also clears LOST (R418). -/
def execEvtOverflowClear (fn : Nat) (s : State) : Host.Outcome State Fault Refusal :=
  if fn ≥ numFns then noUnit else if !s.exposed then ok s else ok (s.setFn fn { s.fn fn with overflow := false, lost := 0 })

/-- MMU_FLT_SEL_WRITE: the selection changes, ID and, for PF0, PAV, and the latch clears to zero (R225, R226). -/
def execMmuFltSelWrite (fn : Nat) (value : Word32) (s : State) : Host.Outcome State Fault Refusal :=
  if fn ≥ numFns then noUnit
  else if !s.exposed then ok s
  else if !s.hasFn fn || (s.faultPav fn).isNone then ok s
  else
    let v := value.toNat
    let sel := bits v 20 16 <<< 16 + (if fn == 0 then bits v 8 0 else 0)
    ok (s.setFn fn { s.fn fn with fltSel := BitVec.ofNat 32 sel, fltLatch := 0 })

/-- MMU_FLT_DATA0_READ: the selected record is copied whole into the function's latch, and its word 0 is returned (R226). -/
def execMmuFltData0Read (fn : Nat) (s : State) : Host.Outcome State Fault Refusal :=
  if fn ≥ numFns then noUnit
  else if !s.exposed then ok (s.answered 0)
  else
    match s.faultPav fn with
    | none => ok (s.answered 0)
    | some p =>
      let id := bits (s.fn fn).fltSel.toNat 20 16
      let r : BitVec 512 := ((Tab.find id (s.pav p).faults).map fun r => r.pack id).getD 0
      ok ((s.setFn fn { s.fn fn with fltLatch := r }).answered (r.toNat % 2 ^ 64))

/-! ## Base registers that the first write after cold reset sets -/

/-- The first write of a base register after a cold reset sets it; later writes are discarded. `n` is its low reserved bits. -/
def firstBase (old : Option Word64) (value : Word64) (n : Nat) : Option Word64 :=
  if old.isSome then old else some (BitVec.ofNat 64 (value.toNat / 2 ^ n * 2 ^ n))

/-- PV_TABLE_BASE_WRITE (R287). -/
def execPvTableBaseWrite (value : Word64) (s : State) : Host.Outcome State Fault Refusal :=
  if !s.exposed then ok s else
  ok (s.modRegs fun r => { r with tableBase := firstBase r.tableBase value 16 })

/-- MMU_WIN_BASE_WRITE: window requests are served from then on (R225, R227). -/
def execMmuWinBaseWrite (value : Word64) (s : State) : Host.Outcome State Fault Refusal :=
  if !s.exposed then ok s else
  ok (s.modRegs fun r => { r with winBase := firstBase r.winBase value 17 })

/-- PV_POOL_BASE_WRITE (R340). -/
def execPvPoolBaseWrite (value : Word64) (s : State) : Host.Outcome State Fault Refusal :=
  if !s.exposed then ok s else
  ok (s.modRegs fun r => { r with poolBase := firstBase r.poolBase value 9 })

/-! ## Data from the host -/

/-- The byte that the host returned for an IOVA. -/
def hostByte (data : List HostData) (a : Nat) : Option Byte :=
  (data.find? fun d => decide (d.iova ≤ a) && decide (a < d.iova + d.bytes.length)).bind fun d => d.bytes[a - d.iova]?

/-- The `n` bytes from an IOVA, if the host returned them all. -/
def hostBytes (data : List HostData) (a n : Nat) : Option (List Byte) := (List.range n).mapM fun i => hostByte data (a + i)

/-- The plaintext of a record that passes the checks of R427 for the unit at `dva`; the unit's other bytes read as zero. -/
def HostChan.openRecord (c : HostChan) (dva : Nat) (r : List Byte) : Option (List Byte) :=
  let f := fun a n => leNat ((r.drop a).take n)
  let len := f 4 4
  match c.keys.find? fun k => k.id.toNat == f 0 4 && !k.toHost with
  | none => none
  | some k =>
    if len > 4096 || f 16 8 != dva || f 24 8 != 0 then none
    else
      (Config.gcmOpen k.key (recordIv k.id (BitVec.ofNat 64 (f 8 8))) (r.take 32) ((r.drop 32).take len) (BitVec.ofNat 128 (f 4128 16))).map fun pt =>
        pt ++ List.replicate (4096 - pt.length) 0

/-- What the records of a read came to. -/
inductive Opened where
  /-- a record has not come -/
  | missing
  /-- the record of this unit fails a check of R427 -/
  | failed (dva : Nat)
  /-- the plaintext of each unit, at the IOVA that its leaf would give it unsealed -/
  | all (m : Mem)

/-- Open the records of sealed units: each unit's DVA and its leaf's IOVA (R425, R427). -/
def HostChan.openUnits (c : HostChan) (data : List HostData) : List (Nat × Nat) → Mem → Opened
  | [], m => .all m
  | (dva, iova) :: rest, m =>
    let u := dva / 4096 % 16
    match hostBytes data (iova + 4160 * u) 4144 with
    | none => .missing
    | some r =>
      match c.openRecord dva r with
      | none => .failed dva
      | some pt => c.openUnits data rest (Mem.writeN m (iova + 4096 * u) pt)

/-- The sealed 4 KiB units that hold a read's bytes, each once, and its plain bytes: what each byte is keyed by, its DVA. -/
def sealedUnits (m : Tab PageLoc) (bs : List (Nat × Nat)) : List (Nat × Nat) × List Nat :=
  bs.foldl (fun (acc : List (Nat × Nat) × List Nat) x =>
    match Tab.find (x.2 / 65536) m with
    | some (.host iova true) =>
      let u := (x.2 / 4096 * 4096, iova)
      if acc.1.contains u then acc else (acc.1 ++ [u], acc.2)
    | _ => (acc.1, acc.2 ++ [x.1])) ([], [])

/-- The host's data for a tile that waits for it: the tile moves on whole, or its channel halts on a record that fails (R427,
R429, R430). -/
def State.tileData? (s : State) (p core strand : Nat) (x : Flight) (data : List HostData) : State :=
  match x.map with
  | none => s
  | some m =>
    let rows := (s.tileRows p core x).map Prod.snd
    let q := sealedUnits m (x.ds1.outside m rows PageLoc.isHost)
    match q.2.mapM fun a => (hostByte data a).map fun b => (a, b) with
    | none => s
    | some plain =>
      match (s.pav p).chan.openUnits data q.1 (plain.foldl (fun m c => Mem.write m c.1 c.2) []) with
      | .missing => s
      | .failed dva => s.haltChannel p 1 dva
      | .all host => (s.modFlight core strand x.num fun y => { y with prog := .pending }).driveTiles p core strand x.num { host := some host }

/-- The page of a RUN's table that it waits for, and the host leaf that maps it. -/
def State.awaitedPage (s : State) (p : Nat) (a : Accept) : Option (Nat × Nat × Bool) :=
  let n := s.runNames a
  match (s.readTable p a (some a.post) n.1 n.2.1 n.2.2.1 n.2.2.2).1 with
  | .error (.need pg) =>
    match (s.walk 64 p (pg * 65536)).1 with
    | .leaf l => if Pte.typ l.entry == 3 then some (pg, Pte.addr l.entry, Pte.sealBit l.entry) else none
    | _ => none
  | _ => none

/-- The host's data for a RUN that waits for a page of its table (R292). -/
def State.runData (s : State) (p : Nat) (a : Accept) (data : List HostData) : State :=
  match s.awaitedPage p a with
  | none => s
  | some (pg, iova, sealed) =>
    let got := fun (bs : List Byte) => s.acceptRun p { a with pages := a.pages ++ [pg], bytes := Mem.writeN a.bytes (pg * 65536) bs }
    if !sealed then (match hostBytes data iova 65536 with | some bs => got bs | none => s)
    else
      match (s.pav p).chan.openUnits data ((List.range 16).map fun u => (pg * 65536 + 4096 * u, iova)) [] with
      | .missing => s
      | .failed dva => s.haltChannel p 1 dva
      | .all m => got (Mem.readN m iova 65536)

/-- A RUN that waits for host memory, by the slot that posted it: pavilion and acceptance. -/
def State.acceptAt (s : State) (fn slot : Nat) : Option (Nat × Accept) :=
  s.pavs.findSome? fun x => (x.2.accepting.find? fun a => a.post % 2048 == fn * 4 + slot).map fun a => (x.1, a)

/-! ## Channel errors -/

/-- HOST_CHANNEL_ERROR: a host refusal, a failed record, a missing key or a link loss halts the pavilion's host channel (R429,
R430); the number after the last pavilion's stands for the control processor's own transfer, FW_STAGE's (R420; notes/assumptions/88.md). -/
def execHostChannelError (pav cause : Nat) (dva : Word64) (s : State) : Host.Outcome State Fault Refusal :=
  if pav > numPavs || cause == 0 || cause > 6 then noUnit
  else if pav == numPavs then ok s.stageError
  else if !(s.pav pav).bound then ok s else ok (s.haltChannel pav cause dva.toNat)

/-- A transfer command in progress, by its slot. -/
def State.transferAt (s : State) (fn slot : Nat) : Option Transfer := s.transfers.find? fun t => t.post % 2048 == fn * 4 + slot

/-- DVA that names a channel-set address in a record (R425). -/
def csDva (a : Nat) : Nat := a + 2 ^ 63

/-- PCIE_COMPLETION_TIMEOUT: a host completion has not arrived for 50 ms: the channel halts, and a command that waited for it
ends with HOST_ERROR (R399, R420, R429, R430). -/
def execPcieCompletionTimeout (target : HostTarget) (s : State) : Host.Outcome State Fault Refusal :=
  match target with
  | .tile core strand pos =>
    if core ≥ numCores || strand ≥ numStrands then noUnit
    else
      match s.ownerOf core, (s.strand core strand).flights[pos]? with
      | some p, some x =>
        (match x.prog with
          | .hostRead iova =>
            let page := ((x.map.getD []).findSome? fun e => match e.2 with | .host i _ => if i == iova.toNat then some e.1 else none | _ => none).getD 0
            ok (s.haltChannel p 4 (page * 65536))
          | _ => ok s)
      | _, _ => ok s
  | .command fn slot =>
    if fn ≥ numFns || slot ≥ 4 then noUnit
    else
      match s.transferAt fn slot, s.acceptAt fn slot with
      | some t, _ =>
        let s1 := if t.pav < numPavs then s.haltChannel t.pav 4 (csDva t.addr) else s
        let s2 := s1.complete t.post 0x07 []
        ok ({ s2 with transfers := s2.transfers.filter fun y => y.post != t.post }.fwDone t.post)
      | none, some (p, a) =>
        (match s.awaitedPage p a with
          | some (pg, _, _) => ok (s.haltChannel p 4 (pg * 65536))
          | none => ok s)
      | none, none => ok s

/-- MB_HCH_RESUME: HALTED clears, and the waiting tiles are retried, each whole (R408, R430). -/
def execMbHchResume (fn : Nat) (s : State) : Host.Outcome State Fault Refusal :=
  if fn ≥ numFns then noUnit
  else if !s.exposed then ok s
  else
    match s.pavOfFn fn with
    | none => ok s
    | some p =>
      if !(s.pav p).chan.halted then ok s
      else
        let s1 := s.modPav p fun v => { v with chan := { v.chan with halted := false } }
        ok ((s1.liveStrands p).foldl (fun s x =>
          ((s.strand x.1 x.2).flights.filter fun y => y.prog == .hostWait).foldl (fun s y =>
            (s.modFlight x.1 x.2 y.num fun z => { z with prog := .pending }).driveTiles p x.1 x.2 y.num {}) s) s1)

/-! ## MEM_COPY (R419, R420, R493, R569) -/

/-- The step of a copy's addresses: 4,096 bytes for CONF, else 64. -/
def copyUnit (conf : Bool) : Nat := if conf then 4096 else 64

def memCopyForm (conf : Bool) : CmdForm :=
  { named := true, used := [0x1FF, 1] ++ List.replicate 5 (2 ^ 32 - 1), refused := fun v _ => v.resetting.isSome
    range := fun m => decide (64 ≤ m.w 7) && decide (m.w 7 ≤ 64 * 2 ^ 20) && m.w 7 % copyUnit conf == 0 }

/-- The records of bytes of the channel set, with the sequence numbers of the to-host key (R425, R426). -/
def copyRecords (k : HostKey) (addr : Nat) (bs : List Byte) : List (Nat × List Byte) :=
  (List.range (bs.length / 4096)).map fun i =>
    (4160 * i, sealRecord { k with seq := k.seq + BitVec.ofNat 64 i } (csDva (addr + 4096 * i)) ((bs.drop (4096 * i)).take 4096))

/-- The to-host key's counter advances by the records sealed (R426). -/
def State.takeSeqs (s : State) (p : Nat) (k : HostKey) (n : Nat) : State :=
  s.modPav p fun v => { v with chan := { v.chan with keys := v.chan.keys.map fun x =>
    if x.id == k.id && x.toHost then { x with seq := x.seq + BitVec.ofNat 64 n } else x } }

/-- Copy from the own channel set to host memory. -/
def State.copyOut (s : State) (k p iova addr len : Nat) : State :=
  let v := s.pav p
  match s.beds.badIn (csKey v v.channels) addr len with
  | some b => (s.killOwner p (csKey v v.channels b)).complete k 0x86 []
  | none =>
    let bs := s.readCs p addr len
    if s.replaying p then s.complete k 0 [len]
    else if !v.conf then ({ s with host := Mem.writeN s.host (v.hostAt iova) bs }.count p 0 len).complete k 0 [len]
    else
      match v.chan.toHostKey with
      | none => (s.haltChannel p 2 (csDva addr)).complete k 0x07 []
      | some key =>
        let host := (copyRecords key addr bs).foldl (fun m r => Mem.writeN m (v.hostAt iova + r.1) r.2) s.host
        (({ s with host := host }.takeSeqs p key (len / 4096)).count p 0 len).complete k 0 [len]

/-- Bytes that MEM_COPY brings into the own channel set (R446, R569). -/
def State.copiedIn (s : State) (t : Transfer) (bs : List Byte) : State :=
  let s1 := ((s.writeCs t.pav t.addr bs).count t.pav 0 t.len).recordInput t.pav 3 0 (t.pav * 2048 + 1024) (csDva t.addr) bs
  let s2 := s1.complete t.post 0 [t.len]
  { s2 with transfers := s2.transfers.filter fun y => y.post != t.post }

/-- Host data for a MEM_COPY into the package: plain bytes, or a record for each 4 KiB unit (R425, R427). -/
def State.copyData (s : State) (t : Transfer) (data : List HostData) : State :=
  let v := s.pav t.pav
  if !v.conf then (match hostBytes data t.iova t.len with | some bs => s.copiedIn t bs | none => s)
  else
    match (List.range (t.len / 4096)).mapM fun i => hostBytes data (t.iova + 4160 * i) 4144 with
    | none => s
    | some rs =>
      let pts := rs.zipIdx.map fun r => (csDva (t.addr + 4096 * r.2), v.chan.openRecord (csDva (t.addr + 4096 * r.2)) r.1)
      match pts.find? fun x => x.2.isNone with
      | some x => s.haltChannel t.pav 1 x.1
      | none => s.copiedIn t (pts.flatMap fun x => x.2.getD [])

def startMemCopy (k : Nat) (s : State) : State :=
  s.start k (memCopyForm (s.pav (s.target k)).conf) fun p s =>
    let m := s.mb k
    let v := s.pav p
    let iova := m.w2 3
    let addr := m.w2 5
    let len := m.w 7
    if iova % 64 != 0 || addr % copyUnit v.conf != 0 || addr + len > v.capacity || s.sealedRange p addr len then s.complete k 0x01 []
    else if v.chan.halted then s.complete k 0x07 []
    else if bitAt (m.w 2) 0 then s.copyOut k p iova addr len
    else if s.replaying p then s.complete k 0 [len]
    else { s with transfers := s.transfers ++ [{ post := k, pav := p, kind := 0, iova := iova, addr := addr, len := len }] }

/-- MEM_COPY: copies bytes between host memory and the own channel set; one from the host waits for the host's data (R419,
R420, R430). -/
def execMemCopy (fn slot : Nat) (s : State) : Host.Outcome State Fault Refusal := post fn slot (opc 0x24) startMemCopy s

end Sys2Proof.Machine
end

