-- ==== Sys2Proof/Machine/Bar2.lean ====
section
/-! DEFINITION. Host accesses through PF BAR2 (R405, R406, R175, R493, R569). -/

namespace Sys2Proof.Machine

/-- Where a byte of BAR2 lies. -/
inductive BarPlace where
  /-- package memory, at a package address -/
  | package (a : Nat)
  /-- the own channel set of a pavilion -/
  | set (p a : Nat)
  /-- it reads as zero and discards writes -/
  | none
  deriving DecidableEq, Repr

/-- Log2 sizes that BAR2 can take are 29 to 36 (R402). -/
def State.barSize (s : State) : Nat := 2 ^ s.regs.bar2Log

/-- The place of the byte at a BAR2 offset (R405, R493). -/
def State.barPlace (s : State) (o : Nat) : BarPlace :=
  let w := s.regs.bar2Win.toNat
  let p := bits w 8 0
  let a := w / 65536 * 65536 + (o - hostArea)
  if o < hostArea then .package o
  else if o ≥ s.barSize || !bitAt w 9 || (s.pav p).conf || a ≥ (s.pav p).capacity || s.sealedFrame p a then .none
  else .set p a

/-- The key of a byte of BAR2 in the beds. -/
def State.barKey (s : State) (o : Nat) : Option Nat :=
  match s.barPlace o with
  | .package a => some (pkgKey s.pkgChannels a)
  | .set p a => let v := s.pav p; some (csKey v v.channels a)
  | .none => none

/-- The first byte of a range that lies in an uncorrectable line: its key. -/
def State.barHurt (s : State) (o n : Nat) : Option Nat :=
  (List.range n).findSome? fun i => (s.barKey (o + i)).bind fun k => if s.beds.bad k then some k else none

/-- Memory groups that an access to the host area needs are on (R534). -/
def State.wakeBar (s : State) (o n : Nat) : State := if o < hostArea then s.wakePkg o (min n (hostArea - o)) else s

/-- BAR2_READ: the bytes are returned, or the read completes with Completer Abort on an uncorrectable line (R175, R405). -/
def execBar2Read (offset len : Nat) (s : State) : Host.Outcome State Fault Refusal :=
  if !s.exposed then ok { s with aborted := false, answer := 0 } else
  let s := s.wakeBar offset len
  match s.barHurt offset len with
  | some k => ok { (s.bedUncorrectable (k / 64 * 64)) with aborted := true, answer := 0 }
  | none =>
    let bs := (List.range len).map fun i => match s.barKey (offset + i) with | some k => Mem.read s.beds.mem k | none => 0
    ok { s with aborted := false, answer := leNat bs }

/-- A range covers the whole 64-byte line of an offset. -/
def coversLine (o n x : Nat) : Bool := decide (o ≤ x / 64 * 64) && decide (x / 64 * 64 + 64 ≤ o + n)

/-- The line that a write covers in part and that holds an uncorrectable error (R170, R405). -/
def State.barMergeHurt (s : State) (o n : Nat) : Option Nat :=
  (List.range n).findSome? fun i =>
    if coversLine o n (o + i) then none else (s.barKey (o + i)).bind fun k => if s.beds.bad k then some k else none

/-- Write one byte of BAR2. -/
def State.barPut (s : State) (o : Nat) (b : Byte) : State :=
  match s.barKey o with
  | some k => s.modBeds fun x => { x with mem := Mem.write x.mem k b }
  | none => s

/-- Bytes put into a pavilion's own set through BAR2 are inputs that Replay records, each run of them whole (R569). -/
def State.recordBar (s : State) (o : Nat) (bs : List Byte) : State :=
  let lo := max o hostArea
  match s.barPlace lo with
  | .set p a =>
    let run := bs.drop (lo - o)
    let n := (List.range run.length).find? fun i => match s.barPlace (lo + i) with | .set _ _ => false | _ => true
    let run := run.take (n.getD run.length)
    if run.isEmpty then s else s.recordInput p 3 0 (unitLoc 2) (csDva a) run
  | _ => s

/-- BAR2_WRITE: the bytes are written, or the write is discarded where its read-merge-write meets an uncorrectable line (R175,
R405, R569). -/
def execBar2Write (offset : Nat) (bytes : List Byte) (s : State) : Host.Outcome State Fault Refusal :=
  if !s.exposed then ok s else
  let s := s.wakeBar offset bytes.length
  match s.barMergeHurt offset bytes.length with
  | some k => ok (s.bedUncorrectable (k / 64 * 64))
  | none =>
    let s1 := bytes.zipIdx.foldl (fun s b => s.barPut (offset + b.2) b.1) s
    let healed := (List.range bytes.length).filterMap fun i =>
      if coversLine offset bytes.length (offset + i) then (s.barKey (offset + i)).map fun k => k / 64 else none
    let s2 := s1.modBeds fun b => { b with badLines := b.badLines.filter fun x => !healed.contains x
                                           listed := b.listed.filter fun x => !healed.contains x }
    ok (s2.recordBar offset bytes)

end Sys2Proof.Machine
end

