-- ==== Sys2Proof/Machine/Freeze.lean ====
section
/-! DEFINITION. FREEZE and THAW (R454 to R459). -/

namespace Sys2Proof.Machine

/-- FREEZE and THAW on a span member complete with MB_DENIED (R459); what R630 refuses. -/
def freezeForm (v : Pav) : CmdForm :=
  { named := true, used := [0x1FF, 1], denied := fun _ _ => v.bound && v.isSpan
    refused := fun v m => v.resetting.isSome || v.faulted || (bitAt (m.w 2) 0 && (!v.freeze.frozen || !v.freeze.busy.isEmpty)) }

/-- An apply that is not over for the pavilion (R458). -/
def State.applying (s : State) (p : Nat) : Bool := s.apply.phase != 0 && s.apply.affected.contains p && !s.apply.resumed.contains p

/-- The pavilion is idle: it has accepted no run that has begun (R454). -/
def State.idle (s : State) (p : Nat) : Bool := s.atBoundary p && !(s.pav p).runs.any fun r => r.begun && !r.suspended

def startFreeze (k : Nat) (s : State) : State :=
  s.start k (freezeForm (s.pav (s.target k))) fun p s =>
    if (s.pav p).freeze.frozen then s.complete k 0 []
    else
      let s1 := s.modPav p fun v => { v with freeze := { v.freeze with waiting := v.freeze.waiting ++ [(k, s.now)] } }
      if s.idle p && !s.applying p then s1.freezeNow p else s1

/-- FREEZE: the pavilion freezes at its next layer boundary, an idle one at once (R454). -/
def execFreeze (fn slot : Nat) (s : State) : Host.Outcome State Fault Refusal :=
  post fn slot (fun w => opc 0x40 w && !bitAt (w 2) 0) startFreeze s

/-- FREEZE_TAKE_HOLD: the pavilion stands at a layer boundary and freezes (R455, R458, R573). -/
def execFreezeTakeHold (pav : Nat) (s : State) : Host.Outcome State Fault Refusal :=
  if pav ≥ numPavs then noUnit
  else if !s.atBoundary pav || s.applying pav || (s.pav pav).resetting.isSome then ok s else ok (s.freezeWaiting pav)

/-- FREEZE_TIMEOUT: a FREEZE that has waited for the watchdog period completes and the pavilion runs on (R420, R454). -/
def execFreezeTimeout (pav : Nat) (s : State) : Host.Outcome State Fault Refusal :=
  if pav ≥ numPavs then noUnit
  else
    let v := s.pav pav
    let late := fun (w : Nat × Word64) => decide (s.now.toNat ≥ w.2.toNat + v.wdogTicks)
    let s1 := (v.freeze.waiting.filter late).foldl (fun s w => s.complete w.1 0x01 []) s
    ok (s1.modPav pav fun v => { v with freeze := { v.freeze with waiting := v.freeze.waiting.filter fun w => !late w } })

/-- A recording or replay of the pavilion goes on at its thaw; one that has not begun begins (R566, R567, R574). -/
def State.thawReplay (s : State) (p : Nat) : State :=
  let r := s.replayer
  if r.mode == 0 || r.pav != p then s
  else
    let s1 := if r.mode == 1 && !r.begun then
        s.writeDva p (r.ring.toNat + 32) (leBytes 8 s.now.toNat ++ leBytes 8 (s.pav p).committed.toNat)
      else s
    s1.modRec fun x => { x with live := true, begun := true }

def startThaw (k : Nat) (s : State) : State :=
  s.start k (freezeForm (s.pav (s.target k))) fun p s =>
    let s1 := s.modPav p fun v => { v with runs := v.runs.map fun r => { r with suspended := false }, freeze := { v.freeze with frozen := false } }
    let s2 := if (s1.pav p).runs.head?.any Run.atLayer then s1.layerFills p else s1
    ((s2.readRestored p).thawReplay p).complete k 0 []

/-- FREEZE with THAW: the pavilion resumes at the next kernel of its first suspended run; the tables of restored runs are read now
(R457, R469). -/
def execThaw (fn slot : Nat) (s : State) : Host.Outcome State Fault Refusal :=
  post fn slot (fun w => opc 0x40 w && bitAt (w 2) 0) startThaw s

end Sys2Proof.Machine
end

