-- ==== Sys2Proof/Machine/Migrate.lean ====
section
/-! DEFINITION. SAVE and RESTORE (R459 to R469, R485, R494). -/

namespace Sys2Proof.Machine

/-! ## What an image holds (R462) -/

/-- A chunk's plaintext: section kind and data. -/
abbrev Chunk := Nat × List Byte

/-- Pieces of 65,536 bytes. -/
def chunked (kind : Nat) (bs : List Byte) : List Chunk :=
  (List.range (ceilDiv bs.length 65536)).map fun i => (kind, (bs.drop (65536 * i)).take 65536)

/-- Channel-set addresses of the frames below a table page: its own, those of the tables under it, and those that LOCAL leaves
map (R185, R187, R462). -/
def State.framesBelow (s : State) (p : Nat) : Nat → Nat → List Nat
  | level, page =>
    let cap := (s.pav p).capacity
    page :: (List.range 8192).flatMap fun i =>
      let e := leNat (s.readCs p (page + 8 * i) 8)
      if Pte.malformed cap level e then []
      else if Pte.typ e == 2 then (if level == 1 then (List.range 8192).map fun j => Pte.addr e + 65536 * j else [Pte.addr e])
      else
        match level with
        | 0 => []
        | l + 1 => if Pte.typ e == 1 then State.framesBelow s p l (Pte.addr e) else []
  termination_by structural level => level

/-- The saved frames, ascending, each once. -/
def State.savedFrames (s : State) (p : Nat) : List Nat :=
  if (s.pav p).chOwn == 0 then [] else (s.framesBelow p 2 (s.pav p).ptRoot).foldl (fun l a => insertUniq a l) []

/-- The piece of a sealed slice whose home a frame holds (R493). -/
def State.sealedPiece (s : State) (p a : Nat) : Option (Slice × Nat) :=
  (s.pav p).slices.findSome? fun x =>
    if x.2.key.isNone then none
    else ((List.range x.2.pieces).find? fun i => s.dvaLocal p (x.2.home.toNat + 65536 * i) == some a).map fun i => (x.2, i)

/-- A frame's bytes in an image: a sealed frame is saved as its ciphertext (R494). -/
def State.frameBytes (s : State) (p a : Nat) : List Byte :=
  let bs := s.readCs p a 65536
  match s.sealedPiece p a with
  | some (sl, i) => (Config.gcmSeal (sl.key.getD 0) (pieceIv i) (pieceAad sl.model.toNat (sl.pieces * 65536)) bs).1
  | none => bs

/-- The slots of a core, engine by engine, 256 elements each (R462). -/
def State.slotBytes (s : State) (c : Nat) : List Byte :=
  (List.range 64).flatMap fun k =>
    let bs := ((Tab.find k (s.core c).slots).map fun x => x.elems.flatMap Acc.bytes).getD []
    bs ++ List.replicate (8192 - bs.length) 0

/-- Sessions of this package's directory whose user is the pavilion. -/
def State.sessionsOf (s : State) (p : Nat) : Tab Session :=
  s.dir.records.filter fun x => x.2.st != 0 && x.2.userPkg == s.ownPkg && x.2.userPav == p

/-- The data pages of a session, from its owner pool. -/
def State.sessionPages (s : State) (id : Nat) (r : Session) : List (List Byte) :=
  if s.localPool r.owner then
    match s.holding (r.owner % 16) id with
    | some h => h.pages.map fun g => s.readPoolPage (r.owner % 16) g
    | none => []
  else (List.range r.pages).map fun j => Config.farPage id j

/-- A slice's entry (R494). -/
def sliceEntry (h : Nat) (sl : Slice) : List Byte :=
  leBytes 3 h ++ leBytes 1 (b2n sl.pinned + 2 * b2n sl.code + 4 * b2n sl.key.isSome) ++ leBytes 4 0 ++ leBytes 8 sl.home.toNat
    ++ leBytes 8 (sl.pieces * 65536) ++ leBytes 8 sl.wrap.toNat

/-- A run's entry (R462): its next layer and kernel entries by their indices in the tables. -/
def runEntry (r : Run) : List Byte :=
  let k := if r.unread then r.kernel else bits r.entry 27 16 + r.kernel
  leBytes 8 r.table ++ leBytes 4 r.first ++ leBytes 4 r.last ++ leBytes 4 (r.repeats - r.iter) ++ leBytes 4 (r.first + r.layer) ++ leBytes 4 k
    ++ leBytes 4 r.iter

/-- The sections after the manifest, in order (R462). -/
def State.imageSections (s : State) (p : Nat) (opt : Bool) : List (List Chunk) :=
  let v := s.pav p
  let cs := (s.coresOf p).map Prod.snd
  let frames := s.savedFrames p
  let pieces := v.slices.flatMap fun x => (x.2.resident.filter fun y => y.2.resident).flatMap fun y => leBytes 8 (x.1 + y.1 * 2 ^ 24)
  let ss := s.sessionsOf p
  [chunked 0x02 (cs.flatMap fun c => s.readLs c 0 v.scratchBytes), chunked 0x03 (cs.flatMap s.slotBytes),
   chunked 0x04 (frames.flatMap fun a => leBytes 8 a), frames.map fun a => (0x05, s.frameBytes p a),
   chunked 0x06 (v.slices.flatMap fun x => sliceEntry x.1 x.2), if opt then chunked 0x07 pieces else [],
   chunked 0x08 (v.runs.flatMap runEntry),
   chunked 0x09 (ss.flatMap fun x => leBytes 8 x.1 ++ leBytes 8 x.2.epoch ++ leBytes 8 x.2.pstep.toNat ++ leBytes 8 x.2.pages ++ List.replicate 32 0),
   ss.flatMap fun x => (s.sessionPages x.1 x.2).flatMap fun bs => chunked 0x0A bs,
   chunked 0x0B ((s.snapPav p).take 7 |>.flatMap fun n => leBytes 8 n)]

/-- The manifest (R463). -/
def State.manifest (s : State) (p : Nat) (opt : Bool) (sections : List (List Chunk)) : List Byte :=
  let v := s.pav p
  let top := (s.savedFrames p).foldl (fun n a => max n (a + 65535)) 0
  leBytes 4 1 ++ leBytes 4 s.fw.cmdset.toNat ++ leBytes 4 s.fw.version.toNat ++ leBytes 1 s.fuse.grade
    ++ leBytes 1 (b2n v.repro + 2 * b2n v.cycle + 4 * b2n v.conf + 8 * b2n v.mirror + 16 * b2n v.replay + 32 * b2n opt) ++ leBytes 2 v.scr
    ++ leBytes 4 (s.coreCount p) ++ leBytes 4 v.tenant ++ leBytes 8 v.ptRoot ++ leBytes 4 v.streamsGranted ++ leBytes 4 (top / 2 ^ 20 + 1)
    ++ leBytes 8 v.committed.toNat ++ leBytes 8 v.freeze.at_.toNat ++ sections.flatMap (fun x => leBytes 4 x.length)
    ++ leBytes 4 (1 + sections.foldl (fun n x => n + x.length) 0)

/-! ## SAVE -/

/-- The header of a chunk, its additional data (R461). -/
def chunkHeader (key : Word32) (len : Nat) (sq image index kind : Nat) (last : Bool) : List Byte :=
  leBytes 4 key.toNat ++ leBytes 4 len ++ leBytes 8 sq ++ leBytes 8 image ++ leBytes 4 index ++ leBytes 1 kind ++ leBytes 1 (b2n last) ++ leBytes 2 0

/-- A sealed chunk (R461). -/
def sealChunk (k : ImageKey) (index total : Nat) (c : Chunk) : List Byte :=
  let sq := k.seq.toNat + index
  let h := chunkHeader k.id c.2.length sq k.seq.toNat index c.1 (decide (index + 1 == total))
  let x := Config.gcmSeal k.key (recordIv k.id (BitVec.ofNat 64 sq)) h c.2
  h ++ x.1 ++ List.replicate (65536 - x.1.length) 0 ++ leBytes 16 x.2.toNat

/-- Bytes of a chunk in host memory (R461). -/
def chunkBytes : Nat := 65584

/-- The key of an id that a pavilion may use for a purpose (R485). -/
def State.usableKey (s : State) (p id : Nat) (opens : Bool) : Option ImageKey :=
  (s.imageKey id).bind fun k => if k.opens == opens && k.tenant.toNat == (s.pav p).tenant then some k else none

/-- The host-bound writes of the pavilion's committed steps have been delivered (R460). -/
def Pav.delivered (v : Pav) : Bool := v.deliveries.isEmpty && !v.held.any fun h => h.step.isSome

/-- What a SAVE meets of uncorrectable errors among the memory that it would read (R175), as the kill it brings: a saved frame, a core's
scratch or accumulator slot, or a page of a session in a pool of this package, whose holder it is that dies. -/
def State.saveKilled (s : State) (p : Nat) : Option State :=
  let v := s.pav p
  let cs := (s.coresOf p).map Prod.snd
  match (s.savedFrames p).findSome? fun a => s.beds.badIn (csKey v v.channels) a 65536 with
  | some b => some (s.killOwner p (csKey v v.channels b))
  | none =>
    match cs.findSome? fun c => (s.badWord c 0 v.scratchBytes).map fun o => (c, o) with
    | some (c, o) => some (s.killSram p c (lsRow o))
    | none =>
      match cs.find? fun c => (s.core c).slots.any fun x => x.2.hurt with
      | some c => some (s.killSram p c 0)
      | none =>
        ((s.sessionsOf p).findSome? fun x => if !s.localPool x.2.owner then none else
          let i := x.2.owner % 16
          ((s.holding i x.1).bind fun h => h.pages.findSome? fun g => s.hurtPoolPage i g).map fun key => (s.pool i).holder + 512 * key).map
          fun n => s.killOwner (n % 512) (n / 512)

/-- A SAVE or RESTORE is in progress no longer. -/
def Freeze.ended (f : Freeze) (k : Nat) : Freeze := { f with busy := f.busy.filter fun x => x != k, saves := f.saves.filter fun x => x.1 != k }

/-- Write the image of a frozen pavilion (R460 to R464); the SAVE waits while a session page that it reads is on a fault record
(R191). -/
def State.saveNow (s : State) (p k iova limit : Nat) (opt : Bool) (id : Nat) : State :=
  let s0 := s.modPav p fun v => { v with freeze := v.freeze.ended k }
  let sections := s.imageSections p opt
  let chunks : List Chunk := (0x01, s.manifest p opt sections) :: sections.flatten
  let size := chunks.length * chunkBytes
  match s.usableKey p id false with
  | none => s0.complete k 0x83 []
  | some key =>
    if size > limit then s0.complete k 0x03 (lohi size)
    else
      if let some t := (s.sessionsOf p).findSome? fun x =>
          if !s.localPool x.2.owner then none else (s.holding (x.2.owner % 16) x.1).bind fun h => s.deniedPages (x.2.owner % 16) h.pages then
        t
      else
      match s0.saveKilled p with
      | some s1 => s1.complete k 0x86 []
      | none =>
        let host := chunks.zipIdx.foldl (fun m c => Mem.writeN m ((s.pav p).hostAt iova + c.2 * chunkBytes) (sealChunk key c.2 chunks.length c.1)) s.host
        let used := fun (x : ImageKey) => if x.id == key.id then { x with seq := x.seq + BitVec.ofNat 64 chunks.length } else x
        let s1 := { s0 with host := host }.modGate fun g => { g with imageKeys := g.imageKeys.map used }
        s1.complete k 0 (lohi size)

/-- SAVE is denied on a span member and on the holder of a defined pool (R459). -/
def State.saveForm (s : State) (p : Nat) : CmdForm :=
  let v := s.pav p
  let holder := s.pools.any fun x => x.2.defined && x.2.holder == p
  { named := true, used := [0x1FF, 2 ^ 32 - 1, 2 ^ 32 - 1, 2 ^ 32 - 1, 2 ^ 32 - 1, 1, 2 ^ 32 - 1], denied := fun _ _ => v.bound && (v.isSpan || holder)
    refused := fun v _ => v.resetting.isSome || v.faulted }

def startSave (k : Nat) (s : State) : State :=
  s.start k (s.saveForm (s.target k)) fun p s =>
    let m := s.mb k
    let v := s.pav p
    let opt := bitAt (m.w 6) 0
    if !v.freeze.frozen then s.complete k 0x02 []
    else if (s.usableKey p (m.w 7) false).isNone then s.complete k 0x83 []
    else if v.chan.halted then s.complete k 0x07 []
    else
      let s1 := s.modPav p fun v => { v with freeze := { v.freeze with busy := v.freeze.busy ++ [k], saves := v.freeze.saves ++ [(k, m.w2 2, m.w2 4, opt, m.w 7)] } }
      if v.delivered then s1.saveNow p k (m.w2 2) (m.w2 4) opt (m.w 7) else s1

/-- SAVE: writes a sealed image of a frozen pavilion to host memory, once the writes of its committed steps are delivered (R460
to R464). -/
def execSave (fn slot : Nat) (s : State) : Host.Outcome State Fault Refusal := post fn slot (opc 0x41) startSave s

/-- The SAVEs that waited for deliveries go on (R460). -/
def State.saveWaiting (s : State) (p : Nat) : State :=
  if !(s.pav p).delivered then s
  else (s.pav p).freeze.saves.foldl (fun s x => s.saveNow p x.1 x.2.1 x.2.2.1 x.2.2.2.1 x.2.2.2.2) s

/-- HOST_DELIVERY_COMPLETE: the last held write of the pavilion's oldest committed step is issued on the link, and
STEP_DELIVERED follows (R423, R429, R460). -/
def execHostDeliveryComplete (pav : Nat) (s : State) : Host.Outcome State Fault Refusal :=
  if pav ≥ numPavs then noUnit else ok ((s.deliverNext pav).saveWaiting pav)

/-! ## RESTORE -/

/-- The chunks of an image that authenticate, in order, and whether the image is whole (R466): the checks of chunk `i`. -/
def readChunks (k : ImageKey) (bs : List Byte) : Nat → Nat → Nat → Nat → List Chunk × Bool
  | 0, _, _, _ => ([], false)
  | n + 1, i, image, kind =>
    let c := (bs.drop (i * chunkBytes)).take chunkBytes
    let f := fun a n => leNat ((c.drop a).take n)
    let len := f 4 4
    let image := if i == 0 then f 8 8 else image
    if c.length != chunkBytes || f 0 4 != k.id.toNat || len > 65536 || f 16 8 != image || f 24 4 != i || f 28 1 < kind || f 28 1 > 0x0B
        || (i == 0) != (f 28 1 == 1) || f 29 1 > 1 || f 30 2 != 0 then ([], false)
    else
      match Config.gcmOpen k.key (recordIv k.id (BitVec.ofNat 64 (f 8 8))) (c.take 32) ((c.drop 32).take len) (BitVec.ofNat 128 (f 65568 16)) with
      | none => ([], false)
      | some pt =>
        if f 29 1 == 1 then ([(f 28 1, pt)], true)
        else let r := readChunks k bs n (i + 1) image (f 28 1); ((f 28 1, pt) :: r.1, r.2)

/-- The bytes of a section. -/
def sectionBytes (cs : List Chunk) (kind : Nat) : List Byte := (cs.filter fun c => c.1 == kind).flatMap Prod.snd

/-- Numbers of 8 bytes. -/
def words8 (bs : List Byte) : List Nat := (chunks 8 (bs.length / 8) bs).map leNat

/-- The manifest's reasons to refuse (R465): 0 for none. -/
def State.imageRefused (s : State) (p : Nat) (m : List Byte) : Nat :=
  let v := s.pav p
  let f := fun a n => leNat ((m.drop a).take n)
  let flags := f 0x0D 1
  let differs := f 0x10 4 != s.coreCount p || f 0x0E 2 != v.scr || f 0x14 4 != v.tenant || bitAt flags 0 != v.repro || bitAt flags 1 != v.cycle
    || bitAt flags 2 != v.conf || f 0x18 8 != v.ptRoot
  let lacks := decide (v.streamsGranted < f 0x20 4) || (bitAt flags 3 && !v.mirror) || (bitAt flags 4 && !v.replay)
    || decide (v.capacity < f 0x24 4 * 2 ^ 20)
  let used := !v.slices.isEmpty || !v.runs.isEmpty || !(s.sessionsOf p).isEmpty || v.committed != 0
  if f 0 4 != 1 || f 4 4 / 65536 % 256 != s.fw.cmdset.toNat / 65536 % 256 then 0x05
  else if s.fuse.grade < f 0x0C 1 || differs || lacks || used then 0x06 else 0

/-- The elements of saved slots (R462): a slot whose bytes are all zero was empty. -/
def restoredSlots (bs : List Byte) : Tab Slot :=
  (List.range 64).foldl (fun t k =>
    let b := (bs.drop (8192 * k)).take 8192
    if b.all fun x => x == 0 then t
    else Tab.put k { n := 0, m := 0, elems := (chunks 32 256 b).map fun e => Acc.unpack (leNat e) } t) []

/-- Put scratch and slots to the logical indices (R466 step 2). -/
def State.putCores (s : State) (p : Nat) (scratch slots : List Byte) : State :=
  let n := (s.pav p).scratchBytes
  (s.coresOf p).zipIdx.foldl (fun s x =>
    (s.writeLs x.1.2 0 ((scratch.drop (n * x.2)).take n)).modCore x.1.2 fun c => { c with slots := restoredSlots ((slots.drop (524288 * x.2)).take 524288) }) s

/-- A failed RESTORE that had begun writing (R468): no slice, no scratch and no slot is left; the pavilion stays frozen and empty. -/
def State.restoreFails (s : State) (p k status : Nat) : State :=
  let n := (s.pav p).scratchBytes
  let s1 := (s.coresOf p).foldl (fun s x =>
    (s.zeroLsRange x.2 0 n).modCore x.2 fun c => { c with slots := [] }) s
  (s1.modPav p fun v => { v with slices := [], runs := [], freeze := v.freeze.ended k }).complete k status []

/-- Write the frames of an image (R466 step 1); cached entries of the pavilion's tables go. -/
def State.putFrames (s : State) (p : Nat) (cs : List Chunk) : State :=
  let addrs := words8 (sectionBytes cs 0x04)
  let frames := (cs.filter fun c => c.1 == 0x05).map Prod.snd
  let s1 := (addrs.zip frames).foldl (fun s x => s.writeCs p x.1 x.2) s
  { s1 with tcache := Tab.mapVals (fun _ l => l.filter fun c => c.pav != p) s1.tcache }

/-- The slices of an image: handle and slice, not yet unsealed (R494). -/
def imageSlices (bs : List Byte) (now : Word64) : Tab Slice :=
  (chunks 32 (bs.length / 32) bs).foldl (fun t e =>
    let f := fun a n => leNat ((e.drop a).take n)
    Tab.put (f 0 3) { home := BitVec.ofNat 64 (f 8 8), pieces := f 16 8 / 65536, pinned := bitAt (f 3 1) 0, code := bitAt (f 3 1) 1, lastUse := now
                      wrap := BitVec.ofNat 64 (f 24 8), key := if bitAt (f 3 1) 2 then some 0 else none } t) []

/-- Unseal and register the slices of an image, each with its saved handle and flags (R466 step 3, R494). -/
def State.putSlices (s : State) (p : Nat) : List (Nat × Slice) → State × Bool
  | [] => (s, true)
  | (h, sl) :: rest =>
    if sl.key.isNone then State.putSlices (s.modPav p fun v => { v with slices := Tab.put h sl v.slices }) p rest
    else
      let r := s.unseal p sl.home.toNat (sl.pieces * 65536) sl.wrap.toNat
      match r.2 with
      | .error f => (r.1.zeroRange p sl.home.toNat sl.pieces |>.sealFailed p sl.pieces sl.home.toNat { f with zero := true }, false)
      | .ok (key, model) =>
        State.putSlices (r.1.modPav p fun v => { v with slices := Tab.put h { sl with key := some key, model := BitVec.ofNat 64 model } v.slices }) p rest

/-- Fill a listed piece from its restored home (R466 step 4). -/
def State.putPiece (s : State) (p h i : Nat) : State :=
  ((s.reserve p h i ((s.pav p).slices.length + 1)).writePiece p h i).modSlice p h fun sl =>
    { sl with resident := match Tab.find i sl.resident with
      | some pc => if pc.written then Tab.put i { pc with resident := true } sl.resident else Tab.drop i sl.resident
      | none => sl.resident }

/-- The runs of an image, suspended and in order, numbered from 1 (R422, R466 step 6). -/
def imageRuns (bs : List Byte) : List Run :=
  (chunks 32 (bs.length / 32) bs).zipIdx.map fun (e : List Byte × Nat) =>
    let f := fun a n => leNat ((e.1.drop a).take n)
    { slot := none, table := f 0 8, first := f 8 4, last := f 12 4, repeats := f 16 4 + f 28 4, layers := [], kernels := [], slices := []
      layer := f 20 4 - f 8 4, kernel := f 24 4, iter := f 28 4, suspended := true, no := e.2 + 1, unread := true }

/-- The sessions of an image with their pages (R462, R467): id, epoch, pages. -/
def imageSessions (bs pages : List Byte) : List (Nat × Nat × List (List Byte)) :=
  ((chunks 64 (bs.length / 64) bs).foldl (fun (acc : List (Nat × Nat × List (List Byte)) × List Byte) e =>
    let f := fun a n => leNat ((e.drop a).take n)
    (acc.1 ++ [(f 0 8, f 8 8, chunks 262144 (f 24 8) acc.2)], acc.2.drop (262144 * f 24 8))) ([], pages)).1

/-- Rebuild a frozen empty pavilion from the bytes of an image (R465 to R468). -/
def State.restoreNow (s : State) (p k id : Nat) (bs : List Byte) : State :=
  let v := s.pav p
  let quit := fun (s : State) (c : Nat) => (s.modPav p fun v => { v with freeze := v.freeze.ended k }).complete k c []
  match s.usableKey p id true with
  | none => quit s 0x04
  | some key =>
    let r := readChunks key bs (bs.length / chunkBytes + 1) 0 0 0
    let man := sectionBytes r.1 0x01
    if r.1.isEmpty then quit s 0x04
    else
      let why := s.imageRefused p man
      if why != 0 then quit s why
      else
        let s1 := (s.putFrames p r.1).putCores p (sectionBytes r.1 0x02) (sectionBytes r.1 0x03)
        if !r.2 then s1.restoreFails p k 0x04
        else
          let q := s1.putSlices p (imageSlices (sectionBytes r.1 0x06) s.now)
          if !q.2 then q.1.restoreFails p k 0x06
          else
            let s2 := (words8 (sectionBytes r.1 0x07)).foldl (fun s w => s.putPiece p (w % 2 ^ 24) (w / 2 ^ 24)) q.1
            let step := leNat ((man.drop 0x28).take 8)
            let s3 := s2.modPav p fun w =>
              { w with runs := imageRuns (sectionBytes r.1 0x08), committed := BitVec.ofNat 64 step, freeze := v.freeze.ended k }
            let s4 := (imageSessions (sectionBytes r.1 0x09) (sectionBytes r.1 0x0A)).foldl (fun s x => s.restoreSession ⟨x.1, p, x.2.2⟩ x.2.1) s3
            s4.complete k 0 []

def restoreForm (v : Pav) : CmdForm :=
  { named := true, used := [0x1FF, 2 ^ 32 - 1, 2 ^ 32 - 1, 2 ^ 32 - 1, 2 ^ 32 - 1, 0, 2 ^ 32 - 1], denied := fun _ _ => v.bound && v.isSpan
    refused := fun v _ => v.resetting.isSome || v.faulted }

def startRestore (k : Nat) (s : State) : State :=
  s.start k (restoreForm (s.pav (s.target k))) fun p s =>
    let m := s.mb k
    let v := s.pav p
    if !v.freeze.frozen then s.complete k 0x02 []
    else if (s.usableKey p (m.w 7) true).isNone then s.complete k 0x04 []
    else if v.chan.halted then s.complete k 0x07 []
    else
      let s1 := s.modPav p fun v => { v with freeze := { v.freeze with busy := v.freeze.busy ++ [k] } }
      { s1 with transfers := s1.transfers ++ [{ post := k, pav := p, kind := 1, iova := m.w2 2, addr := m.w 7, len := m.w2 4 }] }

/-- RESTORE: rebuilds a frozen empty pavilion from an authenticated image, which the host's data bring (R465 to R469). -/
def execRestore (fn slot : Nat) (s : State) : Host.Outcome State Fault Refusal := post fn slot (opc 0x42) startRestore s

/-- Host data for a RESTORE: the whole image (R466). -/
def State.restoreData (s : State) (t : Transfer) (data : List HostData) : State :=
  match hostBytes data t.iova t.len with
  | none => s
  | some bs => ({ s with transfers := s.transfers.filter fun y => y.post != t.post }).restoreNow t.pav t.post t.addr bs

end Sys2Proof.Machine
end

