-- ==== Sys2Proof/Machine/Streams.lean ====
section
/-! DEFINITION. The Stream complication (R431 to R439): starting and stopping a stream, IN and OUT frames. -/

namespace Sys2Proof.Machine

/-- Payload bytes of a frame, and the stride of a slot (R432). -/
def Stream.payload (x : Stream) : Nat := x.lines * 64
def Stream.stride (x : Stream) : Nat := roundUp (64 + x.payload) 4096

/-- The tick of frame n, and the DVAs of its slots (R432, R437). -/
def Stream.tickOf (x : Stream) (n : Nat) : Nat := x.start.toNat + n * x.period.toNat
def Stream.devSlot (x : Stream) (n : Nat) : Nat := x.devRing.toNat + n % 2 ^ x.log2Slots * x.stride
def Stream.hostSlot (x : Stream) (n : Nat) : Nat := x.hostRing.toNat + n % 2 ^ x.log2Slots * x.stride

/-- A slot header (R432). -/
structure SlotHead where
  frame : Nat
  tick : Nat
  step : Nat
  len : Nat
  missing : Bool := false

def SlotHead.bytes (h : SlotHead) : List Byte :=
  leBytes 8 h.frame ++ leBytes 8 h.tick ++ leBytes 8 h.step ++ leBytes 4 h.len ++ leBytes 1 (b2n h.missing) ++ List.replicate 35 0

def SlotHead.of (b : List Byte) : SlotHead :=
  { frame := leNat (b.take 8), tick := leNat ((b.drop 8).take 8), step := leNat ((b.drop 16).take 8), len := leNat ((b.drop 24).take 4)
    missing := bitAt (leNat ((b.drop 28).take 1)) 0 }

/-- The stream of a pavilion exists (R431). -/
def State.hasStream (s : State) (p i : Nat) : Bool := decide (i < (s.pav p).streams.length)

/-- The engine that serves a stream, and the unit that translates for it (R196, R431). -/
def State.engineOf (s : State) (p i : Nat) : Nat := nthD (s.pav p).streams i 0
def State.streamUnit (s : State) (p i : Nat) : TUnit := .streams (s.engineOf p i / 16)

/-- The stream id of an engine's requests (R239). -/
def State.streamId (s : State) (p i : Nat) : Nat := p * 2048 + 1032 + s.engineOf p i

def State.modStream (s : State) (p i : Nat) (f : Stream → Stream) : State := s.setStream p i (f (s.stream p i))

/-! ## Starting and stopping (R437) -/

/-- Why a stream does not start: 1 START_LATE, 2 RANGE, 3 ALIGN (R437). The base registers ignore what is written to their reserved
low bits (R8), so that a ring base they hold is aligned. -/
def Stream.startError (x : Stream) (now : Nat) : Nat :=
  let p := x.period.toNat
  if x.start.toNat < now + 20 then 1
  else if p < 1000 || p > 100000000 || x.lines == 0 || x.lines > 1024 || x.log2Slots == 0 then 2
  else if x.devRing.toNat % 4096 != 0 || x.hostRing.toNat % 4096 != 0 then 3
  else 0

/-- A write of ENABLE = 1 to a stream that does not run (R437). -/
def State.enableStream (s : State) (p i : Nat) : State :=
  s.modStream p i fun x =>
    if x.st == 1 then x
    else
      let e := x.startError s.now.toNat
      if e != 0 then { x with enable := false, st := 2, err := e }
      else { x with enable := true, st := 1, err := 0, stopping := false, next := 0, buffer := [], polls := [], missing := 0, overrun := 0, underrun := 0,
                    faultWaits := 0 }

/-- The stream has stopped. -/
def Stream.idle (x : Stream) : Stream := { x with enable := false, st := 0, stopping := false, buffer := [], polls := [], urgency := 0 }

/-- A write of ENABLE = 0: the frame in progress is the frames an IN engine still writes, and the next frame that an OUT engine
holds ready (R437). -/
def State.disableStream (s : State) (p i : Nat) : State :=
  s.modStream p i fun x =>
    if x.st != 1 then { x with enable := false, st := 0, err := 0 }
    else if x.dir && !(x.buffer.any fun f => f.1 == x.next) then x.idle
    else if !x.dir && x.buffer.isEmpty then x.idle
    else { x with enable := false, stopping := true }

/-- A pavilion reset stops every stream, and its registers take their reset values (R5, R437). -/
def State.resetStreams (s : State) (p : Nat) : State :=
  (List.range (s.pav p).streams.length).foldl (fun s i => s.modStream p i fun x => { lastMissed := x.lastMissed }) s

/-- STREAM_ENABLE: a write of ENABLE = 1 starts the stream, or sets ERROR (R437). -/
def execStreamEnable (pav stream : Nat) (s : State) : Host.Outcome State Fault Refusal :=
  if pav ≥ numPavs || stream ≥ 64 then noUnit
  else if !s.exposed then ok s
  else if !s.hasStream pav stream then ok s else ok (s.enableStream pav stream)

/-- STREAM_DISABLE: a write of ENABLE = 0 stops the stream after the frame in progress (R437, R439). -/
def execStreamDisable (pav stream : Nat) (s : State) : Host.Outcome State Fault Refusal :=
  if pav ≥ numPavs || stream ≥ 64 then noUnit
  else if !s.exposed then ok s
  else if !s.hasStream pav stream then ok s else ok (s.disableStream pav stream)

/-! ## Rings -/

/-- A part of a slot: its DVA, its length, where it lies. -/
structure SlotPart where
  dva : Nat
  len : Nat
  /-- channel-set address, or IOVA of the page -/
  at_ : Nat
  host : Bool
  sealed : Bool

/-- What translating a slot gives. -/
inductive SlotMap where
  | parts (l : List SlotPart)
  /-- a translation fault waits in a record (R436) -/
  | waits
  /-- a page is not of the kind R432 asks for, or the pavilion was killed by an uncorrectable table line -/
  | unusable

/-- The part of a slot that a page's leaf gives, for a ring of LOCAL or of HOST leaves (R432). -/
def slotPart (dva n : Nat) (host : Bool) (x : Nat × Walk × Access) : Option SlotPart :=
  let lo := max dva (x.1 * 65536)
  let len := min (dva + n) ((x.1 + 1) * 65536) - lo
  match x.2.1 with
  | .leaf l =>
    if host then (if Pte.typ l.entry == 3 then some ⟨lo, len, Pte.addr l.entry, true, Pte.sealBit l.entry⟩ else none)
    else if Pte.typ l.entry == 2 then some ⟨lo, len, Pte.addr l.entry + lo % (if l.level == 1 then 2 ^ 29 else 65536), false, false⟩
    else none
  | _ => none

/-- Translate a slot: both rings' pages need RD and WR; a fault waits in a record with the die's WAIT_ST bit (R432, R436). -/
def State.mapSlot (s : State) (p i dva n : Nat) (host wr : Bool) : SlotMap × State :=
  let u := s.streamUnit p i
  let r := s.walkPages u.num p ((runPages dva n).map fun pg => (pg, { rd := true, wr := true }))
  match r.1 with
  | .hurt key => (.unusable, r.2.killOwner p key)
  | .fault page cause level a =>
    let w : Waiter := { tunit := u, strand := i, page := BitVec.ofNat 64 page, cause := cause, level := level, access := a.code }
    if (r.2.pav p).waiters.any fun x => x.tunit == u && x.strand == i && x.num.isNone && x.page == w.page then (.waits, r.2)
    else
      let s1 := r.2.modStream p i fun x => { x with faultWaits := if x.faultWaits == 0xFFFF#16 then x.faultWaits else x.faultWaits + 1 }
      (.waits, s1.recordFault p w)
  | .all ls =>
    match ls.mapM (slotPart dva n host) with
    | none => (.unusable, r.2)
    | some l => (.parts l, r.2.touchAll u.num p (ls.map fun x => (x.1, x.2.1, { rd := true, wr := wr })))

/-! ## What a frame counts and raises (R438, R446, R564) -/

/-- A frame of the stream is missing (1), overruns (2) or underruns (3) (R438). -/
def State.missFrame (s : State) (p i kind n : Nat) : State :=
  let bump := fun (x : Word16) => if x == 0xFFFF#16 then x else x + 1
  let x := s.stream p i
  let y := match kind with
    | 1 => { x with missing := bump x.missing }
    | 2 => { x with overrun := bump x.overrun }
    | _ => { x with underrun := bump x.underrun }
  if (x.lastMissed.map fun t => decide (s.now.toNat < t.toNat + 100000)).getD false then s.setStream p i y
  else (s.setStream p i { y with lastMissed := some s.now }).raisePav p 0x0080 (detailWords (i :: kind :: lohi n))

/-- A frame has moved: its bytes count in HOST, and a CYCLE pavilion loses REPEATABLE (R446, R564). -/
def State.movedFrame (s : State) (p n : Nat) : State :=
  let s1 := s.count p 0 n
  if (s.pav p).cycle then s1.unrepeatable p 6 else s1

/-! ## IN streams (R433) -/

/-- The bytes of a host slot that the host returned: plain, or opened from its records; none where a record fails R427; `false`
where data has not come. -/
def State.framePlain (s : State) (p : Nat) (parts : List SlotPart) (data : List HostData) : Option (Option (List Byte)) :=
  let one := fun (x : SlotPart) =>
    if !x.sealed then (hostBytes data (x.at_ + x.dva % 65536) x.len).map some
    else
      let units := (List.range (roundUp x.len 4096 / 4096)).map fun k => (x.dva + 4096 * k, x.at_)
      match (s.pav p).chan.openUnits data units [] with
      | .missing => none
      | .failed _ => some none
      | .all m => some (some (Mem.readN m (x.at_ + x.dva % 65536) x.len))
  (parts.mapM one).map fun l => (l.mapM id).map List.flatten

/-- The engine takes frame n into its buffer, or notes it missing. -/
def State.takeFrame (s : State) (p i n : Nat) (payload : Option (List Byte)) (kind : Nat) : State :=
  let s1 := s.modStream p i fun x => { x with buffer := x.buffer ++ [(n, payload)], next := n + 1 }
  if kind == 0 then s1 else s1.missFrame p i kind n

/-- STREAM_IN_FRAME: at the tick of its next frame an IN engine reads the host slot; the frame is missing if the slot does not
hold it, and skipped if the four-frame buffer is full. In replay no frame is read from the host (R433, R436, R572). -/
def execStreamInFrame (pav stream : Nat) (data : HostBytes) (s : State) : Host.Outcome State Fault Refusal :=
  if pav ≥ numPavs || stream ≥ 64 then noUnit
  else
    let x := s.stream pav stream
    let n := x.next
    if !s.hasStream pav stream || x.st != 1 || x.stopping || x.dir || s.now.toNat < x.tickOf n then ok s
    else if (x.buffer.filter fun f => f.2.isSome).length ≥ 4 then ok (s.takeFrame pav stream n none 2)
    else if s.replaying pav then ok (s.takeFrame pav stream n (some []) 0)
    else
      let q := s.mapSlot pav stream (x.hostSlot n) (64 + x.payload) true false
      match q.1 with
      | .waits | .unusable => ok (q.2.takeFrame pav stream n none 1)
      | .parts l =>
        match q.2.framePlain pav l data with
        | none => ok s
        | some none => ok (q.2.takeFrame pav stream n none 1)
        | some (some b) =>
          let h := SlotHead.of b
          if h.frame != n || h.len > x.payload then ok (q.2.takeFrame pav stream n none 1)
          else ok (q.2.takeFrame pav stream n (some b) 0)

/-- A stream's engine reads or writes its device slot, with requests in VC 1 (R235, R564). -/
def State.slotTraffic (s : State) (p i : Nat) (wr : Bool) (parts : List SlotPart) : State :=
  parts.foldl (fun s x => s.setTraffic p (.engine (s.engineOf p i)) wr (engineLoc (s.engineOf p i)) x.at_ x.len) s

/-- Write bytes of a slot at a device ring's parts. -/
def State.writeParts (s : State) (p : Nat) (parts : List SlotPart) (dva : Nat) (bs : List Byte) : State :=
  parts.foldl (fun s x =>
    let lo := max dva x.dva
    let hi := min (dva + bs.length) (x.dva + x.len)
    if lo < hi then s.writeCs p (x.at_ + (lo - x.dva)) ((bs.drop (lo - dva)).take (hi - lo)) else s) s

/-- The bytes that an IN engine writes at a device slot: the payload, then the header (R433). -/
def Stream.inBytes (x : Stream) (n : Nat) (step : Word64) (payload : Option (List Byte)) : List Byte × List Byte :=
  match payload with
  | none => (SlotHead.bytes { frame := n, tick := x.tickOf n, step := step.toNat, len := 0, missing := true }, [])
  | some b => (SlotHead.bytes { frame := n, tick := x.tickOf n, step := step.toNat, len := (SlotHead.of b).len }, (b.drop 64).take x.payload)

/-- A frame as Replay's ring holds it: the header and the payload that the engine wrote at a device slot (R569, R572). -/
def State.replayFrame (s : State) (p i dva most : Nat) : Option (List Byte) × State :=
  if s.replayer.diverged then (none, s)
  else if let some t := s.deniedRing then (none, t)
  else
    let id := s.streamId p i
    let o := s.takeOrdinal 4 id
    match s.findRec (fun r => r.kind == 4 && r.stream == id && r.rseq == o.1) (s.replayer.used / 64) 64 with
    | none => (none, o.2.diverge 1 4 id o.1)
    | some (_, r) =>
      if r.addr != dva || r.data.length > most then (none, o.2.diverge 2 4 id o.1)
      else (some r.data, (o.2.modRec fun x => { x with records := x.records + 1 }).checkEnd)

/-- The oldest frame of the buffer has been written. -/
def Stream.dropFrame (x : Stream) : Stream :=
  let y := { x with buffer := x.buffer.drop 1 }
  if y.stopping && y.buffer.isEmpty then y.idle else y

/-- STREAM_IN_DEVICE_WRITE: the oldest buffered frame goes into its device slot, every payload byte before the header; Replay
records it, or serves it from its record (R433, R436, R569, R572). -/
def execStreamInDeviceWrite (pav stream : Nat) (s : State) : Host.Outcome State Fault Refusal :=
  if pav ≥ numPavs || stream ≥ 64 then noUnit
  else
    let x := s.stream pav stream
    match x.buffer with
    | [] => ok s
    | (n, payload) :: _ =>
      if !s.hasStream pav stream || x.st != 1 || x.dir then ok s
      else
        let dva := x.devSlot n
        let q := s.mapSlot pav stream dva (64 + x.payload) false true
        match q.1 with
        | .waits => ok q.2
        | .unusable => ok (q.2.modStream pav stream Stream.dropFrame)
        | .parts l =>
          let q := (q.1, q.2.slotTraffic pav stream true l)
          let done := fun (s : State) => s.modStream pav stream Stream.dropFrame
          if s.replaying pav then
            (match q.2.replayFrame pav stream dva (64 + x.payload) with
              | (none, t) => ok (done t)
              | (some bs, t) => ok (done ((t.writeParts pav l (dva + 64) (bs.drop 64)).writeParts pav l dva (bs.take 64))))
          else
            let w := x.inBytes n (s.pav pav).committed payload
            let s1 := (q.2.writeParts pav l (dva + 64) w.2).writeParts pav l dva w.1
            let s2 := (s1.movedFrame pav (w.1.length + w.2.length)).recordInput pav 4 0 (s.streamId pav stream) dva (w.1 ++ w.2)
            ok (done s2)

/-! ## OUT streams (R434) -/

/-- The bytes of a slot in device memory. -/
def State.readParts (s : State) (p : Nat) (parts : List SlotPart) : List Byte := parts.flatMap fun x => s.readCs p x.at_ x.len

/-- The first uncorrectable line that reading the parts meets. -/
def State.hurtPart (s : State) (p : Nat) (parts : List SlotPart) : Option Nat :=
  let v := s.pav p
  let key := csKey v v.channels
  (parts.findSome? fun x => s.beds.badIn key x.at_ x.len).map key

/-- TIME at which an OUT engine next looks at the device slot of a frame: from four periods before its tick on, every PERIOD / 4 ticks
(R434), the tick before where that is no whole number. -/
def Stream.pollAt (x : Stream) (n : Nat) : Nat := x.tickOf n - 4 * x.period.toNat + Tab.getD x.polls n 0 * x.period.toNat / 4

/-- The engine has looked for a frame: its next look is the first that is not yet due (R434). -/
def State.looked (s : State) (p i n : Nat) : State :=
  s.modStream p i fun x =>
    let since := s.now.toNat - (x.tickOf n - 4 * x.period.toNat)
    { x with polls := Tab.put n (4 * since / max 1 x.period.toNat + 1) x.polls }

/-- STREAM_OUT_POLL: from four periods before a frame's tick the engine reads its device slot; a ready slot's frame enters the
buffer (R434). -/
def execStreamOutPoll (pav stream frame : Nat) (s : State) : Host.Outcome State Fault Refusal :=
  if pav ≥ numPavs || stream ≥ 64 then noUnit
  else
    let x := s.stream pav stream
    if !s.hasStream pav stream || x.st != 1 || !x.dir || x.stopping || frame < x.next || frame ≥ x.next + 4
        || s.now.toNat < x.pollAt frame || s.now.toNat > x.tickOf frame || x.buffer.any (fun f => f.1 == frame) then ok s
    else
      let q := s.mapSlot pav stream (x.devSlot frame) (64 + x.payload) false false
      match q.1 with
      | .waits => ok q.2
      | .unusable => ok (q.2.looked pav stream frame)
      | .parts l =>
        let q := (q.1, (q.2.slotTraffic pav stream false l).looked pav stream frame)
        match q.2.hurtPart pav l with
        | some key => ok (q.2.killOwner pav key)
        | none =>
          let b := q.2.readParts pav l
          let h := SlotHead.of b
          if h.frame != frame || h.len > x.payload || h.step > (s.pav pav).committed.toNat then ok q.2
          else ok (q.2.modStream pav stream fun y => { y with buffer := y.buffer ++ [(frame, some b)] })

/-- Write plain bytes of a host slot, or seal its 4 KiB units: those of the payload first, then the unit of the header (R426,
R434, R436). -/
def State.hostParts (s : State) (p : Nat) (parts : List SlotPart) (dva : Nat) (bs : List Byte) : State :=
  let units := (List.range (roundUp bs.length 4096 / 4096)).map fun u => (dva + 4096 * u, (bs.drop (4096 * u)).take 4096)
  let order := units.drop 1 ++ units.take 1
  order.foldl (fun s u =>
    match parts.find? fun x => decide (x.dva ≤ u.1) && decide (u.1 < x.dva + x.len) with
    | none => s
    | some x =>
      if !x.sealed then { s with host := Mem.writeN s.host ((s.pav p).hostAt (x.at_ + u.1 % 65536)) u.2 }
      else
        match (s.pav p).chan.toHostKey with
        | none => s
        | some k => { (s.nextKeySeq p k) with host := Mem.writeN s.host ((s.pav p).hostAt (x.at_ + 4160 * (u.1 / 4096 % 16))) (sealRecord k u.1 u.2) }) s

/-- STREAM_OUT_FRAME: at the tick of its next frame an OUT engine writes the frame it holds ready into the host slot, or the
header alone, marked MISSING; in replay the bytes enter the step digest only. The STEP of a header marked MISSING is open
(R434, R436, R570, R572). -/
def execStreamOutFrame (pav stream : Nat) (s : State) : Host.Outcome State Fault Refusal :=
  if pav ≥ numPavs || stream ≥ 64 then noUnit
  else
    let x := s.stream pav stream
    let n := x.next
    if !s.hasStream pav stream || x.st != 1 || !x.dir || s.now.toNat < x.tickOf n then ok s
    else
      let ready := (x.buffer.find? fun f => f.1 == n).bind Prod.snd
      let next := fun (s : State) => s.modStream pav stream fun y =>
        let z := { y with buffer := y.buffer.filter fun f => f.1 != n, next := n + 1, polls := Tab.keep (fun f => decide (n < f)) y.polls }
        if z.stopping then z.idle else z
      let d := s.draw
      let bs := match ready with
        | some b =>
          let h := SlotHead.of b
          SlotHead.bytes { frame := n, tick := x.tickOf n, step := h.step, len := h.len } ++ (b.drop 64).take x.payload
        | none => SlotHead.bytes { frame := n, tick := x.tickOf n, step := d.1.toNat, len := 0, missing := true }
      let s0 := if ready.isSome then s else d.2.missFrame pav stream 3 n
      let dva := x.hostSlot n
      if s.replaying pav then ok ((next s0).noteWrite pav dva bs)
      else
        let late := fun (s : State) => if ready.isSome then s.missFrame pav stream 3 n else s
        let q := s0.mapSlot pav stream dva bs.length true true
        match q.1 with
        | .waits | .unusable => ok (next (late q.2))
        | .parts l =>
          match l.find? fun y => y.sealed, (s.pav pav).chan.toHostKey with
          | some y, none => ok (next ((late q.2).haltChannel pav 2 y.dva))
          | _, _ => ok (((next (q.2.hostParts pav l dva bs)).movedFrame pav bs.length).noteWrite pav dva bs)

end Sys2Proof.Machine
end

