-- ==== Sys2Proof/Machine/Reset.lean ====
section
/-! DEFINITION. Resets (R401, R459, R497 to R513): pavilion resets, function resets, die halves, and the warm and cold reset of
the package. -/

namespace Sys2Proof.Machine

/-! ## Pavilion resets (R503 to R505) -/

/-- A span member that is reset tells every other member before its units stop, and its span is FAULTED; if it is FAULTED already, the
members hear that this one is not up again (R373, R375). -/
def State.abortSpan (s : State) (p : Nat) : State :=
  let v := s.pav p
  if !v.bound || !v.isSpan || v.span.st == 0 then s
  else if v.span.st == 3 then s.sayDown p
  else
    let s1 := s.syncAll p (.abort v.spanId v.spanRank v.span.winding)
    (s1.modPav p fun v => { v with span := v.span.faulted v.spanRank }).raisePav p 0x0030 (detailWords [v.spanId, v.spanRank])

/-- Every span member that `which` names tells that it is reset. -/
def State.abortSpans (s : State) (which : Nat → Bool) : State := ((s.pavs.map Prod.fst).filter which).foldl State.abortSpan s

/-- Sessions of a user pavilion: those that protection restores, and the others (R339). -/
def State.sessionCounts (s : State) (p : Nat) (step : Word64) : Nat × Nat :=
  let mine := s.dir.records.filter fun x => x.2.st != 0 && x.2.userPkg == s.ownPkg && x.2.userPav == p
  let back := mine.filter fun x => x.2.prot != 0 && x.2.pstep == step
    && !(s.localPool x.2.owner && ((s.holding (x.2.owner % 16) x.1).map Holding.unwritten).getD false)
  (back.length, mine.length - back.length)

/-- The completion code of a run that a reset ends (R503). -/
def endCode (causes : List Nat) : Nat := match causes.head? with | some 0x01 => 0x02 | some 0x08 => 0x04 | _ => 0x03

/-- What a pavilion keeps of its own fields through a reset (R504). -/
def Pav.afterReset (v : Pav) (keepStep : Bool) : Pav :=
  { v with winding := v.winding + 1, committed := if keepStep then v.committed else 0, barriers := [], commit := none, kernel := {}
           held := v.held.filter fun h => h.step.isSome, faults := [], waiters := [], sends := [], recvs := [], inbox := [], sendSeen := []
           slices := v.slices.map fun x => (x.1, { x.2 with resident := [], filling := none, posts := [] })
           reg := { v.reg with meters := [], missClasses := 0 }
           runs := [], accepting := [], watchdog := 0, freeze := {}, obs := { v.obs with repeatable := false } }

/-- The reset tick: steps 2 to 4 of R503. -/
def State.resetNow (s : State) (p : Nat) (r : Resetting) : State :=
  let v := s.pav p
  let counts := s.sessionCounts p v.committed
  let s1 := if (s.apply.phase == 1 || s.apply.phase == 2 || s.apply.phase == 3) && s.apply.affected.contains p then
      s.endApply ⟨0x0A, some p, 0, 0⟩ else s
  let s2 := ((((s1.endReplayOf p 4).abortSpan p).restoreProtected p v.committed).endRuns p (endCode r.causes)).abortPosts p
  let s3 := (((s2.resetStreams p).dropSpanTraffic p).renumber p).modPav p fun v =>
    { v.afterReset (r.causes.all fun c => c == 0x08) with resetting := some { r with ticked := true, restored := counts.1, left := counts.2 } }
  let s4 := { s3 with fns := Tab.mapVals (fun f x => if s3.faultPav f == some p then { x with fltLatch := 0 } else x) s3.fns }
  (s4.coresOf p).foldl (fun s x => (s.clearCore x.2).modCore x.2 fun c => { c with zeroing := true }) s4

/-- RESET_TICK: at Tr, after what is named for the same tick, the winding advances and every unit of the pavilion cancels its work
(R104, R155, R285, R459, R503 to R505). -/
def execResetTick (pav : Nat) (s : State) : Host.Outcome State Fault Refusal :=
  if pav ≥ numPavs then noUnit
  else
    match (s.pav pav).resetting with
    | none => ok s
    | some r => if r.ticked || !due (some r.tick) s.now || s.syncFirst pav r.tick then ok s else ok (s.resetNow pav r)

/-- Resources of a pavilion lie in a die half (R506). -/
def State.inHalf (s : State) (p h : Nat) : Bool :=
  ((s.coresOf p).any fun x => halfOfCluster (clusterOf x.2) == h) || (s.pav p).ownChannels.any fun q => halfOfChannel q == h

/-- Causes that are kills (R503). -/
def isKill (c : Nat) : Bool := c != 0x09 && c != 0x0A

/-- PAV_KILLED goes to the pavilion's function and to PF0 (R503, R505, R520). -/
def State.reportKill (s : State) (p : Nat) (r : Resetting) : State :=
  match r.causes.find? isKill with
  | none => s
  | some c =>
    let v := s.pav p
    let d := detailWords ([c, r.oldWinding.toNat + v.winding.toNat <<< 16, r.location, r.restored, r.left] ++ lohi r.oldStep.toNat)
    let s1 := s.raise v.hostFn 0x0002 p d
    if v.hostFn == 0 then s1 else s1.raisePf0 0x0002 p d

/-- PAV_RESET_READY: RESETTING clears, the kill is reported, PAV_RESETs complete with the new winding, pinned slices refill, and a
span member tells its span that it is up (R364, R375, R503, R508). -/
def execPavResetReady (pav : Nat) (s : State) : Host.Outcome State Fault Refusal :=
  if pav ≥ numPavs then noUnit
  else
    match (s.pav pav).resetting with
    | none => ok s
    | some r =>
      if !r.ticked || ((s.coresOf pav).any fun x => (s.core x.2).zeroing)
          || (List.range 8).any (fun h => (s.half h).resetting.isSome && s.inHalf pav h) then ok s
      else
        let s1 := (s.modPav pav fun v => { v with resetting := none }).reportKill pav r
        let s2 := r.slots.foldl (fun s k => s.complete k 0 [(s.pav pav).winding.toNat]) s1
        let pinned := ((s2.pav pav).slices.filter fun x => x.2.pinned).map Prod.fst
        let s3 := pinned.foldl (fun s h => s.beginFill pav h none) s2
        ok (s3.reviewSpan pav)

def pavResetForm : CmdForm := { named := true, used := [0x1FF] }

def startPavReset (k : Nat) (s : State) : State := s.start k pavResetForm fun p s => s.startReset p 0x09 0 [k]

/-- PAV_RESET: the host starts, or joins, a reset of the pavilion (R502, R505). -/
def execPavReset (fn slot : Nat) (s : State) : Host.Outcome State Fault Refusal := post fn slot (opc 0x44) startPavReset s

/-! ## Function resets (R401) -/

/-- A function as its own reset leaves it: slots IDLE, the responses of commands in progress discarded, no event held, the MSI-X
table at its reset values. -/
def Fn.flr (x : Fn) : Fn :=
  { x with slots := x.slots.map fun m => { m with st := 0, gen := m.gen + 1 }, tail := x.head, ring := [], msix := [], pba := 0 }

/-- A function-level reset: the function's own state, its sessions, and its pavilion (R401, R424, R486). -/
def State.flr (s : State) (fn : Nat) : State :=
  let alive := (s.fn fn).slots.zipIdx.filter fun x => x.1.st == 1
  let s0 := { s with orphans := alive.foldl (fun (t : Tab MbSlot) (x : MbSlot × Nat) => Tab.put (postOf fn x.2 x.1.gen) x.1 t) s.orphans }
  let s1 := (s0.setFn fn (s.fn fn).flr).endSpdm fn
  match s1.pavOfFn fn with
  | none => s1
  | some p => (s1.modPav p fun v => { v with chan := { v.chan with keys := [] } }).startReset p 0x0A 0 []

/-- VF_FLR (R401). -/
def execVfFlr (fn : Nat) (s : State) : Host.Outcome State Fault Refusal :=
  if fn == 0 || fn ≥ numFns then noUnit
  else if !s.hasFn fn then ok s else ok (s.flr fn)

/-- PF0_FLR: as for a VF, for PF0's own page and pavilion (R401). -/
def execPf0Flr (s : State) : Host.Outcome State Fault Refusal := ok (s.flr 0)

/-- VF_ENABLE_CLEAR: every pavilion of a VF is reset and its host channel halts with NO_FUNCTION (R401). -/
def execVfEnableClear (s : State) : Host.Outcome State Fault Refusal :=
  let ps := (s.pavs.filter fun x => x.2.bound && x.2.hostFn != 0).map Prod.fst
  -- a channel that stood halted for another cause halts for this one
  let gone := fun (s : State) (p : Nat) => s.modPav p fun v => { v with chan := { v.chan with halted := false } }
  ok ((ps.foldl (fun s p => (gone (s.startReset p 0x0A 0 []) p).haltChannel p 6 0) s).modRegs fun r => { r with vfs := 0 })

/-- VF_ENABLE_SET: the host sets NumVFs and VF Enable (R274, R399). Recovery gives VF Enable no effect (R599). -/
def execVfEnableSet (count : Nat) (s : State) : Host.Outcome State Fault Refusal :=
  if count > 511 then noUnit
  else if s.boot.stage == .recovery then ok s else ok (s.modRegs fun r => { r with vfs := count })

/-! ## Die halves (R507, R508) -/

/-- The die half of a port. -/
def halfOfPort (p : Nat) : Nat := p / 4 * 2 + p % 4 / 2

/-- An apply that has not flipped ends, set-wide (R285). -/
def State.abortApply (s : State) : State :=
  let s := s.settleFlip
  if s.apply.phase == 1 || s.apply.phase == 2 || s.apply.phase == 3 then s.endApply ⟨0x0A, none, 0, 0⟩ else s

/-- A die-half reset begins; `starter` as Config.halfStarter takes it, and the POWER posts that wait for it (R285, R337, R508). -/
def State.startHalf (s : State) (h starter : Nat) (posts : List Nat) : State :=
  if (s.half h).resetting.isSome then s
  else
    let s0 := s.abortApply
    let s1 := (s0.abortSpans fun p => s0.inHalf p h).raisePf0 0x0042 0 (detailWords [h / 2, h % 2, (Config.halfStarter starter).toNat])
    let s2 := s1.modHalf h fun x => { x with resetting := some (starter, posts), droopClamp := false }
    let ps := (s2.pavs.filter fun x => x.2.bound && s2.inHalf x.1 h).map Prod.fst
    let s3 := s2.losePoolsOf ps.contains
    let s4 := ps.foldl (fun s p => s.startReset p 0x07 0 []) s3
    let s5 := ((List.range 136).map (h * 136 + ·)).foldl (fun s c =>
      let t := s.clearCore c
      if (t.core c).owner.isSome then t.modCore c fun x => { x with zeroing := true } else t) s4
    ((List.range 16).filter fun p => halfOfPort p == h).foldl (fun s p => s.leaveUp p 0 false true) s5

/-- DIE_HALF_RESET_START: a half's VCORE is lost (R507, R508). -/
def execDieHalfResetStart (half : Nat) (s : State) : Host.Outcome State Fault Refusal :=
  if half ≥ 8 then noUnit else ok (s.startHalf half 2 [])

/-- DIE_HALF_READY: the half is ready; POWER commands that reset it complete, and its ports train again (R506, R508). -/
def execDieHalfReady (half : Nat) (s : State) : Host.Outcome State Fault Refusal :=
  if half ≥ 8 then noUnit
  else
    match (s.half half).resetting with
    | none => ok s
    | some (_, posts) =>
      let s1 := posts.foldl (fun s k => s.complete k 0 [0]) (s.modHalf half fun x => { x with resetting := none })
      ok (((List.range 16).filter fun p => halfOfPort p == half).foldl (fun s p =>
        let x := s.port p
        if x.enable && !x.quiesce && s.fuse.portOn p && x.st == 0 && !s.portHeld p then s.setPort p { x with st := 1 } else s) s1)

/-! ## The package (R506, R509, R522) -/

/-- Causes that mark a fault of the package (R513, R514, R522, R553). -/
def isFatal (cause : Nat) : Bool := cause == 5 || cause == 6 || cause == 7

/-- What is left of a pavilion: its winding, its counters, and what a span has committed and not delivered, whose entry's fields tell
Gaold where it goes (R372, R448, R509). -/
def Pav.afterWarm (v : Pav) : Pav :=
  let held := if v.isSpan then v.held.filter fun h => h.step.isSome else []
  { entry := if held.isEmpty then 0 else v.entry &&& ~~~1#2048, winding := v.winding, epochBound := v.epochBound, acct := v.acct
    obs := { v.obs with repeatable := false }, held := held, deliveries := if held.isEmpty then [] else v.deliveries
    span := if held.isEmpty then {} else { members := v.span.members, winding := v.span.winding } }

/-- A function after a reset of the package: cold-domain selectors stay. -/
def Fn.afterWarm (x : Fn) : Fn := { slots := x.slots.map fun m => { gen := m.gen + 1 }, fltSel := x.fltSel, rgSel := x.rgSel }

/-- A slot whose write or staging a reset cuts short holds no image (R592, R615). -/
def FwSlot.afterReset (x : FwSlot) (staged : Bool) : FwSlot := if staged || x.st == 3 then { st := 1 } else x

/-- The firmware's state after a reset: nothing in progress; recovery, if it was armed, follows at a warm reset (R592, R599). -/
def Fw.afterReset (f : Fw) : Fw :=
  { f with slotA := f.slotA.afterReset (f.staging.isSome && f.active), slotB := f.slotB.afterReset (f.staging.isSome && !f.active), staging := none
           activation := none, waiting := [], armed := false, rcvState := if f.armed then 1 else if f.rcvState == 4 then 4 else 0, rcvError := 0 }

/-- Power after a warm reset: what a control loop holds stays; commands and writes in progress do not (R528). -/
def Power.afterWarm (p : Power) : Power :=
  { p with lost := [], avs := [], posts := [], heard := [], dozing := false
           halves := Tab.mapVals (fun _ x => { x with resetting := x.resetting.map fun r => (r.1, []) }) p.halves }

/-- A core after a warm reset: unbound, its local store zeroed (R155, R509). -/
def Core.afterWarm (c : Core) : Core := { health := c.health, lsRepairs := c.lsRepairs, lsRows := c.lsRows }

/-- The package resets, and what R509 keeps stays; the home of a sealed load in progress is zeroed first (R492). -/
def State.warmReset (s : State) (cause : Nat) : State :=
  let s := s.settleFlip
  let s1 := s.abortSpans fun _ => true
  let s2 := (s1.losePoolsOf fun _ => true).abortUnseals fun _ => true
  let s3 := if s.apply.phase == 1 || s.apply.phase == 2 || s.apply.phase == 3 then s2.setReason (some ⟨0x0A, none, 0, 0⟩) 0 else s2
  { s3 with
    regs := { s3.regs with pvState := 0, view := 1, bar2Win := 0, vfs := 0, bar2Log := 36 }
    cores := Tab.mapVals (fun _ c => c.afterWarm) s3.cores
    strands := []
    beds := { s3.beds with ls := [], lsBad := [] }
    tcache := []
    pavs := Tab.mapVals (fun _ v => v.afterWarm) s3.pavs
    fns := Tab.mapVals (fun _ x => x.afterWarm) s3.fns
    apply := {}
    net := { s3.net with sent := s3.net.sent.filter fun q => q.msg.sys, hopFails := [] }
    invals := []
    transfers := []
    boot := { s3.boot with stage := if s3.fw.armed then .recovery else .rom, triedActive := false, alert := s3.boot.alert || isFatal cause }
    fw := s3.fw.afterReset
    cp := { s3.cp with recovering := false }
    sparing := []
    power := s3.power.afterWarm
    cause := { s3.cause with cause := BitVec.ofNat 8 cause, fatal := isFatal cause, warmCount := sat16 s3.cause.warmCount }
    streams := []
    replayer := {}
    belv := {}
    pools := Tab.mapVals (fun _ x => { x with entry := 0 }) s3.pools
    dir := { s3.dir with changes := s3.dir.changes.filter (fun c => c.asker.isNone), jobs := [], asks := [], mirrorQueue := [], mirrorFaults := 0, restored := [] }
    gate := { ready := s3.gate.ready, identityOk := s3.gate.identityOk, svn := s3.gate.svn, nextSession := s3.gate.nextSession }
    posts := []
    orphans := [] }

/-- Members of spans hear of the committed steps that a member loses undelivered (R372). -/
def State.loseCommits (s : State) : State :=
  s.pavs.foldl (fun s x =>
    if !x.2.isSpan then s
    else (x.2.deliveries.filter fun d => x.2.held.any fun h => h.step == some d.1).foldl (fun s d => s.syncAll x.1 (.commitLost x.2.spanId d.1)) s) s

/-- The records of the rows in shadows that the devices' own post-package repair mends at a cold reset (R176, R181). -/
def Beds.hardRepairs (b : Beds) : List MemLog :=
  (b.channels.flatMap fun x => x.2.rowShadows.map fun row => (⟨0, row * 2048 / 65536, 0x0B, channelLoc x.1⟩ : MemLog)).take 64

/-- Everything starts again but what boot flash and the fuses hold, and PV_EPOCH at a reset that meets an apply (R285; DEDUCED against the
cold domain that R287 gives the register, notes/assumptions/75.md); `fatal` says that a fault was the cause (R5, R177, R506, R587). -/
def State.coldReset (s : State) (cause : Nat) (fatal : Bool) : State :=
  let s := s.settleFlip
  let s1 := s.loseCommits.abortSpans fun _ => true
  { State.reset with
    pending := s.pending
    answer := s.answer
    draws := s.draws
    order := s.order
    fuse := s.fuse
    regs := if s.apply.phase == 0 then State.reset.regs else { State.reset.regs with epoch := s.regs.epoch }
    bindSets := s.bindSets
    dir := { nextSerial := s.dir.nextSerial }
    host := s.host
    irqs := s.irqs
    beds := { State.reset.beds with retiredFrames := s.beds.retiredFrames, log := s.beds.hardRepairs }
    links := { State.reset.links with syncOut := s1.links.syncOut, boots := s1.links.boots + 1 }
    fns := Tab.mapVals (fun _ x => { slots := x.slots.map fun m => { gen := m.gen + 1 } }) s.fns
    boot := { stage := .rom, perst := s.boot.perst, refclk := s.boot.refclk, straps := s.boot.straps, pwrgd := s.boot.pwrgd, testEn := s.boot.testEn, wake := s.boot.wake
              alert := fatal }
    fw := { version := s.fw.version, cmdset := s.fw.cmdset, svnFloor := s.fw.svnFloor, slotA := s.fw.afterReset.slotA
            slotB := s.fw.afterReset.slotB, active := s.fw.active, calibrated := s.fw.calibrated }
    power := { coeffs := s.power.flash, flash := s.power.flash, savedAt := none
               cap := s.fuse.tdp, capInForce := s.fuse.tdp, halves := Tab.mapVals (fun _ x => { trim := x.trim }) s.power.halves }
    gate := { nextSession := s.gate.nextSession }
    cause := { cause := BitVec.ofNat 8 cause, fatal := fatal } }

/-- WARM_RESET: for a cause of R522 that is a warm reset's, the package resets and keeps what R509 lists. -/
def execWarmReset (cause : Nat) (s : State) : Host.Outcome State Fault Refusal :=
  ok (if [0x02, 0x03, 0x04, 0x05, 0x07, 0x08].contains cause then s.warmReset cause else s)

/-- COLD_RESET: for a cause of R522 that is a cold reset's, everything starts again from flash (R506). -/
def execColdReset (cause : Nat) (s : State) : Host.Outcome State Fault Refusal :=
  ok (if [0x01, 0x04, 0x06].contains cause then s.coldReset cause (isFatal cause) else s)

def pkgResetForm : CmdForm := { pf0 := true }

def startPkgReset (k : Nat) (s : State) : State := s.start k pkgResetForm fun _ s => s.warmReset 3

/-- PKG_RESET: PF0 starts a warm reset, which leaves the slot IDLE (R412, R419). -/
def execPkgReset (fn slot : Nat) (s : State) : Host.Outcome State Fault Refusal := post fn slot (opc 0x45) startPkgReset s

/-- PKG_FATAL_CLEAR: a write of 1 to FATAL clears it, and PKG_FAULT_N with it (R522). -/
def execPkgFatalClear (s : State) : Host.Outcome State Fault Refusal :=
  if !s.boot.powered then ok s else ok { s with cause := { s.cause with fatal := false } }

end Sys2Proof.Machine
end

