-- ==== Sys2Proof/Machine/Spares.lean ====
section
/-! DEFINITION. Spare cores (R13, R517 to R519), the control processor's failures and the errors of package units (R512 to
R514), and the REPLAY command (R565, R566). -/

namespace Sys2Proof.Machine

/-! ## Spare cores (R12, R517 to R519) -/

/-- Working spares of a cluster, the highest first: its working cores outside its bindable set (R12, R13). -/
def State.workingIn (s : State) (k : Nat) : List Nat :=
  (((List.range 17).map (k * 17 + ·)).filter fun c => (s.core c).health == .working && !(s.bindSet k).contains c).reverse

/-- The spare that stands in for a core: the highest working one that no copy goes to (R12, R517, R518; which one is Gaold's choice,
notes/assumptions/72.md). -/
def State.spareFor (s : State) (c : Nat) : Option Nat := (s.workingIn (clusterOf c)).find? fun x => !s.sparing.any fun y => y.2 == x

/-- The core belongs to its cluster's bindable set. -/
def State.inBindSet (s : State) (c : Nat) : Bool := (s.bindSet (clusterOf c)).contains c

/-- The spare takes a core's place in the bindable set, its pavilion and its index, also in the binding that an apply in progress will
give (R13, R266). -/
def State.takeIndex (s : State) (old new : Nat) : State :=
  let o := (s.core old).owner
  let s1 := ((s.bringIn old new).modCore old fun c => { c with owner := none }).modCore new fun c => { c with owner := o }
  match Tab.find old s1.apply.owners with
  | none => s1
  | some x => { s1 with apply := { s1.apply with owners := Tab.put new x (Tab.drop old s1.apply.owners) } }

/-- A core leaves for good: its local store is zeroed and it is gated off. -/
def State.gateOff (s : State) (c : Nat) : State :=
  ((s.clearCore c).zeroLs c).modCore c fun x => { x with health := .dead, zeroing := false, owner := none }

/-- A move to a spare is counted and reported (R517, R520, R522). -/
def State.coreSpared (s : State) (old new : Nat) (predicted : Bool) : State :=
  { s with cause := { s.cause with coresSpared := sat16 s.cause.coresSpared } }.raisePf0 0x0043 0 (detailWords [coreLoc old, coreLoc new, b2n predicted])

/-- A core that must leave finds no spare: its owner is killed and stays FAULTED (R518). -/
def State.coreFailed (s : State) (c : Nat) : State :=
  let s1 := { s with cause := { s.cause with coresFailed := sat16 s.cause.coresFailed } }
  match s.ownerOf c with
  | none => s1.gateOff c
  | some p =>
    let s2 := (s1.modPav p fun v => { v with faulted := true }).startReset p 0x05 (coreLoc c) []
    (s2.gateOff c).raisePf0 0x0044 p (detailWords [coreLoc c, p])

/-- Corrected-error or wear grounds of R517, as far as the state holds them: `wear` is what the monitors and the hourly counts say. -/
def Core.worn (c : Core) (wear : Bool) : Bool := wear || c.lsRepairs.any fun x => decide (x.2 ≥ 8)

/-- CORE_SPARE: a worn core's owner is held at a layer boundary and its state begins to be copied to a spare; cycle-repeatable mode
defers it (R517 to R519). -/
def execCoreSpare (core : Nat) (wear : Bool) (s : State) : Host.Outcome State Fault Refusal :=
  if core ≥ numCores then noUnit
  else
    let c := s.core core
    if c.health != .working || !c.worn wear || s.cycleMode || (Tab.find core s.sparing).isSome || !s.inBindSet core then ok s
    else
      match c.owner, s.spareFor core with
      | none, some x => ok (((s.takeIndex core x).gateOff core).coreSpared core x true)
      | _, none => ok (s.coreFailed core)
      | some (p, _), some x =>
        if !s.atBoundary p || (s.pav p).resetting.isSome then ok s
        else ok { ((s.modPav p fun v => { v with held? := true }).voidStart p) with sparing := Tab.put core x s.sparing }

/-- The pavilion is held by an apply in progress. -/
def State.heldByApply (s : State) (p : Nat) : Bool := s.apply.heldAt.contains p && !s.apply.resumed.contains p

/-- CORE_SPARE_COPY_DONE: the spare holds the core's scratch and slots and takes its index; the old core is zeroed and gated off,
its orangery pieces go, and the pavilion resumes (R266, R517). A scratch that holds an uncorrectable word is not copied, and the
pavilion is killed (R175). -/
def execCoreSpareCopyDone (core : Nat) (s : State) : Host.Outcome State Fault Refusal :=
  if core ≥ numCores then noUnit
  else
    match Tab.find core s.sparing, (s.core core).owner with
    | some x, some (p, _) =>
      let bad := s.lsHurt core 0 (s.pav p).scratchBytes
      let m := if bad then [] else s.scratchOf core (s.pav p).scratchBytes
      let s1 := (((s.background (coreLoc core) (coreLoc x) (s.pav p).scratchBytes).zeroLs x).putScratch x m).modCore x fun c => { c with slots := (s.core core).slots, codeBase := (s.core core).codeBase, zeroing := false }
      let s2 := ((s1.takeIndex core x).gateOff core).modPav p fun v =>
        { v with slices := v.slices.map fun y => (y.1, { y.2 with resident := y.2.resident.filter fun z => z.2.core != core }) }
      let s3 := { s2 with sparing := Tab.drop core s2.sparing }
      let s4 := (if bad then s3.killSram p core (lsRow ((s.badWord core 0 (s.pav p).scratchBytes).getD 0)) else s3).coreSpared core x true
      ok (if s4.heldByApply p then s4 else (s4.modPav p fun v => { v with held? := false }).freezeWaiting p)
    | some _, none => ok { s with sparing := Tab.drop core s.sparing }
    | none, _ => ok s

/-- A spare that dies while it takes a copy: the pavilion that was held for it goes on. -/
def State.copyLost (s : State) (core : Nat) : State :=
  (s.sparing.filter fun y => y.2 == core).foldl (fun s y =>
    match s.ownerOf y.1 with
    | some p => if s.heldByApply p then s else (s.modPav p fun v => { v with held? := false }).freezeWaiting p
    | none => s) s

/-- CORE_DEATH: a core dies, its owner is killed with CORE_LOST, and a spare takes its index zeroed; with none left the owner stays
FAULTED (R517 to R519). -/
def execCoreDeath (core : Nat) (s : State) : Host.Outcome State Fault Refusal :=
  if core ≥ numCores then noUnit
  else if (s.core core).health == .dead then ok s
  else
    let s0 := { s.copyLost core with sparing := (Tab.drop core s.sparing).filter fun y => y.2 != core }
    if !s0.inBindSet core then ok (s0.gateOff core)
    else
    match s0.spareFor core with
    | none => ok (s0.coreFailed core)
    | some x =>
      match s0.ownerOf core with
      | none => ok (((s0.takeIndex core x).gateOff core).coreSpared core x false)
      | some p =>
        let s1 := (s0.startReset p 0x05 (coreLoc core) []).unrepeatable p 2
        let s2 := ((s1.takeIndex core x).gateOff core).modCore x fun c => { c with zeroing := true }
        ok (s2.coreSpared core x false)

/-! ## The control processor (R514) -/

/-- A command in progress ends with MB_ABORTED: wherever the state keeps it waiting, it is gone. Runs go on, for Gaold's tasks restart
from its journal, and an apply that has flipped completes. -/
def State.abortPost (s : State) (k : Nat) : State :=
  let s := s.abortUnseals fun u => u.post == k
  let s0 := if s.apply.slot == k && (s.apply.phase == 1 || s.apply.phase == 2 || s.apply.phase == 3) then s.abortApply else s
  let s1 := if s.apply.slot == k && s.apply.phase == 4 then s0 else s0.complete k 0x86 []
  let pav := fun (_ : Nat) (v : Pav) => { v with
    accepting := v.accepting.filter fun a => a.post != k
    shared := Tab.drop k v.shared
    slices := v.slices.map fun x => (x.1, { x.2 with posts := x.2.posts.filter fun y => y != k })
    freeze := { v.freeze with waiting := v.freeze.waiting.filter fun w => w.1 != k
                              busy := v.freeze.busy.filter fun x => x != k
                              saves := v.freeze.saves.filter fun x => x.1 != k }
    resetting := v.resetting.map fun r => { r with slots := r.slots.filter fun x => x != k } }
  { s1 with pavs := Tab.mapVals pav s1.pavs, invals := s1.invals.filter fun v => v.post != k, transfers := s1.transfers.filter fun t => t.post != k
            power := { s1.power with posts := s1.power.posts.filter fun x => x.1 != k }
            fw := { s1.fw with waiting := s1.fw.waiting.filter fun x => x != k } }.stageAborted k

/-- A control-processor core is stopped: the spare comes in, or the others go on; with fewer than three the package resets. The posts
are the commands that the core had in progress (R514). -/
def State.cpFail (s : State) (core : Nat) (posts : List (Nat × Nat)) : State :=
  let working := if s.cp.spareUsed then s.cp.working - 1 else s.cp.working
  let s1 := { s.voidStarts with cp := { recovering := true, spareUsed := true, working := working } }
  if working < 3 then { s1.warmReset 5 with cp := { s1.cp with recovering := false } }
  else
    let ks := posts.map fun x => postOf x.1 x.2 (nthD (s.fn x.1).slots x.2 {}).gen
    let s2 := (ks.foldl (fun s k => s.abortPost k) s1).abortApply
    let s3 := if s.fw.activation.any (fun a => a.phase == 3) then
        { s2 with fw := { s2.fw with activation := s2.fw.activation.map fun a => { a with phase := 2, handover := false } } } else s2
    let late := (s3.pavs.filter fun x => x.2.bound && x.2.cycle && x.2.runs.any fun r => r.begun && !r.started).map Prod.fst
    (late.foldl (fun s p => s.unrepeatable p 2) s3).raisePf0 0x0046 0 (detailWords [core])

/-- CP_WATCHDOG_EXPIRE: a control-processor core's watchdog expires, or it meets an uncorrectable error (R514, R596). -/
def execCpWatchdogExpire (core : Nat) (posts : SlotList) (s : State) : Host.Outcome State Fault Refusal :=
  if core ≥ 5 || posts.any (fun x => decide (x.1 ≥ numFns) || decide (x.2 ≥ 4)) then noUnit
  else if s.boot.stage != .running then ok s else ok (s.cpFail core posts)

/-! ## Package units (R513) -/

/-- An uncorrectable error in a buffer of a complication: the update or recording is abandoned (R513). -/
def State.complicationFault (s : State) (mirror : Bool) : State :=
  if mirror then
    match s.dir.mirrorQueue with
    | [] => s.raisePf0 0x0047 0 (detailWords [unitLoc 4, 0])
    | (id, _) :: rest =>
      let p := ((s.session id).map Session.userPav).getD 0
      let s1 := s.modDir fun d => { d with mirrorQueue := rest, mirrorFaults := sat16 d.mirrorFaults }
      s1.raisePf0 0x0047 p (detailWords [unitLoc 4, p])
  else (s.modRec fun x => { x with mode := 0, live := false }).raisePf0 0x0047 s.replayer.pav (detailWords [unitLoc 5, s.replayer.pav])

/-- PKG_UNIT_UNCORRECTABLE: an uncorrectable error met by a package unit, numbered as in R23: 0 the control processor's memory, 1 the
gatehouse, 4 Mirror, 5 Replay, 7 to 14 the host movers, whose buffer held a record or write of `pav` (R513). -/
def execPkgUnitUncorrectable (unit pav : Nat) (s : State) : Host.Outcome State Fault Refusal :=
  if unit > 14 || pav ≥ numPavs then noUnit
  else if unit == 0 then ok (if s.boot.stage != .running then s else s.cpFail 0 [])
  else if unit == 1 then ok (s.warmReset 7)
  else if unit == 4 then ok (if s.fuse.mirror then s.complicationFault true else s)
  else if unit == 5 then ok (if s.fuse.replay then s.complicationFault false else s)
  else if unit ≥ 7 then ok (if (s.pav pav).bound then s.startReset pav 0x0B (unitLoc unit) [] else s)
  else ok s

/-! ## REPLAY (R565, R566, R572) -/

/-- The form of REPLAY, by ACTION (R419, R565, R630). -/
def replayForm : CmdForm :=
  { pf0 := true, named := true, used := [0x1FF, 3, 2 ^ 32 - 1, 2 ^ 32 - 1, 2 ^ 32 - 1, 2 ^ 32 - 1]
    range := fun m => decide (m.w 2 % 4 ≤ 2) && (m.w 2 % 4 == 0 || (m.w2 3 % 65536 == 0 && m.w2 5 % 65536 == 0 && decide (2 ^ 20 ≤ m.w2 5) && decide (m.w2 5 ≤ 2 ^ 40)))
    refused := fun v _ => v.resetting.isSome || v.faulted || (v.isSpan && v.span.st != 2) }

/-- The channel-set addresses of the ring's pages, if each is a LOCAL leaf with RD and WR and lies in no slice home (R565). -/
def State.ringOk (s : State) (p dva len : Nat) : Bool :=
  (List.range (len / 65536)).all fun i =>
    let a := dva + 65536 * i
    (match (s.walk 86 p a).1 with
      | .leaf l => Pte.typ l.entry == 2 && Pte.rd l.entry && Pte.wr l.entry
      | _ => false)
    && !(s.pav p).slices.any fun x => decide (x.2.home.toNat < a + 65536) && decide (a < x.2.home.toNat + 65536 * x.2.pieces)

/-- The grounds of REPLAY_REFUSED that every ACTION shares, and those of the ACTION (R565). -/
def State.replayRefused (s : State) (p act dva len : Nat) : Bool :=
  let v := s.pav p
  let r := s.replayer
  !v.replay || v.isSpan || (if act == 0 then r.mode == 0 || r.pav != p else r.mode != 0 || !v.freeze.frozen || !s.ringOk p dva len)
    || (act == 2 && (let h := s.readDva p dva 64; let f := fun (a n : Nat) => leNat ((h.drop a).take n)
      f 4 4 != 2 || f 24 4 != s.fw.version.toNat || f 28 4 != s.fw.cmdset.toNat))

def startReplay (k : Nat) (s : State) : State :=
  s.start k replayForm fun p s =>
    let m := s.mb k
    let act := m.w 2 % 4
    let dva := m.w2 3
    let len := m.w2 5
    if s.replayRefused p act dva len then s.complete k 0x01 []
    else if act == 0 then let n := s.replayer.records; (s.endReplay 1).complete k 0 (lohi n)
    else if act == 1 then
      let s1 := { s with replayer := { mode := 1, pav := p, ring := BitVec.ofNat 64 dva, len := len } }
      let h := leBytes 4 1 ++ leBytes 4 1 ++ leBytes 8 0 ++ leBytes 8 64 ++ leBytes 4 s.fw.version.toNat ++ leBytes 4 s.fw.cmdset.toNat
        ++ List.replicate 32 0
      (s1.writeDva p dva h).complete k 0 (lohi 0)
    else
      let h := s.readDva p dva 64
      let f := fun (a n : Nat) => leNat ((h.drop a).take n)
      ({ s with replayer := { mode := 2, pav := p, ring := BitVec.ofNat 64 dva, len := len, used := f 16 8 } }).complete k 0 (lohi (f 8 8))

/-- REPLAY with ACTION 0 ends a recording or replay at once (R565, R566); an undefined ACTION completes with MB_ARG. -/
def execReplayStop (fn slot : Nat) (s : State) : Host.Outcome State Fault Refusal :=
  post fn slot (fun w => opc 0x52 w && w 2 % 4 != 1 && w 2 % 4 != 2) startReplay s

/-- REPLAY with ACTION 1 writes the ring's header; recording begins at the next thaw (R565 to R567). -/
def execReplayRecord (fn slot : Nat) (s : State) : Host.Outcome State Fault Refusal :=
  post fn slot (fun w => opc 0x52 w && w 2 % 4 == 1) startReplay s

/-- REPLAY with ACTION 2 arms the replay of a complete ring from the next thaw (R565, R566, R572). -/
def execReplayReplay (fn slot : Nat) (s : State) : Host.Outcome State Fault Refusal :=
  post fn slot (fun w => opc 0x52 w && w 2 % 4 == 2) startReplay s

end Sys2Proof.Machine
end

