-- ==== Sys2Proof/Machine/Power.lean ====
section
/-! DEFINITION. Power, clocks and the escapement (R526 to R557) and the reconciliation of energy (R450 to R453). -/

namespace Sys2Proof.Machine

/-! ## Operating points (R527 to R531, R555) -/

/-- The next higher operating point's divisor (R530, R531). -/
def divUp (d : Nat) : Option Nat := if d == 12 then some 8 else if d == 8 then some 6 else none
/-- The next lower operating point's divisor. -/
def divDown (d : Nat) : Nat := if d == 6 then 8 else 12

/-- VCORE set-point in tenths of a mV of a divisor with an ageing trim (R530, R554). -/
def setPoint (div trim : Nat) : Nat := min 9000 ((if div == 6 then 8000 else if div == 8 then 7000 else 6200) + 25 * trim)

/-- The divisor that the cap controller, LIMIT_HALF, the thermal floor and the trim floor require together (R555). -/
def Half.target (x : Half) (trimPending : Bool) : Nat := max (max x.want x.limit) (max x.floor (if trimPending then 12 else 6))

/-- The set-point that a half needs next: that of the point above it before a raise, else that of its own. -/
def Half.needed (x : Half) (trimPending : Bool) : Nat :=
  match divUp x.div with
  | some d => if x.target trimPending < x.div then setPoint d x.trim else setPoint x.div x.trim
  | none => setPoint x.div x.trim

/-- Send the voltage write that a half needs, if none is in progress (R527, R531). -/
def State.settle (s : State) (h : Nat) : State :=
  let x := s.half h
  let mv := x.needed s.power.trimPending
  if x.resetting.isSome || mv == x.vset || (Tab.find h s.power.avs).isSome then s
  else { s with power := { s.power with avs := Tab.put h { mv := mv } s.power.avs } }

/-- Settle every half. -/
def State.settleAll (s : State) : State := (List.range 8).foldl State.settle s

/-- CYCLE pavilions with own cores in a half lose REPEATABLE (R564). -/
def State.disturbHalf (s : State) (h cause : Nat) : State :=
  let ps := (s.pavs.filter fun x => x.2.bound && x.2.cycle && (s.coresOf x.1).any fun c => halfOfCluster (clusterOf c.2) == h).map Prod.fst
  ps.foldl (fun s p => s.unrepeatable p cause) s

/-- POWER LIMIT_HALF commands that wait for a half complete once it is at or above the limit (R556). -/
def State.limitDone (s : State) (h : Nat) : State :=
  let fit := fun (x : Nat × Nat) => x.2 == 6 && (s.mb x.1).w 3 == h && decide ((s.mb x.1).w 2 ≤ (s.half h).div)
  let s1 := (s.power.posts.filter fit).foldl (fun s x => s.complete x.1 0 [(s.mb x.1).w 2]) s
  { s1 with power := { s1.power with posts := s1.power.posts.filter fun x => !fit x } }

/-- A half's divisor switches; a raise scales the issue budget by the ratio of the frequencies, and a lowering is followed by the
lower VCORE (R531). -/
def State.switchDiv (s : State) (h d : Nat) : State :=
  let x := s.half h
  let esc := if d < x.div then x.issue * d / x.div else x.escape
  (((s.setHalf h { x with div := d, escape := esc }).disturbHalf h 4).settle h).limitDone h

/-- DIVISOR_CHANGE: at a super-cycle boundary a half moves one step towards the divisor required of it; a raise only once its VCORE
is reached (R525, R527, R531). -/
def execDivisorChange (half : Nat) (s : State) : Host.Outcome State Fault Refusal :=
  if half ≥ 8 then noUnit
  else
    let x := s.half half
    let t := x.target s.power.trimPending
    if x.resetting.isSome then ok s
    else if t > x.div then ok (s.switchDiv half (divDown x.div))
    else
      match divUp x.div with
      | none => ok s
      | some d =>
        if t < x.div && (Tab.find half s.power.avs).isNone && x.vset ≥ setPoint d x.trim then ok (s.switchDiv half d) else ok s

/-! ## AVSBus (R526 to R529) -/

/-- Rails, in the order of R526. -/
def numRails : Nat := 14

/-- AVS_RESPONSE: a regulator acknowledges a voltage write, or reports VDone: the set-point is reached (R527). -/
def execAvsResponse (rail : Nat) (done : Bool) (s : State) : Host.Outcome State Fault Refusal :=
  if rail ≥ numRails then noUnit
  else
    match Tab.find rail s.power.avs with
    | none => ok s
    | some a =>
      if !done then ok { s with power := { s.power with avs := Tab.put rail { a with acked := true } s.power.avs } }
      else if !a.acked then ok s
      else
        let s1 := { s with power := { s.power with avs := Tab.drop rail s.power.avs } }
        ok (if rail < 8 then (s1.modHalf rail fun x => { x with vset := a.mv }).settle rail else s1)

/-- Set-point in tenths of a mV of a fixed rail (R526). -/
def fixedPoint (rail : Nat) : Nat := nthD [7500, 7500, 8500, 18000, 10500, 5000] (rail - 8) 0

/-- A rail is treated as lost (R528). -/
def State.loseRail (s : State) (rail : Nat) : State :=
  let s1 := { s with power := { s.power with avs := Tab.drop rail s.power.avs } }
  if rail < 8 then s1.startHalf rail 2 []
  else { s1 with power := { s1.power with lost := addNew rail s1.power.lost } }.raisePf0 0x0051 0 (detailWords [rail])

/-- AVS_TIMEOUT: an unacknowledged write is sent again, up to three times in all; else the rail is lost (R527, R528). -/
def execAvsTimeout (rail : Nat) (s : State) : Host.Outcome State Fault Refusal :=
  if rail ≥ numRails then noUnit
  else
    match Tab.find rail s.power.avs with
    | none =>
      if rail < 8 || s.power.lost.contains rail then ok s
      else ok { s with power := { s.power with avs := Tab.put rail { mv := fixedPoint rail, tries := 2 } s.power.avs } }
    | some a =>
      if a.acked || a.tries ≥ 3 then ok (s.loseRail rail)
      else ok { s with power := { s.power with avs := Tab.put rail { a with tries := a.tries + 1 } s.power.avs } }

/-- TELEMETRY_READ: the rails that answered, with their power (R529). -/
def execTelemetryRead (readings : List (Nat × Nat)) (s : State) : Host.Outcome State Fault Refusal :=
  if readings.any fun x => decide (x.1 ≥ numRails) then noUnit
  else
    let heard := readings.foldl (fun (t : Tab (Nat × Nat)) x => Tab.mod t x.1 (0, 0) fun y => (y.1 + x.2, y.2 + 1)) s.power.heard
    ok { s with power := { s.power with heard := heard } }

/-! ## The escapement, droop and heat (R541 to R543, R550 to R553) -/

/-- The set-point from which a half's droop thresholds are taken, in tenths of a mV (R552). -/
def State.droopPoint (s : State) (h : Nat) : Nat :=
  match Tab.find h s.power.avs with
  | some a => min (s.half h).vset a.mv
  | none => (s.half h).vset

/-- ESCAPEMENT_STEP: the activity moves by at most one step towards what work asks for, within the budget; the escapement's limit
rises by one step unless a clamp is in force (R541 to R543). -/
def execEscapementStep (half load : Nat) (s : State) : Host.Outcome State Fault Refusal :=
  if half ≥ 8 then noUnit
  else
    let x := s.half half
    let clamp := x.droopClamp || x.thermalClamp
    let x1 := { x with escape := if clamp then x.escape else min 64 (x.escape + 1) }
    let goal := min load x1.issue
    let a := if goal > x.activity then x.activity + 1 else if goal < x.activity then (if clamp then goal else x.activity - 1) else x.activity
    ok (s.setHalf half { x1 with activity := a })

/-- DROOP_DETECT: below 92 % of the set-point the droop clamp acts (R550, R555, R564). -/
def execDroopDetect (half mv : Nat) (s : State) : Host.Outcome State Fault Refusal :=
  if half ≥ 8 then noUnit
  else
    let x := s.half half
    if x.droopClamp || x.resetting.isSome || mv * 1000 ≥ 92 * s.droopPoint half then ok s
    else ok ((s.setHalf half { x with droopClamp := true, escape := min x.escape 16 }).disturbHalf half 3)

/-- Dips that DROOP_WARN has not reported are reported, at most once per 1 ms (R521, R551). -/
def State.warnDroop (s : State) (h : Nat) : State :=
  let x := s.half h
  let due := match x.lastWarn with | some t => decide ((s.now - t).toNat ≥ 100000) | none => true
  if x.dips == 0 || !due then s
  else (s.setHalf h { x with dips := 0, lastWarn := some s.now }).raisePf0 0x0053 0 (detailWords [h, x.dips])

/-- DROOP_RECOVER: above 94 % of the set-point for 1 µs, the clamp ends and the dip is counted (R551). -/
def execDroopRecover (half mv : Nat) (s : State) : Host.Outcome State Fault Refusal :=
  if half ≥ 8 then noUnit
  else
    let x := s.half half
    if !x.droopClamp || mv * 1000 ≤ 94 * s.droopPoint half then ok s
    else ok ((s.setHalf half { x with droopClamp := false, droops := sat16 x.droops, dips := x.dips + 1 }).warnDroop half)

/-- SUPPLY_RESET_DIP: below 85 % of the set-point a die-half reset begins (R507, R551). -/
def execSupplyResetDip (half mv : Nat) (s : State) : Host.Outcome State Fault Refusal :=
  if half ≥ 8 then noUnit else if mv * 1000 ≥ 85 * s.droopPoint half then ok s else ok (s.startHalf half 1 [])

/-- A time of `n` ticks has passed since the thermal floor last moved. -/
def State.sinceStep (s : State) (h n : Nat) : Bool := match (s.half h).lastStep with | some t => decide ((s.now - t).toNat ≥ n) | none => true

/-- THERMAL_THROTTLE_STEP: at 100 °C or above the thermal floor rises one step per 1 ms, reported at the first step; SMB_ALERT_N is
asserted (R553, R618). -/
def execThermalThrottleStep (half celsius : Nat) (s : State) : Host.Outcome State Fault Refusal :=
  if half ≥ 8 then noUnit
  else
    let s0 := s.modHalf half fun x => { x with tj := celsius }
    let x := s0.half half
    if celsius < 100 || x.floor == 12 || !s0.sinceStep half 100000 then ok s0
    else
      let s1 := (s0.setHalf half { x with floor := divDown x.floor, lastStep := some s.now }).settle half
      ok (if x.floor == 6 then { s1 with boot := { s1.boot with alert := true } }.raisePf0 0x0052 0 (detailWords [half, celsius]) else s1)

/-- THERMAL_RELAX_STEP: below 97 °C for 10 ms, the floor falls one step per 10 ms (R553). -/
def execThermalRelaxStep (half celsius : Nat) (s : State) : Host.Outcome State Fault Refusal :=
  if half ≥ 8 then noUnit
  else
    let s0 := s.modHalf half fun x => { x with tj := celsius }
    let x := s0.half half
    if celsius ≥ 97 || !s0.sinceStep half 1000000 then ok s0
    else
      match divUp x.floor with
      | some d => ok ((s0.setHalf half { x with floor := d, lastStep := some s.now }).settle half)
      | none => ok s0

/-- THERMAL_CLAMP: at 105 °C at divisor 12 the thermal clamp acts, until below 103 °C (R543, R553). -/
def execThermalClamp (half celsius : Nat) (s : State) : Host.Outcome State Fault Refusal :=
  if half ≥ 8 then noUnit
  else ok (s.modHalf half fun x =>
    if celsius ≥ 105 && x.div == 12 then { x with tj := celsius, thermalClamp := true, escape := min x.escape 16 }
    else if celsius < 103 then { x with tj := celsius, thermalClamp := false } else { x with tj := celsius })

/-! ## Ageing and calibration (R546, R554) -/

/-- AGEING_MEASURE: a half's trim rises to what its monitors call for, up to 40 mV; after RESTORE_FACTORY the last half measured lifts
the floor (R554). -/
def execAgeingMeasure (half trim : Nat) (s : State) : Host.Outcome State Fault Refusal :=
  if half ≥ 8 then noUnit
  else
    let s1 := s.modHalf half fun x => { x with trim := max x.trim (min 16 trim), measured := true }
    let all := (List.range 8).all fun h => (s1.half h).measured
    ok { s1 with power := { s1.power with trimPending := s1.power.trimPending && !all } }.settleAll

/-- CALIBRATION_WRITE: learned coefficients are written to flash, at most once per hour (R546). -/
def execCalibrationWrite (s : State) : Host.Outcome State Fault Refusal :=
  let due := match s.power.savedAt with | some t => decide ((s.now - t).toNat ≥ hourTicks) | none => true
  if !s.power.unsaved || !due then ok s
  else ok { s with power := { s.power with flash := s.power.coeffs, unsaved := false, savedAt := some s.now }, fw := { s.fw with calibrated := true } }

/-! ## Domains and package states (R532 to R540) -/

/-- Domains whose units are all absent from the grade (R533). -/
def Fuse.absent (f : Fuse) (d : Nat) : Bool :=
  (d == 85 && !f.mirror) || (d == 86 && !f.replay) || (decide (87 ≤ d) && decide (d ≤ 90) && !f.stream)

/-- The domain can be off while the package is Active (R533). -/
def State.mayBeOff (s : State) (d : Nat) : Bool :=
  (decide (d < 80) && d % 20 != 19 || decide (85 ≤ d) && decide (d ≤ 90)) && !s.fuse.absent d && !(s.pavs.any fun x => x.2.bound && x.2.needs d)
    && (if decide (d < 80) && decide (d % 20 < 16) then
          (List.range 17).all fun i =>
            let c := (d / 20 * 16 + d % 20) * 17 + i
            (s.core c).owner.isNone && !(s.core c).zeroing && !s.sparing.any fun x => x.1 == c || x.2 == c
        else if decide (d < 80) && d % 20 == 18 then (List.range 4).all fun i => !((s.port (d / 20 * 4 + i)).enable && s.fuse.portOn (d / 20 * 4 + i))
        else true)

/-- Domains eligible now. -/
def State.eligibles (s : State) : List Nat := (List.range 96).filter s.mayBeOff

/-- The pad group of a domain: that of a link group is the die's Duncy lanes (R540). -/
def padsOf (d : Nat) : BitVec 6 := if d < 80 && d % 20 == 18 then BitVec.ofNat 6 (2 ^ (d / 20)) else 0

/-- Domains are turned off, and the pads of each link group among them that was on are held (R540). -/
def State.turnOff (s : State) (ds : List Nat) : State :=
  let news := ds.filter fun d => !s.power.off.contains d
  { s with power := { s.power with off := s.power.off ++ news, pads := news.foldl (fun w d => w ||| padsOf d) s.power.pads } }

/-- An access to package memory woke the memory group less than 10 ms ago (R534). -/
def State.justWoken (s : State) (d : Nat) : Bool :=
  match Tab.find d s.power.woke with | some t => decide ((s.now - t).toNat < 1000000) | none => false

/-- DOMAIN_IDLE_OFF: a domain eligible for 10 ms is turned off, its pads to be released by Gaold; in Nap it is held off, as if by the
command (R534, R536, R540; DESIGN CHOICE, notes/assumptions/44.md). -/
def execDomainIdleOff (domain : Nat) (s : State) : Host.Outcome State Fault Refusal :=
  if domain ≥ 96 then noUnit
  else if s.boot.stage != .running || !s.mayBeOff domain || s.justWoken domain then ok s
  else
    let s1 := s.turnOff [domain]
    ok { s1 with power := if s.power.nap then { s1.power with napHolds := addNew domain s.power.napHolds }
                          else { s1.power with ownPads := s.power.ownPads ||| (s1.power.pads &&& ~~~s.power.pads) } }

/-- A run is in progress in some pavilion (R535). -/
def State.anyRun (s : State) : Bool := s.pavs.any fun x => x.2.bound && x.2.runs.any fun r => r.begun

/-- PWR_STATE.STATE: Nap, Idle or Active (R557). -/
def State.pwrState (s : State) : Nat := if s.power.nap then 2 else if s.anyRun then 0 else 1

/-- PWR_STATE (R557). -/
def State.pwrWord (s : State) : Nat :=
  s.pwrState + b2n s.power.emergency * 256 + b2n s.power.telemFault * 512 + b2n s.power.divergent * 1024 + b2n s.power.trimPending * 2048

/-- A cap within 40 % of the thermal design power and the power itself (R544). -/
def Fuse.clampCap (f : Fuse) (w : Nat) : Nat := max (f.tdp * 2 / 5) (min f.tdp w)

/-! ## POWER (R556) -/

/-- The form of POWER: fields that the action does not use are zero (R556). -/
def powerForm : CmdForm :=
  { pf0 := true, used := [0xF, 2 ^ 32 - 1, 0xFFFF]
    range := fun m =>
      let act := m.w 1 % 16
      decide (act ≤ 7) && (m.w 2 == 0 || act == 1 || act == 5 || act == 6) && (m.w 3 == 0 || act == 5 || ((act == 6 || act == 7) && decide (m.w 3 < 8))) }

/-- A CYCLE pavilion has own cores in a die, so that its halves move together (R548). -/
def State.tied (s : State) (die : Nat) : Bool :=
  s.pavs.any fun x => x.2.bound && x.2.cycle && (s.coresOf x.1).any fun c => dieOf c.2 == die

/-- The port says farewell and is quiesced (R377, R537). -/
def State.quiescePort (s : State) (p : Nat) : State := (s.leaveUp p 3 true false).modPort p fun x => { x with quiesce := true }

/-- An apply is in progress. -/
def State.applyOn (s : State) : Bool := s.apply.phase != 0

/-- The package gets ready for Doze: ports are quiesced, and L2 entry is awaited (R537). -/
def State.prepareDoze (s : State) : State :=
  let s1 := ((List.range 16).filter s.portUp).foldl State.quiescePort s
  { s1 with power := { s1.power with dozing := true } }

/-- The effect of POWER's actions, in the order of R556; HOLD and NAP are refused during any apply (R555). -/
def State.powerAction (s : State) (k act value dom : Nat) : State :=
  let refuse := s.complete k 0x01 []
  if act != 0 && !s.power.lost.isEmpty then refuse
  else if act == 0 then s.complete k 0 [s.pwrWord]
  else if act == 1 then
    let w := s.fuse.clampCap value
    { s with power := { s.power with cap := w } }.complete k 0 [w]
  else if act == 2 then
    if s.applyOn then refuse
    else
      let ds := s.eligibles
      let s1 := s.turnOff ds
      { s1 with power := { s1.power with nap := true, napHolds := ds } }.complete k 0 [0]
  else if act == 3 then
    if (s.pavs.any fun x => x.2.bound) || s.applyOn || s.replayer.mode == 1 then refuse else s.prepareDoze.complete k 0 [0]
  else if act == 4 then
    if !s.power.nap then refuse else { s with power := { s.power with nap := false, napHolds := [] } }.complete k 0 [0]
  else if act == 5 then
    if value > 1 || !s.mayBeOff dom || s.applyOn then refuse
    else if value == 1 then
      let s1 := s.turnOff [dom]
      { s1 with power := { s1.power with holds := addNew dom s1.power.holds } }.complete k 0 [1]
    else { s with power := { s.power with holds := s.power.holds.filter fun d => d != dom } }.complete k 0 [0]
  else if act == 6 then
    let other := if dom % 2 == 0 then dom + 1 else dom - 1
    if !([6, 8, 12].contains value) || (s.tied (dom / 2) && (s.half other).limit != value) then refuse
    else
      let s1 := (s.modHalf dom fun x => { x with limit := value }).settle dom
      { s1 with power := { s1.power with posts := s1.power.posts ++ [(k, 6)] } }.limitDone dom
  else
    if (s.half dom).resetting.isSome then refuse else s.startHalf dom 3 [k]

def startPower (k : Nat) (s : State) : State :=
  s.start k powerForm fun _ s => let m := s.mb k; s.powerAction k (m.w 1 % 16) (m.w 2) (m.w 3)

/-- A POWER post of one action. -/
def powerPost (fn slot : Nat) (act : Nat → Bool) (s : State) : Host.Outcome State Fault Refusal :=
  post fn slot (fun w => opc 0x58 w && act (w 1 % 16)) startPower s

/-- POWER QUERY returns PWR_STATE; an undefined ACTION completes with MB_ARG (R556). -/
def execPowerQuery (fn slot : Nat) (s : State) : Host.Outcome State Fault Refusal := powerPost fn slot (fun a => a == 0 || decide (a > 7)) s
/-- POWER SET_CAP sets the package cap (R544, R556). -/
def execPowerSetCap (fn slot : Nat) (s : State) : Host.Outcome State Fault Refusal := powerPost fn slot (· == 1) s
/-- POWER NAP holds every eligible domain off (R536). -/
def execPowerNap (fn slot : Nat) (s : State) : Host.Outcome State Fault Refusal := powerPost fn slot (· == 2) s
/-- POWER DOZE prepares the package for Doze (R537). -/
def execPowerDoze (fn slot : Nat) (s : State) : Host.Outcome State Fault Refusal := powerPost fn slot (· == 3) s
/-- POWER ACTIVE ends Nap (R536). -/
def execPowerActive (fn slot : Nat) (s : State) : Host.Outcome State Fault Refusal := powerPost fn slot (· == 4) s
/-- POWER HOLD holds an eligible domain off, or releases it (R556). -/
def execPowerHold (fn slot : Nat) (s : State) : Host.Outcome State Fault Refusal := powerPost fn slot (· == 5) s
/-- POWER LIMIT_HALF sets a half's lowest allowed divisor (R556). -/
def execPowerLimitHalf (fn slot : Nat) (s : State) : Host.Outcome State Fault Refusal := powerPost fn slot (· == 6) s
/-- POWER RESET_HALF starts a die-half reset (R507, R556). -/
def execPowerResetHalf (fn slot : Nat) (s : State) : Host.Outcome State Fault Refusal := powerPost fn slot (· == 7) s

/-- PWR_CAP_WRITE: the cap is stored, within its limits, for the next interval (R544, R557). -/
def execPwrCapWrite (value : Word32) (s : State) : Host.Outcome State Fault Refusal :=
  if !s.exposed then ok s else
  ok { s with power := { s.power with cap := s.fuse.clampCap (value.toNat % 65536) } }

/-- PWR_PAD_RELEASE_WRITE: bits 0 to 4 release held pad groups; ports of a group released train (R540, R557). -/
def execPwrPadReleaseWrite (value : Word32) (s : State) : Host.Outcome State Fault Refusal :=
  if !s.exposed then ok s else
  let kept := ~~~BitVec.ofNat 6 (value.toNat % 32)
  let s1 := { s with power := { s.power with pads := s.power.pads &&& kept, ownPads := s.power.ownPads &&& kept } }
  ok (((List.range 16).filter fun p => bitAt value.toNat (p / 4)).foldl (fun s p =>
    let x := s.port p
    if x.enable && !x.quiesce && s.fuse.portOn p && x.st == 0 && !s.portHeld p then s.setPort p { x with st := 1 } else s) s1)

/-! ## Energy of an interval (R449 to R453) -/

/-- Model energy of a pavilion's interval, in tenths of a pJ: the counters' advance and the cycles by class (R450). -/
def Acct.modelled (a : Acct) (coeffs : List Nat) (cycles : List Nat) : Nat :=
  let d := fun (now : Word64) (i : Nat) => (now - nthD a.last i 0).toNat
  let counts := [d a.coreTicks 0] ++ (List.range 4).map (fun i => nthD cycles i 0) ++ [d a.localBytes 1, d a.bedBytes 2, d a.linkBytes 3, d a.hostBytes 4]
  ((coeffs.zip counts).map fun x => x.1 * x.2).foldl (· + ·) 0

/-- Cycles of a pavilion in an interval. -/
def cyclesOf (cycles : List (Nat × List Nat)) (p : Nat) : List Nat := ((cycles.find? fun x => x.1 == p).map Prod.snd).getD []

/-- A pavilion's counters at the end of an interval: `micro` µJ are charged, at the model's value if `flat` (R445, R452, R453). -/
def Acct.charge (a : Acct) (cycles : List Nat) (micro : Nat) (flat : Bool) : Acct :=
  { a with cycles := a.cycles + BitVec.ofNat 64 ((List.range 4).foldl (fun n i => n + nthD cycles i 0) 0), energy := a.energy + micro
           unreconciled := if flat && a.unreconciled != 0xFFFFFFFF#32 then a.unreconciled + 1 else a.unreconciled
           last := [a.coreTicks, a.localBytes, a.bedBytes, a.linkBytes, a.hostBytes] }

/-- What an interval came to: whether every rail was heard, Σ and M in µJ, and whether the telemetry is valid (R451). -/
structure Interval where
  heard : Bool
  sigma : Nat
  measured : Nat
  valid : Bool
  deriving DecidableEq, Repr

/-- Tenths of a pJ in a µJ. -/
def perMicro : Nat := 10 ^ 7

/-- Power of a rail in an interval, in mW: the mean of its readings. -/
def meanOf (x : Nat × Nat) : Nat := x.1 / max 1 x.2

/-- Reconcile the energy of an interval (R451 to R453). `overhead` is the model's energy of everything that is no pavilion's. -/
def State.reconcile (s : State) (cycles : List (Nat × List Nat)) (overhead : Nat) : Interval × State :=
  let es := s.pavs.filterMap fun x =>
    let e := x.2.acct.modelled s.power.coeffs (cyclesOf cycles x.1); if x.2.bound || e != 0 then some (x.1, e) else none
  let total := es.foldl (fun n x => n + x.2) overhead
  let heard := (List.range numRails).all fun r => (Tab.find r s.power.heard).isSome
  let m := s.power.heard.foldl (fun n x => n + meanOf x.2) 0
  let valid := heard && decide (2 * m * perMicro ≥ total)
  let d := s.draw
  let s0 := if valid && total == 0 then d.2 else s
  let charge := fun (e : Nat) => if valid then (if total == 0 then 0 else e * m / total) else e / perMicro
  let s1 := es.foldl (fun s x => s.modPav x.1 fun v => { v with acct := v.acct.charge (cyclesOf cycles x.1) (charge x.2) (!valid) }) s0
  let spent := es.foldl (fun n x => n + charge x.2) 0
  let rest := if valid then m - spent else overhead / perMicro
  let k := if !valid then 1024 else if total == 0 then d.1.toNat else 1024 * m * perMicro / total
  (⟨heard, total / perMicro, m, valid⟩, { s1 with power := { s1.power with overhead := s1.power.overhead + rest, k := k } })

/-! ## The power estimate (R545, R546) -/

/-- M lies more than 20 % from Σ (R545). -/
def Interval.wide (i : Interval) : Bool := decide (5 * (if i.measured ≥ i.sigma then i.measured - i.sigma else i.sigma - i.measured) > i.sigma)

/-- The first rail that did not report, or 0xFF (R545). -/
def State.silentRail (s : State) : Nat := ((List.range numRails).find? fun r => (Tab.find r s.power.heard).isNone).getD 0xFF

/-- Telemetry faults, divergence, and the relearning that follows it (R545, R546, R548). -/
def State.judge (s : State) (i : Interval) : State :=
  let p := s.power
  let wide := if i.valid && i.wide then p.wideRun + 1 else 0
  let near := if i.valid && !i.wide then p.closeRun + 1 else 0
  let good := if i.valid then p.validRun + 1 else 0
  let fault := !i.valid || (p.telemFault && decide (good < 10))
  let div := if p.divergent then decide (near < 10) else decide (wide ≥ 10)
  let s1 := { s with power := { p with wideRun := wide, closeRun := near, validRun := good, telemFault := fault, divergent := div } }
  let s2 := if fault && !p.telemFault then s1.raisePf0 0x0051 0 (detailWords [s.silentRail]) else s1
  let s3 := if div && !p.divergent then
      { s2 with power := { s2.power with learning := some 500 } }.raisePf0 0x0050 0 (detailWords [i.sigma / 1000, i.measured / 1000]) else s2
  match s3.power.learning with
  | none => s3
  | some n =>
    if !i.valid || s3.cycleMode || (div && !p.divergent) then s3
    else if n > 1 then { s3 with power := { s3.power with learning := some (n - 1) } }
    else { s3 with draws := s3.draws + 1
                   power := { s3.power with learning := none, unsaved := true, coeffs := (List.range 9).map (Config.fitted s3.draws) } }

/-- The estimate P in mW (R545). -/
def State.estimate (s : State) (i : Interval) : Nat :=
  if !i.valid then i.sigma * 115 / 100 else if s.power.divergent then i.measured * 105 / 100 else max i.sigma i.measured

/-! ## Sharing the cap (R547 to R549) -/

/-- Kernel class of a core: that of its layer while it runs a kernel, else 0 (R547). -/
def State.classOf (s : State) (c : Nat) : Nat :=
  if !(s.core c).running then 0
  else match s.ownerOf c with
    | some p => ((s.pav p).runs.head?.map fun r => bits r.entry 43 36).getD 0
    | none => 0

/-- Kernel classes of the bound cores of a half. -/
def State.classesIn (s : State) (h : Nat) : List Nat :=
  (s.cores.filter fun x => x.2.owner.isSome && halfOfCluster (clusterOf x.1) == h).map fun x => s.classOf x.1

/-- What the procedure of R547 works from. -/
structure CapInput where
  learned : Nat
  /-- classes of the bound cores, by half -/
  classes : List (List Nat)
  /-- the largest of LIMIT_HALF, the thermal floor and the trim floor, by half -/
  floors : List Nat
  /-- dies whose halves move together -/
  tied : List Bool
  avail : Int

namespace CapInput

/-- need(h, div). -/
def need (c : CapInput) (h d : Nat) : Int :=
  ((nthD c.classes h []).foldl (fun n k => n + Config.busyPower c.learned k d) (Config.leakage c.learned h d) : Nat)

/-- The gain of a step up from `d` in half `h`. -/
def gain (c : CapInput) (h d : Nat) : Int := ((nthD c.classes h []).foldl (fun n k => n + Config.stepGain c.learned k d) 0 : Nat)

/-- Halves that move with `h`, which is the lower of them. -/
def together (c : CapInput) (h : Nat) : List Nat := if nthD c.tied (h / 2) false then [h, h + 1] else [h]

/-- A half can take a step up. -/
def canStep (c : CapInput) (divs : List Nat) (h : Nat) : Bool :=
  match divUp (nthD divs h 12) with | some d => decide (nthD c.floors h 6 ≤ d) | none => false

/-- The step of largest gain per cost: the half, its gain and its cost. -/
def best (c : CapInput) (divs : List Nat) : Option (Nat × Int × Int) :=
  (List.range 8).foldl (fun (b : Option (Nat × Int × Int)) h =>
    let hs := c.together h
    if (nthD c.tied (h / 2) false && h % 2 == 1) || !hs.all (c.canStep divs) then b
    else
      let g := hs.foldl (fun n x => n + c.gain x (nthD divs x 12)) 0
      let cost := hs.foldl (fun n x => n + (c.need x ((divUp (nthD divs x 12)).getD 6) - c.need x (nthD divs x 12))) 0
      match b with
      | none => some (h, g, cost)
      | some (_, bg, bc) => if g * bc > bg * cost then some (h, g, cost) else b) none

/-- The loop of R547: at most 16 steps up. -/
def loop (c : CapInput) : Nat → List Nat → Int → List Nat × Int
  | 0, divs, p => (divs, p)
  | n + 1, divs, p =>
    match c.best divs with
    | none => (divs, p)
    | some (h, _, cost) =>
      if p + cost > c.avail then (divs, p)
      else c.loop n ((c.together h).foldl (fun l x => setNth l x ((divUp (nthD l x 12)).getD 6)) divs) (p + cost)

/-- Divisors by half, and the issue budget (R547). -/
def result (c : CapInput) : List Nat × Nat :=
  let r := c.loop 16 (List.replicate 8 12) ((List.range 8).foldl (fun n h => n + c.need h 12) 0)
  (r.1, if r.2 ≤ c.avail then 64 else (max 16 (64 * c.avail / r.2)).toNat)

end CapInput

/-- Power of the fixed rails, in mW: as they reported, else as learned (R547). -/
def State.fixedPower (s : State) : Nat :=
  (List.range 6).foldl (fun n i => n + (match Tab.find (8 + i) s.power.heard with | some x => meanOf x | none => Config.railPower s.power.learned (8 + i))) 0

/-- The controller sets the half divisors and issue budgets (R547, R548). -/
def State.shareCap (s : State) : State :=
  let floorOf := fun (h : Nat) => let x := s.half h; max (max x.limit x.floor) (if s.power.trimPending then 12 else 6)
  let c : CapInput := { learned := s.power.learned, classes := (List.range 8).map s.classesIn, floors := (List.range 8).map floorOf
                        tied := (List.range 4).map s.tied, avail := (1000 * s.power.cap : Nat) - (s.fixedPower : Nat) }
  let r := c.result
  ((List.range 8).foldl (fun s h => s.modHalf h fun x => { x with want := nthD r.1 h 12, budget := r.2 }) s).settleAll

/-- Every half stands at divisor 12 with a budget of 16 (R549). -/
def State.lowest (s : State) : Bool := (List.range 8).all fun h => (s.half h).div == 12 && (s.half h).budget == 16

/-- A power-cap emergency begins or ends (R549). `p` is the estimate in mW. -/
def State.emergencyStep (s : State) (p : Nat) : State :=
  let excess := if p > 1000 * s.power.capInForce && s.lowest then s.power.overRun + 1 else 0
  let under := if 100 * p < 95 * 1000 * s.power.capInForce then s.power.underRun + 1 else 0
  let now := if s.power.emergency then decide (under < 10) else decide (excess ≥ 2)
  { s with power := { s.power with overRun := excess, underRun := under, emergency := now
                                   emergAt := if now != s.power.emergency then s.now else s.power.emergAt } }

/-- The end of an interval: energy is charged, P formed, and the cap shared anew. -/
def State.endInterval (s : State) (cycles : List (Nat × List Nat)) (overhead : Nat) : State :=
  let r := s.reconcile cycles overhead
  let i := r.1
  let s1 := r.2.judge i
  let p := s1.estimate i
  let s2 := s1.emergencyStep p
  let s3 := { s2 with power := { s2.power with model := i.sigma / 1000, measured := if i.heard then i.measured / 1000 else 0, control := p / 1000, telemCap := s2.power.capInForce
                                               capInForce := s2.power.cap } }
  let s4 := if s3.cycleMode then s3 else { s3 with draws := s3.draws + 1, power := { s3.power with learned := s3.draws } }
  let s5 := s4.shareCap
  (List.range 8).foldl State.warnDroop { s5 with power := { s5.power with heard := [] } }

/-- ENERGY_INTERVAL: a 1 ms interval ends, at a TIME multiple of 100,000 ticks (R451, R547). -/
def execEnergyInterval (cycles : List (Nat × List Nat)) (overhead : Nat) (s : State) : Host.Outcome State Fault Refusal :=
  if cycles.any fun x => decide (x.1 ≥ numPavs) then noUnit
  else if s.boot.stage != .running || s.now.toNat % 100000 != 0 then ok s else ok (s.endInterval cycles overhead)

end Sys2Proof.Machine
end

