-- ==== Sys2Proof/Machine/Firmware.lean ====
section
/-! DEFINITION. Firmware update and recovery (R591 to R602): staging, activation, boot, recovery, and RESTORE_FACTORY. The commands
whose end lets mailbox service resume are in Service.lean. -/

namespace Sys2Proof.Machine

/-! ## Staging (R592) -/

def fwStageForm : CmdForm :=
  { pf0 := true, used := List.replicate 3 (2 ^ 32 - 1), range := fun m => decide (imageMin ≤ m.w 3) && decide (m.w 3 ≤ imageMax) }

def startFwStage (k : Nat) (s : State) : State := s.start k fwStageForm fun _ s => s.queueFw k

/-- FW_STAGE: an image is read, verified and written to the slot that is not ACTIVE (R592, R593). -/
def execFwStage (fn slot : Nat) (s : State) : Host.Outcome State Fault Refusal := post fn slot (opc 0x60) startFwStage s

/-- Host data for an FW_STAGE: a verified image begins to be written; another leaves the slot INVALID (R589, R592). -/
def State.stageData (s : State) (t : Transfer) (data : List HostData) : State :=
  match hostBytes data t.iova t.len with
  | none => s
  | some bs =>
    let s1 := { s with transfers := s.transfers.filter fun y => y.post != t.post }
    match s.fw.verify bs with
    | none => ((s1.modFw fun f => f.setSlot (!f.active) { st := 1 }).complete t.post 0x01 []).fwDone t.post
    | some x => s1.modFw fun f => f.setSlot (!f.active) x

/-- FW_SLOT_WRITTEN: the write of a staged image ends; the slot is VALID and the command completes (R592). -/
def execFwSlotWritten (s : State) : Host.Outcome State Fault Refusal :=
  match s.fw.staging with
  | none => ok s
  | some k =>
    if s.fw.spare.st != 3 then ok s
    else ok (((s.modFw fun f => f.setSlot (!f.active) { f.spare with st := 2 }).complete k 0 [b2n (!s.fw.active)]).fwDone k)

/-! ## Activation (R594 to R598) -/

def fwActivateForm : CmdForm := { pf0 := true, used := [1] }

def startFwActivate (k : Nat) (s : State) : State := s.start k fwActivateForm fun _ s => s.queueFw k

/-- FW_ACTIVATE: the staged slot is verified again and activation starts (R593, R594). -/
def execFwActivate (fn slot : Nat) (s : State) : Host.Outcome State Fault Refusal := post fn slot (opc 0x61) startFwActivate s

/-- FW_ACTIVATE_PAUSE: the slot has been verified again, and no apply runs: service pauses, or the hand-over begins (R594 to R596). -/
def execFwActivatePause (verified : Bool) (s : State) : Host.Outcome State Fault Refusal :=
  match s.fw.activation with
  | none => ok s
  | some a =>
    if a.phase != 1 then ok s
    else if !verified || s.fw.spare.svn.toNat < s.fw.svnFloor.toNat then
      let s1 := (s.modFw fun f => { f.setSlot (!f.active) { st := 1 } with activation := none }).complete a.post 0x01 []
      ok (State.fwNext s1.fw.waiting.length s1)
    else if s.applyRuns then ok s
    else
      let hand := a.handover && !s.cp.spareUsed
      let s1 := s.modFw fun f => { f with activation := some { a with phase := if hand then 3 else 2, handover := hand } }
      ok (if hand then s1 else s1.voidStarts)

/-- Members of spans here tell rank 0 which firmware versions they have come to run (R366). -/
def State.tellVersions (s : State) : State :=
  (s.pavs.filter fun x => x.2.bound && x.2.isSpan && x.2.span.st == 2 && x.2.spanRank != 0).foldl (fun s x =>
    s.syncRank0 x.1 (.firmware x.2.spanId x.2.spanRank s.fw.version s.fw.cmdset x.2.winding)) s

/-- What the completion of an activation changes (R366, R574, R597). -/
def State.activated (s : State) (a : Activation) : State :=
  let x := s.fw.spare
  let s1 := State.tellVersions <| s.modFw fun f => { f with active := !f.active, version := x.version, cmdset := x.cmdset, activation := none, last := if a.handover then 2 else 1 }
  let s2 := (s1.complete a.post 0 [x.version.toNat]).raisePf0 0x0070 0 (detailWords [x.version.toNat, b2n a.handover])
  State.fwNext s2.fw.waiting.length (s2.endReplay 5)

/-- FW_ACTIVATE_TIMEOUT: the new image is not ready in time, and the package resets to the old slot (R598). -/
def execFwActivateTimeout (s : State) : Host.Outcome State Fault Refusal :=
  match s.fw.activation with
  | none => ok s
  | some a => if a.phase == 1 then ok s else ok ((s.modFw fun f => { f with last := 3 }).warmReset 5)

/-! ## RESTORE_FACTORY and RECOVERY (R554, R599, R602) -/

/-- Factory coefficients (R450). -/
def factoryCoeffs : List Nat := [30000, 3100, 2900, 2600, 1200, 5, 350, 400, 300]

/-- Factory values are in force (R554, R602). -/
def State.factory (s : State) : State :=
  let s1 := (List.range 8).foldl (fun s h => s.modHalf h fun x => { x with trim := 0, measured := false }) s
  { s1 with power := { s1.power with coeffs := factoryCoeffs, flash := factoryCoeffs, unsaved := false, trimPending := true }
            fw := { s1.fw with calibrated := false } }.settleAll

def startRestoreFactory (k : Nat) (s : State) : State :=
  s.start k { pf0 := true } fun _ s => if s.fw.policy.getLsbD 0 then s.complete k 0x02 [] else s.factory.complete k 0 []

/-- RESTORE_FACTORY (R593, R602). -/
def execRestoreFactory (fn slot : Nat) (s : State) : Host.Outcome State Fault Refusal := post fn slot (opc 0x62) startRestoreFactory s

def startRecovery (k : Nat) (s : State) : State :=
  s.start k { pf0 := true, used := [1] } fun _ s =>
    if s.fw.policy.getLsbD 0 then s.complete k 0x02 [] else (s.modFw fun f => { f with armed := bitAt ((s.mb k).w 1) 0 }).complete k 0 []

/-- RECOVERY with ARM arms recovery for the next warm reset (R599). -/
def execRecoveryArm (fn slot : Nat) (s : State) : Host.Outcome State Fault Refusal :=
  post fn slot (fun w => opc 0x63 w && bitAt (w 1) 0) startRecovery s

/-- RECOVERY without ARM disarms it (R599). -/
def execRecoveryDisarm (fn slot : Nat) (s : State) : Host.Outcome State Fault Refusal :=
  post fn slot (fun w => opc 0x63 w && !bitAt (w 1) 0) startRecovery s

/-- The recovery ROM verifies its buffer: it begins to write both slots, or fails (R601). -/
def State.recover (s : State) : State :=
  let f := s.fw
  let len := f.rcvLen.toNat
  if s.boot.stage != .recovery || (f.rcvState != 1 && f.rcvState != 5) then s
  else if len < imageMin || len > imageMax then s.modFw fun f => { f with rcvState := 5, rcvError := 1 }
  else
    match f.verify (Mem.readN f.rcvBuf 0 len) with
    | none => s.modFw fun f => { f with rcvState := 5, rcvError := 2 }
    | some x => s.modFw fun f => { f with rcvState := 3, rcvError := 0, slotA := x, slotB := x }

/-- FW_RCV_GO: a write of GO (R600, R601). -/
def execFwRcvGo (s : State) : Host.Outcome State Fault Refusal := ok s.recover

/-- RECOVERY_IMAGE_WRITTEN: both slots hold the image, slot A is ACTIVE and the package resets; or the write failed (R601). -/
def execRecoveryImageWritten (written : Bool) (s : State) : Host.Outcome State Fault Refusal :=
  if s.boot.stage != .recovery || s.fw.rcvState != 3 then ok s
  else if !written then ok (s.modFw fun f => { f with rcvState := 5, rcvError := 3, slotA := { st := 1 }, slotB := { st := 1 } })
  else ok ((s.modFw fun f => { f with rcvState := 4, slotA := { f.slotA with st := 2 }, slotB := { f.slotB with st := 2 }, active := false }).warmReset 8)

/-! ## Boot (R590, R591) -/

/-- The slot that the boot ROM tries. -/
def State.bootSlot (s : State) : Bool := if s.boot.triedActive then !s.fw.active else s.fw.active

/-- The slot being tried fails: the other is tried, or recovery is entered (R591, R599). -/
def State.bootFails (s : State) : State :=
  if !s.boot.triedActive then { s with boot := { s.boot with triedActive := true } }
  else { s with boot := { s.boot with stage := .recovery, triedActive := false }, fw := { s.fw with rcvState := 1, rcvError := 0 } }

/-- The slot being tried reports ready: Gaold runs; a cold reset loads its gatehouse part and raises the SVN floor (R472, R590,
R591). -/
def State.boots (s : State) : State :=
  let b := s.bootSlot
  let x := s.fw.slot b
  let other := s.boot.triedActive
  let s1 := s.modFw fun f =>
    { (if other then f.setSlot f.active { st := 1 } else f) with active := b, fallback := other, version := x.version, cmdset := x.cmdset
                                                                 svnFloor := if s.boot.cold && f.svnFloor.toNat < x.floor.toNat then x.floor else f.svnFloor }
  let s2 := { s1 with boot := { s1.boot with stage := .running, triedActive := false, cold := false }
                      gate := if s.boot.cold then { s1.gate with svn := x.svn, ready := true, identityOk := true } else s1.gate }
  if other then s2.raisePf0 0x0071 0 (detailWords [b2n b]) else s2

/-- A slot is tried: `good` says that it is verified and reports ready. -/
def State.tryBoot (s : State) (good : Bool) : State :=
  if s.boot.stage != .rom || s.boot.testEn then s
  else
    let x := s.fw.slot s.bootSlot
    if good && x.st == 2 && x.svn.toNat ≥ s.fw.svnFloor.toNat then s.boots else s.bootFails

/-- BOOT_READY_TIMEOUT: a slot not ready within 2 s fails (R591). -/
def execBootReadyTimeout (s : State) : Host.Outcome State Fault Refusal := ok (s.tryBoot false)

end Sys2Proof.Machine
end

