-- ==== Sys2Proof/Machine/Mmu.lean ====
section
/-! DEFINITION. INVALIDATE and its progress (R212 to R215, R629), and FAULT_RESOLVE (R208, R209). -/

namespace Sys2Proof.Machine

/-! ## INVALIDATE -/

/-- The target kind of an INVALIDATE request: 0 range, 1 whole space, 2 windows. -/
def invalKind (m : MbSlot) : Nat := bits (m.w 1) 17 16

/-- The ranges of R212; a word that the kind does not use is zero. -/
def invalRange (m : MbSlot) : Bool :=
  let a := m.w2 2
  let n := m.w2 4
  match invalKind m with
  | 0 => a % 65536 == 0 && n % 65536 == 0 && n != 0 && decide (a + n ≤ 2 ^ 55)
  | 1 => a == 0 && n == 0
  | 2 => decide (1 ≤ n) && decide (n ≤ 4096) && decide (a + n ≤ 4096)
  | _ => false

def invalidateForm : CmdForm :=
  { named := true, used := [0x301FF, 2 ^ 32 - 1, 2 ^ 32 - 1, 2 ^ 32 - 1, 2 ^ 32 - 1], denied := fun pf0 m => !pf0 && invalKind m == 2
    range := invalRange }

def startInvalidate (k : Nat) (s : State) : State :=
  s.start k invalidateForm fun p s =>
    let m := s.mb k
    { s with invals := s.invals ++ [{ post := k, pav := p, kind := invalKind m, first := m.w2 2, len := m.w2 4 }] }

/-- INVALIDATE: withdraws translations; every unit that serves the pavilion is sent the target (R212, R213). -/
def execInvalidate (fn slot : Nat) (s : State) : Host.Outcome State Fault Refusal := post fn slot (opc 0x18) startInvalidate s

/-- The byte range [lo, hi) of DVA lies in part in the target. -/
def Inval.hits (v : Inval) (lo hi : Nat) : Bool :=
  match v.kind with
  | 0 => decide (lo < v.first + v.len) && decide (v.first < hi)
  | 1 => true
  | _ => false

/-- The INVALIDATE in progress that a slot posted. -/
def State.inval (s : State) (fn slot : Nat) : Option Inval := s.invals.find? fun v => v.post % 2048 == fn * 4 + slot

/-- A unit drops its cached entries in the target; a cluster's cores drop their lines in it (R213, R629). -/
def State.dropTarget (s : State) (un : Nat) (v : Inval) : State :=
  let keep := fun (c : TEntry) => !(c.pav == v.pav && v.hits (c.idx <<< (16 + 13 * c.level)) ((c.idx + 1) <<< (16 + 13 * c.level)))
  let s := { s with tcache := Tab.put un ((Tab.getD s.tcache un []).filter keep) s.tcache }
  if un ≥ 64 then s
  else
    (s.coresOf v.pav).foldl (fun s x =>
      if clusterOf x.2 == un then s.modCore x.2 fun c => { c with icache := c.icache.filter fun l => !v.hits (l * 64) (l * 64 + 64) } else s) s

/-- INVALIDATE_RECEIVE: a unit receives the target of a slot's INVALIDATE (R213 step 4). -/
def execInvalidateReceive (unit fn slot : Nat) (s : State) : Host.Outcome State Fault Refusal :=
  if unit > 76 || fn ≥ numFns || slot ≥ 4 then noUnit
  else
    match s.inval fn slot with
    | none => ok s
    | some v =>
      let s1 := { s with invals := s.invals.map fun (x : Inval) => if x.post == v.post then { x with units := addNew unit x.units } else x }
      ok (s1.dropTarget unit v)

/-- A place that a waiting tile has translated comes from a window of this package in the target: named by it, or of its pavilion with
the DVA behind the offset in it (R212, R213). -/
def State.windowIn (s : State) (v : Inval) (l : PageLoc) : Bool :=
  match l with
  | .window q _ addr =>
    let w := bits addr 51 40
    if v.kind == 2 then decide (v.first ≤ w) && decide (w < v.first + v.len)
    else q == v.pav && (let a := Win.base (s.window w).1 + bits addr 39 16 * 65536; v.hits a (a + 65536))
  | _ => false

/-- A tile of any pavilion still uses a translation in the target: through its own pavilion's tables, or through a window of this
package (R212, R213 step 5). Tiles that wait on fault records hold none. -/
def State.usesTarget (s : State) (v : Inval) : Bool :=
  s.strands.any fun x => x.2.flights.any fun y =>
    let own := s.ownerOf (x.1 / 2048) == some v.pav
    y.prog != .moved && (y.map.map fun m => m.any fun e =>
      s.windowIn v e.2 || (own && decide (e.1 < 2 ^ 60) && v.hits (e.1 * 65536) (e.1 * 65536 + 65536))).getD false

/-- A held host-bound write of the pavilion has its translation in the target (R213 step 6). -/
def State.heldTarget (s : State) (v : Inval) : Bool := (s.pav v.pav).held.any fun h => v.hits h.dva.toNat (h.dva.toNat + 1)

/-- Discard every shadow buffer of a pavilion's cores (R98). -/
def State.dropAllShadows (s : State) (p : Nat) : State :=
  (s.coresOf p).foldl (fun s x => s.modCore x.2 fun c => { c with shadows := [] }) s

/-- INVALIDATE_DRAIN_COMPLETE: every unit has received the target and its uses have drained; the shadow buffers go and
the slot completes with TIME (R98, R213 steps 5 to 7). -/
def execInvalidateDrainComplete (fn slot : Nat) (s : State) : Host.Outcome State Fault Refusal :=
  if fn ≥ numFns || slot ≥ 4 then noUnit
  else
    match s.inval fn slot with
    | none => ok s
    | some v =>
      if !((s.unitsOf v.pav).all fun u => v.units.contains u) || s.usesTarget v || s.heldTarget v then ok s
      else
        let s1 := s.dropAllShadows v.pav
        let s2 := { s1 with invals := s1.invals.filter fun x => x.post != v.post
                            windows := if v.kind == 2 then Tab.keep (fun w => !(decide (v.first ≤ w) && decide (w < v.first + v.len))) s1.windows
                              else s1.windows }
        ok (s2.complete v.post 0 (lohi s.now.toNat))

/-! ## FAULT_RESOLVE -/

def resolveForm : CmdForm := { named := true, used := [0x1FF, 0x11F] }

/-- Retranslate one waiting tile (R208): the state after, and whether it faulted again. -/
def State.retranslate (s : State) (p : Nat) (w : Waiter) : State × Bool :=
  let s := s.dropWalk w.tunit.num p w.page.toNat
  match w.tunit, w.num with
  | .cluster _, some n =>
    match (s.strand w.core w.strand).flight n with
    | none => (s, false)
    | some x =>
      let dvas := (x.pages (s.pav p) (s.tileRows p w.core x)).filter fun y => decide (y.1 < 2 ^ 60)
      let s := dvas.foldl (fun s y => s.dropWalk w.tunit.num p (y.1 * 65536)) s
      let s1 := s.modFlight w.core w.strand n fun y => { y with prog := .retry }
      let s2 := s1.driveTiles p w.core w.strand n {}
      let again := match (s2.strand w.core w.strand).flight n with
        | some y => y.tile == x.tile && (match y.prog with | .faulted _ => true | _ => false)
        | none => false
      (s2, again)
  | .cluster _, none =>
    match (s.strand w.core w.strand).wait with
    | .fetch len =>
      (match s.missingLine w.core w.strand len with
        | none => (s.makeReady w.core w.strand, false)
        | some l => let s1 := s.fetch p w.core w.strand len l; (s1, (s1.strand w.core w.strand).wait == .fetch len))
    | _ => (s, false)
  | u, _ =>
    let r := s.walkPages u.num p [(w.page.toNat / 65536, { rd := w.access.getLsbD 0, wr := w.access.getLsbD 1 })]
    match r.1 with
    | .all _ =>
      (match w.data.bind fun d => (r.2.dvaLocal p d.1).map fun a => (a, d.2) with
        | none => (r.2, false)
        | some (a, bs) =>
          let v := r.2.pav p
          match r.2.beds.mergeBad (csKey v v.channels) a bs.length with
          | some k => (r.2.killOwner p k, false)
          | none => (r.2.writeCs p a bs, false))
    | .fault _ c l _ => (r.2.recordFault p { w with cause := c, level := l }, true)
    | .hurt key => ((r.2.bedUncorrectable key).startReset p 0x03 (channelLoc (key / 2 ^ 33)) [], false)

/-- RETRY of an OPEN record (R208): its waiting tiles in the order in which they faulted, and the counts of those that
proceeded and of those that faulted again. -/
def State.retryRecord (s : State) (p id : Nat) (r : FaultRec) : State × Nat × Nat :=
  let ws := (s.pav p).waiters.filter fun w => w.page == r.page
  let r0 := { r with st := 2, tiles := 0, access := 0, waitCl := 0, waitHm := 0, waitSt := 0, waitMir := false }
  let s1 := s.modPav p fun v => { v with faults := Tab.put id r0 v.faults, waiters := v.waiters.filter fun w => w.page != r.page }
  let q := ws.foldl (fun (a : State × Nat × Nat) w =>
    let x := a.1.retranslate p w
    (x.1, if x.2 then (a.2.1, a.2.2 + 1) else (a.2.1 + 1, a.2.2))) (s1, 0, 0)
  let left := fun (t : Tab FaultRec) => match Tab.find id t with
    | some x => if x.st == 2 then Tab.drop id t else t
    | none => t
  let s2 := q.1.modPav p fun v => { v with faults := left v.faults }
  (s2.admitWaiters p, q.2)

def startResolveRetry (k : Nat) (s : State) : State :=
  s.start k resolveForm fun p s =>
    let id := (s.mb k).w 2 % 32
    match Tab.find id (s.pav p).faults with
    | none => s.complete k 0 [0]
    | some r =>
      if r.st != 1 then s.complete k 0 [0]
      else
        let q := s.retryRecord p id r
        q.1.complete k 0 [q.2.1 % 65536 + (q.2.2 % 65536) <<< 16]

/-- FAULT_RESOLVE with RETRY: every tile that waits on the record is translated whole again (R208). -/
def execFaultResolveRetry (fn slot : Nat) (s : State) : Host.Outcome State Fault Refusal :=
  post fn slot (fun w => opc 0x19 w && !bitAt (w 2) 8) startResolveRetry s

def startResolveKill (k : Nat) (s : State) : State :=
  s.start k resolveForm fun p s =>
    match Tab.find ((s.mb k).w 2 % 32) (s.pav p).faults with
    | none => s.complete k 0 [0]
    | some _ =>
      let s1 := s.modPav p fun v => { v with faults := [], waiters := [] }
      (s1.startReset p 0x04 0 []).complete k 0 [0]

/-- FAULT_RESOLVE with KILL: the pavilion is killed and all its records become FREE (R208, R502). -/
def execFaultResolveKill (fn slot : Nat) (s : State) : Host.Outcome State Fault Refusal :=
  post fn slot (fun w => opc 0x19 w && bitAt (w 2) 8) startResolveKill s

end Sys2Proof.Machine
end

