-- ==== Sys2Proof/Machine/Pins.lean ====
section
/-! DEFINITION. Pins, power-up and power loss, the reference clock, Doze, the PCIe link and the SMBus (R401, R537 to R540, R553,
R600, R611 to R618, R624). -/

namespace Sys2Proof.Machine

/-- The package's SMBus address (R617). -/
def Boot.address (b : Boot) : Nat := 0x58 + b.straps.toNat

/-! ## Alert pins (R522, R540, R618) -/

/-- PKG_FAULT_N is asserted: FATAL is set; while pad group 4 is held, it keeps its level at entry. -/
def State.fault (s : State) : Bool := if s.power.pads.getLsbD 4 then s.power.heldFault else s.cause.fatal

/-- SMB_ALERT_N is asserted: PKG_FAULT_N or a half THROTTLED asserts it until a read releases it; while pad group 4 is held, it keeps its
level at entry. -/
def State.alerts (s : State) : Bool :=
  if s.power.pads.getLsbD 4 then s.power.heldAlert
  else s.boot.alert && (s.fault || (List.range 8).any fun h => decide ((s.half h).floor > 6))

/-! ## Doze (R537 to R539) -/

/-- A half as its supply leaves it in Doze: VCORE at 0.60 V, the dividers to be released at divisor 12 (R524, R537). -/
def Half.asleep (x : Half) : Half :=
  { x with div := 12, want := 12, vset := 6000, escape := 64, activity := 0, budget := 64, droopClamp := false, thermalClamp := false, resetting := none }

/-- PME_TURN_OFF: the host's message lets a package that waits for L2 entry go to Doze: its pads are held, its dies off (R537, R540). -/
def execPmeTurnOff (s : State) : Host.Outcome State Fault Refusal :=
  if s.boot.stage != .running || !s.power.dozing then ok s
  else
    let halves := (List.range 8).map fun h => (h, (s.half h).asleep)
    ok { s with boot := { s.boot with stage := .doze, link := false, cold := false }
                power := { s.power with pads := 0x3F, ownPads := 0, heldAlert := s.alerts, heldFault := s.fault, halves := halves, avs := [] } }

/-- A wake: a warm reset with cause PERST_N, or a cold reset where REFCLK stopped; pad group 5 is released, held domains stay off,
and the package is UNSYNC (R538 to R540). -/
def State.wakeUp (s : State) : State :=
  let s1 := if s.boot.cold then s.coldReset 2 false else s.warmReset 2
  { s1 with power := { s1.power with pads := s1.power.pads &&& 0x1F, off := s1.power.off.filter s1.domainHeld }
            links := { s1.links with tsync := { s1.links.tsync with sync := false, good := 0 } } }.settleAll

/-- SMBUS_WAKE_MATCH: in Doze, a transaction with the package's address asserts PEWAKE_N and wakes the package (R539). -/
def execSmbusWakeMatch (address : Nat) (s : State) : Host.Outcome State Fault Refusal :=
  if s.boot.stage != .doze || s.boot.testEn || address != s.boot.address then ok s
  else let s1 := s.wakeUp; ok { s1 with boot := { s1.boot with wake := true } }

/-! ## The reference clock (R538, R616) -/

/-- REFCLK_STOP: a stop of more than 1 µs asserts PKG_FAULT_N while the dies are powered, and makes the next wake a cold reset in
Doze (R538, R616). -/
def execRefclkStop (s : State) : Host.Outcome State Fault Refusal :=
  if s.boot.powered then
    ok { s with boot := { s.boot with refclk := false, stage := .stopped, alert := true }, cause := { s.cause with fatal := true } }
  else if s.boot.stage == .doze then ok { s with boot := { s.boot with refclk := false, cold := true } }
  else ok { s with boot := { s.boot with refclk := false } }

/-- REFCLK_RETURN: a package that a stop held takes a cold reset (R616). -/
def execRefclkReturn (s : State) : Host.Outcome State Fault Refusal :=
  if s.boot.refclk then ok s
  else
    let s1 := { s with boot := { s.boot with refclk := true } }
    ok (if s.boot.stage == .stopped then s1.coldReset 1 true else s1)

/-- REFCLK_VALID: 64 cycles after VAON, TIME starts at zero and the address straps are sampled (R251, R611). -/
def execRefclkValid (straps : Nat) (s : State) : Host.Outcome State Fault Refusal :=
  if straps > 7 then noUnit
  else if s.boot.stage != .off then ok s
  else ok { s with time := {}, boot := { s.boot with refclk := true, straps := BitVec.ofNat 3 straps } }

/-! ## Power (R611, R612, R615) -/

/-- PWRGD_IN_ASSERT: the dies start as at a cold reset, and every rail is read; `silent` lists the rails that do not answer. A
thermal trip holds the dies off (R611, R615). -/
def execPwrgdInAssert (silent : List Nat) (s : State) : Host.Outcome State Fault Refusal :=
  if silent.any fun r => decide (r ≥ numRails) then noUnit
  else
    let s0 := { s with boot := { s.boot with pwrgd := true } }
    if s.boot.stage != .off || !s.boot.refclk then ok s0
    else ok (silent.foldl State.loseRail { s0.coldReset 1 false with time := s.time })

/-- What a power loss leaves: everything of a cold reset, with the dies and the always-on island off (R372, R612). -/
def State.loseSupply (s : State) : State :=
  let s1 := s.loseCommits
  let s2 := { s with pavs := [] }.coldReset 1 false
  { s2 with links := { s2.links with syncOut := s1.links.syncOut }
            boot := { s2.boot with stage := if s.boot.stage == .tripped then .tripped else .off, pwrgd := false, wake := false } }

/-- POWER_LOSS: PWRGD_IN low for 500 ns; THERMTRIP_N stays asserted if it was (R612). -/
def execPowerLoss (s : State) : Host.Outcome State Fault Refusal :=
  if s.boot.stage == .off then ok { s with boot := { s.boot with pwrgd := false } } else ok s.loseSupply

/-- THERMTRIP: at 115 °C every domain but the always-on island, which counts on, is gated (R553). -/
def execThermtrip (half celsius : Nat) (s : State) : Host.Outcome State Fault Refusal :=
  if half ≥ 8 then noUnit
  else if celsius < 115 || s.boot.stage == .tripped then ok s
  else
    let s1 := s.coldReset 6 true
    ok ({ s1 with boot := { s1.boot with stage := .tripped, alert := s.boot.alert }, time := s.time, cause := s.cause }.modHalf half fun x => { x with tj := celsius })

/-- THERMTRIP_CLEAR: every sensor reads below 95 °C: THERMTRIP_N is released, and the package takes a cold reset (R553, R615). -/
def execThermtripClear (s : State) : Host.Outcome State Fault Refusal :=
  if s.boot.stage != .tripped then ok s
  else if !s.boot.pwrgd then ok { s with boot := { s.boot with stage := .off } }
  else ok (s.coldReset 6 true)

/-! ## PERST_N and the PCIe link (R401, R539, R611, R615, R624) -/

/-- PERST_N_ASSERT: a warm reset; none where the dies are off; in Doze the release wakes the package (R401, R539, R615). -/
def execPerstNAssert (s : State) : Host.Outcome State Fault Refusal :=
  let s1 := { s with boot := { s.boot with perst := true } }
  if !s.boot.powered then ok s1
  else let s2 := s1.warmReset 2; ok { s2 with boot := { s2.boot with link := false } }

/-- PERST_N_RELEASE: link training can begin, PEWAKE_N is released, and Doze ends (R539, R611). -/
def execPerstNRelease (s : State) : Host.Outcome State Fault Refusal :=
  if !s.boot.perst then ok s
  else
    let s1 := { s with boot := { s.boot with perst := false, wake := false } }
    ok (if s.boot.stage == .doze then s1.wakeUp else s1)

/-- PCIE_LINK_UP: training completes (R611). -/
def execPcieLinkUp (s : State) : Host.Outcome State Fault Refusal :=
  if s.boot.perst || !s.boot.powered then ok s else ok { s with boot := { s.boot with link := true } }

/-- PCIE_LINK_DOWN: every host channel halts with LINK_DOWN; pavilions run on (R429, R624). -/
def execPcieLinkDown (s : State) : Host.Outcome State Fault Refusal :=
  if !s.boot.link then ok s
  else
    let ps := (s.pavs.filter fun x => x.2.bound).map Prod.fst
    ok (ps.foldl (fun (s : State) p => s.haltChannel p 5 0) { s with boot := { s.boot with link := false } }).stageError

/-! ## SMBus (R600, R617, R618) -/

/-- The package serves command codes: not in Doze, nor before PWRGD_IN (R618). A thermal trip leaves the island's own codes. -/
def Boot.served (b : Boot) : Bool := b.powered || (!b.testEn && (b.stage == .tripped || b.stage == .stopped))

/-- SMBUS_WARM_RESET: code 0xE0 with 0x01 and a good PEC (R618). -/
def execSmbusWarmReset (pec : Bool) (s : State) : Host.Outcome State Fault Refusal :=
  if !pec || !s.boot.powered then ok s else ok (s.warmReset 4)

/-- SMBUS_COLD_RESET: code 0xE0 with 0x02 and a good PEC (R615, R618). -/
def execSmbusColdReset (pec : Bool) (s : State) : Host.Outcome State Fault Refusal :=
  if !pec || !s.boot.powered then ok s else ok (s.coldReset 4 false)

/-- The 8 bytes of code 0xE1 (R522, R618). -/
def State.statusBytes (s : State) : Nat :=
  let hot := (List.range 8).foldl (fun n h => max n (s.half h).tj) 0
  let throttled := (List.range 8).any fun h => decide ((s.half h).floor > 6)
  s.cause.cause.toNat + b2n s.cause.fatal * 2 ^ 8 + s.cause.warmCount.toNat * 2 ^ 16 + hot % 256 * 2 ^ 32
    + (b2n (s.boot.stage == .tripped) + 2 * b2n throttled + 4 * s.pwrState) * 2 ^ 40

/-- SMBUS_STATUS_READ: code 0xE1 returns the reset cause, temperature and state, and releases SMB_ALERT_N (R618). -/
def execSmbusStatusRead (s : State) : Host.Outcome State Fault Refusal :=
  if !s.boot.served then ok s else ok ({ s with boot := { s.boot with alert := false } }.answered s.statusBytes)

/-- SMBUS_ALERT_RESPONSE: a package that asserts SMB_ALERT_N answers a read of 0x0C with its own address and releases it (R618). -/
def execSmbusAlertResponse (s : State) : Host.Outcome State Fault Refusal :=
  if !s.boot.served || !s.alerts then ok s else ok ({ s with boot := { s.boot with alert := false } }.answered s.boot.address)

/-- SMBUS_MCTP: an SPDM request over MCTP; the gatehouse answers it as its transport 512 (R475, R618). -/
def execSmbusMctp (pec : Bool) (request : SpdmRequest) (s : State) : Host.Outcome State Fault Refusal :=
  if !pec || !s.boot.powered then ok s
  else
    match request with
    | .getVersion => execGetVersion 512 s
    | .getCapabilities n => execGetCapabilities 512 n s
    | .negotiateAlgorithms a => execNegotiateAlgorithms 512 a s
    | .getDigests n => execGetDigests 512 n s
    | .getCertificate n i o l => execGetCertificate 512 n i o l s
    | .challenge n i b => execChallenge 512 n i b s
    | .getMeasurements n i g b => execGetMeasurements 512 n i g b s
    | .keyExchange i k => execKeyExchange 512 i k s
    | .finish n => execFinish 512 n s
    | .heartbeat n => execHeartbeat 512 n s
    | .keyUpdate n => execKeyUpdate 512 n s
    | .endSession n => execEndSession 512 n s
    | .chunkSend b l => execChunkSend 512 b l s
    | .chunkGet n => execChunkGet 512 n s
    | .getKemCert a => execGetKemCert 512 a s
    | .installHostKey n m => execInstallHostKey 512 n m s
    | .removeHostKey n m => execRemoveHostKey 512 n m s
    | .releaseModel n m => execReleaseModel 512 n m s
    | .revokeModel n m => execRevokeModel 512 n m s
    | .installImageKey n m => execInstallImageKey 512 n m s
    | .removeImageKey n m => execRemoveImageKey 512 n m s
    | .other => execSpdmUnsupportedRequest 512 s

/-- A recovery command over SMBus with a good PEC. -/
def recoveryOp (pec : Bool) (s : State) (f : State → State) : Host.Outcome State Fault Refusal :=
  if !pec || s.boot.stage != .recovery || s.boot.testEn then ok s else ok (f s)

/-- SMBUS_RCV_OFFSET: code 0xF0 sets the buffer offset (R600). -/
def execSmbusRcvOffset (pec : Bool) (offset : Word32) (s : State) : Host.Outcome State Fault Refusal :=
  recoveryOp pec s fun s => s.modFw fun f => { f with rcvOffset := offset }

/-- SMBUS_RCV_WRITE: code 0xF1 writes 32 bytes at the offset and advances it; bytes beyond the buffer are dropped (R600). -/
def execSmbusRcvWrite (pec : Bool) (bytes : List Byte) (s : State) : Host.Outcome State Fault Refusal :=
  if bytes.length != 32 then ok s
  else recoveryOp pec s fun s =>
    s.modFw fun f => { f with rcvBuf := Mem.writeN f.rcvBuf f.rcvOffset.toNat (bytes.take (imageMax - f.rcvOffset.toNat)), rcvOffset := f.rcvOffset + 32 }

/-- SMBUS_RCV_START: code 0xF2 sets the length and starts, as GO (R600, R601). -/
def execSmbusRcvStart (pec : Bool) (length : Word32) (s : State) : Host.Outcome State Fault Refusal :=
  recoveryOp pec s fun s => (s.modFw fun f => { f with rcvLen := BitVec.ofNat 25 (min length.toNat (2 ^ 25 - 1)) }).recover

/-- FW_RCV_STATUS (R603). -/
def Fw.rcvWord (f : Fw) : Nat := f.rcvState.toNat + 16 * f.rcvError.toNat

/-- SMBUS_RCV_STATUS: code 0xF3 returns FW_RCV_STATUS (R600). -/
def execSmbusRcvStatus (pec : Bool) (s : State) : Host.Outcome State Fault Refusal :=
  if !pec || !s.boot.powered then ok s else ok (s.answered s.fw.rcvWord)

end Sys2Proof.Machine
end

