-- ==== Sys2Proof/Machine/Service.lean ====
section
/-! DEFINITION. Mailbox service as a whole: the start of any posted command, the posts that waited for service (R413, R514, R597,
R611), recorded commands in a replay (R572), and host data that arrives (R427). -/

namespace Sys2Proof.Machine

/-- Start the posted command of any opcode (R414, R415, R419). -/
def startCommand (k : Nat) (s : State) : State :=
  let m := s.mb k
  match m.w 0 % 256 with
  | 0x01 => startIdentify k s
  | 0x10 => startPvCheck k s
  | 0x11 => startPvApply k s
  | 0x18 => startInvalidate k s
  | 0x19 => if bitAt (m.w 2) 8 then startResolveKill k s else startResolveRetry k s
  | 0x20 => startModelLoad k s
  | 0x21 => if m.w 3 % 2 == 1 then startModelUnpin k s else startModelPin k s
  | 0x22 => startModelEvict k s
  | 0x24 => startMemCopy k s
  | 0x28 => startRun k s
  | 0x30 => startSessionCreate k s
  | 0x31 => if bitAt (m.w 5) 2 then startSessionMoveAbort k s else startSessionMove k s
  | 0x32 => startSessionCommit k s
  | 0x33 => startSessionClose k s
  | 0x40 => if bitAt (m.w 2) 0 then startThaw k s else startFreeze k s
  | 0x41 => startSave k s
  | 0x42 => startRestore k s
  | 0x44 => startPavReset k s
  | 0x45 => startPkgReset k s
  | 0x50 => startSnapshot k s
  | 0x51 => startFingerprint k s
  | 0x52 => startReplay k s
  | 0x58 => startPower k s
  | 0x60 => startFwStage k s
  | 0x61 => startFwActivate k s
  | 0x62 => startRestoreFactory k s
  | 0x63 => startRecovery k s
  | _ => startUnknown k s

/-- A post that is still in progress: nothing has reset its slot. -/
def State.livePost (s : State) (k : Nat) : Bool := (s.mb k).st == 1 && (s.mb k).gen == k / 2048

/-- Posts that waited are started in post order while service goes on (R413). -/
def State.resumeN : Nat → State → State
  | 0, s => s
  | n + 1, s =>
    match s.posts with
    | [] => s
    | k :: rest =>
      if !s.serving then s
      else
        let s1 := { s with posts := rest }
        State.resumeN n (if s1.livePost k then startCommand k s1 else s1)

/-- Mailbox service resumes. -/
def State.resumeService (s : State) : State := State.resumeN s.posts.length s

/-- CP_RECOVERY_DONE: Gaold has restarted the tasks from its journal, and serves again (R514). -/
def execCpRecoveryDone (s : State) : Host.Outcome State Fault Refusal :=
  if !s.cp.recovering then ok s else ok ({ s with cp := { s.cp with recovering := false } }.resumeService)

/-- FW_IMAGE_READY: the new image is ready, becomes ACTIVE, and FW_ACTIVATE completes; service resumes (R595 to R597). -/
def execFwImageReady (s : State) : Host.Outcome State Fault Refusal :=
  match s.fw.activation with
  | none => ok s
  | some a => if a.phase == 1 then ok s else ok (s.activated a).resumeService

/-- FW_BOOT_COMPLETE: the slot that the boot ROM has loaded reports ready, or fails; Gaold starts the posts made so far (R591, R611). -/
def execFwBootComplete (good : Bool) (s : State) : Host.Outcome State Fault Refusal := ok (s.tryBoot good).resumeService

/-! ## Recorded commands and device writes (R572) -/

/-- A recorded MAILBOX or DEVICE_WRITE takes effect. -/
def State.takeInput (s : State) (r : RingRec) : State :=
  let p := s.replayer.pav
  if r.kind == 3 then
    let v := s.pav p
    match s.beds.mergeBad (csKey v v.channels) (r.addr - 2 ^ 63) r.data.length with
    | some k => s.bedUncorrectable k
    | none => s.writeCs p (r.addr - 2 ^ 63) r.data
  else
    let k := postOf (r.stream % numFns) (r.addr % 4) (2 ^ 20 + s.replayer.records)
    let words := (List.range 16).map fun i => BitVec.ofNat 32 (leNat ((r.data.drop (4 * i)).take 4))
    startCommand k (s.modRec fun x => { x with posts := Tab.put k words x.posts })

/-- Inputs whose KPOS kernels have started take effect, in ring order (R572). -/
def State.takeInputs (p : Nat) : Nat → State → State
  | 0, s => s
  | n + 1, s =>
    if !s.replaying p || s.replayer.diverged then s
    else if let some t := s.deniedRing then t
    else
      match s.findRec (fun r => r.kind == 1 || r.kind == 3) (s.replayer.used / 64) s.replayer.inputAt with
      | none => s
      | some (o, r) =>
        if r.kpos > s.replayer.kernels then s
        else
          let s1 := (s.modRec fun x => { x with inputAt := o + r.size, records := x.records + 1 }).takeInput r
          State.takeInputs p n s1.checkEnd

/-- Recorded inputs that are due, if the pavilion is in replay. -/
def State.dueInputs (s : State) (p : Nat) : State := if s.replaying p then State.takeInputs p (s.replayer.used / 64) s else s

/-- RUN_BEGIN: the first accepted run begins (R294, R572). -/
def execRunBegin (pav : Nat) (s : State) : Host.Outcome State Fault Refusal :=
  if pav ≥ numPavs then noUnit else ok ((s.dueInputs pav).beginRun pav)

/-- KERNEL_START: at the release tick strand 0 of every own core starts the next kernel (R296, R572). -/
def execKernelStart (pav : Nat) (s : State) : Host.Outcome State Fault Refusal :=
  if pav ≥ numPavs then noUnit
  else
    let s1 := s.dueInputs pav
    ok (if s1.kernelDue pav then s1.startKernel pav else s1)

/-! ## Host data (R427) -/

/-- PCIE_COMPLETION_RECEIVE: data that a read of host memory waits for (R427, R466, R592). -/
def execPcieCompletionReceive (target : HostTarget) (data : List HostData) (s : State) : Host.Outcome State Fault Refusal :=
  match target with
  | .tile core strand pos =>
    if core ≥ numCores || strand ≥ numStrands then noUnit
    else
      match s.ownerOf core, (s.strand core strand).flights[pos]? with
      | some p, some x =>
        (match x.prog with
          | .hostRead _ => ok (if (s.pav p).chan.halted || s.replaying p then s else s.tileData? p core strand x data)
          | _ => ok s)
      | _, _ => ok s
  | .command fn slot =>
    if fn ≥ numFns || slot ≥ 4 then noUnit
    else
      match s.transferAt fn slot, s.acceptAt fn slot with
      | some t, _ => ok (if t.kind == 0 then s.copyData t data else if t.kind == 1 then s.restoreData t data else s.stageData t data)
      | none, some (p, a) => ok (if (s.pav p).chan.halted then s else s.runData p a data)
      | none, none => ok s

end Sys2Proof.Machine
end

