-- ==== Sys2Proof/Machine/Registers.lean ====
section
/-! DEFINITION. Register writes (R5 to R9): the registers of PF BAR0 and of a VF's BAR0 that a write acts on (R400, R403, R404, R407
to R410, R439), and what a write does to each. A register whose write has a command of its own is written by that command's effect. -/

namespace Sys2Proof.Machine

/-- A register that a write acts on. -/
inductive Reg32 where
  | scrubCfg | logSel | fltSel | pvSel | dirCtl | rtSel | rtData | pkgId | rgSel | mbVec | mbView | evtTail | evtStatus | resetCause | pwrCap
  | escCfg | padRelease | halfSel | snapSel | snapFree | fwPolicy | rcvLen | rcvCtl
  | dlCtl (port : Nat)
  | mbReq (slot n : Nat)
  | mbPost (slot : Nat)
  | mbState (slot : Nat)
  | mbTag (slot : Nat)
  | strCfg (i : Nat)
  | strPeriod (i : Nat)
  | engineCfg (e : Nat)
  | msix (i : Nat)
  | rcvBuf (offset : Nat)
  deriving DecidableEq, Repr

/-- A 64-bit register that a write acts on. -/
inductive Reg64 where
  | winBase | tableBase | poolBase | spanBase | tsync | mbHch | bar2Win
  | strStart (i : Nat)
  | strDev (i : Nat)
  | strHost (i : Nat)
  deriving DecidableEq, Repr

/-! ## Maps -/

/-- The mailbox page: slots and page registers (R407); `o` is the offset in the page. -/
def page32 (pf0 : Bool) (o : Nat) : Option Reg32 :=
  if o < 0x800 then
    let s := o / 0x200
    let i := o % 0x200
    if i < 0x40 then some (.mbReq s (i / 4))
    else if i == 0x40 then some (.mbPost s)
    else if i == 0x44 then some (.mbState s)
    else if i == 0x48 then some (.mbTag s)
    else none
  else if o == 0x800 then some .mbVec
  else if o == 0x810 && pf0 then some .mbView
  else none

/-- The events block (R418). -/
def event32 (o : Nat) : Option Reg32 := if o == 0x08 then some .evtTail else if o == 0x10 then some .evtStatus else none

/-- A stream's registers (R439). -/
def stream32 (o : Nat) : Option Reg32 :=
  if o % 0x40 == 0 then some (.strCfg (o / 0x40)) else if o % 0x40 == 4 then some (.strPeriod (o / 0x40)) else none
def stream64 (o : Nat) : Option Reg64 :=
  if o % 0x40 == 0x08 then some (.strStart (o / 0x40)) else if o % 0x40 == 0x10 then some (.strDev (o / 0x40))
  else if o % 0x40 == 0x18 then some (.strHost (o / 0x40)) else none

/-- 32-bit registers of PF BAR0, by offset (R403, R439). -/
def pf32 (o : Nat) : Option Reg32 :=
  if 0x1000000 ≤ o && o < 0x2000000 then some (.rcvBuf (o - 0x1000000))
  else if 0x100000 ≤ o && o < 0x101000 then page32 true (o - 0x100000)
  else if 0x20000 ≤ o && o < 0x23000 then event32 (o - 0x20000)
  else if 0xC0000 ≤ o && o < 0xC0080 then some (.msix ((o - 0xC0000) / 4))
  else if 0x400000 ≤ o && o < 0x500000 && o % 0x10000 == 8 then some (.dlCtl ((o - 0x400000) / 0x10000))
  else if 0x580000 ≤ o && o < 0x581000 && o % 0x40 == 0 then some (.engineCfg ((o - 0x580000) / 0x40))
  else if 0x582000 ≤ o && o < 0x583000 then stream32 (o - 0x582000)
  else
    match o with
    | 0x100 => some .resetCause
    | 0x10100 => some .snapSel
    | 0x10120 => some .snapFree
    | 0x40008 => some .pwrCap
    | 0x40010 => some .escCfg
    | 0x40018 => some .padRelease
    | 0x40020 => some .halfSel
    | 0x80000 => some .rgSel
    | 0x200020 => some .pvSel
    | 0x200038 => some .dirCtl
    | 0x300000 => some .fltSel
    | 0x408000 => some .pkgId
    | 0x408008 => some .rtSel
    | 0x408010 => some .rtData
    | 0x500000 => some .scrubCfg
    | 0x500020 => some .logSel
    | 0x700010 => some .fwPolicy
    | 0x800008 => some .rcvLen
    | 0x800010 => some .rcvCtl
    | _ => none

/-- 64-bit registers of PF BAR0, by offset. -/
def pf64 (o : Nat) : Option Reg64 :=
  if 0x582000 ≤ o && o < 0x583000 then stream64 (o - 0x582000)
  else
    match o with
    | 0x100808 => some .mbHch
    | 0x100818 => some .bar2Win
    | 0x200000 => some .tableBase
    | 0x200030 => some .poolBase
    | 0x300100 => some .winBase
    | 0x408018 => some .tsync
    | 0x408020 => some .spanBase
    | _ => none

/-- 32-bit registers of a VF's BAR0, by offset (R404). -/
def vf32 (o : Nat) : Option Reg32 :=
  if o < 0x1000 then page32 false o
  else if o < 0x2000 then event32 (o - 0x1000)
  else if 0x5000 ≤ o && o < 0x6000 then stream32 (o - 0x5000)
  else if 0x8000 ≤ o && o < 0x8080 then some (.msix ((o - 0x8000) / 4))
  else if o == 0x2000 then some .fltSel
  else if o == 0x3000 then some .rgSel
  else none

/-- 64-bit registers of a VF's BAR0, by offset. -/
def vf64 (o : Nat) : Option Reg64 :=
  if o == 0x808 then some .mbHch else if 0x5000 ≤ o && o < 0x6000 then stream64 (o - 0x5000) else none

def reg32 (fn o : Nat) : Option Reg32 := if fn == 0 then pf32 o else vf32 o
def reg64 (fn o : Nat) : Option Reg64 := if fn == 0 then pf64 o else vf64 o

/-! ## Effects -/

/-- The state that an effect leaves, itself where the effect has none. -/
def after (o : Host.Outcome State Fault Refusal) (s : State) : State := match o with | .next t => t | _ => s

/-- Change a mailbox slot of a function. -/
def State.modSlot (s : State) (fn slot : Nat) (f : MbSlot → MbSlot) : State :=
  let x := s.fn fn
  s.setFn fn { x with slots := setNth x.slots slot (f (nthD x.slots slot {})) }

/-- A function that has no pavilion discards writes to its fault, regulation and stream registers (R400). -/
def State.withPav (s : State) (fn : Nat) (f : Nat → State) : State := match s.pavOfFn fn with | some p => f p | none => s

/-- A write to a stream's fields: discarded while the stream runs, and for a stream that the pavilion does not have (R437, R439). -/
def State.writeStream (s : State) (fn i : Nat) (f : Stream → Stream) : State :=
  s.withPav fn fun p => if s.hasStream p i && (s.stream p i).st != 1 then s.modStream p i f else s

/-- The stream that an engine serves: pavilion and number. -/
def State.streamOfEngine (s : State) (e : Nat) : Option (Nat × Nat) :=
  s.pavs.findSome? fun x => ((x.2.streams.zipIdx).find? fun y => y.1 == e).map fun y => (x.1, y.2)

/-- An MSI-X table entry's word changes; a message that its mask held back is sent when the mask clears (R399). -/
def State.writeMsix (s : State) (fn i : Nat) (v : Word32) : State :=
  let x := s.fn fn
  let n := i / 4
  let s1 := s.setFn fn { x with msix := Tab.put i v x.msix }
  if i % 4 == 3 && !v.getLsbD 0 && x.pba.getLsbD n then
    { s1.setFn fn { s1.fn fn with pba := x.pba &&& ~~~BitVec.ofNat 8 (2 ^ n) } with irqs := s1.irqs ++ [(fn, n)] }
  else s1

/-- DL_CTL (R346, R377, R379): the lane, the spare, the enable, and the quiesce. -/
def State.writeDlCtl (s : State) (p : Nat) (v : Word32) : State :=
  if !s.fuse.portOn p then s
  else
    let lane := bits v.toNat 6 3
    let s1 := s.modPort p fun x => { x with laneSel := BitVec.ofNat 4 lane }
    let s2 := if v.getLsbD 2 then after (execDlSpareNow p lane s1) s1 else s1
    let s3 := if v.getLsbD 0 != (s2.port p).enable then after (execDlPortEnable p (v.getLsbD 0) s2) s2 else s2
    if v.getLsbD 1 then (if (s3.port p).quiesce then s3 else after (execDlQuiesce p s3) s3)
    else s3.modPort p fun x => { x with quiesce := false, st := if x.st == 3 && x.enable && !s3.portHeld p then 1 else x.st }

/-- FW_POLICY (R6, R603): its first write after a cold reset sets OWNER_LOCK, which holds the other bits. -/
def Fw.writePolicy (f : Fw) (v : Word32) : Fw :=
  let lock := if f.locked then f.policy.getLsbD 0 else v.getLsbD 0
  let rest := if f.policy.getLsbD 0 then f.policy.toNat / 2 else bits v.toNat 4 1
  { f with locked := true, policy := BitVec.ofNat 5 (b2n lock + 2 * rest) }

/-- A 32-bit write to a 32-bit register. -/
def State.write32 (s : State) (fn : Nat) (r : Reg32) (v : Word32) : State :=
  let n := v.toNat
  match r with
  | .scrubCfg => s.modRegs fun x => { x with scrubCfg := BitVec.ofNat 32 (n % 2 + 2 * max 6 (min 168 (bits n 8 1))) }
  | .logSel => s.modRegs fun x => { x with logSel := BitVec.ofNat 32 (n % 64) }
  | .fltSel => after (execMmuFltSelWrite fn v s) s
  | .pvSel => s.modRegs fun x => { x with pvSel := BitVec.ofNat 32 (n % 512) }
  | .dirCtl => after (execPvDirCtlWrite v s) s
  | .rtSel => { s with links := { s.links with rtSel := BitVec.ofNat 32 (n % 4096) } }
  | .rtData => after (execDlRtDataWrite v s) s
  | .pkgId => after (execDlPkgIdWrite v s) s
  | .rgSel =>
    if fn == 0 then s.setFn fn { s.fn fn with rgSel := v &&& 0x07FF01FF#32 }
    else s.withPav fn fun _ => s.setFn fn { s.fn fn with rgSel := v &&& 0x07FF0000#32 }
  | .mbVec => s.setFn fn { s.fn fn with vec := v &&& 0x7FFF#32 }
  | .mbView => s.modRegs fun x => { x with view := BitVec.ofNat 32 (n % 512) }
  | .evtTail => after (execEvtTailWrite fn v s) s
  | .evtStatus => if v.getLsbD 0 then after (execEvtOverflowClear fn s) s else s
  | .resetCause => if v.getLsbD 8 then after (execPkgFatalClear s) s else s
  | .pwrCap => after (execPwrCapWrite v s) s
  | .escCfg => { s with power := { s.power with ramp := max 1 (min 8 (n % 16)) } }
  | .padRelease => after (execPwrPadReleaseWrite v s) s
  | .halfSel => { s with power := { s.power with halfSel := BitVec.ofNat 32 (n % 8) } }
  | .snapSel => { s with belv := { s.belv with sel := v &&& 0xFFFF0003#32 } }
  | .snapFree => after (execSnapFreeWrite v s) s
  | .fwPolicy => s.modFw fun f => f.writePolicy v
  | .rcvLen => if s.boot.stage == .recovery then s.modFw fun f => { f with rcvLen := BitVec.ofNat 25 n } else s
  | .rcvCtl => if v.getLsbD 0 then after (execFwRcvGo s) s else s
  | .dlCtl p => s.writeDlCtl p v
  | .mbReq slot i => s.modSlot fn slot fun m => { m with req := setNth m.req i v }
  | .mbPost slot => if v.getLsbD 0 then after (post fn slot (fun _ => true) startCommand s) s else s
  | .mbState slot => if v.getLsbD 2 then s.modSlot fn slot fun m => { m with postErr := false } else s
  | .mbTag slot => s.modSlot fn slot fun m => { m with tag := BitVec.ofNat 16 n }
  | .strCfg i =>
    s.withPav fn fun p =>
      if !s.hasStream p i then s
      else
        let s1 := s.writeStream fn i fun x => { x with log2Slots := bits n 31 28, lines := bits n 27 17, dir := bitAt n 1 }
        if v.getLsbD 0 then s1.enableStream p i else s1.disableStream p i
  | .strPeriod i => s.writeStream fn i fun x => { x with period := v }
  | .engineCfg e =>
    if v.getLsbD 0 then s else (match s.streamOfEngine e with | some (p, i) => s.disableStream p i | none => s)
  | .msix i => s.writeMsix fn i v
  | .rcvBuf o => if s.boot.stage == .recovery then s.modFw fun f => { f with rcvBuf := Mem.writeLe f.rcvBuf o 4 n } else s

/-- A write to a 64-bit register: whole, or its low half (R9). No writable field of these registers lies wholly in a high half, and
fields that span both halves, RWL and WO fields are written only whole. -/
def State.write64 (s : State) (fn : Nat) (r : Reg64) (v : Word64) (whole : Bool) : State :=
  let n := v.toNat
  match r with
  | .winBase => if whole then after (execMmuWinBaseWrite v s) s else s
  | .tableBase => if whole then after (execPvTableBaseWrite v s) s else s
  | .poolBase => if whole then after (execPvPoolBaseWrite v s) s else s
  | .spanBase => if whole then after (execDlSpanBaseWrite v s) s else s
  | .tsync => { s with links := { s.links with tsync := { s.links.tsync with eligible := v.getLsbD 0 } } }
  | .mbHch => if whole && v.getLsbD 8 then after (execMbHchResume fn s) s else s
  | .bar2Win =>
    let base := if whole then n / 65536 else s.regs.bar2Win.toNat / 65536
    s.modRegs fun x => { x with bar2Win := BitVec.ofNat 64 (base * 65536 + bits n 9 9 * 512 + n % 512) }
  | .strStart i => if whole then s.writeStream fn i fun x => { x with start := v } else s
  | .strDev i => if whole then s.writeStream fn i fun x => { x with devRing := BitVec.ofNat 64 (n / 4096 * 4096) } else s
  | .strHost i => if whole then s.writeStream fn i fun x => { x with hostRing := BitVec.ofNat 64 (n / 4096 * 4096) } else s

/-- An aligned 32-bit write (R9). -/
def State.writeWord (s : State) (fn o : Nat) (v : Word32) : State :=
  match reg32 fn o, reg64 fn o with
  | some r, _ => s.write32 fn r v
  | none, some r => s.write64 fn r (BitVec.ofNat 64 v.toNat) false
  | none, none => s

/-- An aligned 64-bit write: to a 64-bit register whole, else to the lower offset first (R9): over MB_POST and MB_STATE of a BUSY
slot the POST_ERR that the first half sets is cleared by a 1 in the second (DESIGN CHOICE, notes/assumptions/71.md). -/
def State.writeDouble (s : State) (fn o : Nat) (v : Word64) : State :=
  match reg64 fn o with
  | some r => s.write64 fn r v true
  | none => (s.writeWord fn o (BitVec.ofNat 32 v.toNat)).writeWord fn (o + 4) (BitVec.ofNat 32 (v.toNat / 2 ^ 32))

/-- Registers that recovery leaves: the identity block and the recovery window of PF0 (R599). -/
def recoveryReg (fn o : Nat) : Bool := fn == 0 && (decide (o < 0x10000) || (decide (0x800000 ≤ o) && decide (o < 0x2000000)))

/-- REGISTER_WRITE: a write of 4 or 8 aligned bytes at an offset in a function's BAR0; any other is discarded (R6, R8, R9). -/
def execRegisterWrite (fn offset size : Nat) (value : Word64) (s : State) : Host.Outcome State Fault Refusal :=
  if fn ≥ numFns then noUnit
  else if !s.hasFn fn || !s.boot.powered || (s.boot.stage == .recovery && !recoveryReg fn offset) then ok s
  else if size == 4 && offset % 4 == 0 then ok (s.writeWord fn offset (BitVec.ofNat 32 value.toNat))
  else if size == 8 && offset % 8 == 0 then ok (s.writeDouble fn offset value)
  else ok s

end Sys2Proof.Machine
end

