-- ==== Sys2Proof/Machine/RunAhead.lean ====
section
/-! DEFINITION. Run-ahead (R87 to R99): episodes and their walks on a private copy of a strand's scalar state, speculative loads
into shadow buffers, their completion, promotion and discard. -/

namespace Sys2Proof.Machine

/-- Shadow buffers of a core: 32 rows of every bank back eight buffers of four rows (R91, R96). -/
def numShadows : Nat := 8

/-! ## Eligible loads (R91, R93) -/

/-- The destination form of an eligible load: the strand's scratch, dense, from a segment boundary, of 64, 128, 192 or
256 KiB (R91). -/
def shadowDst (v : Pav) (d : Desc) : Bool :=
  d.loc == locLs && decide (d.base + d.span d.rows ≤ v.scratchBytes) && d.base % 65536 == 0 && d.stride0 == 1 && (d.rows == 1 || d.stride1 == d.rowBytes)
    && [65536, 131072, 196608, 262144].contains (d.rowBytes * d.rows)

/-- The rows of its source that a load reads: every row, or for TGATHER the indexed ones; `none` where an index lies outside
the operand (R91, R130). -/
def State.loadRows (s : State) (p core : Nat) (l : SpecLoad) : Option (List Nat) :=
  if l.op != 0x83 then some (List.range l.src.rows)
  else
    let is := (List.range l.dst.rows).map fun r => s.indexAt p core l.src2 r
    if is.any fun i => decide (i < 0) || decide (i ≥ l.src.rows) then none else some (is.map Int.toNat)

/-- Translate the pages of a speculative load: whether every one is in LPDDR5X and mapped readable without write permission, and the
channel-set addresses where they start. The walks write nothing and fill the translation caches (R91, R93). -/
def State.specPages (s : State) (un p : Nat) : List Nat → Option (Tab PageLoc) × State
  | [] => (some [], s)
  | pg :: rest =>
    let r := s.walk un p (pg * 65536)
    match r.1 with
    | .leaf l =>
      if Pte.typ l.entry == 2 && Pte.rd l.entry && !Pte.wr l.entry then
        let q := State.specPages r.2 un p rest
        (q.1.map (Tab.put pg (.bed p (Pte.addr l.entry + (if l.level == 1 then pg * 65536 % 2 ^ 29 else 0)))), q.2)
      else (none, r.2)
    | _ => (none, r.2)

/-- The tile instruction is eligible: the rows of its source that it reads (R91). -/
def State.eligible (s : State) (p core : Nat) (l : SpecLoad) : Option (List Nat) × State :=
  let v := s.pav p
  if !(runAheadOp l.op.toNat && shadowDst v l.dst && l.dst.fmt == l.src.fmt) then (none, s)
  else
    match s.loadRows p core l with
    | none => (none, s)
    | some rows =>
      if l.src.loc == locDva || (l.src.loc == locOrangery && (Tab.find l.src.handle v.slices).isSome && l.op != 0xA3) then
        let q := s.specPages (clusterOf core) p (l.src.pagesOf v rows)
        (q.1.map fun _ => rows, q.2)
      else (none, s)

/-- The lowest free shadow buffer. -/
def Core.freeShadow (c : Core) : Option Nat := (List.range numShadows).find? fun b => (Tab.find b c.shadows).isNone

/-- A strand stands at an unresolved predicate (R87): it waits for an operand at an instruction recorded as one. -/
def Strand.atPredicate (t : Strand) : Bool :=
  t.predicates.contains t.pc.toNat && (match t.wait with | .operand _ => true | _ => false)

/-- Issue a walked load into a free buffer, or skip it (R91, R93). -/
def State.speculate (s : State) (p core strand : Nat) (l : SpecLoad) : State :=
  match (s.core core).freeShadow with
  | none => s
  | some b =>
    let q := s.eligible p core l
    match q.1 with
    | none => q.2
    | some rows => q.2.modCore core fun c =>
      { c with shadows := Tab.put b { strand := strand, load := l, rows := rows, base := (s.strand core strand).issued } c.shadows }

/-! ## The walk (R88, R90, R92) -/

/-- What a walk knows of ASTAT or of SRC: its value, that an instruction in flight writes it and nothing has read it yet, or that it
is unknown. -/
inductive Known where
  | yes | inFlight | no
  deriving DecidableEq, Repr

/-- A walk: the private copy of the strand, and which of its registers, and which fields of its descriptor slots
(slot × 8 + field, R123), are unknown; the predictor as its reads leave it; tile instructions walked past the predicate. -/
structure Walker where
  t : Strand
  regs : List Nat := []
  fields : List Nat := []
  astat : Known := .yes
  src : Known := .yes
  predictor : List Pred
  tiles : Nat := 0
  deriving DecidableEq, Repr

namespace Walker

/-- The value of a register, if it is known. -/
def reg (w : Walker) (r : BitVec 3) : Option Word64 := if w.regs.contains r.toNat then none else some (w.t.reg r)

/-- Write a register, with a value or with none known; sz stays zero. -/
def setReg (w : Walker) (r : BitVec 3) (v : Option Word64) : Walker :=
  match v with
  | some x => { w with t := w.t.setReg r x, regs := w.regs.filter fun k => k != r.toNat }
  | none => if r == 6 then w else { w with regs := addNew r.toNat w.regs }

/-- The second operand B. -/
def opB (w : Walker) (f : ScalarFields) : Option Word64 := if f.useImm then some (sext64 f.imm) else w.reg f.srcb

/-- a + sext(IMM). -/
def sum (w : Walker) (f : ScalarFields) : Option Word64 := (w.reg f.srca).map fun a => a + sext64 f.imm

/-- The walk goes on at the next instruction. -/
def next (w : Walker) (len : Nat) : Walker := { w with t := { w.t with pc := w.t.pc + BitVec.ofNat 32 len } }

/-- The occurrence of the instruction at the PC is counted on the private copy (R72). -/
def occurs (w : Walker) : Walker :=
  { w with t := { w.t with occ := Tab.put w.t.pc.toNat (Tab.getD w.t.occ w.t.pc.toNat 0 + 1) w.t.occ } }

/-- The predictor entry of the instruction at the PC, which is thereby used (R89, R90). -/
def predicted (w : Walker) (strand : Nat) : Option Word64 × Walker :=
  let n := Tab.getD w.t.occ w.t.pc.toNat 0 % 64
  match w.predictor.find? fun x => x.strand == strand && x.layer == w.t.layer && x.pc == w.t.pc.toNat && x.occ == n with
  | some e => (some e.value, { w with predictor := predictorPut w.predictor e })
  | none => (none, w)

/-- Read ASTAT or SRC: a register that an instruction in flight writes takes the entry of the first walked instruction that
reads it, or is unknown (R90). -/
def status (w : Walker) (strand : Nat) (isSrc : Bool) : Option Word64 × Walker :=
  match if isSrc then w.src else w.astat with
  | .yes => (some (if isSrc then w.t.src else w.t.astat.zeroExtend 64), w)
  | .no => (none, w)
  | .inFlight =>
    let r := w.predicted strand
    let k : Known := if r.1.isSome then .yes else .no
    let w := r.2
    if isSrc then (r.1, { w with src := k, t := { w.t with src := r.1.getD 0 } })
    else (r.1, { w with astat := k, t := { w.t with astat := (r.1.getD 0).truncate 32 } })

/-- A descriptor slot, if every field of it is known. -/
def desc (w : Walker) (i : BitVec 3) : Option Desc :=
  if w.fields.any fun k => k / 8 == i.toNat then none else some (w.t.desc i)

/-- Control passes to a target; one outside the code ends the walk. -/
def jump (w : Walker) (target : Int) : Option Walker :=
  if target < 0 || target ≥ 2 ^ 32 then none else some { w with t := { w.t with pc := BitVec.ofInt 32 target } }

end Walker

/-- A scalar load of `n` bytes in a walk: its bytes overlap what an instruction in flight will write, and it takes its entry, or
scratch as it stands (R90). An address that is unknown or no legal one gives no value. -/
def State.walkLoad (s : State) (p core strand n : Nat) (w : Walker) (a : Option Word64) : Option (Nat ⊕ Word64) × Walker :=
  match a with
  | none => (none, w)
  | some a =>
    if (scratchFault (s.pav p) a.toNat n).isSome then (none, w)
    else if ((s.strand core strand).blockers ⟨0, a.toNat, n⟩ false).isEmpty then (some (.inl (leNat (s.readLs core a.toNat n))), w)
    else let r := w.predicted strand; (r.1.map .inr, r.2)

/-- One scalar instruction of a walk (R90, R92); `none` ends it, as a JMPR to no multiple of 8 does (DESIGN CHOICE, notes/assumptions/90.md). -/
def State.walkScalar (s : State) (p core strand : Nat) (w : Walker) (op : Nat) (f : ScalarFields) : Option Walker :=
  let done := fun (w : Walker) => some (w.next 8)
  if decide (0x10 ≤ op) && decide (op ≤ 0x1A) then
    done (w.setReg f.dst (match w.reg f.srca, w.opB f with | some a, some b => some (aluOp op a b) | _, _ => none))
  else
    match op with
    | 0x01 | 0x21 | 0x2B => done w
    | 0x1B => done (w.setReg f.dst (match w.reg f.srca, w.opB f with
        | some a, some b => some (if cond f.fn.toNat a b then 1 else 0) | _, _ => none))
    | 0x1C => done (w.setReg f.dst (some (sext64 f.imm)))
    | 0x1D => done (w.setReg f.dst ((w.reg f.dst).map fun v => (f.imm ++ v.truncate 32 : BitVec 64)))
    | 0x20 =>
      let n := 2 ^ (f.fn.toNat % 4)
      let r := s.walkLoad p core strand n w (w.sum f)
      done (r.2.occurs.setReg f.dst (r.1.map fun x => match x with
        | .inl raw => if f.fn.getLsbD 2 then BitVec.ofInt 64 (toSigned (8 * n) raw) else BitVec.ofNat 64 raw
        | .inr v => v))
    | 0x2A =>
      let r := s.walkLoad p core strand 32 w (w.sum f)
      let w := r.2.occurs
      let mine := fun (k : Nat) => k / 8 == f.dst.toNat
      done (match r.1 with
        | some (.inl d) => { w with t := w.t.setDesc f.dst (BitVec.ofNat 256 d), fields := w.fields.filter fun k => !mine k }
        | some (.inr v) => { w with t := w.t.setDesc f.dst (v.zeroExtend 256)
                                    fields := (w.fields.filter fun k => !mine k) ++ (List.range 7).map fun k => f.dst.toNat * 8 + k + 1 }
        | none => { w with fields := (w.fields.filter fun k => !mine k) ++ (List.range 8).map fun k => f.dst.toNat * 8 + k })
    | 0x28 =>
      let k := f.dst.toNat * 8 + f.fn.toNat
      done (match w.sum f with
        | some v => { w with t := w.t.setDesc f.dst (Desc.set (w.t.desc f.dst) f.fn.toNat v), fields := w.fields.filter fun j => j != k }
        | none => { w with fields := addNew k w.fields })
    | 0x29 =>
      done (w.setReg f.dst (if w.fields.contains (f.srcb.toNat * 8 + f.fn.toNat) then none else some (Desc.get (w.t.desc f.srcb) f.fn.toNat)))
    | 0x30 => let r := w.status strand false; done (r.2.occurs.setReg f.dst r.1)
    | 0x31 =>
      let r := w.status strand false
      let w := r.2.occurs
      done (match r.1, w.opB f with
        | some _, some b => { w with t := w.t.clearFlags b }
        | _, _ => { w with astat := .no })
    | 0x32 => done (match w.sum f with | some v => { w with t := { w.t with src := v }, src := .yes } | none => { w with src := .no })
    | 0x33 => let r := w.status strand true; done (r.2.occurs.setReg f.dst r.1)
    | 0x34 => done (w.setReg f.dst (some s.now))
    | 0x40 =>
      match w.reg f.srca, w.reg f.srcb with
      | some a, some b => if cond f.fn.toNat a b then w.jump (relTarget w.t f.imm) else done w
      | _, _ => none
    | 0x41 => w.jump (relTarget w.t f.imm)
    | 0x42 =>
      match w.reg f.srca with
      | some a => if a.toNat % 8 != 0 then none else w.jump (a.toNat : Int)
      | none => none
    | 0x43 => (w.jump (relTarget w.t f.imm)).map fun v => v.setReg f.dst (some (w.t.pc.zeroExtend 64 + 8))
    | _ => none

/-- Stores of the walk's instructions that a tile instruction of it would make to ASTAT and SRC are unknown (R90). -/
def Walker.skip (w : Walker) (op : Nat) (f : TileFields) : Walker :=
  let w := if isCompute op || (op == 0x81 && f.opt0) then { w with astat := .no } else w
  if op == 0x93 && f.fn == 1 then { w with src := .no } else w

/-- Some byte of the range is one that an instruction in flight of the strand will write. -/
def Strand.writesTo (t : Strand) (r : Range) : Bool := t.flights.any fun x => x.prog != .moved && x.dsts.any r.overlaps

/-- One tile instruction of a walk: an eligible load of known operands is issued, every other is skipped; an instruction of the
stop list ends the walk (R90 to R92). -/
def State.walkTile (s : State) (p core strand : Nat) (w : Walker) (op : Nat) (f : TileFields) : State × Option Walker :=
  if op ≥ 0xA0 && op != 0xA3 then (s, none)
  else
    let occ := Tab.getD w.t.occ w.t.pc.toNat 0
    let s1 :=
      match w.desc f.dd, w.desc f.ds1, (if op == 0x83 then w.desc f.ds2 else some 0) with
      | some dd, some d1, some d2 =>
        -- an index vector that is still being written is an unknown value
        if runAheadOp op && !(op == 0x83 && (s.strand core strand).writesTo d2.range) then
          s.speculate p core strand ⟨w.t.pc, occ, BitVec.ofNat 8 op, dd, d1, if op == 0x83 then d2 else 0⟩
        else s
      | _, _, _ => s
    let w := if runAheadOp op then w.occurs else w
    (s1, some ({ w.skip op f with tiles := w.tiles + 1 }.next 16))

/-- A walk: the words that it fetches, in order. It ends with the words, when the predicate resolves, after 64 tile instructions
past the predicate, or as an instruction ends it (R92), an undefined encoding too (DESIGN CHOICE, notes/assumptions/90.md). -/
def State.walkAhead (s : State) (p core strand : Nat) (w : Walker) : List (Word64 × Word64) → State × Walker
  | [] => (s, w)
  | (a, b) :: rest =>
    let word := a.toNat + 2 ^ 64 * b.toNat
    let op := word % 256
    if undefinedWord word then (s, w)
    else if op < 128 then
      match s.walkScalar p core strand w op (scalarFields (word % 2 ^ 64)) with
      | some v => s.walkAhead p core strand v rest
      | none => (s, w)
    else
      let r := s.walkTile p core strand w op (tileFields word)
      match r.2 with
      | some v => if v.tiles ≥ 64 then (r.1, v) else r.1.walkAhead p core strand v rest
      | none => (r.1, w)

/-- The private copy with which a walk begins (R88, R90). -/
def State.walker (s : State) (core strand : Nat) : Walker :=
  let t := s.strand core strand
  { t := t, predictor := (s.core core).predictor, astat := if t.astatBlockers.isEmpty then .yes else .inFlight
    src := if t.srcBlockers.isEmpty then .yes else .inFlight }

/-- EPISODE_OPEN: a strand at an unresolved predicate with a free shadow buffer enters RUN-AHEAD, where at most eight strands of a
core are, and walks ahead; what the walk leaves is its loads and its use of predictor entries (R88 to R93). -/
def execEpisodeOpen (core strand : Nat) (walk : WalkWords) (s : State) : Host.Outcome State Fault Refusal :=
  if core ≥ numCores || strand ≥ numStrands then noUnit
  else
    match s.ownerOf core with
    | none => ok s
    | some p =>
      let t := s.strand core strand
      let others := (s.strands.filter fun x => x.1 / 2048 == core && x.2.mode == .runAhead).length
      if t.mode != .waiting || !t.atPredicate || (s.core core).freeShadow.isNone || others ≥ 8 then ok s
      else
        let s1 := s.modStrand core strand fun t => { t with mode := .runAhead }
        let r := s1.walkAhead p core strand (s1.walker core strand) walk
        ok (r.1.modCore core fun c => { c with predictor := r.2.predictor })

/-! ## Speculative loads and their buffers (R93, R95 to R98) -/

/-- SHADOW_LOAD_COMPLETE: a speculative load's replies have arrived. A page that no longer qualifies drops it, as do data with an
uncorrectable error; the error is counted and logged, and kills nothing (R93, R96, R175). -/
def execShadowLoadComplete (core buf : Nat) (s : State) : Host.Outcome State Fault Refusal :=
  if core ≥ numCores || buf ≥ numShadows then noUnit
  else
    match s.ownerOf core, Tab.find buf (s.core core).shadows with
    | some p, some sh =>
      let hurt := s.hurtPieces p sh.load.src sh.rows
      let q := s.specPages (clusterOf core) p (sh.load.src.pagesOf (s.pav p) sh.rows)
      if !hurt.isEmpty then ok ((s.dropHurt p [(sh.load.src, sh.rows)]).dropShadow core buf)
      else
        match q.1 with
        | none => ok (q.2.dropShadow core buf)
        | some m =>
          match q.2.badSource p m sh.load.src sh.rows with
          | some b => ok ((q.2.bedUncorrectable b.key).dropShadow core buf)
          | none => ok (q.2.modCore core fun c => { c with shadows := Tab.put buf { sh with complete := true } c.shadows })
    | _, _ => ok s

/-- PREDICATE_RESOLVE: the instruction at the predicate can issue; the episode closes, the private state is dropped and
the strand returns to READY at the predicate, its buffers still held (R92, R95). -/
def execPredicateResolve (core strand : Nat) (s : State) : Host.Outcome State Fault Refusal :=
  if core ≥ numCores || strand ≥ numStrands then noUnit
  else
    let t := s.strand core strand
    if t.mode != .runAhead || !s.cleared core strand then ok s
    else
      let s1 := s.modCore core fun c => { c with shadows := Tab.mapVals (fun _ x =>
        if x.strand == strand then { x with openEpisode := false } else x) c.shadows }
      ok (s1.makeReady core strand)

/-- An in-flight instruction of the core, other than the one numbered `num`, touches a scratch range (R96). -/
def State.touchesLs (s : State) (core num : Nat) (r : Range) : Bool :=
  s.strands.any fun x => x.1 / 2048 == core && x.2.flights.any fun y => y.num != num && (y.dsts.any r.overlaps || y.srcs.any r.overlaps)

/-- The row behind a place of the segment map (R96). -/
def Core.rowAt (c : Core) (place : Nat) : Nat := Tab.getD c.rowMap place place

/-- Two places of the segment map exchange their rows. -/
def Core.swapRows (c : Core) (a b : Nat) : Core :=
  let put := fun (k r : Nat) (m : Tab Nat) => if r == k then Tab.drop k m else Tab.put k r m
  { c with rowMap := put b (c.rowAt a) (put a (c.rowAt b) c.rowMap) }

/-- A buffer's rows exchange places with those of its destination's segments (R96). -/
def Core.exchange (c : Core) (buf : Nat) (dst : Desc) : Core :=
  (List.range (dst.rowBytes * dst.rows / 65536)).foldl (fun c i => c.swapRows (dst.base / 65536 + i) (384 + 4 * buf + i)) c

/-- Promote a buffer for the instruction that waits for it: its checks are made again, and it leaves the trace it would have left
had it moved its bytes now (R97); then the rows exchange places and the buffer is free. A check that faults discards the buffer
and faults the instruction. -/
def State.promote (s : State) (p core strand buf : Nat) (x : Flight) : State :=
  let s1 := ((s.dropShadow core buf).modFlight core strand x.num fun y => { y with prog := .promoting }).driveTiles p core strand x.num {}
  match (s1.strand core strand).flight x.num with
  | some y => if y.prog == .moved then s1.modCore core fun c => c.exchange buf x.dd else s1
  | none => s1

/-- SHADOW_PROMOTE: the buffer's load has completed and nothing else in flight on the core touches the destination
segments (R96, R97). -/
def execShadowPromote (core strand buf : Nat) (s : State) : Host.Outcome State Fault Refusal :=
  if core ≥ numCores || strand ≥ numStrands || buf ≥ numShadows then noUnit
  else
    match s.ownerOf core, Tab.find buf (s.core core).shadows, (s.strand core strand).flights.find? fun x => x.prog == .promote buf with
    | some p, some sh, some x =>
      if sh.strand != strand || !sh.complete || s.touchesLs core x.num x.dd.range then ok s
      else if sh.hurt then
        ok ((((s.modBeds fun b => { b with ueCount := b.ueCount + 1 }).logMem 0x09 (coreLoc core) 0).dropShadow core buf).driveTiles p core strand x.num {})
      else ok (s.promote p core strand buf x)
    | _, _, _ => ok s

end Sys2Proof.Machine
end

