-- ==== Sys2Proof/Machine/TileEngine.lean ====
section
/-! DEFINITION. Tile compute (R132 to R138). -/

namespace Sys2Proof.Machine

/-- TMM: slot[m][n] += Σk DS2[m][k] × DS1[n][k] (R133). -/
def execTmm (core strand : Nat) (f : TileFields) (s : State) : Host.Outcome State Fault Refusal :=
  tile core strand 0x90 f s (launchRun core strand)

/-- TVOP: DD = op(FN, DS1, DS2, IMM) (R134). -/
def execTvop (core strand : Nat) (f : TileFields) (s : State) : Host.Outcome State Fault Refusal :=
  tile core strand 0x91 f s (launchRun core strand)

/-- TRED: DD = reduce(FN, DS1), or the slot merges with DS1 (R135, R136). -/
def execTred (core strand : Nat) (f : TileFields) (s : State) : Host.Outcome State Fault Refusal :=
  tile core strand 0x92 f s (launchRun core strand)

/-- TCVT: DD = the source converted (R137). -/
def execTcvt (core strand : Nat) (f : TileFields) (s : State) : Host.Outcome State Fault Refusal :=
  tile core strand 0x93 f s (launchRun core strand)

/-- TDEC: DD = DS1 expanded from its codebook (R137). -/
def execTdec (core strand : Nat) (f : TileFields) (s : State) : Host.Outcome State Fault Refusal :=
  tile core strand 0x94 f s (launchRun core strand)

end Sys2Proof.Machine
end

