-- ==== Sys2Proof/Machine/TileMove.lean ====
section
/-! DEFINITION. Tile movement (R126 to R131). -/

namespace Sys2Proof.Machine

/-- TLD: DD = DS1 into scratch (R126 to R130). -/
def execTld (core strand : Nat) (f : TileFields) (s : State) : Host.Outcome State Fault Refusal :=
  tile core strand 0x80 f s (launchRun core strand)

/-- TST: DD = DS1, or the named slot as ACC elements (R126 to R130). -/
def execTst (core strand : Nat) (f : TileFields) (s : State) : Host.Outcome State Fault Refusal :=
  tile core strand 0x81 f s (launchRun core strand)

/-- TCP: DD = DS1 (R126 to R130). -/
def execTcp (core strand : Nat) (f : TileFields) (s : State) : Host.Outcome State Fault Refusal :=
  tile core strand 0x82 f s (launchRun core strand)

/-- TGATHER: DD.row[i] = DS1.row[DS2[i]] (R126 to R130). -/
def execTgather (core strand : Nat) (f : TileFields) (s : State) : Host.Outcome State Fault Refusal :=
  tile core strand 0x83 f s (launchRun core strand)

/-- TSCATTER: DD.row[DS2[i]] = DS1.row[i], in ascending i (R126 to R130). -/
def execTscatter (core strand : Nat) (f : TileFields) (s : State) : Host.Outcome State Fault Refusal :=
  tile core strand 0x84 f s (launchRun core strand)

end Sys2Proof.Machine
end

