-- ==== Sys2Proof/Machine/Dispatch.lean ====
section
/-! DEFINITION. The dispatch of a command to its meaning, one arm per row of the opcode table. -/

namespace Sys2Proof.Machine

def exec (i : Instr) (s : State) : Host.Outcome State Fault Refusal :=
  match i with
  | .nop core strand f => Sys2Proof.Machine.execNop core strand f s
  | .add core strand f => Sys2Proof.Machine.execAdd core strand f s
  | .sub core strand f => Sys2Proof.Machine.execSub core strand f s
  | .mul core strand f => Sys2Proof.Machine.execMul core strand f s
  | .and core strand f => Sys2Proof.Machine.execAnd core strand f s
  | .or core strand f => Sys2Proof.Machine.execOr core strand f s
  | .xor core strand f => Sys2Proof.Machine.execXor core strand f s
  | .shl core strand f => Sys2Proof.Machine.execShl core strand f s
  | .shr core strand f => Sys2Proof.Machine.execShr core strand f s
  | .sar core strand f => Sys2Proof.Machine.execSar core strand f s
  | .min core strand f => Sys2Proof.Machine.execMin core strand f s
  | .max core strand f => Sys2Proof.Machine.execMax core strand f s
  | .cmp core strand f => Sys2Proof.Machine.execCmp core strand f s
  | .movi core strand f => Sys2Proof.Machine.execMovi core strand f s
  | .movhi core strand f => Sys2Proof.Machine.execMovhi core strand f s
  | .lds core strand f err => Sys2Proof.Machine.execLds core strand f err s
  | .sts core strand f => Sys2Proof.Machine.execSts core strand f s
  | .setd core strand f => Sys2Proof.Machine.execSetd core strand f s
  | .getd core strand f => Sys2Proof.Machine.execGetd core strand f s
  | .ldd core strand f => Sys2Proof.Machine.execLdd core strand f s
  | .std core strand f => Sys2Proof.Machine.execStd core strand f s
  | .rdas core strand f => Sys2Proof.Machine.execRdas core strand f s
  | .clas core strand f => Sys2Proof.Machine.execClas core strand f s
  | .setsrc core strand f => Sys2Proof.Machine.execSetsrc core strand f s
  | .rdsrc core strand f => Sys2Proof.Machine.execRdsrc core strand f s
  | .rdtime core strand f => Sys2Proof.Machine.execRdtime core strand f s
  | .br core strand f => Sys2Proof.Machine.execBr core strand f s
  | .jmp core strand f => Sys2Proof.Machine.execJmp core strand f s
  | .jmpr core strand f => Sys2Proof.Machine.execJmpr core strand f s
  | .call core strand f => Sys2Proof.Machine.execCall core strand f s
  | .spawn core strand f => Sys2Proof.Machine.execSpawn core strand f s
  | .yield core strand f => Sys2Proof.Machine.execYield core strand f s
  | .exit core strand f => Sys2Proof.Machine.execExit core strand f s
  | .fence core strand f => Sys2Proof.Machine.execFence core strand f s
  | .tld core strand f => Sys2Proof.Machine.execTld core strand f s
  | .tst core strand f => Sys2Proof.Machine.execTst core strand f s
  | .tcp core strand f => Sys2Proof.Machine.execTcp core strand f s
  | .tgather core strand f => Sys2Proof.Machine.execTgather core strand f s
  | .tscatter core strand f => Sys2Proof.Machine.execTscatter core strand f s
  | .tmm core strand f => Sys2Proof.Machine.execTmm core strand f s
  | .tvop core strand f => Sys2Proof.Machine.execTvop core strand f s
  | .tred core strand f => Sys2Proof.Machine.execTred core strand f s
  | .tcvt core strand f => Sys2Proof.Machine.execTcvt core strand f s
  | .tdec core strand f => Sys2Proof.Machine.execTdec core strand f s
  | .tsend core strand f => Sys2Proof.Machine.execTsend core strand f s
  | .trecv core strand f => Sys2Proof.Machine.execTrecv core strand f s
  | .tput core strand f => Sys2Proof.Machine.execTput core strand f s
  | .tget core strand f => Sys2Proof.Machine.execTget core strand f s
  | .tbar core strand f => Sys2Proof.Machine.execTbar core strand f s
  | .twait core strand f => Sys2Proof.Machine.execTwait core strand f s
  | .tcommit core strand f => Sys2Proof.Machine.execTcommit core strand f s
  | .icacheFill core strand => Sys2Proof.Machine.execIcacheFill core strand s
  | .strandWake core strand => Sys2Proof.Machine.execStrandWake core strand s
  | .tileInstructionComplete core strand pos => Sys2Proof.Machine.execTileInstructionComplete core strand pos s
  | .messageMatch pav key => Sys2Proof.Machine.execMessageMatch pav key s
  | .episodeOpen core strand walk => Sys2Proof.Machine.execEpisodeOpen core strand walk s
  | .shadowLoadComplete core buf => Sys2Proof.Machine.execShadowLoadComplete core buf s
  | .predicateResolve core strand => Sys2Proof.Machine.execPredicateResolve core strand s
  | .shadowPromote core strand buf => Sys2Proof.Machine.execShadowPromote core strand buf s
  | .tileTranslate core strand pos => Sys2Proof.Machine.execTileTranslate core strand pos s
  | .pageWalkRead unit pav dva level => Sys2Proof.Machine.execPageWalkRead unit pav dva level s
  | .syncArrivalForward pav node use => Sys2Proof.Machine.execSyncArrivalForward pav node use s
  | .releaseDecide pav use => Sys2Proof.Machine.execReleaseDecide pav use s
  | .barrierRelease pav barrier => Sys2Proof.Machine.execBarrierRelease pav barrier s
  | .stepCommitRelease pav => Sys2Proof.Machine.execStepCommitRelease pav s
  | .kernelCompleteCore core => Sys2Proof.Machine.execKernelCompleteCore core s
  | .kernelCompletePavilion pav => Sys2Proof.Machine.execKernelCompletePavilion pav s
  | .kernelStart pav => Sys2Proof.Machine.execKernelStart pav s
  | .runBegin pav => Sys2Proof.Machine.execRunBegin pav s
  | .watchdogExpire pav => Sys2Proof.Machine.execWatchdogExpire pav s
  | .pieceResident pav handle => Sys2Proof.Machine.execPieceResident pav handle s
  | .sliceFillComplete pav handle => Sys2Proof.Machine.execSliceFillComplete pav handle s
  | .pieceOverwrite core segment => Sys2Proof.Machine.execPieceOverwrite core segment s
  | .mcServeAccess channel waiting => Sys2Proof.Machine.execMcServeAccess channel waiting s
  | .refresh channel => Sys2Proof.Machine.execRefresh channel s
  | .dramTemperatureReport channel celsius => Sys2Proof.Machine.execDramTemperatureReport channel celsius s
  | .patrolScrubRead channel err => Sys2Proof.Machine.execPatrolScrubRead channel err s
  | .lsRowRepair core bank segment => Sys2Proof.Machine.execLsRowRepair core bank segment s
  | .spareChannelStart channel wear => Sys2Proof.Machine.execSpareChannelStart channel wear s
  | .spareCopyComplete channel => Sys2Proof.Machine.execSpareCopyComplete channel s
  | .channelFailure channel => Sys2Proof.Machine.execChannelFailure channel s
  | .lsZeroComplete core => Sys2Proof.Machine.execLsZeroComplete core s
  | .granuleZeroComplete channel granule => Sys2Proof.Machine.execGranuleZeroComplete channel granule s
  | .bulkMessageArrive m => Sys2Proof.Machine.execBulkMessageArrive m s
  | .replyArrive m => Sys2Proof.Machine.execReplyArrive m s
  | .onpkgFlitError loc lane => Sys2Proof.Machine.execOnpkgFlitError loc lane s
  | .onpkgLaneSpare loc lane => Sys2Proof.Machine.execOnpkgLaneSpare loc lane s
  | .timeTick => Sys2Proof.Machine.execTimeTick s
  | .timeBroadcast => Sys2Proof.Machine.execTimeBroadcast s
  | .dlPortEnable port on => Sys2Proof.Machine.execDlPortEnable port on s
  | .portTrainComplete port lanes peerPkg peerPort => Sys2Proof.Machine.execPortTrainComplete port lanes peerPkg peerPort s
  | .dlLaneSpare port lane => Sys2Proof.Machine.execDlLaneSpare port lane s
  | .dlSpareNow port lane => Sys2Proof.Machine.execDlSpareNow port lane s
  | .portRetrainNarrow port lanes => Sys2Proof.Machine.execPortRetrainNarrow port lanes s
  | .dataFlitReceive port flit => Sys2Proof.Machine.execDataFlitReceive port flit s
  | .flitReplay port fseq => Sys2Proof.Machine.execFlitReplay port fseq s
  | .syncFlitReceive port m => Sys2Proof.Machine.execSyncFlitReceive port m s
  | .linkFlitReceive port m => Sys2Proof.Machine.execLinkFlitReceive port m s
  | .portLeaveUp port => Sys2Proof.Machine.execPortLeaveUp port s
  | .timestampExchange port t => Sys2Proof.Machine.execTimestampExchange port t s
  | .dlPkgIdWrite value => Sys2Proof.Machine.execDlPkgIdWrite value s
  | .dlRtDataWrite value => Sys2Proof.Machine.execDlRtDataWrite value s
  | .dlQuiesce port => Sys2Proof.Machine.execDlQuiesce port s
  | .dlSpanBaseWrite value => Sys2Proof.Machine.execDlSpanBaseWrite value s
  | .windingAbortReceive spanId winding rank => Sys2Proof.Machine.execWindingAbortReceive spanId winding rank s
  | .peerLossDetect pav rank => Sys2Proof.Machine.execPeerLossDetect pav rank s
  | .spanDeliveryStart pav => Sys2Proof.Machine.execSpanDeliveryStart pav s
  | .spanRollupCompare pav rank flipTick rollup groups => Sys2Proof.Machine.execSpanRollupCompare pav rank flipTick rollup groups s
  | .regWindowEnd waiting stalled => Sys2Proof.Machine.execRegWindowEnd waiting stalled s
  | .regScaleChange channel => Sys2Proof.Machine.execRegScaleChange channel s
  | .regScaleRestore channel => Sys2Proof.Machine.execRegScaleRestore channel s
  | .streamUrgencyChange pav stream num den => Sys2Proof.Machine.execStreamUrgencyChange pav stream num den s
  | .identify fn slot => Sys2Proof.Machine.execIdentify fn slot s
  | .pvCheck fn slot answers => Sys2Proof.Machine.execPvCheck fn slot answers s
  | .pvApply fn slot answers => Sys2Proof.Machine.execPvApply fn slot answers s
  | .applyPrepareDone => Sys2Proof.Machine.execApplyPrepareDone s
  | .applyHold pav => Sys2Proof.Machine.execApplyHold pav s
  | .applyCopyDone => Sys2Proof.Machine.execApplyCopyDone s
  | .applyDrainTimeout pav => Sys2Proof.Machine.execApplyDrainTimeout pav s
  | .epochFlip => Sys2Proof.Machine.execEpochFlip s
  | .applyPavilionResume pav => Sys2Proof.Machine.execApplyPavilionResume pav s
  | .invalidate fn slot => Sys2Proof.Machine.execInvalidate fn slot s
  | .invalidateReceive unit fn slot => Sys2Proof.Machine.execInvalidateReceive unit fn slot s
  | .invalidateDrainComplete fn slot => Sys2Proof.Machine.execInvalidateDrainComplete fn slot s
  | .faultResolveRetry fn slot => Sys2Proof.Machine.execFaultResolveRetry fn slot s
  | .faultResolveKill fn slot => Sys2Proof.Machine.execFaultResolveKill fn slot s
  | .modelLoad fn slot => Sys2Proof.Machine.execModelLoad fn slot s
  | .modelPin fn slot => Sys2Proof.Machine.execModelPin fn slot s
  | .modelUnpin fn slot => Sys2Proof.Machine.execModelUnpin fn slot s
  | .modelEvict fn slot => Sys2Proof.Machine.execModelEvict fn slot s
  | .memCopy fn slot => Sys2Proof.Machine.execMemCopy fn slot s
  | .run fn slot => Sys2Proof.Machine.execRun fn slot s
  | .sessionCreate fn slot => Sys2Proof.Machine.execSessionCreate fn slot s
  | .sessionMove fn slot => Sys2Proof.Machine.execSessionMove fn slot s
  | .sessionMoveAbort fn slot => Sys2Proof.Machine.execSessionMoveAbort fn slot s
  | .sessionCopyComplete session => Sys2Proof.Machine.execSessionCopyComplete session s
  | .sessionCommit fn slot => Sys2Proof.Machine.execSessionCommit fn slot s
  | .sessionClose fn slot => Sys2Proof.Machine.execSessionClose fn slot s
  | .directoryRecordWrite session => Sys2Proof.Machine.execDirectoryRecordWrite session s
  | .sessionDropReceive pool session target => Sys2Proof.Machine.execSessionDropReceive pool session target s
  | .sessionOwnReceive pool session epoch fetch => Sys2Proof.Machine.execSessionOwnReceive pool session epoch fetch s
  | .sessionSealReceive pool session => Sys2Proof.Machine.execSessionSealReceive pool session s
  | .sessionServeReport session => Sys2Proof.Machine.execSessionServeReport session s
  | .commitPendingTimeout session => Sys2Proof.Machine.execCommitPendingTimeout session s
  | .sessionFetch pool session data => Sys2Proof.Machine.execSessionFetch pool session data s
  | .renewalSend => Sys2Proof.Machine.execRenewalSend s
  | .renewalReceive directory pool renewal => Sys2Proof.Machine.execRenewalReceive directory pool renewal s
  | .leaseLapse directory pool => Sys2Proof.Machine.execLeaseLapse directory pool s
  | .ownershipTakeover session => Sys2Proof.Machine.execOwnershipTakeover session s
  | .poolLoss pool => Sys2Proof.Machine.execPoolLoss pool s
  | .poolUnreachableTimeout pool => Sys2Proof.Machine.execPoolUnreachableTimeout pool s
  | .mirrorUpdateComplete session data => Sys2Proof.Machine.execMirrorUpdateComplete session data s
  | .directoryResyncComplete records => Sys2Proof.Machine.execDirectoryResyncComplete records s
  | .pvDirCtlWrite value => Sys2Proof.Machine.execPvDirCtlWrite value s
  | .windowRequestReceive m => Sys2Proof.Machine.execWindowRequestReceive m s
  | .freeze fn slot => Sys2Proof.Machine.execFreeze fn slot s
  | .freezeTakeHold pav => Sys2Proof.Machine.execFreezeTakeHold pav s
  | .freezeTimeout pav => Sys2Proof.Machine.execFreezeTimeout pav s
  | .thaw fn slot => Sys2Proof.Machine.execThaw fn slot s
  | .save fn slot => Sys2Proof.Machine.execSave fn slot s
  | .restore fn slot => Sys2Proof.Machine.execRestore fn slot s
  | .pavReset fn slot => Sys2Proof.Machine.execPavReset fn slot s
  | .resetTick pav => Sys2Proof.Machine.execResetTick pav s
  | .pavResetReady pav => Sys2Proof.Machine.execPavResetReady pav s
  | .pkgReset fn slot => Sys2Proof.Machine.execPkgReset fn slot s
  | .warmReset cause => Sys2Proof.Machine.execWarmReset cause s
  | .coldReset cause => Sys2Proof.Machine.execColdReset cause s
  | .snapshot fn slot => Sys2Proof.Machine.execSnapshot fn slot s
  | .snapshotTick set => Sys2Proof.Machine.execSnapshotTick set s
  | .fingerprint fn slot => Sys2Proof.Machine.execFingerprint fn slot s
  | .fingerprintTick units => Sys2Proof.Machine.execFingerprintTick units s
  | .replayStop fn slot => Sys2Proof.Machine.execReplayStop fn slot s
  | .replayRecord fn slot => Sys2Proof.Machine.execReplayRecord fn slot s
  | .replayReplay fn slot => Sys2Proof.Machine.execReplayReplay fn slot s
  | .powerQuery fn slot => Sys2Proof.Machine.execPowerQuery fn slot s
  | .powerSetCap fn slot => Sys2Proof.Machine.execPowerSetCap fn slot s
  | .powerNap fn slot => Sys2Proof.Machine.execPowerNap fn slot s
  | .powerDoze fn slot => Sys2Proof.Machine.execPowerDoze fn slot s
  | .powerActive fn slot => Sys2Proof.Machine.execPowerActive fn slot s
  | .powerHold fn slot => Sys2Proof.Machine.execPowerHold fn slot s
  | .powerLimitHalf fn slot => Sys2Proof.Machine.execPowerLimitHalf fn slot s
  | .powerResetHalf fn slot => Sys2Proof.Machine.execPowerResetHalf fn slot s
  | .fwStage fn slot => Sys2Proof.Machine.execFwStage fn slot s
  | .fwActivate fn slot => Sys2Proof.Machine.execFwActivate fn slot s
  | .fwActivatePause verified => Sys2Proof.Machine.execFwActivatePause verified s
  | .fwImageReady => Sys2Proof.Machine.execFwImageReady s
  | .fwActivateTimeout => Sys2Proof.Machine.execFwActivateTimeout s
  | .restoreFactory fn slot => Sys2Proof.Machine.execRestoreFactory fn slot s
  | .recoveryArm fn slot => Sys2Proof.Machine.execRecoveryArm fn slot s
  | .recoveryDisarm fn slot => Sys2Proof.Machine.execRecoveryDisarm fn slot s
  | .fwRcvGo => Sys2Proof.Machine.execFwRcvGo s
  | .recoveryImageWritten written => Sys2Proof.Machine.execRecoveryImageWritten written s
  | .fwBootComplete good => Sys2Proof.Machine.execFwBootComplete good s
  | .bootReadyTimeout => Sys2Proof.Machine.execBootReadyTimeout s
  | .mbHchResume fn => Sys2Proof.Machine.execMbHchResume fn s
  | .hostChannelError pav cause dva => Sys2Proof.Machine.execHostChannelError pav cause dva s
  | .pcieCompletionTimeout target => Sys2Proof.Machine.execPcieCompletionTimeout target s
  | .hostDeliveryComplete pav => Sys2Proof.Machine.execHostDeliveryComplete pav s
  | .evtTailWrite fn value => Sys2Proof.Machine.execEvtTailWrite fn value s
  | .evtOverflowClear fn => Sys2Proof.Machine.execEvtOverflowClear fn s
  | .mmuFltData0Read fn => Sys2Proof.Machine.execMmuFltData0Read fn s
  | .mmuFltSelWrite fn value => Sys2Proof.Machine.execMmuFltSelWrite fn value s
  | .timeNowLowRead => Sys2Proof.Machine.execTimeNowLowRead s
  | .rgPavStatRead fn => Sys2Proof.Machine.execRgPavStatRead fn s
  | .pvTableBaseWrite value => Sys2Proof.Machine.execPvTableBaseWrite value s
  | .mmuWinBaseWrite value => Sys2Proof.Machine.execMmuWinBaseWrite value s
  | .pvPoolBaseWrite value => Sys2Proof.Machine.execPvPoolBaseWrite value s
  | .streamEnable pav stream => Sys2Proof.Machine.execStreamEnable pav stream s
  | .streamDisable pav stream => Sys2Proof.Machine.execStreamDisable pav stream s
  | .streamInFrame pav stream data => Sys2Proof.Machine.execStreamInFrame pav stream data s
  | .streamInDeviceWrite pav stream => Sys2Proof.Machine.execStreamInDeviceWrite pav stream s
  | .streamOutPoll pav stream frame => Sys2Proof.Machine.execStreamOutPoll pav stream frame s
  | .streamOutFrame pav stream => Sys2Proof.Machine.execStreamOutFrame pav stream s
  | .pwrPadReleaseWrite value => Sys2Proof.Machine.execPwrPadReleaseWrite value s
  | .pwrCapWrite value => Sys2Proof.Machine.execPwrCapWrite value s
  | .snapFreeWrite value => Sys2Proof.Machine.execSnapFreeWrite value s
  | .pkgFatalClear => Sys2Proof.Machine.execPkgFatalClear s
  | .bar2Read offset len => Sys2Proof.Machine.execBar2Read offset len s
  | .bar2Write offset bytes => Sys2Proof.Machine.execBar2Write offset bytes s
  | .registerWrite fn offset size value => Sys2Proof.Machine.execRegisterWrite fn offset size value s
  | .energyInterval cycles overhead => Sys2Proof.Machine.execEnergyInterval cycles overhead s
  | .telemetryRead readings => Sys2Proof.Machine.execTelemetryRead readings s
  | .avsResponse rail done => Sys2Proof.Machine.execAvsResponse rail done s
  | .avsTimeout rail => Sys2Proof.Machine.execAvsTimeout rail s
  | .divisorChange half => Sys2Proof.Machine.execDivisorChange half s
  | .escapementStep half load => Sys2Proof.Machine.execEscapementStep half load s
  | .droopDetect half mv => Sys2Proof.Machine.execDroopDetect half mv s
  | .droopRecover half mv => Sys2Proof.Machine.execDroopRecover half mv s
  | .supplyResetDip half mv => Sys2Proof.Machine.execSupplyResetDip half mv s
  | .thermalThrottleStep half celsius => Sys2Proof.Machine.execThermalThrottleStep half celsius s
  | .thermalRelaxStep half celsius => Sys2Proof.Machine.execThermalRelaxStep half celsius s
  | .thermalClamp half celsius => Sys2Proof.Machine.execThermalClamp half celsius s
  | .thermtrip half celsius => Sys2Proof.Machine.execThermtrip half celsius s
  | .thermtripClear => Sys2Proof.Machine.execThermtripClear s
  | .ageingMeasure half trim => Sys2Proof.Machine.execAgeingMeasure half trim s
  | .domainIdleOff domain => Sys2Proof.Machine.execDomainIdleOff domain s
  | .calibrationWrite => Sys2Proof.Machine.execCalibrationWrite s
  | .pmeTurnOff => Sys2Proof.Machine.execPmeTurnOff s
  | .smbusWakeMatch address => Sys2Proof.Machine.execSmbusWakeMatch address s
  | .refclkStop => Sys2Proof.Machine.execRefclkStop s
  | .refclkValid straps => Sys2Proof.Machine.execRefclkValid straps s
  | .pwrgdInAssert silent => Sys2Proof.Machine.execPwrgdInAssert silent s
  | .powerLoss => Sys2Proof.Machine.execPowerLoss s
  | .perstNAssert => Sys2Proof.Machine.execPerstNAssert s
  | .perstNRelease => Sys2Proof.Machine.execPerstNRelease s
  | .pcieLinkDown => Sys2Proof.Machine.execPcieLinkDown s
  | .vfFlr fn => Sys2Proof.Machine.execVfFlr fn s
  | .pf0Flr => Sys2Proof.Machine.execPf0Flr s
  | .vfEnableClear => Sys2Proof.Machine.execVfEnableClear s
  | .dieHalfResetStart half => Sys2Proof.Machine.execDieHalfResetStart half s
  | .dieHalfReady half => Sys2Proof.Machine.execDieHalfReady half s
  | .cpWatchdogExpire core posts => Sys2Proof.Machine.execCpWatchdogExpire core posts s
  | .cpRecoveryDone => Sys2Proof.Machine.execCpRecoveryDone s
  | .pkgUnitUncorrectable unit pav => Sys2Proof.Machine.execPkgUnitUncorrectable unit pav s
  | .coreSpare core wear => Sys2Proof.Machine.execCoreSpare core wear s
  | .coreSpareCopyDone core => Sys2Proof.Machine.execCoreSpareCopyDone core s
  | .coreDeath core => Sys2Proof.Machine.execCoreDeath core s
  | .smbusMctp pec request => Sys2Proof.Machine.execSmbusMctp pec request s
  | .smbusWarmReset pec => Sys2Proof.Machine.execSmbusWarmReset pec s
  | .smbusColdReset pec => Sys2Proof.Machine.execSmbusColdReset pec s
  | .smbusStatusRead => Sys2Proof.Machine.execSmbusStatusRead s
  | .smbusAlertResponse => Sys2Proof.Machine.execSmbusAlertResponse s
  | .smbusRcvOffset pec offset => Sys2Proof.Machine.execSmbusRcvOffset pec offset s
  | .smbusRcvWrite pec bytes => Sys2Proof.Machine.execSmbusRcvWrite pec bytes s
  | .smbusRcvStart pec length => Sys2Proof.Machine.execSmbusRcvStart pec length s
  | .smbusRcvStatus pec => Sys2Proof.Machine.execSmbusRcvStatus pec s
  | .getVersion via => Sys2Proof.Machine.execGetVersion via s
  | .getCapabilities via transfer => Sys2Proof.Machine.execGetCapabilities via transfer s
  | .negotiateAlgorithms via algs => Sys2Proof.Machine.execNegotiateAlgorithms via algs s
  | .getDigests via session => Sys2Proof.Machine.execGetDigests via session s
  | .getCertificate via session slot offset len => Sys2Proof.Machine.execGetCertificate via session slot offset len s
  | .challenge via session slot nonce => Sys2Proof.Machine.execChallenge via session slot nonce s
  | .getMeasurements via session index signed nonce => Sys2Proof.Machine.execGetMeasurements via session index signed nonce s
  | .keyExchange via slot key => Sys2Proof.Machine.execKeyExchange via slot key s
  | .finish via session => Sys2Proof.Machine.execFinish via session s
  | .heartbeat via session => Sys2Proof.Machine.execHeartbeat via session s
  | .keyUpdate via session => Sys2Proof.Machine.execKeyUpdate via session s
  | .endSession via session => Sys2Proof.Machine.execEndSession via session s
  | .chunkSend via chunk last => Sys2Proof.Machine.execChunkSend via chunk last s
  | .chunkGet via number => Sys2Proof.Machine.execChunkGet via number s
  | .spdmUnsupportedRequest via => Sys2Proof.Machine.execSpdmUnsupportedRequest via s
  | .getKemCert via ask => Sys2Proof.Machine.execGetKemCert via ask s
  | .installHostKey via session m => Sys2Proof.Machine.execInstallHostKey via session m s
  | .removeHostKey via session m => Sys2Proof.Machine.execRemoveHostKey via session m s
  | .releaseModel via session m => Sys2Proof.Machine.execReleaseModel via session m s
  | .revokeModel via session m => Sys2Proof.Machine.execRevokeModel via session m s
  | .installImageKey via session m => Sys2Proof.Machine.execInstallImageKey via session m s
  | .removeImageKey via session m => Sys2Proof.Machine.execRemoveImageKey via session m s
  | .undefinedEncoding core strand w0 w1 => Sys2Proof.Machine.execUndefinedEncoding core strand w0 w1 s
  | .mbUnknown fn slot => Sys2Proof.Machine.execMbUnknown fn slot s
  | .pcieCompletionReceive target data => Sys2Proof.Machine.execPcieCompletionReceive target data s
  | .pcieLinkUp => Sys2Proof.Machine.execPcieLinkUp s
  | .vfEnableSet count => Sys2Proof.Machine.execVfEnableSet count s
  | .refclkReturn => Sys2Proof.Machine.execRefclkReturn s
  | .bridgeLaneRepair edge module lane => Sys2Proof.Machine.execBridgeLaneRepair edge module lane s
  | .fwSlotWritten => Sys2Proof.Machine.execFwSlotWritten s

end Sys2Proof.Machine
end

