-- ==== Sys2Proof/Machine/Readout.lean ====
section
/-! DEFINITION. Registers as a host read returns them (R2, R4, R6, R8, R9, R180, R225, R226, R253, R287, R340, R379, R398, R400, R402 to
R404, R407 to R409, R417, R418, R439, R440, R449, R496, R522, R557, R583 to R585, R599, R603). Reads that change the state are commands
of their own. -/

namespace Sys2Proof.Machine

/-- A word put together from fields: low bit, width, value. Bits that no field covers read as zero (R8). -/
def wordOf (fs : List (Nat × Nat × Nat)) : Nat := fs.foldl (fun n f => n + f.2.2 % 2 ^ f.2.1 * 2 ^ f.1) 0

/-- A base register that its first write sets. -/
def baseWord (b : Option Word64) : Nat := (b.map BitVec.toNat).getD 0

/-! ## The identity block (R2, R4, R522) -/

/-- Bindable cores that are working (R4, R518). -/
def State.workingCores (s : State) : Nat := ((List.range 64).map s.bindable).foldl (· + ·) 0

/-- Stream engines present (R22). -/
def Fuse.engines (f : Fuse) : Nat := if f.stream then 64 else 0

def State.identity32 (s : State) (o : Nat) : Option Nat :=
  match o with
  | 0x00 => some (wordOf [(16, 16, 4), (8, 8, 1)])
  | 0x04 => some (wordOf [(8, 8, s.fuse.step), (0, 8, s.fuse.grade)])
  | 0x30 => some (wordOf [(16, 8, s.fuse.engines - s.enginesUsed.length), (8, 8, s.fuse.engines), (2, 1, b2n s.fuse.replay), (1, 1, b2n s.fuse.mirror), (0, 1, b2n s.fuse.stream)])
  | 0x100 => some (wordOf [(16, 16, s.cause.warmCount.toNat), (8, 1, b2n s.cause.fatal), (0, 8, s.cause.cause.toNat)])
  | _ => none

/-- The 64-bit registers of the identity block (R4). PKG_CAP1.GRANULES reads what training gives in every stage, also before it
has completed, which R4 leaves open (DESIGN CHOICE, notes/assumptions/71.md). -/
def State.identity64 (s : State) (o : Nat) : Option Nat :=
  match o with
  | 0x08 => some s.fuse.serial.toNat
  | 0x10 => some (wordOf [(55, 9, 384), (48, 7, 64), (43, 5, s.fuse.perCluster), (40, 3, 4), (28, 12, 2048), (16, 11, s.workingCores), (0, 11, 64 * s.fuse.perCluster)])
  | 0x18 => some (wordOf [(48, 16, (List.range 16).foldl (fun n g => if s.fuse.groups.contains (g % 4) then n + 2 ^ g else n) 0), (32, 16, granulesPerChannel),
      (18, 9, 96 * s.fuse.groups.length), (0, 9, s.activeChannels.length)])
  | 0x20 => some (wordOf [(36, 4, 8), (26, 10, 512), (16, 10, 512), (0, 16, (List.range 16).foldl (fun n p => if s.fuse.portOn p then n + 2 ^ p else n) 0)])
  | 0x28 => some (wordOf [(32, 32, s.fw.cmdset.toNat), (0, 32, s.fw.version.toNat)])
  | 0x108 => some (wordOf [(63, 1, b2n s.cp.spareUsed), (59, 4, s.net.dieDegraded.toNat), (32, 16, s.cause.coresSpared.toNat), (16, 16, s.cause.coresFailed.toNat),
      (0, 16, s.net.lanesSpared)])
  | _ => none

/-! ## TIME, snapshots and events (R253, R417, R418, R583) -/

/-- The shadow set that SNAP_SEL selects. -/
def Belv.chosen (b : Belv) : Snap := nthD b.sets (b.sel.toNat % 4) {}

def State.snap64 (s : State) (o : Nat) : Option Nat :=
  let x := s.belv.chosen
  match o with
  | 0x000 => some s.now.toNat
  | 0x108 => some (wordOf [(32, 32, x.id.toNat), (2, 9, x.pav), (0, 2, x.st)])
  | 0x110 => some x.tick.toNat
  | 0x118 => some (if x.st == 2 then (Tab.getD x.items (s.belv.sel.toNat / 65536) 0).toNat else 0)
  | _ => none

/-- The events block of a function (R418). -/
def Fn.events32 (x : Fn) (o : Nat) : Option Nat :=
  match o with
  | 0x00 => some x.head.toNat
  | 0x08 => some x.tail.toNat
  | 0x10 => some (wordOf [(16, 16, x.lost.toNat), (0, 1, b2n x.overflow)])
  | _ => none

/-- Eight bytes of a function's event ring (R417). -/
def Fn.ring64 (x : Fn) (o : Nat) : Nat := bits (Tab.getD x.ring (o / 64) 0).toNat (o % 64 * 8 + 63) (o % 64 * 8)

/-- A word of a function's MSI-X table; every vector is masked at reset. -/
def Fn.msix32 (x : Fn) (i : Nat) : Nat := (Tab.getD x.msix i (if i % 4 == 3 then 1 else 0)).toNat

/-! ## Power (R557) -/

/-- Domains 64 n to 64 n + 63 that have a property. -/
def domainWord (n : Nat) (f : Nat → Bool) : Nat := (List.range 64).foldl (fun w i => if 64 * n + i < 96 && f (64 * n + i) then w + 2 ^ i else w) 0

def State.power32 (s : State) (o : Nat) : Option Nat :=
  match o with
  | 0x00 => some s.pwrWord
  | 0x08 => some s.power.cap
  | 0x10 => some s.power.ramp
  | 0x18 => some (wordOf [(16, 6, s.power.pads.toNat)])
  | 0x20 => some (s.power.halfSel.toNat % 8)
  | _ => none

def State.power64 (s : State) (o : Nat) : Option Nat :=
  -- after a cold reset the domains come on as the package boots (R5, R557)
  let on := fun (d : Nat) => !s.boot.cold && !s.power.off.contains d && !s.fuse.absent d
  match o with
  | 0x28 => some (s.half (s.power.halfSel.toNat % 8)).statWord
  | 0x30 => some (wordOf [(48, 16, s.power.model), (32, 16, s.power.measured), (16, 16, s.power.control), (0, 16, s.power.telemCap)])
  | 0x40 => some (domainWord 0 on)
  | 0x48 => some (domainWord 1 on)
  | 0x50 => some (domainWord 0 s.domainHeld)
  | 0x58 => some (domainWord 1 s.domainHeld)
  | _ => none

/-! ## Regulation (R398) -/

/-- RG_SEL as a function reads it. -/
def State.rgSelWord (s : State) (fn : Nat) : Nat :=
  match s.rgPav fn with
  | none => 0
  | some p => (s.fn fn).rgSel.toNat / 65536 * 65536 + p

/-- RG_CLASS_STAT of a pavilion's class. -/
def State.rgClassStat (s : State) (p k : Nat) : Nat :=
  let ms := ((s.pav p).reg.meters.filter fun x => x.1 / 512 == k).map Prod.snd
  let top := ms.foldl (fun n m => max n m.latency) 0
  wordOf [(48, 16, s.classMisses p k), (32, 3, ms.foldl (fun n m => max n m.press) 0), (16, 16, min 65535 ((ms.foldl (fun n m => n + m.lastServed) 0) / 100)), (0, 16, min 65535 top)]

/-- RG_CH_STAT of a channel: its scale, G and DBnow in MB/s. -/
def State.rgChStat (s : State) (q : Nat) : Nat :=
  let g := s.shares q
  let f := s.factor q
  let near := fun (n d : Nat) => (2 * n + d) / (2 * d)
  let cap := if q < 384 && s.place q && !(s.channel q).retired then near (dbNum * f.1) (dbDen * f.2) else 0
  wordOf [(32, 11, (s.channel q).scale), (16, 16, near g.1 g.2), (0, 16, cap)]

def State.rg32 (s : State) (fn o : Nat) : Option Nat :=
  match o with
  | 0x00 => some (s.rgSelWord fn)
  | 0x18 => if fn == 0 then some (wordOf [(16, 16, 13092), (0, 16, 16365)]) else none
  | _ => none

def State.rg64 (s : State) (fn o : Nat) : Option Nat :=
  match o with
  | 0x08 => some (match s.rgPav fn with | some p => s.rgClassStat p (bits (s.fn fn).rgSel.toNat 17 16) | none => 0)
  | 0x10 => some (match s.rgPav fn with | some p => s.rgPavStat p | none => 0)
  | 0x20 => if fn == 0 then some (s.rgChStat (bits (s.fn fn).rgSel.toNat 26 18)) else none
  | _ => none

/-! ## Mailbox pages (R407 to R409) -/

/-- The words of a function's mailbox page; `view` says that PF0 reads another function's page. -/
def State.page32 (s : State) (fn : Nat) (view : Bool) (o : Nat) : Option Nat :=
  let x := s.fn fn
  let hide := view && (match s.pavOfFn fn with | some p => (s.pav p).conf | none => false)
  if o < 0x800 then
    let m := nthD x.slots (o / 0x200) {}
    let i := o % 0x200
    if i < 0x40 then some (if hide then 0 else (nthD m.req (i / 4) 0).toNat)
    else if i == 0x40 then some 0
    else if i == 0x44 then some (wordOf [(16, 16, m.postTag.toNat), (8, 8, m.status.toNat), (2, 1, b2n m.postErr), (0, 2, m.st.toNat)])
    else if i == 0x48 then some m.tag.toNat
    else if 0x80 ≤ i && i < 0xC0 then some (if hide then 0 else (nthD m.rsp ((i - 0x80) / 4) 0).toNat)
    else none
  else if o == 0x800 then some (x.vec.toNat % 2 ^ 15)
  else if o == 0x810 && fn == 0 && !view then some (s.regs.view.toNat % 512)
  else none

def State.page64 (s : State) (fn : Nat) (view : Bool) (o : Nat) : Option Nat :=
  if o == 0x808 then
    some (match s.pavOfFn fn with
      | some p => let c := (s.pav p).chan; wordOf [(12, 52, c.dva.toNat / 4096), (4, 1, b2n c.halted), (0, 4, c.cause)]
      | none => 0)
  else if o == 0x818 && fn == 0 && !view then some s.regs.bar2Win.toNat
  else none

/-- The function whose page PF BAR0's page k shows (R408). -/
def State.viewed (s : State) (k : Nat) : Nat := if k == 0 then 0 else (s.regs.view.toNat % 512 + k - 1) % 512

/-! ## Pavilions, pools and the directory (R287, R340, R449, R584) -/

/-- PV_INFO of a pavilion. -/
def State.pvInfo (s : State) (p : Nat) : Nat :=
  let v := s.pav p
  wordOf [(32, 32, v.epochBound.toNat), (16, 16, v.winding.toNat), (4, 1, b2n (v.faulted || v.span.st == 3)), (3, 1, b2n v.freeze.frozen), (2, 1, b2n v.resetting.isSome),
    (1, 1, b2n (s.apply.phase != 0 && s.apply.affected.contains p)), (0, 1, b2n v.bound)]

/-- PV_DIR_STATUS. -/
def State.dirStatus (s : State) : Nat :=
  let held := s.dir.records.filter fun x => x.2.st != 0 && s.directs x.1
  wordOf [(32, 32, held.length), (2, 1, b2n (s.dir.enabled && !(s.partnerUp || s.dir.sole))), (1, 1, b2n s.dir.syncing),
    (0, 1, b2n ((s.dir.heard.map fun t => decide (s.now.toNat < t.toNat + 100000)).getD false))]

/-- The pavilion that PV_SEL selects. -/
def State.chosenPav (s : State) : Nat := s.regs.pvSel.toNat % 512

def State.pv32 (s : State) (o : Nat) : Option Nat :=
  let v := s.pav s.chosenPav
  match o with
  | 0x008 => some s.regs.epoch.toNat
  | 0x020 => some s.chosenPav
  | 0x038 => some s.dir.ctl.toNat
  | 0x150 => some (wordOf [(16, 16, v.obs.cycleLosses), (8, 8, v.obs.cycleCause), (1, 1, b2n v.obs.repeatable), (0, 1, b2n v.cycle)])
  | _ => none

def State.pv64 (s : State) (o : Nat) : Option Nat :=
  let r := s.regs
  let v := s.pav s.chosenPav
  match o with
  | 0x000 => some (baseWord r.tableBase)
  | 0x010 => some (wordOf [(32, 32, r.pvTarget.toNat), (20, 1, b2n r.pvFlipped), (18, 2, r.pvState.toNat), (17, 1, b2n r.pvSet), (8, 9, r.pvEntry.toNat), (0, 6, r.pvReason.toNat)])
  | 0x018 => some r.flipTime.toNat
  | 0x028 => some (s.pvInfo s.chosenPav)
  | 0x030 => some (baseWord r.poolBase)
  | 0x040 => some s.dirStatus
  | 0x100 => some v.acct.cycles.toNat
  | 0x108 => some v.acct.coreTicks.toNat
  | 0x110 => some v.acct.localBytes.toNat
  | 0x118 => some v.acct.bedBytes.toNat
  | 0x120 => some v.acct.linkBytes.toNat
  | 0x128 => some v.acct.hostBytes.toNat
  | 0x130 => some (v.acct.energy / 1000)
  | 0x138 => some (wordOf [(32, 32, v.acct.unreconciled.toNat), (0, 16, s.power.k)])
  | 0x140 => some (s.power.overhead / 1000)
  | 0x158 => some v.obs.cycleTick.toNat
  | _ => none

/-! ## Translation (R225, R226) -/

def State.mmu32 (s : State) (fn o : Nat) : Option Nat :=
  match o with
  | 0x00 => some (match s.faultPav fn with | some p => wordOf [(16, 5, bits (s.fn fn).fltSel.toNat 20 16), (0, 9, p)] | none => 0)
  | 0x08 => some (match s.faultPav fn with | some p => (s.pav p).faults.foldl (fun n f => n + 2 ^ f.1) 0 | none => 0)
  | _ => none

/-- MMU_FLT_DATA1 to MMU_FLT_DATA7 are words of the latch; MMU_FLT_DATA0 has a command of its own, by which it is the latch's. -/
def State.mmu64 (s : State) (fn o : Nat) : Option Nat :=
  if 0x40 ≤ o && o < 0x80 && o % 8 == 0 then
    some (if (s.faultPav fn).isSome then bits (s.fn fn).fltLatch.toNat ((o - 0x40) * 8 + 63) ((o - 0x40) * 8) else 0)
  else if o == 0x100 && fn == 0 then some (baseWord s.regs.winBase)
  else none

/-! ## Ports (R379) -/

/-- The port leads to the package's time parent (R358, R379). -/
def State.timePath (s : State) (p : Nat) : Bool :=
  match s.master with | some m => m != s.ownPkg && s.routeTo m == some p | none => false

def State.port32 (s : State) (p o : Nat) : Option Nat :=
  let x := s.port p
  if !s.fuse.portOn p then (if [0x00, 0x08, 0x18, 0x20].contains o then some 0 else none)
  else match o with
  | 0x00 => some (wordOf [(12, 4, x.laneOut), (8, 4, x.goodLanes), (6, 2, x.width), (3, 3, x.st), (2, 1, b2n x.peer.isSome), (1, 1, b2n (s.timePath p)), (0, 1, b2n (s.fuse.portOn p))])
  | 0x08 => some (wordOf [(3, 4, x.laneSel.toNat), (1, 1, b2n x.quiesce), (0, 1, b2n x.enable)])
  | 0x18 => some (match x.peer with | some y => wordOf [(16, 1, 1), (12, 4, y.2), (0, 12, y.1)] | none => 0)
  | 0x20 => some x.latency.toNat
  | _ => none

/-- Registers of port 0's space that the ports share. -/
def State.links32 (s : State) (o : Nat) : Option Nat :=
  match o with
  | 0x8000 => some (match s.regs.pkgId with | some i => wordOf [(12, 1, 1), (0, 12, i.toNat)] | none => 0)
  | 0x8008 => some (s.links.rtSel.toNat % 4096)
  | 0x8010 => some (Tab.getD s.links.routes (s.links.rtSel.toNat % 4096) 0).toNat
  | _ => none

def State.links64 (s : State) (o : Nat) : Option Nat :=
  let t := s.links.tsync
  let v := s.pav s.chosenPav
  match o with
  | 0x8018 => some (wordOf [(32, 32, ofSigned 32 t.offsetPs), (20, 12, t.master.toNat), (16, 4, t.depth), (1, 1, b2n t.sync), (0, 1, b2n t.eligible)])
  | 0x8020 => some (baseWord s.links.spanBase)
  | 0x8028 => some (if v.bound && v.isSpan then wordOf [(48, 16, v.span.lead), (32, 16, s.membersUp s.chosenPav), (16, 12, v.span.faultRank), (0, 2, v.span.st)] else 0)
  | _ => none

/-! ## Memory health (R180) -/

def State.mc32 (s : State) (o : Nat) : Option Nat :=
  match o with
  | 0x00 => some (s.regs.scrubCfg.toNat % 512)
  | 0x20 => some (s.regs.logSel.toNat % 64)
  | 0x40 => some (min 65535 (s.cores.foldl (fun n c => c.2.lsRepairs.foldl (fun n r => n + r.2) n) 0))
  | _ => none

def State.mc64 (s : State) (o : Nat) : Option Nat :=
  let l := s.beds.log[s.regs.logSel.toNat % 64]?
  match o with
  | 0x08 => some s.mcStatus
  | 0x10 => some s.beds.ceCount.toNat
  | 0x18 => some s.beds.ueCount.toNat
  | 0x28 => some ((l.map fun x => x.time.toNat).getD 0)
  | 0x30 => some ((l.map fun x => wordOf [(32, 32, x.whereAt), (16, 8, x.kind), (0, 16, x.location)]).getD 0)
  | _ => none

/-! ## Complications (R439, R440, R585) -/

/-- A stream's registers. -/
def Stream.reg32 (x : Stream) (o : Nat) : Option Nat :=
  match o with
  | 0x00 => some (wordOf [(28, 4, x.log2Slots), (17, 11, x.lines), (1, 1, b2n x.dir), (0, 1, b2n x.enable)])
  | 0x04 => some x.period.toNat
  | _ => none

def Stream.reg64 (x : Stream) (o : Nat) : Option Nat :=
  match o with
  | 0x08 => some x.start.toNat
  | 0x10 => some (x.devRing.toNat / 4096 * 4096)
  | 0x18 => some (x.hostRing.toNat / 4096 * 4096)
  | 0x20 => some (wordOf [(32, 32, x.next), (8, 8, x.err), (6, 2, x.urgency), (0, 2, x.st)])
  | 0x28 => some (wordOf [(48, 16, x.missing.toNat), (32, 16, x.overrun.toNat), (16, 16, x.underrun.toNat), (0, 16, x.faultWaits.toNat)])
  | _ => none

/-- The stream that a function's view shows at an offset: one of its pavilion's, or, for PF0, an engine's. -/
def State.streamSeen (s : State) (fn i : Nat) : Option Stream :=
  (s.pavOfFn fn).bind fun p => if s.hasStream p i then some (s.stream p i) else none
def State.engineSeen (s : State) (e : Nat) : Option Stream := some (((s.streamOfEngine e).map fun x => s.stream x.1 x.2).getD {})

/-- STR_MAP of an engine. -/
def State.strMap (s : State) (e : Nat) : Nat :=
  match s.streamOfEngine e with | some x => wordOf [(31, 1, 1), (16, 9, x.1), (0, 6, x.2)] | none => 0

def State.compl32 (s : State) (o : Nat) : Option Nat :=
  if o < 0x1000 then (s.engineSeen (o / 0x40)).bind fun x => x.reg32 (o % 0x40)
  else if 0x2000 ≤ o && o < 0x3000 then (s.streamSeen 0 ((o - 0x2000) / 0x40)).bind fun x => x.reg32 (o % 0x40)
  else if 0x3000 ≤ o && o < 0x3200 && o % 8 == 0 then some (s.strMap ((o - 0x3000) / 8))
  else none

def State.compl64 (s : State) (o : Nat) : Option Nat :=
  let r := s.replayer
  if o < 0x1000 then (s.engineSeen (o / 0x40)).bind fun x => x.reg64 (o % 0x40)
  else if 0x2000 ≤ o && o < 0x3000 then (s.streamSeen 0 ((o - 0x2000) / 0x40)).bind fun x => x.reg64 (o % 0x40)
  else
    match o with
    | 0x4000 => some (wordOf [(32, 32, ((s.dir.mirrorQueue.map Prod.fst).foldl (fun l i => insertUniq i l) []).length), (16, 16, s.dir.mirrorFaults.toNat), (0, 1, b2n (!s.dir.mirrorQueue.isEmpty))])
    | 0x4008 => some s.dir.mirrorBytes.toNat
    | 0x8000 => some (wordOf [(32, 32, r.records), (8, 9, r.pav), (4, 4, r.cause), (0, 2, r.mode)])
    | 0x8008 => some (wordOf [(44, 20, r.divStream), (32, 8, r.divKind), (0, 8, r.divWhy)])
    | 0x8010 => some (r.divSeq % 2 ^ 64)
    | 0x8018 => some (r.divKpos % 2 ^ 64)
    | _ => none

/-! ## Gatehouse and firmware (R496, R603) -/

def State.sec64 (s : State) (o : Nat) : Option Nat :=
  match o with
  | 0x08 => some (if s.gate.identityOk then Config.identityDigest.toNat % 2 ^ 64 else 0)
  | 0x10 => some (wordOf [(48, 16, (s.gate.sessions.filter s.alive).length), (32, 16, s.gate.releases.length), (16, 16, s.gate.imageKeys.length),
      (0, 16, s.pavs.foldl (fun n x => n + x.2.chan.keys.length) 0)])
  | 0x18 => some (wordOf [(32, 32, s.gate.sealPiece), (16, 9, s.gate.sealPav), (0, 8, s.gate.sealCause)])
  | _ => none

/-- SEC_STATUS. -/
def State.secStatus (s : State) : Nat :=
  wordOf [(8, 8, s.gate.svn.toNat), (2, 1, b2n s.fuse.debugOpen), (1, 1, b2n s.gate.identityOk), (0, 1, b2n s.gate.ready)]

def Fw.reg32 (f : Fw) (o : Nat) : Option Nat :=
  match o with
  | 0x00 => some (wordOf [(24, 8, f.svnFloor.toNat), (16, 2, f.last.toNat), (8, 1, b2n f.armed), (6, 2, f.slotB.st), (4, 2, f.slotA.st), (1, 1, b2n f.fallback), (0, 1, b2n f.active)])
  | 0x10 => some f.policy.toNat
  | _ => none

/-- FW_SLOT_VERSION. -/
def Fw.slotVersions (f : Fw) : Nat :=
  let shown := fun (x : FwSlot) => if x.st == 2 then x.version.toNat else 0
  shown f.slotA + shown f.slotB * 2 ^ 32

/-- The recovery window (R599, R600, R603). -/
def State.recovery32 (s : State) (o : Nat) : Option Nat :=
  match o with
  | 0x800000 => some s.fw.rcvWord
  | 0x800008 => some s.fw.rcvLen.toNat
  | 0x800010 => some 0
  | _ => none

/-! ## The maps (R403, R404) -/

/-- A 32-bit register of PF BAR0 as it reads. -/
def State.pfRead32 (s : State) (o : Nat) : Option Nat :=
  match o / 0x10000 with
  | 0x0 => s.identity32 o
  | 0x1 => if o == 0x10100 then some s.belv.sel.toNat else if o == 0x10120 then some 0 else none
  | 0x2 => (s.fn 0).events32 (o - 0x20000)
  | 0x4 => s.power32 (o - 0x40000)
  | 0x8 => s.rg32 0 (o - 0x80000)
  | 0xC => if o < 0xC0080 then some ((s.fn 0).msix32 ((o - 0xC0000) / 4)) else none
  | 0x20 => s.pv32 (o - 0x200000)
  | 0x30 => s.mmu32 0 (o - 0x300000)
  | 0x50 => s.mc32 (o - 0x500000)
  | 0x58 => s.compl32 (o - 0x580000)
  | 0x60 => if o == 0x600000 then some s.secStatus else none
  | 0x70 => s.fw.reg32 (o - 0x700000)
  | 0x80 => s.recovery32 o
  | b =>
    if 0x10 ≤ b && b < 0x20 then s.page32 (s.viewed ((o - 0x100000) / 0x1000)) (o ≥ 0x101000) (o % 0x1000)
    else if 0x40 ≤ b && b < 0x50 then (if b == 0x40 && o % 0x10000 ≥ 0x8000 then s.links32 (o - 0x400000) else s.port32 (b - 0x40) (o % 0x10000))
    else if 0x100 ≤ b && b < 0x200 && s.boot.stage == .recovery then some (leNat (Mem.readN s.fw.rcvBuf (o - 0x1000000) 4))
    else none

/-- A 64-bit register of PF BAR0 as it reads. -/
def State.pfRead64 (s : State) (o : Nat) : Option Nat :=
  match o / 0x10000 with
  | 0x0 => s.identity64 o
  | 0x1 => s.snap64 (o - 0x10000)
  | 0x2 => if 0x23000 ≤ o && o < 0x24000 then some ((s.fn 0).ring64 (o - 0x23000)) else none
  | 0x4 => s.power64 (o - 0x40000)
  | 0x8 => s.rg64 0 (o - 0x80000)
  | 0xC => if o == 0xC1000 then some (s.fn 0).pba.toNat else none
  | 0x20 => s.pv64 (o - 0x200000)
  | 0x30 => s.mmu64 0 (o - 0x300000)
  | 0x50 => s.mc64 (o - 0x500000)
  | 0x58 => s.compl64 (o - 0x580000)
  | 0x60 => s.sec64 (o - 0x600000)
  | 0x70 => if o == 0x700008 then some s.fw.slotVersions else none
  | b =>
    if 0x10 ≤ b && b < 0x20 then s.page64 (s.viewed ((o - 0x100000) / 0x1000)) (o ≥ 0x101000) (o % 0x1000)
    else if 0x40 ≤ b && b < 0x50 then
      (if o % 0x10000 == 0x10 then some (s.port (b - 0x40)).errWord else if b == 0x40 then s.links64 (o - 0x400000) else none)
    else none

/-- Registers of a VF's BAR0 as they read. -/
def State.vfRead32 (s : State) (fn o : Nat) : Option Nat :=
  match o / 0x1000 with
  | 0x0 => s.page32 fn false o
  | 0x1 => (s.fn fn).events32 (o - 0x1000)
  | 0x2 => s.mmu32 fn (o - 0x2000)
  | 0x3 => s.rg32 fn (o - 0x3000)
  | 0x5 => (s.streamSeen fn ((o - 0x5000) / 0x40)).bind fun x => x.reg32 (o % 0x40)
  | 0x8 => if o < 0x8080 then some ((s.fn fn).msix32 ((o - 0x8000) / 4)) else none
  | _ => none

def State.vfRead64 (s : State) (fn o : Nat) : Option Nat :=
  match o / 0x1000 with
  | 0x0 => s.page64 fn false o
  | 0x2 => s.mmu64 fn (o - 0x2000)
  | 0x3 => s.rg64 fn (o - 0x3000)
  | 0x4 => some ((s.fn fn).ring64 (o - 0x4000))
  | 0x5 => (s.streamSeen fn ((o - 0x5000) / 0x40)).bind fun x => x.reg64 (o % 0x40)
  | 0x9 => if o == 0x9000 then some (s.fn fn).pba.toNat else none
  | _ => none

def State.read32At (s : State) (fn o : Nat) : Option Nat := if fn == 0 then s.pfRead32 o else s.vfRead32 fn o
def State.read64At (s : State) (fn o : Nat) : Option Nat := if fn == 0 then s.pfRead64 o else s.vfRead64 fn o

/-- What an aligned 32-bit read returns: a register, half of one, or zero; the high half of TIME_NOW is the latch (R9, R253). -/
def State.readHalf (s : State) (fn o : Nat) : Nat :=
  match s.read32At fn o with
  | some v => v
  | none =>
    if fn == 0 && o == 0x10004 then s.regs.timeLatch.toNat
    else
      match s.read64At fn (o / 8 * 8) with
      | some v => if o % 8 == 0 then v % 2 ^ 32 else v / 2 ^ 32
      | none => 0

/-- What a host read of a function's BAR0 returns (R9, R599): zero for one that is neither 4 nor 8 aligned bytes, and in recovery for all
but the identity block and the recovery window. -/
def State.readRegister (s : State) (fn offset size : Nat) : Nat :=
  if !s.hasFn fn || !s.boot.powered || (s.boot.stage == .recovery && !recoveryReg fn offset) then 0
  else if size == 4 && offset % 4 == 0 then s.readHalf fn offset
  else if size == 8 && offset % 8 == 0 then
    match s.read64At fn offset with
    | some v => v
    | none => s.readHalf fn offset + s.readHalf fn (offset + 4) * 2 ^ 32
  else 0

end Sys2Proof.Machine
end

