-- ==== Sys2Proof/Safety.lean ====
section
/-! DEFINITION. What counts as a safe run: the memories stay in canonical form, and no command stops the block. -/

namespace Sys2Proof.Machine

/-- The byte memories of the machine are in canonical form. -/
def State.memWf (s : State) : Bool := Mem.wf s.beds.mem && Mem.wf s.beds.ls && Mem.wf s.host && Mem.wf s.fw.rcvBuf

/-- A command answers a next state. -/
def Goes (c : Instr) (s : State) : Prop := ∃ t, exec c s = .next t

/-- A command answers a next state of which `P` holds. -/
def Does (c : Instr) (s : State) (P : State → Prop) : Prop := ∃ t, exec c s = .next t ∧ P t

/-- The strand at another PC, all else as it was. -/
def Strand.withPc (t : Strand) (pc : Word32) : Strand := { t with pc := pc }

/-- Strand `strand` of core `core` can issue an instruction of `len` bytes: the core is bound, at logical index `i` of
pavilion `p`, the strand is READY and the sequencer picks it, and the instruction cache holds every line of the instruction (R66, R76 to R78). -/
structure Issues (s : State) (core strand len p i : Nat) : Prop where
  coreOk : core < 1088
  strandOk : strand < 2048
  owner : (s.core core).owner = some (p, i)
  ready : (s.strand core strand).mode = .ready
  picked : s.picks p core strand (len == 16) = true
  cached : ∀ l ∈ codeLines (s.core core).codeBase (s.strand core strand).pc len, l ∈ (s.core core).icache

/-- The state a tile instruction issues in: a slot that RESTORE has filled has taken its shape. -/
def State.atIssue (s : State) (core : Nat) (x : Flight) : State := s.adoptShape core x.engine (slotNum x.f x.xs) x.slotShape

/-- A tile instruction passes every check of its issue: a defined encoding, room in flight, nothing to wait for, no static
fault, and a PC that can advance (R78, R79, R107, R119, R152). -/
structure TileIssues (s : State) (core strand op p i : Nat) (f : TileFields) : Prop where
  issues : Issues s core strand 16 p i
  defined : (tileShape op f).undefined f = false
  room : (s.strand core strand).flights.length < 32
  coreRoom : s.coreFlights core < 256
  free : (s.strand core strand).waitsOn (s.newFlight core strand op f) = []
  legal : (s.atIssue core (s.newFlight core strand op f)).tileFault p op f (s.newFlight core strand op f).dd (s.newFlight core strand op f).ds1
    (s.newFlight core strand op f).ds2 (s.newFlight core strand op f).xs
    ((s.atIssue core (s.newFlight core strand op f)).slotOf core (s.newFlight core strand op f).engine (slotNum f (s.newFlight core strand op f).xs)) = none
  next : (s.strand core strand).pc.toNat + 16 < 2 ^ 32

/-- A tile whose pages all lie in beds of this package, or in the package page. -/
def Tab.near (m : Tab PageLoc) : Prop := ∀ y ∈ m, (∃ q cs, y.2 = PageLoc.bed q cs) ∨ y.2 = PageLoc.package

/-- The one tile of an instruction in flight can be carried out at once in state `l`: its pages resolve to `m`, its traffic leaves state
`r`, and neither an index, a source, a destination, a slot nor Replay stands in its way (R128, R130, R170, R175, R200, R564, R572). -/
structure OneTile (l r : State) (p core strand : Nat) (x : Flight) (m : Tab PageLoc) : Prop where
  one : x.extent.1 ≤ x.extent.2
  room : l.moverFull core strand x = false
  begins : x.prog = .pending
  whole : l.dropHurt p (l.tileReads p core x) = l
  indices : l.badIndex p core x = none
  pages : ∃ q, l.resolve (clusterOf core) p (x.pages (l.pav p) (l.tileRows p core x)) = (.pages m, q) ∧ q.replaying p = false ∧
    q.tileTraffic p core m x (if isMove x.op.toNat then (l.tileRows p core x).map Prod.snd else List.range x.ds1.rows) ((l.tileRows p core x).map Prod.fst) = r
  near : Tab.near m
  words : r.badLs p core x.sources = none
  slot : r.badSlot core x = false
  source : (if isMove x.op.toNat && !x.fromSlot then r.badSource p m x.ds1 ((l.tileRows p core x).map Prod.snd)
    else (x.sources.findSome? fun d => r.badSource p m d (List.range d.rows))) = none
  dest : (if isMove x.op.toNat then r.badDest m x.dd ((l.tileRows p core x).map Prod.fst) else none) = none

/-- The accumulator slot of a compute instruction admits it: TMM continues a slot of its shape, whose anchors agree with DD's unless one
is AUTO and whose counts have room; TRED FN 0x10 merges into one of the operand's shape, elements that agree with its own; TCVT from a
slot finds one of the destination's shape (R42, R46, R48, R133, R135, R137). -/
structure SlotAdmits (r : State) (p core : Nat) (x : Flight) (m : Tab PageLoc) : Prop where
  tmm : x.op = 0x90 → x.f.opt0 = false → ∃ k, r.slotOf core x.engine (slotNum x.f x.xs) = some k ∧ k.n = x.ds1.extent1 ∧ k.m = x.ds2.extent1 ∧
    ∀ a ∈ k.elems, (a.auto = true ∨ x.dd.auto = true ∨ a.anchor = x.dd.anchor) ∧ a.count.toNat + x.ds1.extent0 < 2 ^ 32
  merge : x.op = 0x92 → x.f.fn = 0x10 → ∃ k, r.slotOf core x.engine (slotNum x.f x.xs) = some k ∧ k.n = x.ds1.extent0 ∧ k.m = x.ds1.extent1 ∧
    ∀ a ∈ k.elems.zip (tileAccs x.ds1 (r.opByte p core m {} x.ds1)).flatten, Acc.mismatch a.1 a.2 = false ∧ Acc.overCount a.1 a.2 = false
  convert : x.op = 0x93 → x.f.opt0 = true → ∃ k, r.slotOf core x.engine (slotNum x.f x.xs) = some k ∧ k.n = x.dd.extent0 ∧ k.m = x.dd.extent1

/-- The instruction's only tile is done: it waits for its completion in flight (R78, R102). -/
def State.oneTileDone (s : State) (core strand : Nat) (x : Flight) : State :=
  ((s.modFlight core strand x.num fun y => { y with tile := y.tile + 1, prog := .pending, map := none }).tileMoved core strand x).unstall core strand

/-! ## Mailbox posts (R407 to R416) -/

/-- A slot of a function as a post finds it. -/
def State.slotAt (s : State) (fn slot : Nat) : MbSlot := nthD (s.fn fn).slots slot {}

/-- The name of the next post in a slot. -/
def State.postName (s : State) (fn slot : Nat) : Nat := postOf fn slot (s.slotAt fn slot).gen

/-- The state in which a posted command starts: its slot BUSY, with the request words and TAG copied (R410). -/
def State.postedAt (s : State) (fn slot : Nat) : State := s.setMb (s.postName fn slot) (s.slotAt fn slot).posted

/-- Every function has its four slots, and a command that a function reset has met was posted before its slot's present post (R400, R401). -/
def State.postsWf (s : State) : Prop :=
  (∀ f, (s.fn f).slots.length = 4) ∧ ∀ x ∈ s.orphans, x.1 / 2048 < (nthD (s.fn (postFn x.1)).slots (x.1 % 4) {}).gen

/-- A function with a mailbox page writes GO in a slot whose request words `sel` takes, while posts are accepted (R400, R410, R413). -/
structure Posts (s : State) (fn slot : Nat) (sel : (Nat → Nat) → Bool) : Prop where
  fnOk : fn < 512
  mine : Tab.find (s.postName fn slot) s.orphans = none
  slotOk : slot < 4
  page : s.hasFn fn = true
  four : (s.fn fn).slots.length = 4
  fresh : (s.slotAt fn slot).gen < 2 ^ 20
  powered : s.accepts = true
  chosen : sel (fun n => (nthD (s.slotAt fn slot).req n 0).toNat) = true

/-- The post finds its slot free, and Gaold starts commands (R410, R413). -/
structure Starts (s : State) (fn slot : Nat) (sel : (Nat → Nat) → Bool) : Prop where
  posts : Posts s fn slot sel
  free : (s.slotAt fn slot).st ≠ 1
  serving : s.serving = true

/-- Replay neither holds the command off nor records it: it names no pavilion that Replay feeds or records, or is one that is exempt
(R569, R572). -/
def State.offTape (s : State) (k : Nat) (f : CmdForm) : Prop :=
  f.named = true →
    (s.replaying (s.target k) = true → s.replayer.diverged = true ∨ (s.mb k).w 0 % 256 = 0x52) ∧
    (s.recording (s.target k) = true → (s.mb k).w 0 % 256 ∈ [0x52, 0x01, 0x50, 0x51])

/-- A started command passes every common check of its form (R415). -/
structure Passes (s : State) (fn slot : Nat) (sel : (Nat → Nat) → Bool) (f : CmdForm) : Prop where
  starts : Starts s fn slot sel
  live : (s.postedAt fn slot).offTape (s.postName fn slot) f
  checks : (s.postedAt fn slot).failedCheck (s.postName fn slot) f = none

/-- A mailbox command: its post, the request words that choose it, what its operands put into the state, and its form. -/
structure MailboxCommand where
  instr : Instr
  sel : (Nat → Nat) → Bool
  form : State → Nat → CmdForm
  before : State → State := id

/-- What the listed members of spans answer comes with PV_CHECK and PV_APPLY (R363). -/
def State.told (answers : List SpanAnswer) (s : State) : State := { s with links := { s.links with answers := answers } }

/-- The defined mailbox commands of a slot (R419). -/
def mailboxCommands (fn slot : Nat) (answers : List SpanAnswer) : List MailboxCommand :=
  [⟨.identify fn slot, opc 0x01, fun _ _ => { anyMajor := true }, id⟩,
   ⟨.pvCheck fn slot answers, opc 0x10, fun _ _ => pvCheckForm, State.told answers⟩,
   ⟨.pvApply fn slot answers, opc 0x11, fun _ _ => pvApplyForm, State.told answers⟩,
   ⟨.invalidate fn slot, opc 0x18, fun _ _ => invalidateForm, id⟩,
   ⟨.faultResolveRetry fn slot, fun w => opc 0x19 w && !bitAt (w 2) 8, fun _ _ => resolveForm, id⟩,
   ⟨.faultResolveKill fn slot, fun w => opc 0x19 w && bitAt (w 2) 8, fun _ _ => resolveForm, id⟩,
   ⟨.modelLoad fn slot, opc 0x20, fun _ _ => modelLoadForm, id⟩,
   ⟨.modelPin fn slot, fun w => opc 0x21 w && w 3 % 2 == 0, fun _ _ => pinForm, id⟩,
   ⟨.modelUnpin fn slot, fun w => opc 0x21 w && w 3 % 2 == 1, fun _ _ => pinForm, id⟩,
   ⟨.modelEvict fn slot, opc 0x22, fun _ _ => evictForm, id⟩,
   ⟨.memCopy fn slot, opc 0x24, fun s k => memCopyForm (s.pav (s.target k)).conf, id⟩,
   ⟨.run fn slot, opc 0x28, fun _ _ => runForm, id⟩] ++
  [⟨.sessionCreate fn slot, opc 0x30, fun _ _ => createForm, id⟩,
   ⟨.sessionMove fn slot, fun w => opc 0x31 w && !bitAt (w 5) 2, fun _ _ => moveForm, id⟩,
   ⟨.sessionMoveAbort fn slot, fun w => opc 0x31 w && bitAt (w 5) 2, fun _ _ => moveForm, id⟩,
   ⟨.sessionCommit fn slot, opc 0x32, fun _ _ => commitForm, id⟩,
   ⟨.sessionClose fn slot, opc 0x33, fun _ _ => closeForm, id⟩,
   ⟨.freeze fn slot, fun w => opc 0x40 w && !bitAt (w 2) 0, fun s k => freezeForm (s.pav (s.target k)), id⟩,
   ⟨.thaw fn slot, fun w => opc 0x40 w && bitAt (w 2) 0, fun s k => freezeForm (s.pav (s.target k)), id⟩,
   ⟨.save fn slot, opc 0x41, fun s k => s.saveForm (s.target k), id⟩,
   ⟨.restore fn slot, opc 0x42, fun s k => restoreForm (s.pav (s.target k)), id⟩,
   ⟨.pavReset fn slot, opc 0x44, fun _ _ => pavResetForm, id⟩,
   ⟨.pkgReset fn slot, opc 0x45, fun _ _ => pkgResetForm, id⟩] ++
  [⟨.snapshot fn slot, opc 0x50, fun s k => snapshotForm (postFn k == 0 && (s.mb k).w 1 % 512 == 0x1FF), id⟩,
   ⟨.fingerprint fn slot, opc 0x51, fun s _ => fingerprintForm s, id⟩,
   ⟨.replayStop fn slot, fun w => opc 0x52 w && w 2 % 4 != 1 && w 2 % 4 != 2, fun _ _ => replayForm, id⟩,
   ⟨.replayRecord fn slot, fun w => opc 0x52 w && w 2 % 4 == 1, fun _ _ => replayForm, id⟩,
   ⟨.replayReplay fn slot, fun w => opc 0x52 w && w 2 % 4 == 2, fun _ _ => replayForm, id⟩,
   ⟨.powerQuery fn slot, fun w => opc 0x58 w && (w 1 % 16 == 0 || decide (w 1 % 16 > 7)), fun _ _ => powerForm, id⟩,
   ⟨.powerSetCap fn slot, fun w => opc 0x58 w && w 1 % 16 == 1, fun _ _ => powerForm, id⟩,
   ⟨.powerNap fn slot, fun w => opc 0x58 w && w 1 % 16 == 2, fun _ _ => powerForm, id⟩,
   ⟨.powerDoze fn slot, fun w => opc 0x58 w && w 1 % 16 == 3, fun _ _ => powerForm, id⟩,
   ⟨.powerActive fn slot, fun w => opc 0x58 w && w 1 % 16 == 4, fun _ _ => powerForm, id⟩,
   ⟨.powerHold fn slot, fun w => opc 0x58 w && w 1 % 16 == 5, fun _ _ => powerForm, id⟩,
   ⟨.powerLimitHalf fn slot, fun w => opc 0x58 w && w 1 % 16 == 6, fun _ _ => powerForm, id⟩,
   ⟨.powerResetHalf fn slot, fun w => opc 0x58 w && w 1 % 16 == 7, fun _ _ => powerForm, id⟩,
   ⟨.fwStage fn slot, opc 0x60, fun _ _ => fwStageForm, id⟩,
   ⟨.fwActivate fn slot, opc 0x61, fun _ _ => fwActivateForm, id⟩,
   ⟨.restoreFactory fn slot, opc 0x62, fun _ _ => { pf0 := true }, id⟩,
   ⟨.recoveryArm fn slot, fun w => opc 0x63 w && bitAt (w 1) 0, fun _ _ => { pf0 := true, used := [1] }, id⟩,
   ⟨.recoveryDisarm fn slot, fun w => opc 0x63 w && !bitAt (w 1) 0, fun _ _ => { pf0 := true, used := [1] }, id⟩]

end Sys2Proof.Machine
end

