-- ==== Sys2Proof/WellFormed.lean ====
section
/-! DEFINITION. Well-formed commands: every unit that an operand names exists (R4, R11, R22, R258, R262, R316, R526, R532). The machine answers a
command that is not well formed with the fault noSuchUnit. -/

namespace Sys2Proof

/-- Units of the package by number. -/
def isCore (n : Nat) : Bool := decide (n < 1088)
def isStrand (n : Nat) : Bool := decide (n < 2048)
def isPav (n : Nat) : Bool := decide (n < 512)
def isFn (n : Nat) : Bool := decide (n < 512)
def isSlot (n : Nat) : Bool := decide (n < 4)
def isChannel (n : Nat) : Bool := decide (n < 384)
def isPort (n : Nat) : Bool := decide (n < 16)
def isStream (n : Nat) : Bool := decide (n < 64)
def isHalf (n : Nat) : Bool := decide (n < 8)
def isRail (n : Nat) : Bool := decide (n < 14)
def isDomain (n : Nat) : Bool := decide (n < 96)
def isSegment (n : Nat) : Bool := decide (n < 384)
/-- A pool of this package, and a package id. -/
def isPool (n : Nat) : Bool := decide (n < 16)
def isPkg (n : Nat) : Bool := decide (n < 4096)
/-- A translation unit: 64 clusters, 8 host movers, the stream engines of 4 dies, the Mirror. -/
def isTUnit (n : Nat) : Bool := decide (n ≤ 76)
/-- A location code of a unit with on-package links (R23, R511): a cluster unit or mesh router of the 16 of a die, a bridge edge of its
two, or its infrastructure. -/
def isLink (n : Nat) : Bool :=
  (decide (n / 4096 = 1 ∨ n / 4096 = 5) && decide (n % 1024 < 16)) || (decide (n / 4096 = 6) && decide (n % 1024 < 2))
    || (decide (n / 4096 = 7) && decide (n % 1024 = 0))
/-- A transport of SPDM: a function's DOE, or 512 for MCTP. -/
def isVia (n : Nat) : Bool := decide (n ≤ 512)

def HostTarget.wf : HostTarget → Bool
  | .tile core strand _ => isCore core && isStrand strand
  | .command fn slot => isFn fn && isSlot slot

/-- The units that a command names exist. -/
def Instr.wf : Instr → Bool
  | .nop core strand _ => isCore core && isStrand strand
  | .add core strand _ => isCore core && isStrand strand
  | .sub core strand _ => isCore core && isStrand strand
  | .mul core strand _ => isCore core && isStrand strand
  | .and core strand _ => isCore core && isStrand strand
  | .or core strand _ => isCore core && isStrand strand
  | .xor core strand _ => isCore core && isStrand strand
  | .shl core strand _ => isCore core && isStrand strand
  | .shr core strand _ => isCore core && isStrand strand
  | .sar core strand _ => isCore core && isStrand strand
  | .min core strand _ => isCore core && isStrand strand
  | .max core strand _ => isCore core && isStrand strand
  | .cmp core strand _ => isCore core && isStrand strand
  | .movi core strand _ => isCore core && isStrand strand
  | .movhi core strand _ => isCore core && isStrand strand
  | .lds core strand _ _ => isCore core && isStrand strand
  | .sts core strand _ => isCore core && isStrand strand
  | .setd core strand _ => isCore core && isStrand strand
  | .getd core strand _ => isCore core && isStrand strand
  | .ldd core strand _ => isCore core && isStrand strand
  | .std core strand _ => isCore core && isStrand strand
  | .rdas core strand _ => isCore core && isStrand strand
  | .clas core strand _ => isCore core && isStrand strand
  | .setsrc core strand _ => isCore core && isStrand strand
  | .rdsrc core strand _ => isCore core && isStrand strand
  | .rdtime core strand _ => isCore core && isStrand strand
  | .br core strand _ => isCore core && isStrand strand
  | .jmp core strand _ => isCore core && isStrand strand
  | .jmpr core strand _ => isCore core && isStrand strand
  | .call core strand _ => isCore core && isStrand strand
  | .spawn core strand _ => isCore core && isStrand strand
  | .yield core strand _ => isCore core && isStrand strand
  | .exit core strand _ => isCore core && isStrand strand
  | .fence core strand _ => isCore core && isStrand strand
  | .tld core strand _ => isCore core && isStrand strand
  | .tst core strand _ => isCore core && isStrand strand
  | .tcp core strand _ => isCore core && isStrand strand
  | .tgather core strand _ => isCore core && isStrand strand
  | .tscatter core strand _ => isCore core && isStrand strand
  | .tmm core strand _ => isCore core && isStrand strand
  | .tvop core strand _ => isCore core && isStrand strand
  | .tred core strand _ => isCore core && isStrand strand
  | .tcvt core strand _ => isCore core && isStrand strand
  | .tdec core strand _ => isCore core && isStrand strand
  | .tsend core strand _ => isCore core && isStrand strand
  | .trecv core strand _ => isCore core && isStrand strand
  | .tput core strand _ => isCore core && isStrand strand
  | .tget core strand _ => isCore core && isStrand strand
  | .tbar core strand _ => isCore core && isStrand strand
  | .twait core strand _ => isCore core && isStrand strand
  | .tcommit core strand _ => isCore core && isStrand strand
  | .icacheFill core strand => isCore core && isStrand strand
  | .strandWake core strand => isCore core && isStrand strand
  | .tileInstructionComplete core strand _ => isCore core && isStrand strand
  | .messageMatch pav _ => isPav pav
  | .episodeOpen core strand _ => isCore core && isStrand strand
  | .shadowLoadComplete core buf => isCore core && decide (buf < 8)
  | .predicateResolve core strand => isCore core && isStrand strand
  | .shadowPromote core strand buf => isCore core && isStrand strand && decide (buf < 8)
  | .tileTranslate core strand _ => isCore core && isStrand strand
  | .pageWalkRead unit pav _ level => isTUnit unit && isPav pav && decide (level ≤ 2)
  | .syncArrivalForward pav node _ => isPav pav && decide (node ≤ 75)
  | .releaseDecide pav _ => isPav pav
  | .barrierRelease pav barrier => isPav pav && decide (barrier ≤ 15)
  | .stepCommitRelease pav => isPav pav
  | .kernelCompleteCore core => isCore core
  | .kernelCompletePavilion pav => isPav pav
  | .kernelStart pav => isPav pav
  | .runBegin pav => isPav pav
  | .watchdogExpire pav => isPav pav
  | .pieceResident pav _ => isPav pav
  | .sliceFillComplete pav _ => isPav pav
  | .pieceOverwrite core segment => isCore core && isSegment segment
  | .mcServeAccess channel _ => isChannel channel
  | .refresh channel => isChannel channel
  | .dramTemperatureReport channel _ => isChannel channel
  | .patrolScrubRead channel _ => isChannel channel
  | .lsRowRepair core bank segment => isCore core && decide (bank < 64) && isSegment segment
  | .spareChannelStart channel _ => isChannel channel
  | .spareCopyComplete channel => isChannel channel
  | .channelFailure channel => isChannel channel
  | .lsZeroComplete core => isCore core
  | .granuleZeroComplete channel granule => isChannel channel && decide (granule < 3590)
  | .bulkMessageArrive _ => true
  | .replyArrive _ => true
  | .onpkgFlitError loc lane => isLink loc && decide (lane < 65536)
  | .onpkgLaneSpare loc lane => isLink loc && decide (lane < 65536)
  | .timeTick => true
  | .timeBroadcast => true
  | .dlPortEnable port _ => isPort port
  | .portTrainComplete port lanes _ peerPort => isPort port && isPort peerPort && decide (lanes ≤ 9)
  | .dlLaneSpare port lane => isPort port && decide (lane ≤ 8)
  | .dlSpareNow port lane => isPort port && decide (lane ≤ 15)
  | .portRetrainNarrow port lanes => isPort port && decide (lanes ≤ 9)
  | .dataFlitReceive port _ => isPort port
  | .flitReplay port fseq => isPort port && decide (fseq < 65536)
  | .syncFlitReceive port _ => isPort port
  | .linkFlitReceive port _ => isPort port
  | .portLeaveUp port => isPort port
  | .timestampExchange port _ => isPort port
  | .dlPkgIdWrite _ => true
  | .dlRtDataWrite _ => true
  | .dlQuiesce port => isPort port
  | .dlSpanBaseWrite _ => true
  | .windingAbortReceive _ _ _ => true
  | .peerLossDetect pav _ => isPav pav
  | .spanDeliveryStart pav => isPav pav
  | .spanRollupCompare pav _ _ _ _ => isPav pav
  | .regWindowEnd _ _ => true
  | .regScaleChange channel => isChannel channel
  | .regScaleRestore channel => isChannel channel
  | .streamUrgencyChange pav stream _ _ => isPav pav && isStream stream
  | .identify fn slot => isFn fn && isSlot slot
  | .pvCheck fn slot _ => isFn fn && isSlot slot
  | .pvApply fn slot _ => isFn fn && isSlot slot
  | .applyPrepareDone => true
  | .applyHold pav => isPav pav
  | .applyCopyDone => true
  | .applyDrainTimeout pav => isPav pav
  | .epochFlip => true
  | .applyPavilionResume pav => isPav pav
  | .invalidate fn slot => isFn fn && isSlot slot
  | .invalidateReceive unit fn slot => isTUnit unit && isFn fn && isSlot slot
  | .invalidateDrainComplete fn slot => isFn fn && isSlot slot
  | .faultResolveRetry fn slot => isFn fn && isSlot slot
  | .faultResolveKill fn slot => isFn fn && isSlot slot
  | .modelLoad fn slot => isFn fn && isSlot slot
  | .modelPin fn slot => isFn fn && isSlot slot
  | .modelUnpin fn slot => isFn fn && isSlot slot
  | .modelEvict fn slot => isFn fn && isSlot slot
  | .memCopy fn slot => isFn fn && isSlot slot
  | .run fn slot => isFn fn && isSlot slot
  | .sessionCreate fn slot => isFn fn && isSlot slot
  | .sessionMove fn slot => isFn fn && isSlot slot
  | .sessionMoveAbort fn slot => isFn fn && isSlot slot
  | .sessionCopyComplete _ => true
  | .sessionCommit fn slot => isFn fn && isSlot slot
  | .sessionClose fn slot => isFn fn && isSlot slot
  | .directoryRecordWrite _ => true
  | .sessionDropReceive pool _ _ => isPool pool
  | .sessionOwnReceive pool _ _ _ => isPool pool
  | .sessionSealReceive pool _ => isPool pool
  | .sessionServeReport _ => true
  | .commitPendingTimeout _ => true
  | .sessionFetch pool _ _ => isPool pool
  | .renewalSend => true
  | .renewalReceive directory pool renewal => isPool pool && isPkg directory && isPkg renewal.sender
  | .leaseLapse directory pool => isPool pool && isPkg directory
  | .ownershipTakeover _ => true
  | .poolLoss pool => decide (pool < 65536)
  | .poolUnreachableTimeout pool => decide (pool < 65536)
  | .mirrorUpdateComplete _ _ => true
  | .directoryResyncComplete _ => true
  | .pvDirCtlWrite _ => true
  | .windowRequestReceive _ => true
  | .freeze fn slot => isFn fn && isSlot slot
  | .freezeTakeHold pav => isPav pav
  | .freezeTimeout pav => isPav pav
  | .thaw fn slot => isFn fn && isSlot slot
  | .save fn slot => isFn fn && isSlot slot
  | .restore fn slot => isFn fn && isSlot slot
  | .pavReset fn slot => isFn fn && isSlot slot
  | .resetTick pav => isPav pav
  | .pavResetReady pav => isPav pav
  | .pkgReset fn slot => isFn fn && isSlot slot
  | .warmReset _ => true
  | .coldReset _ => true
  | .snapshot fn slot => isFn fn && isSlot slot
  | .snapshotTick set => decide (set < 4)
  | .fingerprint fn slot => isFn fn && isSlot slot
  | .fingerprintTick _ => true
  | .replayStop fn slot => isFn fn && isSlot slot
  | .replayRecord fn slot => isFn fn && isSlot slot
  | .replayReplay fn slot => isFn fn && isSlot slot
  | .powerQuery fn slot => isFn fn && isSlot slot
  | .powerSetCap fn slot => isFn fn && isSlot slot
  | .powerNap fn slot => isFn fn && isSlot slot
  | .powerDoze fn slot => isFn fn && isSlot slot
  | .powerActive fn slot => isFn fn && isSlot slot
  | .powerHold fn slot => isFn fn && isSlot slot
  | .powerLimitHalf fn slot => isFn fn && isSlot slot
  | .powerResetHalf fn slot => isFn fn && isSlot slot
  | .fwStage fn slot => isFn fn && isSlot slot
  | .fwActivate fn slot => isFn fn && isSlot slot
  | .fwActivatePause _ => true
  | .fwImageReady => true
  | .fwActivateTimeout => true
  | .restoreFactory fn slot => isFn fn && isSlot slot
  | .recoveryArm fn slot => isFn fn && isSlot slot
  | .recoveryDisarm fn slot => isFn fn && isSlot slot
  | .fwRcvGo => true
  | .recoveryImageWritten _ => true
  | .fwBootComplete _ => true
  | .bootReadyTimeout => true
  | .mbHchResume fn => isFn fn
  | .hostChannelError pav cause _ => decide (pav ≤ 512) && cause != 0 && decide (cause ≤ 6)
  | .pcieCompletionTimeout target => target.wf
  | .hostDeliveryComplete pav => isPav pav
  | .evtTailWrite fn _ => isFn fn
  | .evtOverflowClear fn => isFn fn
  | .mmuFltData0Read fn => isFn fn
  | .mmuFltSelWrite fn _ => isFn fn
  | .timeNowLowRead => true
  | .rgPavStatRead fn => isFn fn
  | .pvTableBaseWrite _ => true
  | .mmuWinBaseWrite _ => true
  | .pvPoolBaseWrite _ => true
  | .streamEnable pav stream => isPav pav && isStream stream
  | .streamDisable pav stream => isPav pav && isStream stream
  | .streamInFrame pav stream _ => isPav pav && isStream stream
  | .streamInDeviceWrite pav stream => isPav pav && isStream stream
  | .streamOutPoll pav stream _ => isPav pav && isStream stream
  | .streamOutFrame pav stream => isPav pav && isStream stream
  | .pwrPadReleaseWrite _ => true
  | .pwrCapWrite _ => true
  | .snapFreeWrite _ => true
  | .pkgFatalClear => true
  | .bar2Read _ _ => true
  | .bar2Write _ _ => true
  | .registerWrite fn _ _ _ => isFn fn
  | .energyInterval cycles _ => cycles.all (fun x => isPav x.1)
  | .telemetryRead readings => readings.all (fun x => isRail x.1)
  | .avsResponse rail _ => isRail rail
  | .avsTimeout rail => isRail rail
  | .divisorChange half => isHalf half
  | .escapementStep half _ => isHalf half
  | .droopDetect half _ => isHalf half
  | .droopRecover half _ => isHalf half
  | .supplyResetDip half _ => isHalf half
  | .thermalThrottleStep half _ => isHalf half
  | .thermalRelaxStep half _ => isHalf half
  | .thermalClamp half _ => isHalf half
  | .thermtrip half _ => isHalf half
  | .thermtripClear => true
  | .ageingMeasure half _ => isHalf half
  | .domainIdleOff domain => isDomain domain
  | .calibrationWrite => true
  | .pmeTurnOff => true
  | .smbusWakeMatch _ => true
  | .refclkStop => true
  | .refclkValid straps => decide (straps ≤ 7)
  | .pwrgdInAssert silent => silent.all isRail
  | .powerLoss => true
  | .perstNAssert => true
  | .perstNRelease => true
  | .pcieLinkDown => true
  | .vfFlr fn => fn != 0 && isFn fn
  | .pf0Flr => true
  | .vfEnableClear => true
  | .dieHalfResetStart half => isHalf half
  | .dieHalfReady half => isHalf half
  | .cpWatchdogExpire core posts => decide (core < 5) && posts.all (fun x => isFn x.1 && isSlot x.2)
  | .cpRecoveryDone => true
  | .pkgUnitUncorrectable unit pav => decide (unit ≤ 14) && isPav pav
  | .coreSpare core _ => isCore core
  | .coreSpareCopyDone core => isCore core
  | .coreDeath core => isCore core
  | .smbusMctp _ _ => true
  | .smbusWarmReset _ => true
  | .smbusColdReset _ => true
  | .smbusStatusRead => true
  | .smbusAlertResponse => true
  | .smbusRcvOffset _ _ => true
  | .smbusRcvWrite _ _ => true
  | .smbusRcvStart _ _ => true
  | .smbusRcvStatus _ => true
  | .getVersion via => isVia via
  | .getCapabilities via _ => isVia via
  | .negotiateAlgorithms via _ => isVia via
  | .getDigests via _ => isVia via
  | .getCertificate via _ _ _ _ => isVia via
  | .challenge via _ _ _ => isVia via
  | .getMeasurements via _ _ _ _ => isVia via
  | .keyExchange via _ _ => isVia via
  | .finish via _ => isVia via
  | .heartbeat via _ => isVia via
  | .keyUpdate via _ => isVia via
  | .endSession via _ => isVia via
  | .chunkSend via _ _ => isVia via
  | .chunkGet via _ => isVia via
  | .spdmUnsupportedRequest via => isVia via
  | .getKemCert via _ => isVia via
  | .installHostKey via _ _ => isVia via
  | .removeHostKey via _ _ => isVia via
  | .releaseModel via _ _ => isVia via
  | .revokeModel via _ _ => isVia via
  | .installImageKey via _ _ => isVia via
  | .removeImageKey via _ _ => isVia via
  | .undefinedEncoding core strand _ _ => isCore core && isStrand strand
  | .mbUnknown fn slot => isFn fn && isSlot slot
  | .pcieCompletionReceive target _ => target.wf
  | .pcieLinkUp => true
  | .vfEnableSet count => decide (count ≤ 511)
  | .refclkReturn => true
  | .bridgeLaneRepair edge module lane => decide (edge < 4) && decide (module < 40) && decide (lane < 64)
  | .fwSlotWritten => true

end Sys2Proof
end

