-- ==== Sys2Proof/Certificates/Slice0/Obligations.lean ====
section
/-! DEFINITION. The statements for the provers. -/

open Sys2Proof Sys2Proof.Machine

/-- For ADD, SUB, MUL, AND, OR, XOR, SHL, SHR, SAR, MIN and MAX, issued by a READY strand of a bound core whose instruction cache holds the instruction, with a defined encoding and a PC that can advance: exec answers the next state in which the strand has op(a, B) in register d (discarded for sz) and PC + 8, and nothing else of the whole state differs. B is sext(IMM) with USEIMM and register SRCB else; shift amounts are B mod 64; MIN and MAX are signed. -/
def Obligations.AluResults : Prop :=
  ∀ (s : State) (core strand p i : Nat) (f : ScalarFields), Issues s core strand 8 p i → shapeAlu.undefined f = false →
    (s.strand core strand).pc.toNat + 8 < 2 ^ 32 →
    ∀ x ∈ ([(.add core strand f, fun a b => a + b), (.sub core strand f, fun a b => a - b), (.mul core strand f, fun a b => a * b),
        (.and core strand f, fun a b => a &&& b), (.or core strand f, fun a b => a ||| b), (.xor core strand f, fun a b => a ^^^ b),
        (.shl core strand f, fun a b => a <<< (b.toNat % 64)), (.shr core strand f, fun a b => a >>> (b.toNat % 64)),
        (.sar core strand f, fun a b => a.sshiftRight (b.toNat % 64)),
        (.min core strand f, fun a b => if a.toInt < b.toInt then a else b),
        (.max core strand f, fun a b => if a.toInt < b.toInt then b else a)] : List (Instr × (Word64 → Word64 → Word64))),
      let t := s.strand core strand
      let b := if f.useImm then f.imm.signExtend 64 else t.reg f.srcb
      exec x.1 s = .next (s.setStrand core strand ((t.setReg f.dst (x.2 (t.reg f.srca) b)).withPc (t.pc + 8)))

/-- Each of these, issued with a defined encoding and a PC that can advance, answers the next state in which its strand has the result the opcode gives and PC + 8, and nothing else of the state differs (but RDAS, CLAS and RDSRC count the occurrence of their address, and at one that has stood at a predicate the predictor takes the value first; RDAS and CLAS wait for the instructions in flight that write ASTAT, RDSRC and SETSRC for those that draw from SRC, and are taken here once none is left): CMP 1 or 0 by the FN condition; MOVI sext(IMM); MOVHI the upper 32 bits of d become IMM; RDAS ASTAT; RDSRC SRC; RDTIME the current TIME; GETD the FN field of slot SRCB; SETD the FN field of slot DST = low bits of a + sext(IMM); CLAS ASTAT and not B; SETSRC SRC = a + sext(IMM); NOP nothing. -/
def Obligations.MoveAndCompareResults : Prop :=
  ∀ (s : State) (core strand p i : Nat) (f : ScalarFields), Issues s core strand 8 p i →
    (s.strand core strand).pc.toNat + 8 < 2 ^ 32 →
    let t := s.strand core strand
    let b := if f.useImm then f.imm.signExtend 64 else t.reg f.srcb
    let sum := t.reg f.srca + f.imm.signExtend 64
    let holds := match f.fn.toNat with
      | 0 => decide (t.reg f.srca = b)
      | 1 => decide (t.reg f.srca ≠ b)
      | 2 => decide ((t.reg f.srca).toInt < b.toInt)
      | 3 => decide (b.toInt ≤ (t.reg f.srca).toInt)
      | 4 => decide ((t.reg f.srca).toNat < b.toNat)
      | _ => decide (b.toNat ≤ (t.reg f.srca).toNat)
    (∀ x ∈ ([(.cmp core strand f, shapeCmp, t.setReg f.dst (if holds then 1 else 0)),
        (.movi core strand f, shapeMovi, t.setReg f.dst (f.imm.signExtend 64)),
        (.movhi core strand f, shapeMovi, t.setReg f.dst (f.imm ++ (t.reg f.dst).truncate 32 : BitVec 64)),
        (.rdtime core strand f, shapeDst, t.setReg f.dst s.time.now),
        (.getd core strand f, shapeGetd, t.setReg f.dst (Desc.get (t.desc f.srcb) f.fn.toNat)),
        (.setd core strand f, shapeSetd, t.setDesc f.dst (Desc.set (t.desc f.dst) f.fn.toNat sum)),
        (.nop core strand f, shapeNone, t)] : List (Instr × ScalarShape × Strand)),
      x.2.1.undefined f = false → exec x.1 s = .next (s.setStrand core strand (x.2.2.withPc (t.pc + 8)))) ∧
    (shapeSetsrc.undefined f = false → t.srcBlockers = [] →
      exec (.setsrc core strand f) s = .next (s.setStrand core strand ({ t with src := sum }.withPc (t.pc + 8)))) ∧
    ∀ x ∈ ([(.rdas core strand f, shapeDst, t.astatBlockers, t.astat.zeroExtend 64, fun v => v.setReg f.dst (t.astat.zeroExtend 64)),
        (.clas core strand f, shapeClas, t.astatBlockers, t.astat.zeroExtend 64, fun v => { v with astat := t.astat &&& ~~~(b.truncate 32) }),
        (.rdsrc core strand f, shapeDst, t.srcBlockers, t.src, fun v => v.setReg f.dst t.src)] :
          List (Instr × ScalarShape × List Nat × Word64 × (Strand → Strand))),
      x.2.1.undefined f = false → x.2.2.1 = [] →
      let u := if t.predicates.contains t.pc.toNat then s.predict core strand x.2.2.2.1 else s.countOcc core strand
      exec x.1 s = .next (u.setStrand core strand ((x.2.2.2.2 (u.strand core strand)).withPc (t.pc + 8)))

/-- Codes 0 to 5 read s0 to s5, code 6 (sz) reads zero and a write to it changes nothing; a write of another code reads back and keeps every other register, the PC, SRC, ASTAT, slots and flights. FN 0 to 7 names BASE, STRIDE1, STRIDE0, EXTENT0, EXTENT1, FMT, LOC, and ANCHOR with AUTO: GETD's value is that field's bits, SETD's leaves the low bits of the value that fit in them and every other bit of the slot as it was. -/
def Obligations.RegisterAndDescriptorFieldsReadBack : Prop :=
  (∀ (t : Strand) (d r : BitVec 3) (v : Word64),
    t.reg 0 = t.s0 ∧ t.reg 1 = t.s1 ∧ t.reg 2 = t.s2 ∧ t.reg 3 = t.s3 ∧ t.reg 4 = t.s4 ∧ t.reg 5 = t.s5 ∧ t.reg 6 = 0 ∧ t.setReg 6 v = t ∧
    (d.toNat < 6 → (t.setReg d v).reg d = v) ∧ (r ≠ d → (t.setReg d v).reg r = t.reg r) ∧
    (t.setReg d v).pc = t.pc ∧ (t.setReg d v).src = t.src ∧ (t.setReg d v).astat = t.astat ∧ (t.setReg d v).descs = t.descs ∧
    (t.setReg d v).flights = t.flights ∧ (t.setReg d v).mode = t.mode) ∧
  ∀ (d : Desc) (v : Word64), ∀ x ∈ ([(0, 63, 0), (1, 95, 64), (2, 111, 96), (3, 151, 128), (4, 175, 152), (5, 180, 176), (6, 183, 181), (7, 194, 184)] :
      List (Nat × Nat × Nat)),
    Desc.get d x.1 = BitVec.ofNat 64 (d.toNat / 2 ^ x.2.2 % 2 ^ (x.2.1 + 1 - x.2.2)) ∧
    Desc.get (Desc.set d x.1 v) x.1 = BitVec.ofNat 64 (v.toNat % 2 ^ (x.2.1 + 1 - x.2.2)) ∧
    ∀ b, b < 256 → (b < x.2.2 ∨ x.2.1 < b) → (Desc.set d x.1 v).getLsbD b = d.getLsbD b

/-- A legal LDS (aligned to its width, wholly in scratch, overlapping no destination in flight, meeting no uncorrectable error) puts 1, 2, 4 or 8 scratch bytes, sign-extended with FN[2], into d; a legal LDD puts 32 scratch bytes into slot DST; the strand goes on at PC + 8. The bytes of the beds and the local stores, every other strand, the pavilions and the rest of the strand (but the count of the occurrences of its address) stay as they were. -/
def Obligations.ScratchLoads : Prop :=
  ∀ (s : State) (core strand p i : Nat) (f : ScalarFields), Issues s core strand 8 p i →
    let t := s.strand core strand
    let a := (t.reg f.srca + f.imm.signExtend 64).toNat
    t.pc.toNat + 8 < 2 ^ 32 →
    (∀ err : SramErr, sramOutcome err.symbols = .clean → shapeLds.undefined f = false →
      let w := 2 ^ (f.fn.toNat % 4)
      a % w = 0 → a + w ≤ (s.pav p).scratchBytes → t.blockers ⟨0, a, w⟩ false = [] → s.lsHurt core a w = false →
      let raw := leNat (s.readLs core a w)
      let v : Word64 := if f.fn.getLsbD 2 then BitVec.ofInt 64 (toSigned (8 * w) raw) else BitVec.ofNat 64 raw
      Does (.lds core strand f err) s fun s' =>
        s'.strand core strand = { t.setReg f.dst v with pc := t.pc + 8, occ := Tab.put t.pc.toNat (Tab.getD t.occ t.pc.toNat 0 + 1) t.occ } ∧
        s'.beds = s.beds ∧ s'.pavs = s.pavs ∧ s'.fns = s.fns ∧ (∀ k, k ≠ core * 2048 + strand → Tab.find k s'.strands = Tab.find k s.strands) ∧
        ∀ c, c ≠ core → s'.core c = s.core c) ∧
    (shapeLdd.undefined f = false →
      a % 32 = 0 → a + 32 ≤ (s.pav p).scratchBytes → t.blockers ⟨0, a, 32⟩ false = [] → s.lsHurt core a 32 = false →
      Does (.ldd core strand f) s fun s' =>
        s'.strand core strand = { t.setDesc f.dst (BitVec.ofNat 256 (leNat (s.readLs core a 32))) with
          pc := t.pc + 8, occ := Tab.put t.pc.toNat (Tab.getD t.occ t.pc.toNat 0 + 1) t.occ } ∧
        s'.beds = s.beds ∧ s'.pavs = s.pavs ∧ s'.fns = s.fns ∧ (∀ k, k ≠ core * 2048 + strand → Tab.find k s'.strands = Tab.find k s.strands) ∧
        ∀ c, c ≠ core → s'.core c = s.core c)

/-- A legal STS stores the low 1, 2, 4 or 8 bytes of register SRCB, a legal STD the 32 bytes of slot SRCB, little-endian, at a + sext(IMM) of the core's scratch; the strand goes on at PC + 8. The stored bytes read back, every other byte of every local store and of the beds reads as before, and nothing but the strand's PC and the error marks of the words it overwrites differs. -/
def Obligations.ScratchStores : Prop :=
  ∀ (s : State) (core strand p i : Nat) (f : ScalarFields), Issues s core strand 8 p i →
    let t := s.strand core strand
    let a := (t.reg f.srca + f.imm.signExtend 64).toNat
    let w := 2 ^ (f.fn.toNat % 4)
    t.pc.toNat + 8 < 2 ^ 32 →
    (shapeSts.undefined f = false → a % w = 0 → a + w ≤ (s.pav p).scratchBytes → t.blockers ⟨0, a, w⟩ true = [] →
      exec (.sts core strand f) s = .next ((s.writeLs core a (leBytes w (t.reg f.srcb).toNat)).setStrand core strand (t.withPc (t.pc + 8)))) ∧
    (shapeStd.undefined f = false → a % 32 = 0 → a + 32 ≤ (s.pav p).scratchBytes → t.blockers ⟨0, a, 32⟩ true = [] →
      exec (.std core strand f) s = .next ((s.writeLs core a (leBytes 32 (t.desc f.srcb).toNat)).setStrand core strand (t.withPc (t.pc + 8)))) ∧
    (Mem.wf s.beds.ls = true → ∀ x ∈ ([(.sts core strand f, shapeSts, 2 ^ (f.fn.toNat % 4), (t.reg f.srcb).toNat),
        (.std core strand f, shapeStd, 32, (t.desc f.srcb).toNat)] : List (Instr × ScalarShape × Nat × Nat)),
      x.2.1.undefined f = false → a % x.2.2.1 = 0 → a + x.2.2.1 ≤ (s.pav p).scratchBytes → t.blockers ⟨0, a, x.2.2.1⟩ true = [] →
      Does x.1 s fun s' =>
        s'.readLs core a x.2.2.1 = leBytes x.2.2.1 x.2.2.2 ∧
        (∀ k, (k < lsKey core a ∨ lsKey core a + x.2.2.1 ≤ k) → Mem.read s'.beds.ls k = Mem.read s.beds.ls k) ∧
        ∃ marks, s' = { s.setStrand core strand (t.withPc (t.pc + 8)) with beds := { s.beds with ls := s'.beds.ls, lsBad := marks } })

/-- With a defined encoding, JMP, JMPR, CALL and a taken BR set the PC to the target (PC + 8 × sext(IMM), or a for JMPR, which must be a multiple of 8), CALL also writes the old PC + 8 to d, and a BR not taken goes to PC + 8. Nothing else differs. A target below 0 or at or above 2^32, or a misaligned JMPR, takes the kernel fault ALIGN_FAULT (0x07) with the target in DETAIL. -/
def Obligations.BranchesAndJumps : Prop :=
  ∀ (s : State) (core strand p i : Nat) (f : ScalarFields), Issues s core strand 8 p i →
    let t := s.strand core strand
    let rel : Int := (t.pc.toNat : Int) + f.imm.toInt * 8
    let a := t.reg f.srca
    let b := t.reg f.srcb
    let holds : Prop := match f.fn.toNat with
      | 0 => a = b | 1 => a ≠ b | 2 => a.toInt < b.toInt | 3 => b.toInt ≤ a.toInt | 4 => a.toNat < b.toNat | _ => b.toNat ≤ a.toNat
    (shapeBr.undefined f = false → ¬ holds → t.pc.toNat + 8 < 2 ^ 32 →
      exec (.br core strand f) s = .next (s.setStrand core strand (t.withPc (t.pc + 8)))) ∧
    (shapeJmpr.undefined f = false →
      exec (.jmpr core strand f) s = .next (if a.toNat % 8 = 0 ∧ a.toNat < 2 ^ 32
        then s.setStrand core strand (t.withPc (a.truncate 32)) else s.kernelFault core strand 0x07 0x42 0 a.toNat)) ∧
    (∀ x ∈ ([(.br core strand f, shapeBr, holds, 0x40, t), (.jmp core strand f, shapeJmp, True, 0x41, t),
        (.call core strand f, shapeCall, True, 0x43, t.setReg f.dst (t.pc.zeroExtend 64 + 8))] : List (Instr × ScalarShape × Prop × Nat × Strand)),
      x.2.1.undefined f = false → x.2.2.1 →
      exec x.1 s = .next (if 0 ≤ rel ∧ rel < 2 ^ 32 then s.setStrand core strand (x.2.2.2.2.withPc (BitVec.ofInt 32 rel))
        else s.kernelFault core strand 0x07 x.2.2.2.1 0 (rel % 2 ^ 64).toNat))

/-- Issued with a defined encoding and a PC that can advance, each of SPAWN, YIELD, EXIT and FENCE answers a next state. SPAWN with a legal target and a FREE strand starts the lowest one: READY, last, at the target with register s0 = a, the class FN, the spawner's descriptors and layer, its other registers zero; the spawner goes on at PC + 8. YIELD keeps a strand of which no instruction in flight holds it READY at PC + 8, behind every strand that became READY before. EXIT with nothing in flight makes the strand FREE. FENCE with nothing in flight goes on at PC + 8 (with FN 1, the strand of a span member also tells the other members). All four drop the strand's shadow buffers, and but for those, the strands named, the order count and FENCE's messages nothing changes. -/
def Obligations.StrandControl : Prop :=
  ∀ (s : State) (core strand p i : Nat) (f : ScalarFields), Issues s core strand 8 p i →
    let t := s.strand core strand
    let rel : Int := (t.pc.toNat : Int) + f.imm.toInt * 8
    let others := fun (u : State) => u.beds = s.beds ∧ u.pavs = s.pavs ∧ u.fns = s.fns ∧ u.regs = s.regs ∧ ∀ c, c ≠ core → u.core c = s.core c
    t.pc.toNat + 8 < 2 ^ 32 →
    (∀ n, shapeSpawn.undefined f = false → 0 ≤ rel → rel < 2 ^ 32 → n < 2048 → (s.strand core n).mode = .free →
      (∀ m, m < n → (s.strand core m).mode ≠ .free) →
      ∃ u, exec (.spawn core strand f) s = .next u ∧ u.order = s.order + 1 ∧
        u.strand core n = { mode := .ready, cls := f.fn.truncate 2, layer := t.layer, pc := BitVec.ofInt 32 rel, s0 := t.reg f.srca,
                            descs := t.descs, readyAt := s.order + 1 } ∧
        u.strand core strand = t.withPc (t.pc + 8) ∧ others u ∧
        ∀ k, k ≠ core * 2048 + strand → k ≠ core * 2048 + n → Tab.find k u.strands = Tab.find k s.strands) ∧
    (shapeNone.undefined f = false →
      (t.flights.findSome? Flight.stall = none → ∃ u, exec (.yield core strand f) s = .next u ∧ u.order = s.order + 1 ∧
        u.strand core strand = { t with pc := t.pc + 8, wait := .none, readyAt := s.order + 1 } ∧ others u ∧
        ∀ k, k ≠ core * 2048 + strand → Tab.find k u.strands = Tab.find k s.strands) ∧
      (t.flights = [] → exec (.exit core strand f) s = .next ((s.dropShadows core strand).setStrand core strand {}))) ∧
    (shapeFence.undefined f = false → t.flights = [] →
      (f.fn = 0 ∨ (s.pav p).isSpan = false → exec (.fence core strand f) s = .next ((s.dropShadows core strand).setStrand core strand (t.withPc (t.pc + 8)))) ∧
      (f.fn ≠ 0 → (s.pav p).isSpan = true → ∃ u, exec (.fence core strand f) s = .next u ∧
        u.strand core strand = t.withPc (t.pc + 8) ∧ others u ∧ ∀ k, k ≠ core * 2048 + strand → Tab.find k u.strands = Tab.find k s.strands))

/-- A movement instruction that passes the checks of its issue, has no shadow buffer and whose only tile lies in scratch, beds of this package or the package page, with no bad index, bad line or Replay in its way, answers the next state in which it is in flight with all its bytes moved (its source bytes written row by row to its destination) and the strand stands at PC + 16. TPUT first drops the strand's shadow buffers. -/
def Obligations.MovementMovesOneTile : Prop :=
  ∀ (s r : State) (core strand p i : Nat) (f : TileFields) (m : Tab PageLoc),
    ∀ y ∈ ([(.tld core strand f, 0x80), (.tst core strand f, 0x81), (.tcp core strand f, 0x82), (.tgather core strand f, 0x83),
        (.tscatter core strand f, 0x84), (.tput core strand f, 0xA2), (.tget core strand f, 0xA3)] : List (Instr × Nat)),
      TileIssues s core strand y.2 p i f →
      let x := s.newFlight core strand y.2 f
      let a := if y.2 = 0xA2 then (s.atIssue core x).dropShadows core strand else s.atIssue core x
      let l := a.launched core strand x
      (a.core core).shadowFor strand x.pc x.occ = none → OneTile l r p core strand x m →
      exec y.1 s = .next ((r.moveTile p core strand x m {} (l.tileRows p core x)).oneTileDone core strand x)

/-- TLD, TCP (scratch to scratch), TPUT (scratch to a core of the pavilion) and TGET (the reverse): after a move of one dense tile between scratch operands, every row of the destination reads the bytes that the source row held before, even where the operands overlap; bytes of the local stores outside the destination's rows, and all bytes of the beds, stay. -/
def Obligations.LocalCopyCopiesRows : Prop :=
  ∀ (s : State) (p core strand : Nat) (x : Flight), Mem.wf s.beds.ls = true →
    x.op.toNat ∈ [0x80, 0x82, 0xA2, 0xA3] → x.fromSlot = false → s.recording p = false →
    x.dd.loc = 0 → x.ds1.loc = 0 → x.dd.stride0 = 1 → x.ds1.stride0 = 1 → x.dd.rowBytes ≤ x.dd.stride1 → x.dd.rowBytes = x.ds1.rowBytes →
    x.dd.base + x.dd.span x.dd.rows ≤ 2 ^ 25 → x.dd.rows ≤ rowsPerTile x.op.toNat x.f x.dd x.ds1 → x.tile = 0 →
    let t := s.moveTile p core strand x [] {} (s.tileRows p core x)
    (∀ j, j < x.dd.rows → t.readLs core (x.dd.base + j * x.dd.stride1) x.dd.rowBytes = s.readLs core (x.ds1.base + j * x.ds1.stride1) x.dd.rowBytes) ∧
    (∀ k, (∀ j, j < x.dd.rows → k < lsKey core (x.dd.base + j * x.dd.stride1) ∨ lsKey core (x.dd.base + j * x.dd.stride1) + x.dd.rowBytes ≤ k) →
      Mem.read t.beds.ls k = Mem.read s.beds.ls k) ∧
    t.beds.mem = s.beds.mem

/-- A compute instruction that passes the checks of its issue, finds its engine idle, with its operands in scratch or in a slice whose pages lie in beds, no bad line, and an accumulator slot that admits it (its shape, anchors and counts), answers the next state in which it is in flight with its result written (destination rows, accumulator slot, ASTAT events, SRC advanced) and the strand stands at PC + 16. TVOP, TDEC and the other forms of TRED and TCVT need nothing of a slot. -/
def Obligations.ComputeRunsOneTile : Prop :=
  ∀ (s r : State) (core strand p i : Nat) (f : TileFields) (m : Tab PageLoc),
    ∀ y ∈ ([(.tmm core strand f, 0x90), (.tvop core strand f, 0x91), (.tred core strand f, 0x92), (.tcvt core strand f, 0x93),
        (.tdec core strand f, 0x94)] : List (Instr × Nat)),
      TileIssues s core strand y.2 p i f →
      let x := s.newFlight core strand y.2 f
      let a := s.atIssue core x
      let l := a.launched core strand x
      (a.core core).shadowFor strand x.pc x.occ = none → a.engineBusy core x = false → OneTile l r p core strand x m → SlotAdmits r p core x m →
      exec y.1 s = .next ((r.computeTile p core strand x m).oneTileDone core strand x)

/-- computeTmm of a slot that is cleared by OPT[0], or continued with the same shape and anchor, and whose counts have room, gives a slot of the same N and M whose element m·N + n is the old (or fresh) element with the products DS2[m][k] × DS1[n][k] added in the order of k. -/
def Obligations.TmmAccumulates : Prop :=
  ∀ (f : TileFields) (dd ds1 ds2 : Desc) (rd1 rd2 : Rd) (held : Option Slot) (es : List Acc),
    let n := ds1.extent1
    let m := ds2.extent1
    (f.opt0 = true ∧ es = List.replicate (m * n) (Acc.fresh dd.auto dd.anchor) ∨
      f.opt0 = false ∧ (∃ k, held = some k ∧ k.n = n ∧ k.m = m ∧ k.elems = es) ∧ es.length = m * n ∧ ∀ a ∈ es, dd.auto = true ∨ a.auto = true ∨ a.anchor = dd.anchor) →
    (∀ a ∈ es, a.count.toNat + ds1.extent0 < 2 ^ 32) →
    ∃ out fl, computeTmm f dd ds1 ds2 rd1 rd2 held = .done [] (some (some ⟨n, m, out, false⟩)) fl 0 ∧ out.length = m * n ∧
      ∀ i j, i < m → j < n →
        some (nthD out (i * n + j) {}) =
          ({ nthD es (i * n + j) {} with auto := (nthD es (i * n + j) {}).auto || dd.auto } : Acc).addAll
            ((List.zipWith Machine.Num.mul (rowValues ds2 rd2 i) (rowValues ds1 rd1 j)).map Prod.fst)

/-- For an element whose anchor is fixed: adding a permutation of the same products gives the same element; adding two lists one after the other equals adding their join; and adding one list to a cleared element of the anchor and merging it into the element that took the other list gives that same element again (counts within the limit). -/
def Obligations.AnchoredSumsAreExactAndOrderFree : Prop :=
  (∀ (a : Acc) (ps qs : List Machine.Num), a.auto = false → ps.Perm qs → a.addAll ps = a.addAll qs) ∧
  ∀ (a b c d : Acc) (ps qs : List Machine.Num), a.auto = false → a.addAll ps = some b →
    (Acc.fresh false a.anchor).addAll qs = some c → a.addAll (ps ++ qs) = some d →
    b.addAll qs = some d ∧ Acc.mismatch b c = false ∧ Acc.overCount b c = false ∧ b.merge c = d ∧ c.merge b = d

/-- From a cleared element of a fixed anchor, after any list of at most 2^32 − 1 products the signed value of the 160-bit sum is the integer sum of the products rounded to the grid and clamped to 128 bits (NaNs and infinities add nothing), and the count is the length of the list. -/
def Obligations.AccSumNeverWraps : Prop :=
  ∀ (anchor : BitVec 10) (ps : List Machine.Num) (b : Acc), (Acc.fresh false anchor).addAll ps = some b →
    let q : Machine.Num → Int := fun v => match v with
      | .fin s m e =>
        let u : Int := ((rne m (e + 96 - anchor.toInt) : Nat) : Int)
        max (-(2 ^ 127)) (min (2 ^ 127 - 1) (if s then -u else u))
      | _ => 0
    b.count.toNat = ps.length ∧ b.sum.toInt = (ps.map q).sum ∧ b.anchor = anchor ∧ b.auto = false

/-- A TSEND or TRECV that passes the checks of its issue and whose key its pavilion does not hold unmatched posts its half under the key of R140 (a TSEND to a core of another member also sends its message there), is in flight and posted, and its strand stands at PC + 16, where that of a TRECV waits for its message; a key still unmatched takes the kernel fault MSG_DUPLICATE. MESSAGE_MATCH of a key whose halves are both posted, with equal format and extents, between scratch operands, completes both instructions and unposts the key. -/
def Obligations.MessagesPostAndMatch : Prop :=
  (∀ (s : State) (core strand p i : Nat) (f : TileFields), TileIssues s core strand 0xA0 p i f →
    let x := s.newFlight core strand 0xA0 f
    let a := (s.atIssue core x).dropShadows core strand
    let key : MsgKey := ⟨(s.atIssue core x).logicalOf p i, x.xs.toNat, f.fn.toNat, f.imm.toNat⟩
    exec (.tsend core strand f) s = .next (
      if (a.pav p).sends.any fun q => q.key == key then a.kernelFault core strand 0x0F 0xA0 0 0
      else
        let b := (a.launched core strand { x with prog := .posted }).modPav p fun v => { v with sends := v.sends ++ [⟨key, core, strand, x.num⟩] }
        if (a.pav p).far x.xs.toNat then b.sendFar p core strand x key else b)) ∧
  (∀ (s : State) (core strand p i : Nat) (f : TileFields), TileIssues s core strand 0xA1 p i f →
    let x := s.newFlight core strand 0xA1 f
    let a := (s.atIssue core x).dropShadows core strand
    let key : MsgKey := ⟨x.xs.toNat, (s.atIssue core x).logicalOf p i, f.fn.toNat, f.imm.toNat⟩
    exec (.trecv core strand f) s = .next (
      if (a.pav p).recvs.any fun q => q.key == key then a.kernelFault core strand 0x0F 0xA1 0 0
      else ((a.launched core strand { x with prog := .posted }).modPav p fun v => { v with recvs := v.recvs ++ [⟨key, core, strand, x.num⟩] }).waitFor
        core strand (.recv x.num))) ∧
  ∀ (s : State) (pav : Nat) (q r : Post) (x y : Flight) (fmt : Fmt), pav < 512 → q.key = r.key →
    (s.pav pav).sends.find? (fun z => z.key == q.key) = some q → (s.pav pav).recvs.find? (fun z => z.key == q.key) = some r →
    (s.strand q.core q.strand).flight q.num = some x → (s.strand r.core r.strand).flight r.num = some y →
    x.f.opt0 = false → y.f.opt0 = false → s.badLs pav q.core x.sources = none → s.badSlot q.core x = false → x.ds1.fmt = some fmt → y.dd.fmt = some fmt →
    y.dd.extent0 = x.ds1.extent0 → y.dd.extent1 = x.ds1.extent1 →
    Does (.messageMatch pav q.key) s fun t =>
      (∀ z ∈ (t.pav pav).sends ++ (t.pav pav).recvs, z.key ≠ q.key) ∧
      (t.strand q.core q.strand).flight q.num = none ∧ (t.strand r.core r.strand).flight r.num = none ∧
      t.beds.mem = (((List.range x.ds1.rows).map fun j => (j, s.rowData pav q.core [] {} x.ds1 j)).foldl
        (fun u z => u.writeRow pav r.core [] y.dd z.1 z.2) s).beds.mem ∧
      t.beds.ls = (((List.range x.ds1.rows).map fun j => (j, s.rowData pav q.core [] {} x.ds1 j)).foldl
        (fun u z => u.writeRow pav r.core [] y.dd z.1 z.2) s).beds.ls

/-- TBAR with the expected count of a use of its barrier that has not yet all its arrivals (or the first arrival of one, with a count above 0) records the arrival and waits at the barrier. TCOMMIT of a step above the committed one, equal to every step a strand of the pavilion waits to commit, waits for its commit. TWAIT FN 0 goes on at PC + 16 when nothing in flight of the strand has a tag of its mask and waits else; TWAIT FN 1 goes on when the scratch word meets the condition and waits else. Each drops the strand's shadow buffers, and changes no memory. -/
def Obligations.SynchronisationWaits : Prop :=
  (∀ (s : State) (core strand p i : Nat) (f : TileFields), TileIssues s core strand 0xB0 p i f →
    let x := s.newFlight core strand 0xB0 f
    let b := f.imm.toNat % 16
    let old := Tab.find b (s.pav p).barriers
    0 < x.xs.toNat → (∀ o, old = some o → o.tick = none ∧ o.arrived.length < o.expected ∧ o.expected = x.xs.toNat) →
    Does (.tbar core strand f) s fun t =>
      (t.strand core strand).mode = .waiting ∧ (t.strand core strand).wait = .barrier b ∧ (t.strand core strand).pc = (s.strand core strand).pc ∧
      Tab.find b (t.pav p).barriers = some { (old.getD { expected := x.xs.toNat }) with arrived := (old.elim [] Barrier.arrived) ++ [(core, strand)] } ∧
      t.beds = s.beds) ∧
  (∀ (s : State) (core strand p i : Nat) (f : TileFields), TileIssues s core strand 0xB1 p i f →
    let t := s.strand core strand
    let word := BitVec.ofNat 64 (leNat (s.readLs core f.imm.toNat 8))
    (f.fn = 0 → exec (.twait core strand f) s = .next (
      let a := s.dropShadows core strand
      if t.flights.any fun y => (f.imm.truncate 16 : BitVec 16).getLsbD y.f.tag.toNat then a.waitFor core strand (.tags (f.imm.truncate 16))
      else a.setStrand core strand (t.withPc (t.pc + 16)))) ∧
    (f.fn = 1 → s.lsHurt core f.imm.toNat 8 = false → exec (.twait core strand f) s = .next (
      let a := s.dropShadows core strand
      if Machine.cond (f.opt.toNat % 8) word (t.reg f.xs) then a.setStrand core strand (t.withPc (t.pc + 16))
      else a.waitFor core strand (.word (f.opt.toNat % 8) f.imm.toNat (t.reg f.xs))))) ∧
  (∀ (s : State) (core strand p i : Nat) (f : TileFields), TileIssues s core strand 0xB2 p i f →
    let n := (s.strand core strand).reg f.xs
    (∀ k ∈ s.commitSteps p, k = n) → (s.pav p).committed.toNat < n.toNat →
    exec (.tcommit core strand f) s = .next ((s.dropShadows core strand).waitFor core strand (.commit n)))

/-- ICACHE_FILL of a strand waiting for a line that a resident CODE piece holds puts the line into the cache and makes the strand READY. STRAND_WAKE makes a strand READY, last in its class, once what it waits for has cleared. TILE_INSTRUCTION_COMPLETE of an instruction that is moved, behind no mover, and waits for no write at a move's target takes it out of its strand, and its engine starts the next that waits. EPISODE_OPEN of a strand that waits at a predicate with a free buffer and fewer than 8 run-ahead strands puts it in RUN-AHEAD. PREDICATE_RESOLVE returns it to READY. SHADOW_LOAD_COMPLETE of a load whose pages it may read and that met no bad line or piece marks its buffer complete. SHADOW_PROMOTE frees the buffer and carries out the waiting instruction, and its rows exchange places with those of the destination. TILE_TRANSLATE carries out the tiles of an instruction that waits for nothing else. -/
def Obligations.CoreEventsComplete : Prop :=
  ∀ (s : State) (core strand p i : Nat), core < 1088 → strand < 2048 → (s.core core).owner = some (p, i) →
    let t := s.strand core strand
    (∀ len l, t.wait = .icache len → s.missingLine core strand len = some l → (s.codePiece p l).isSome = true →
      exec (.icacheFill core strand) s = .next ((s.modCore core fun c => { c with icache := icachePut l c.icache }).makeReady core strand)) ∧
    (t.mode = .waiting → t.wait ≠ .exit → s.cleared core strand = true → t.flights.findSome? Flight.stall = none → Does (.strandWake core strand) s fun u =>
      u.strand core strand = { t with mode := .ready, wait := .none, readyAt := s.order + 1 } ∧ u.order = s.order + 1 ∧ u.beds = s.beds ∧ u.pavs = s.pavs) ∧
    (t.mode = .waiting → t.wait = .exit → t.flights = [] → exec (.strandWake core strand) s = .next (s.setStrand core strand {})) ∧
    (∀ pos x, t.flights[pos]? = some x → x.prog = .moved → (isMove x.op.toNat && moverBefore t.flights pos) = false →
      s.fillsOpen x.fills.1 x.fills.2 = false →
      let u := s.setStrand core strand { t with flights := t.flights.filter fun y => y.num != x.num }
      exec (.tileInstructionComplete core strand pos) s = .next (if isCompute x.op.toNat then u.startQueued p core x.engine else u)) ∧
    (∀ pos x, t.flights[pos]? = some x → x.prog = .pending → exec (.tileTranslate core strand pos) s = .next (s.driveTiles p core strand x.num {})) ∧
    (∀ walk, t.mode = .waiting → t.atPredicate = true → (s.core core).freeShadow.isSome = true →
      (s.strands.filter fun x => x.1 / 2048 == core && x.2.mode == .runAhead).length < 8 →
      Does (.episodeOpen core strand walk) s fun u => u.strand core strand = { t with mode := .runAhead } ∧ u.beds = s.beds ∧
        (walk = [] → (u.core core).shadows = (s.core core).shadows)) ∧
    (t.mode = .runAhead → s.cleared core strand = true → t.flights.findSome? Flight.stall = none → Does (.predicateResolve core strand) s fun u =>
      u.strand core strand = { t with mode := .ready, wait := .none, readyAt := s.order + 1 } ∧
        (u.core core).shadows = Tab.mapVals (fun _ x => if x.strand == strand then { x with openEpisode := false } else x) (s.core core).shadows) ∧
    (∀ buf sh, buf < 8 → Tab.find buf (s.core core).shadows = some sh → s.hurtPieces p sh.load.src sh.rows = [] →
      ∀ m u, s.specPages (clusterOf core) p (sh.load.src.pagesOf (s.pav p) sh.rows) = (some m, u) → u.badSource p m sh.load.src sh.rows = none →
      exec (.shadowLoadComplete core buf) s = .next (u.modCore core fun c => { c with shadows := Tab.put buf { sh with complete := true } c.shadows })) ∧
    (∀ buf sh x, buf < 8 → Tab.find buf (s.core core).shadows = some sh → sh.strand = strand → sh.complete = true → sh.hurt = false →
      t.flights.find? (fun y => y.prog == .promote buf) = some x → s.touchesLs core x.num x.dd.range = false →
      exec (.shadowPromote core strand buf) s = .next (s.promote p core strand buf x))

/-- A node that serves the pavilion, has not forwarded yet and has gathered all its arrivals passes their number up, for a barrier use, a step commit of one step and a kernel's end. When the arrivals of a barrier use have reached its expected count, when every core has arrived at the step commit, and when every core has ended its kernel and the next may start, the root of a pavilion that is no span member names the release tick TIME + 20 (a CYCLE pavilion's first kernel start, the next multiple of 1,024). Nothing but the pavilion changes. -/
def Obligations.SyncTreeForwardsAndDecides : Prop :=
  ∀ (s : State) (pav node : Nat), pav < 512 → node ≤ 75 → (s.pav pav).bound = true →
    let v := s.pav pav
    let c := v.commit.getD {}
    (s.nodeServes pav node = true →
      (∀ i b, Tab.find i v.barriers = some b → Tab.find node b.forwarded = none → 0 < s.barrierCount b node →
        (s.barrierDone pav b node = true ∨ b.expected ≤ s.barrierCount b node) →
        exec (.syncArrivalForward pav node (.barrier i)) s = .next (s.modPav pav fun v =>
          { v with barriers := Tab.put i { b with forwarded := Tab.put node (s.barrierCount b node) b.forwarded } v.barriers })) ∧
      (Tab.find node c.forwarded = none → s.treeDone pav node c.forwarded (s.commitArrived pav) = true → ∀ n rest, s.commitSteps pav = n :: rest →
        c.step = 0 ∨ n = c.step →
        exec (.syncArrivalForward pav node .commit) s = .next (s.modPav pav fun v =>
          { v with commit := some { c with forwarded := Tab.put node (s.coreArrivals pav node c.forwarded) c.forwarded, step := n } })) ∧
      (Tab.find node v.kernel.forwarded = none → s.treeDone pav node v.kernel.forwarded (fun x => !(s.core x).running) = true →
        (∃ r rest, v.runs = r :: rest ∧ r.started = true) →
        exec (.syncArrivalForward pav node .kernelStart) s = .next (s.modPav pav fun v =>
          { v with kernel := { v.kernel with forwarded := Tab.put node (s.coreArrivals pav node v.kernel.forwarded) v.kernel.forwarded } }))) ∧
    (v.isSpan = false →
      (∀ i b, Tab.find i v.barriers = some b → b.tick = none → b.members = [] → b.expected ≤ atRoot b.forwarded →
        exec (.releaseDecide pav (.barrier i)) s = .next (s.modPav pav fun v =>
          { v with barriers := Tab.put i { b with tick := some (s.time.now + 20) } v.barriers })) ∧
      (c.tick = none → s.rootDone pav c.forwarded = true → c.step ≠ 0 →
        exec (.releaseDecide pav .commit) s = .next (s.modPav pav fun v => { v with commit := some { c with tick := some (s.time.now + 20) } })) ∧
      (v.kernel.tick = none → s.kernelReady pav = true → v.cycle = false →
        exec (.releaseDecide pav .kernelStart) s = .next (s.modPav pav fun v => { v with kernel := { v.kernel with tick := some (s.time.now + 20) } })) ∧
      (v.kernel.tick = none → s.kernelReady pav = true → v.cycle = true →
        (∃ r rest, v.runs = r :: rest ∧ r.iter = 0 ∧ r.layer = 0 ∧ r.kernel = 0) →
        exec (.releaseDecide pav .kernelStart) s = .next (s.modPav pav fun v =>
          { v with kernel := { v.kernel with tick := some (BitVec.ofNat 64 ((((s.time.now + 20).toNat + 1023) / 1024) * 1024)) } })))

/-- A due barrier release that no flip and no step commit of its tick precedes makes every strand that arrived and waits there, with no tile of its own halted, READY at its PC + 16, and the barrier stands at its next use. A due step commit that no flip precedes makes the step the committed one, ends the commit, restarts the watchdog, gives every held write without a step that step, and leaves the other held writes; SPAN_DELIVERY_START of a due span step with no held write takes the step off the deliveries. -/
def Obligations.ReleasesResumeStrands : Prop :=
  ∀ (s : State) (pav : Nat), pav < 512 →
    (∀ i b k, i < 16 → Tab.find i (s.pav pav).barriers = some b → b.tick = some k → k.toNat ≤ s.time.now.toNat →
      s.flipFirst pav k = false → (s.pav pav).commitFirst k = false →
      (∀ x ∈ b.arrived, x.2 < 2048 ∧ (s.strand x.1 x.2).pc.toNat + 16 < 2 ^ 32) →
      ∃ t : State, exec (.barrierRelease pav i) s = .next (b.early.foldl (fun u x => u.memberArrives pav x.1 (.barrier i) x.2.1 (BitVec.ofNat 64 x.2.2)) t) ∧
        (∀ x ∈ b.arrived, (s.strand x.1 x.2).wait = .barrier i → (s.strand x.1 x.2).flights.findSome? Flight.stall = none →
          (t.strand x.1 x.2).mode = .ready ∧ (t.strand x.1 x.2).wait = .none ∧ (t.strand x.1 x.2).pc = (s.strand x.1 x.2).pc + 16) ∧
        t.beds = s.beds ∧ (b.later = [] → (t.pav pav).barriers = Tab.drop i (s.pav pav).barriers) ∧
        ∀ e l rest, b.later = (e, l) :: rest → Tab.find i (t.pav pav).barriers = some { expected := e, arrived := l, later := rest }) ∧
    (∀ c k, (s.pav pav).commit = some c → c.tick = some k → k.toNat ≤ s.time.now.toNat → s.replaying pav = false → s.recording pav = false →
      s.flipFirst pav k = false → c.early = [] →
      (∀ x ∈ s.liveStrands pav, (s.strand x.1 x.2).pc.toNat + 16 < 2 ^ 32) →
      Does (.stepCommitRelease pav) s fun t =>
        (t.pav pav).committed = c.step ∧ (t.pav pav).commit = none ∧ (t.pav pav).watchdog = 0 ∧
        (t.pav pav).held = (s.pav pav).held.map (fun h => if h.step.isNone then { h with step := some c.step } else h) ∧
        t.beds = s.beds ∧ t.host = s.host) ∧
    (∀ d, (s.pav pav).isSpan = true →
      ((s.pav pav).deliveries.find? fun d => decide (d.2.toNat ≤ s.time.now.toNat) && (s.pav pav).held.all fun h => h.step != some d.1) = some d →
      Does (.spanDeliveryStart pav) s fun t => (t.pav pav).deliveries = (s.pav pav).deliveries.erase d ∧
        (t.pav pav).committed = (s.pav pav).committed ∧ (t.pav pav).held = (s.pav pav).held ∧ t.beds = s.beds)

/-- RUN_BEGIN of a pavilion that may begin begins its first run at iteration, layer and kernel 0 with the watchdog at 0. KERNEL_START at the due tick makes strand 0 of every own core READY at the kernel's entry PC with s0 its logical index, s1 the argument and s2 the layer, all other registers zero, the code base the kernel's. KERNEL_COMPLETE_CORE ends the kernel on a core whose strands are all FREE and drops its shadow buffers. KERNEL_COMPLETE_PAVILION goes on to the next kernel of the layer. WATCHDOG_EXPIRE of a watchdog at its period starts a reset with cause 0x02. -/
def Obligations.RunsAndKernels : Prop :=
  ∀ (s : State) (pav : Nat), pav < 512 → s.replaying pav = false →
    (s.mayBegin pav = true → ∀ r rest, (s.pav pav).runs = r :: rest →
      Does (.runBegin pav) s fun t => (t.pav pav).watchdog = 0 ∧ ∃ fs, (t.pav pav).runs =
        { r with begun := true, iter := 0, layer := 0, kernel := 0, started := false, filling := fs } :: rest) ∧
    (s.kernelDue pav = true → s.recording pav = false → ((s.coresOf pav).map Prod.snd).Nodup → ∀ r rest, (s.pav pav).runs = r :: rest →
      let e := r.entry
      let k := (Tab.getD r.kernels (bits e 27 16 + r.kernel) 0).toNat
      ∃ t : State, exec (.kernelStart pav) s = .next (t.takeAhead pav) ∧
        (∀ x ∈ s.coresOf pav, ∃ n, t.strand x.2 0 = { mode := .ready, cls := 1, pc := BitVec.ofNat 32 (bits k 95 64), layer := bits e 15 0
                                                      s0 := BitVec.ofNat 64 (s.logicalOf pav x.1), s1 := BitVec.ofNat 64 (bits k 191 128)
                                                      s2 := BitVec.ofNat 64 (bits e 15 0), readyAt := n } ∧
          (t.core x.2).running = true ∧ (t.core x.2).codeBase = BitVec.ofNat 64 (bits k 63 0)) ∧
        (t.pav pav).runs = { r with started := true } :: rest ∧ t.beds = s.beds) ∧
    (∀ core, core < 1088 → (s.core core).running = true → (∀ x ∈ s.strands, x.1 / 2048 = core → x.2.mode = .free) →
      exec (.kernelCompleteCore core) s = .next (s.setCore core { s.core core with running := false, shadows := [] })) ∧
    (∀ r rest, (s.pav pav).runs = r :: rest → r.started = true → s.rootDone pav (s.pav pav).kernel.forwarded = true →
      (∀ x ∈ s.coresOf pav, (s.core x.2).running = false) → r.kernel + 1 < bits r.entry 35 28 →
      exec (.kernelCompletePavilion pav) s = .next (s.setPav pav { s.pav pav with
        runs := { r with kernel := r.kernel + 1, started := false } :: rest, kernel := { members := (s.pav pav).kernel.members } })) ∧
    (s.watching pav = true → (s.pav pav).wdogTicks ≤ (s.pav pav).watchdog →
      Does (.watchdogExpire pav) s fun t => (t.pav pav).watchdog = 0 ∧
        (t.pav pav).resetting = some { causes := [0x02], tick := s.time.now + 20, slots := [], oldWinding := (s.pav pav).winding
                                       oldStep := (s.pav pav).committed, location := 0 })

/-- PIECE_OVERWRITE writes the segment of the piece that the fill reads next with the 64 KiB of its home and marks it written. PIECE_RESIDENT of a written next piece makes it resident, counts its bytes in BED and moves the fill on. SLICE_FILL_COMPLETE of a fill that is over leaves the slice without a fill, with its resident pieces only. PAGE_WALK_READ of the root level by a unit that serves the pavilion reads and caches the entry, and an uncorrectable line there starts a reset with cause 0x03. -/
def Obligations.OrangeryFillsAndWalks : Prop :=
  ∀ (s : State) (pav : Nat), pav < 512 →
    (∀ core segment handle piece a bs sl pc, core < 1088 → segment < 384 → s.ownerOf core = some pav → s.fills pav = true →
      ((s.pav pav).slices.findSome? fun x =>
        (x.2.resident.find? fun y => y.2.core == core && y.2.segment == segment && !y.2.resident && x.2.nextRead == some y.1).map fun y => (x.1, y.1)) = some (handle, piece) →
      Tab.find handle (s.pav pav).slices = some sl → Tab.find piece sl.resident = some pc → pc.core = core → pc.segment = segment →
      s.homePiece pav sl piece = some (a, bs) → s.beds.badIn (csKey (s.pav pav) (s.pav pav).channels) a 65536 = none →
      exec (.pieceOverwrite core segment) s = .next (((s.setTraffic pav .fill false (coreLoc core) a 65536).writeLs core (segment * 65536) bs).modPav pav fun v =>
        { v with slices := Tab.put handle { sl with resident := Tab.put piece { pc with written := true } sl.resident } v.slices })) ∧
    (∀ handle sl i pc, Tab.find handle (s.pav pav).slices = some sl → sl.filling = some i → Tab.find i sl.resident = some pc → pc.written = true →
      s.fills pav = true →
      let sl' := { sl with resident := Tab.put i { pc with resident := true, written := true } sl.resident }
      exec (.pieceResident pav handle) s = .next ((s.setPav pav { s.pav pav with
        slices := Tab.put handle { sl' with filling := some (sl'.nextMissing (i + 1)) } (s.pav pav).slices
        acct := { (s.pav pav).acct with bedBytes := (s.pav pav).acct.bedBytes + 65536 } }).reserveNext pav handle)) ∧
    (∀ handle sl, Tab.find handle (s.pav pav).slices = some sl → s.fills pav = true → s.fillOver pav handle = true →
      (∀ k x, k ∈ sl.posts → Tab.find k (s.pav pav).shared = some x → x.status = 0) →
      Does (.sliceFillComplete pav handle) s fun t =>
        Tab.find handle (t.pav pav).slices = some { sl with filling := none, posts := [], resident := sl.resident.filter fun x => x.2.resident } ∧
        t.beds = s.beds) ∧
    (∀ unit (dva : Word64), unit ≤ 76 → s.unitServes unit pav = true → (s.pav pav).bound = true → (s.pav pav).chOwn ≠ 0 → dva.toNat < 2 ^ 55 →
      dva.toNat / 65536 * 65536 ≠ packagePage →
      let r := s.readEntry unit pav (s.pav pav).ptRoot dva.toNat 2
      exec (.pageWalkRead unit pav dva 2) s = .next (match r.1 with
        | .error key => (r.2.bedUncorrectable key).startReset pav 0x03 (channelLoc (key / 2 ^ 33)) []
        | .ok _ => r.2))

/-- On a populated channel the access slot serves the access that arbitration chooses, answers its place in the list and keeps the slot's counts: a served access of a tenant, or of a window, adds 64 bytes and its age to the meter of the class of its DVA, a speculative one 64 bytes, a spare copy copies the line at the copy point, which moves on by one, and a stream, system, scrub or background access changes no meter; a corrected error of the access is counted. A slot in which none may be served counts as one that the copy was not served in. When some waiting access may be served (a spare copy only while it runs, once in four slots), the chosen one may be served and no other such access has a higher priority. -/
def Obligations.AccessSlotServesHighestPriority : Prop :=
  ∀ (s : State) (channel : Nat) (ws : List McAccess), channel < 384 → s.fuse.populated channel = true →
    (∀ i a d, s.choose channel ws = some (i, a, d) →
      let c := s.channel channel
      let e := s.priority channel ws a
      let line := if a.kind = .copy then c.copyPoint.getD a.line else a.line
      let s1 := (s.setChannel channel { c with
        deficit := d, copySlots := if a.kind = .copy then 0 else c.copySlots + 1
        backSlots := if a.kind = .background ∨ (∀ b ∈ ws, b.kind ≠ .background) then 0 else c.backSlots + 1
        reserve := if e = 15 then c.reserve + 64 else c.reserve
        copyPoint := if a.kind = .copy then c.copyPoint.map (· + 1) else c.copyPoint }).sharedOn channel a.kind
      let key := bedKey channel (line * 64)
      let charged := fun (p k : Nat) (f : Meter → Meter) => exec (.mcServeAccess channel ws) s = .next ((s1.modPav p fun v => v.putMeter k channel f).answered i)
      (a.op = .whole ∨ (s.beds.bad key = false ∧ c.outcome line a.errs = .clean) →
        (∀ p dva, a.kind = .tenant p dva →
          charged p ((s.pav p).classOf dva) fun m => { m with served := m.served + 64, latSum := m.latSum + a.age, latCount := m.latCount + 1 }) ∧
        (∀ w off, a.kind = .window w off → let x := (s.window w).1
          charged (Win.owner x) ((s.pav (Win.owner x)).classOf (Win.base x + off)) fun m =>
            { m with served := m.served + 64, latSum := m.latSum + a.age, latCount := m.latCount + 1 }) ∧
        (∀ p dva, a.kind = .spec p dva → charged p ((s.pav p).classOf dva) fun m => { m with served := m.served + 64 }) ∧
        (a.kind = .copy → exec (.mcServeAccess channel ws) s
          = .next ((s1.background (channelLoc channel) (channelLoc (s.spareOf (groupOf channel))) 64).answered i)) ∧
        (a.kind = .sys ∨ a.kind = .scrub ∨ a.kind = .background ∨ (∃ p n, a.kind = .stream p n) →
          exec (.mcServeAccess channel ws) s = .next (s1.answered i))) ∧
      (a.op ≠ .whole → s.beds.bad key = false → c.outcome line a.errs = .corrected → a.kind = .sys →
        exec (.mcServeAccess channel ws) s = .next ((s1.bedCorrected key).answered i))) ∧
    ((∀ a ∈ ws, s.mayServe channel a = false) → exec (.mcServeAccess channel ws) s = .next (s.setChannel channel { s.channel channel with
      copySlots := (s.channel channel).copySlots + 1, backSlots := 0 })) ∧
    ((∃ a ∈ ws, s.mayServe channel a = true) →
      Does (.mcServeAccess channel ws) s fun t => ∃ a, ws[t.answer]? = some a ∧ s.mayServe channel a = true ∧
        ∀ b ∈ ws, s.mayServe channel b = true → s.priority channel ws b ≤ s.priority channel ws a)

/-- On a populated channel a refresh is counted and runs, like a temperature report, at 4 times the base rate above 105 °C, twice above 85 °C or with a cycle-repeatable pavilion bound, else once. A clean scrub read moves to the next line; a corrected or an uncorrectable one is counted too. A worn channel whose group's spare is free starts its copy; a copy at its end puts the spare in place, and one before its end goes on; a failed channel that holds no session pool's pages loses its bytes and is spared where its group's spare is free, else retired, and every bound pavilion whose own set has it resets. The repair of a local-store row whose errors recurred uses one of the bank's eight spare rows. -/
def Obligations.BedEvents : Prop :=
  ∀ (s : State) (q : Nat), q < 384 →
    let c := s.channel q
    let rate : Int → Nat := fun d => if d > 105 then 4 else if d > 85 ∨ (∃ x ∈ s.pavs, x.2.bound = true ∧ x.2.cycle = true) then 2 else 1
    (s.fuse.populated q = true →
      Does (.refresh q) s (fun t => (t.channel q).refreshes = c.refreshes + 1 ∧ (t.channel q).refresh = rate c.celsius ∧ t.beds.mem = s.beds.mem) ∧
      ∀ d : Int, Does (.dramTemperatureReport q d) s fun t => (t.channel q).refresh = rate d ∧ (t.channel q).celsius = d ∧ t.beds.mem = s.beds.mem) ∧
    (s.scrubs = true → s.fuse.populated q = true → c.retired = false → s.groupOn q = true → s.beds.bad (bedKey q (c.scrubLine * 64)) = false →
      ∀ errs, (c.outcome c.scrubLine errs = .clean →
        exec (.patrolScrubRead q errs) s = .next ((s.background (channelLoc q) (channelLoc q) 64).setChannel q { c with scrubLine := (c.scrubLine + 1) % linesPerChannel })) ∧
      (c.outcome c.scrubLine errs = .corrected → Does (.patrolScrubRead q errs) s fun t => (t.channel q).scrubLine = (c.scrubLine + 1) % linesPerChannel ∧
        t.beds.ceCount = s.beds.ceCount + 1 ∧ t.beds.mem = s.beds.mem) ∧
      (c.outcome c.scrubLine errs = .uncorrectable → Does (.patrolScrubRead q errs) s fun t => (t.channel q).scrubLine = (c.scrubLine + 1) % linesPerChannel ∧
        t.beds.ueCount = s.beds.ueCount + 1 ∧ t.beds.bad (bedKey q (c.scrubLine * 64)) = true ∧ t.beds.mem = s.beds.mem)) ∧
    (s.place q = true → c.retired = false →
      (∀ wear, s.spareTaken (groupOf q) = false → c.worn s.now wear = true → Does (.spareChannelStart q wear) s fun t =>
        t.channel q = { c with copyPoint := some 0, capAt := s.time.now } ∧ t.beds.mem = s.beds.mem) ∧
      ((∀ x ∈ s.pools, x.2.defined = true → (s.pav x.2.holder).chOwn = 0 ∨ bitAt (s.pav x.2.holder).chMask q = false) →
       let taken := ∃ i, i < 24 ∧ ((s.channel (groupOf q * 24 + i)).spared = true ∨
         (groupOf q * 24 + i ≠ q ∧ (s.channel (groupOf q * 24 + i)).copyPoint ≠ none))
       Does (.channelFailure q) s fun t => (¬ taken → (t.channel q).spared = true ∧ (t.channel q).retired = false) ∧
        (taken → (t.channel q).retired = true ∧ (t.channel q).spared = c.spared ∧ t.regs.tableLost = true) ∧ (t.channel q).copyPoint = none ∧
        t.beds.mem = Mem.clear s.beds.mem (bedKey q 0) (bedKey (q + 1) 0) ∧
        ∀ p, (s.pav p).bound = true → (s.pav p).chOwn ≠ 0 → bitAt (s.pav p).chMask q = true → (t.pav p).resetting.isSome = true)) ∧
    (c.copyPoint = some linesPerChannel → Does (.spareCopyComplete q) s fun t => (t.channel q).spared = true ∧ (t.channel q).copyPoint = none ∧
      t.beds.badLines = s.beds.badLines.filter (fun l => l * 64 / 2 ^ 33 != q) ∧ t.beds.listed = s.beds.listed ∧ t.beds.mem = s.beds.mem) ∧
    (c.copyPoint ≠ some linesPerChannel → exec (.spareCopyComplete q) s = .next s) ∧
    (∀ core bank segment, core < 1088 → bank < 64 → segment < 384 → Tab.getD (s.core core).lsRepairs bank 0 < 8 →
      (Tab.find (segment * 64 + bank) (s.core core).lsRows).map Prod.snd = some true →
      Does (.lsRowRepair core bank segment) s fun t =>
        Tab.getD (t.core core).lsRepairs bank 0 = Tab.getD (s.core core).lsRepairs bank 0 + 1 ∧ t.beds.mem = s.beds.mem ∧ t.beds.ls = s.beds.ls)

/-- When a core's local store awaits zeroing, LS_ZERO_COMPLETE leaves every byte of it zero and every other local-store byte and all bed bytes as they were, and the core awaits nothing. When a granule awaits zeroing, GRANULE_ZERO_COMPLETE leaves every byte of it zero, every other bed byte and all local-store bytes as they were, and the granule awaits nothing. -/
def Obligations.ZeroingLeavesZeros : Prop :=
  ∀ (s : State),
    (∀ core, core < 1088 → (s.core core).zeroing = true →
      Does (.lsZeroComplete core) s fun t => (t.core core).zeroing = false ∧ (t.core core).shadows = [] ∧ t.beds.mem = s.beds.mem ∧
        ∀ k, Mem.read t.beds.ls k = if lsKey core 0 ≤ k ∧ k < lsKey (core + 1) 0 then 0 else Mem.read s.beds.ls k) ∧
    (∀ q g, q < 384 → g < 3590 → q * 4096 + g ∈ s.beds.zeroGranules →
      Does (.granuleZeroComplete q g) s fun t => q * 4096 + g ∉ t.beds.zeroGranules ∧ t.beds.ls = s.beds.ls ∧
        ∀ k, Mem.read t.beds.mem k
          = if bedKey q (g * 2 ^ 20) ≤ k ∧ k < bedKey q (g * 2 ^ 20) + 2 ^ 20 then 0 else Mem.read s.beds.mem k)

/-- Each of the four answers a next state. STREAM_URGENCY_CHANGE, with num / den of the frame in progress moved, gives urgency 0 at a margin of at least half the buffer of four frames, 1 at least a quarter, 2 at least an eighth, 3 below. REG_SCALE_CHANGE puts a scale below 1 that the capacity calls for in force, and changes nothing where the capacity calls for the scale in force or for 1. REG_SCALE_RESTORE returns the scale to 1 once the capacity has been restored for 1 ms, and else changes nothing. REG_WINDOW_END at a multiple of 100 ticks restarts the reserve of every channel and every meter of every bound pavilion, and changes no memory; with no pavilion bound it changes nothing else, and at another tick nothing. -/
def Obligations.RegulationEvents : Prop :=
  ∀ (s : State),
    (∀ pav stream num den, pav < 512 → stream < 64 →
      let x := s.stream pav stream
      let m := x.margin ((64 + 64 * x.lines) * num / den)
      let n := 4 * (64 + 64 * x.lines)
      exec (.streamUrgencyChange pav stream num den) s = .next (s.setStream pav stream { x with
        urgency := if n ≤ 2 * m then 0 else if n ≤ 4 * m then 1 else if n ≤ 8 * m then 2 else 3 })) ∧
    (∀ q, q < 384 →
      (s.scaleFor q ≠ (s.channel q).scale → s.scaleFor q ≠ 1024 →
        ∃ t, exec (.regScaleChange q) s = .next t ∧ t.channel q = { s.channel q with scale := s.scaleFor q } ∧ t.beds.mem = s.beds.mem) ∧
      (s.scaleFor q = (s.channel q).scale ∨ s.scaleFor q = 1024 → exec (.regScaleChange q) s = .next s)) ∧
    (∀ q, q < 384 →
      let restored := (s.channel q).scale ≠ 1024 ∧ s.scaleFor q = 1024 ∧ 100000 ≤ (s.time.now - (s.channel q).capAt).toNat ∧
        100000 ≤ (s.time.now - s.power.emergAt).toNat
      (restored → ∃ t, exec (.regScaleRestore q) s = .next t ∧ t.channel q = { s.channel q with scale := 1024 } ∧ t.beds.mem = s.beds.mem) ∧
      (¬ restored → exec (.regScaleRestore q) s = .next s)) ∧
    ∀ ws stalled,
      (s.time.now.toNat % 100 ≠ 0 → exec (.regWindowEnd ws stalled) s = .next s) ∧
      (s.time.now.toNat % 100 = 0 →
        (∃ t, exec (.regWindowEnd ws stalled) s = .next t ∧ t.beds.mem = s.beds.mem ∧ (∀ q, t.channel q = { s.channel q with reserve := 0 }) ∧
          ∀ p k q, (s.pav p).bound = true → q < 512 → (Tab.find (k * 512 + q) (s.pav p).reg.meters).isSome = true →
            ((t.pav p).meter k q).served = 0 ∧ ((t.pav p).meter k q).latSum = 0 ∧ ((t.pav p).meter k q).latCount = 0) ∧
        ((∀ x ∈ s.pavs, x.2.bound = false) → exec (.regWindowEnd ws stalled) s
          = .next (s.modBeds fun b => { b with channels := Tab.mapVals (fun _ c => { c with reserve := 0 }) b.channels })))

/-- With REFCLK running, no time correction to make and no sealed load in progress, a tick adds 1 to TIME, adds to every enabled pavilion's CORE_TICKS its own core count and to its watchdog 1 if it is watched, and changes no memory, strand or register (at a multiple of 1,024 a package that no port is waiting to tell of a master then elects one). TIME_BROADCAST at a multiple of 1,024 records TIME. A read of TIME_NOW's low half answers bits [31:0] and latches bits [63:32]. -/
def Obligations.TimeAdvances : Prop :=
  ∀ (s : State),
    (s.boot.refclk = true → s.links.tsync.toMove = 0 → s.unseals = [] →
      ∃ t : State, exec .timeTick s = .next (if (s.time.now + 1).toNat % 1024 = 0 ∧ ((List.range 16).all fun p => !s.portUp p || (s.port p).stamp.isSome) = true
          then t.elect else t) ∧ t.time.now = s.time.now + 1 ∧ t.beds = s.beds ∧ t.strands = s.strands ∧ t.cores = s.cores ∧ t.regs = s.regs ∧
        t.fns = s.fns ∧ ∀ p, t.pav p = if (s.pav p).bound then
          { s.pav p with acct := { (s.pav p).acct with coreTicks := (s.pav p).acct.coreTicks + BitVec.ofNat 64 (s.coreCount p) }
                         watchdog := (s.pav p).watchdog + (if s.watching p then 1 else 0) } else s.pav p) ∧
    (s.time.now.toNat % 1024 = 0 → exec .timeBroadcast s = .next { s with time := { s.time with lastBroadcast := s.time.now } }) ∧
    (s.exposed = true → exec .timeNowLowRead s = .next { s with answer := s.time.now.toNat % 2 ^ 32
                                                                regs := { s.regs with timeLatch := BitVec.ofNat 32 (s.time.now.toNat / 2 ^ 32) } })

/-- A bulk message for another package leaves by its route. A request of this package's pavilion under an old winding changes nothing. A formed request of a member, a read or write of a core or a window request, that is the next of its pair, with none held, is applied: the pair then expects the next SEQ. A window request's turn is taken in the same way. A reply that answers a TSEND under the current winding completes the TSEND and takes the request off the list; one that answers nothing changes nothing. -/
def Obligations.BulkMessagesAndReplies : Prop :=
  ∀ (s : State) (m : BulkMsg),
    (m.dstPkg.toNat ≠ s.ownPkg → exec (.bulkMessageArrive m) s = .next (s.sendOut m)) ∧
    (m.dstPkg.toNat = s.ownPkg → m.kind ≠ 2 → m.kind ≠ 3 → m.sys = false → m.srcPkg.toNat = s.ownPkg →
      m.winding ≠ (s.pav (m.stream.toNat / 2048)).winding → exec (.bulkMessageArrive m) s = .next s) ∧
    (∀ (c : Instr), (c = .bulkMessageArrive m ∧ (m.kind = 0 ∨ m.kind = 1 ∨ m.kind = 5 ∨ m.kind = 6)) ∨
        (c = .windowRequestReceive m ∧ (m.kind = 5 ∨ m.kind = 6)) →
      m.formed = true → m.pool = none → m.dstPkg.toNat = s.ownPkg → m.sys = false → m.srcPkg.toNat = s.ownPkg → m.winding = (s.pav (m.stream.toNat / 2048)).winding →
      let k := bulkPair m
      let q := Tab.getD s.net.pairs k {}
      q.early = [] → m.seq = q.expect →
      exec c s = .next (((s.modNet fun n => { n with pairs := Tab.put k { q with expect := q.expect + 1, early := [] } n.pairs }).applyRequest m))) ∧
    (∀ (c : Instr), c = .bulkMessageArrive m ∨ c = .replyArrive m → m.dstPkg.toNat = s.ownPkg → m.kind = 2 ∨ m.kind = 3 →
      ((∀ q ∈ s.net.sent, q.got.isSome = true ∨ q.msg.stream ≠ m.stream ∨ q.msg.seq ≠ m.seq ∨ q.msg.dstPkg ≠ m.srcPkg ∨ q.msg.sys ≠ m.sys) → exec c s = .next s) ∧
      ∀ q, m.formed = true → s.net.sent = [q] → q.got = none → q.msg.sys = m.sys → q.msg.stream = m.stream → q.msg.seq = m.seq → q.msg.dstPkg = m.srcPkg →
        q.core < 1088 → q.msg.kind = 4 → m.winding = (s.pav (m.stream.toNat / 2048)).winding →
        Does c s fun t => t.net.sent = [] ∧ (t.strand q.core q.strand).flights = (s.strand q.core q.strand).flights.filter (fun y => y.num != q.num) ∧
          t.beds = s.beds)

/-- ONPKG_FLIT_ERROR counts the first two failures in a row of the links of a unit that has on-package links; at the third its lane is spared. Sparing a lane with a spare left counts it and raises the PF0 event 0x0045; without one the die is marked degraded and every pavilion with something on it resets with cause 0x0B. A bridge lane repair counts one lane of its module, changes no lane of another, and ends the repeatability of every pavilion whose traffic may take the edge. -/
def Obligations.OnPackageLanes : Prop :=
  ∀ (s : State) (loc lane : Nat), locOfLink loc = true → lane < 65536 →
    let d := loc / 1024 % 4
    let k := loc * 65536 + lane / 64
    (Tab.getD s.net.hopFails loc 0 < 2 →
      exec (.onpkgFlitError loc lane) s = .next (s.modNet fun x => { x with hopFails := Tab.put loc (Tab.getD s.net.hopFails loc 0 + 1) x.hopFails })) ∧
    (∀ c, (c = .onpkgLaneSpare loc lane ∨ (c = .onpkgFlitError loc lane ∧ 2 ≤ Tab.getD s.net.hopFails loc 0)) →
      (Tab.getD s.net.lanes k 0 < 2 → Does c s fun t =>
        t.net.lanes = Tab.put k (Tab.getD s.net.lanes k 0 + 1) s.net.lanes ∧ t.net.dieDegraded = s.net.dieDegraded ∧ t.beds = s.beds) ∧
      (2 ≤ Tab.getD s.net.lanes k 0 → Does c s fun t =>
        t.net.dieDegraded = s.net.dieDegraded ||| BitVec.ofNat 4 (2 ^ d) ∧ t.net.lanes = s.net.lanes ∧ t.beds = s.beds ∧
        ∀ p, s.onDie p d = true → (t.pav p).resetting.isSome = true)) ∧
    ∀ edge module l, edge < 4 → module < 40 → l < 64 →
      Does (.bridgeLaneRepair edge module l) s fun t =>
        t.net.bridgeLanes = Tab.put (edge * 64 + module) (Tab.getD s.net.bridgeLanes (edge * 64 + module) 0 + 1) s.net.bridgeLanes ∧
        t.net.lanes = s.net.lanes ∧ t.beds = s.beds ∧ ∀ p, s.usesEdge p edge = true → (t.pav p).obs.repeatable = false

/-- Writing ENABLE to an OFF or FAILED port of the grade that is not held starts training, also where Gaold itself had turned its link group off and held its pads, which are released; clearing it makes the port OFF without a peer. Training with 8 lanes gives width 2, with 4 to 7 width 1, and a peer that reports this package's id gives FAILED. The spare of a port that trained on nine lanes takes a failing lane's place once, counted; SPARE_NOW does the same and keeps LANE_SEL, which is all it does with no spare. With the spare in use, or none, a further failure narrows the port to four lanes. A lost link leaves UP for FAILED, and QUIESCE for QUIESCED. No memory changes, and no pavilion but members of spans, whose routes change. -/
def Obligations.PortsTrainAndFail : Prop :=
  ∀ (s : State) (p : Nat), p < 16 →
    let x := s.port p
    let same := fun (t : State) => t.beds = s.beds ∧ ((∀ y ∈ s.pavs, y.2.bound = false ∨ y.2.isSpan = false) → t.pavs = s.pavs)
    (s.exposed = true → s.fuse.portOn p = true →
      (x.st = 0 ∨ x.st = 4 → s.power.pads.getLsbD (p / 4) = false → s.power.off.contains (p / 4 * 20 + 18) = false →
        Does (.dlPortEnable p true) s fun t => (t.port p).st = 1 ∧ (t.port p).enable = true ∧ t.beds = s.beds ∧ t.pavs = s.pavs) ∧
      (x.st = 0 ∨ x.st = 4 → s.domainHeld (p / 4 * 20 + 18) = false → s.power.pads.getLsbD (p / 4) = true → s.power.ownPads.getLsbD (p / 4) = true →
        Does (.dlPortEnable p true) s fun t => (t.port p).st = 1 ∧ (p / 4 * 20 + 18) ∉ t.power.off ∧
          t.power.pads = s.power.pads &&& ~~~BitVec.ofNat 6 (2 ^ (p / 4)) ∧ t.beds = s.beds ∧ t.pavs = s.pavs) ∧
      Does (.dlPortEnable p false) s (fun t => (t.port p).st = 0 ∧ (t.port p).enable = false ∧ (t.port p).peer = none ∧ same t) ∧
      (x.st = 2 → Does (.dlQuiesce p) s fun t => (t.port p).st = 3 ∧ (t.port p).quiesce = true ∧ (t.port p).queued = [] ∧ same t) ∧
      (∀ lane, lane ≤ 8 → x.st = 2 → x.width = 2 → x.laneOut = 15 →
        (8 < x.goodLanes → exec (.dlSpareNow p lane) s = .next (s.setPort p { x with
          laneSel := BitVec.ofNat 4 lane, laneOut := lane, goodLanes := x.goodLanes - 1, sparings := sat16 x.sparings })) ∧
        (x.goodLanes ≤ 8 → exec (.dlSpareNow p lane) s = .next (s.setPort p { x with laneSel := BitVec.ofNat 4 lane })))) ∧
    (∀ lanes pkg q, s.fuse.portOn p = true → x.enable = true → x.quiesce = false → x.st ≠ 2 → s.portHeld p = false → lanes ≤ 9 → q < 16 →
      Does (.portTrainComplete p lanes pkg q) s fun t =>
        ((lanes < 4 ∨ s.selfPeer pkg = true) → (t.port p).st = 4) ∧
        (4 ≤ lanes → s.selfPeer pkg = false → (t.port p).st = 2 ∧ (t.port p).width = (if 8 ≤ lanes then 2 else 1) ∧
          (t.port p).peer = (if pkg < 4096 then some (pkg, q) else none) ∧ (t.port p).expect = 0) ∧ same t) ∧
    (∀ lane, lane ≤ 8 → x.st = 2 → x.width = 2 → x.laneOut = 15 → 8 < x.goodLanes →
      exec (.dlLaneSpare p lane) s = .next (s.setPort p { x with laneOut := lane, goodLanes := x.goodLanes - 1, sparings := sat16 x.sparings })) ∧
    (∀ lanes, 4 ≤ lanes → lanes ≤ 9 → x.st = 2 → x.laneOut ≠ 15 ∨ x.width ≠ 2 ∨ x.goodLanes ≤ 8 →
      Does (.portRetrainNarrow p lanes) s fun t => (t.port p).st = 2 ∧ (t.port p).width = 1 ∧ (t.port p).goodLanes = lanes ∧
        (t.port p).sparings = sat16 x.sparings) ∧
    (x.st = 2 → Does (.portLeaveUp p) s fun t => (t.port p).st = 4 ∧ (t.port p).width = 0 ∧ (t.port p).queued = [] ∧ same t)

/-- On an UP port of a package with an id, a DATA flit with a wrong CRC or an uncorrected FEC codeword is counted and asked for again from the FSEQ expected, one out of order takes only its acknowledgement, and the expected one advances FSEQ, takes its acknowledgement and credits, and brings its messages in. A replay is counted. A LINK flit that is taken gives its credits, or with a farewell quiesces the port. The package id and the span base take their first write only; a routing entry keeps bits 0x1F1F, and the routes that spans use follow it. -/
def Obligations.FlitsIdsAndRoutes : Prop :=
  ∀ (s : State) (p : Nat), p < 16 →
    let x := s.port p
    let taken := fun (f : FlitBits) => s.sendPort p { (x.acknowledge f.ack).credit f.creditVc f.credits with expect := x.expect + 1, replayFrom := none }
    (∀ (f : FlitBits) (msgs : List BulkMsg), x.st = 2 → s.regs.pkgId ≠ none →
      let good := crc64 (f.head 1 ++ f.payload) = f.crc.toNat ∧ f.fecBad = 0
      (¬ good → exec (.dataFlitReceive p ⟨f, msgs⟩) s = .next (s.setPort p { x with
        crc := if crc64 (f.head 1 ++ f.payload) = f.crc.toNat then x.crc else sat16 x.crc
        fec := BitVec.ofNat 16 (min 65535 (x.fec.toNat + f.fecBad)), replayFrom := some x.expect })) ∧
      (good → BitVec.ofNat 16 f.fseq ≠ x.expect → exec (.dataFlitReceive p ⟨f, msgs⟩) s = .next (s.sendPort p (x.acknowledge f.ack))) ∧
      (good → BitVec.ofNat 16 f.fseq = x.expect →
        exec (.dataFlitReceive p ⟨f, msgs⟩) s = .next (msgs.foldl (fun u m => u.arrive p m) (taken f)))) ∧
    (∀ fseq, fseq < 65536 → x.st = 2 → exec (.flitReplay p fseq) s = .next (s.setPort p { x with replays := sat16 x.replays })) ∧
    (∀ f : FlitBits, x.st = 2 → f.good 3 = true → BitVec.ofNat 16 f.fseq = x.expect →
      (∀ vc n, exec (.linkFlitReceive p ⟨f, .credit vc n⟩) s = .next ((taken f).sendPort p (((taken f).port p).credit vc n))) ∧
      Does (.linkFlitReceive p ⟨f, .farewell⟩) s fun t => (t.port p).st = 3 ∧ (t.port p).queued = [] ∧ t.beds = s.beds) ∧
    (∀ v : Word32, s.exposed = true →
      (s.regs.pkgId = none → Does (.dlPkgIdWrite v) s fun t => t.regs.pkgId = some (BitVec.ofNat 12 v.toNat) ∧ t.beds = s.beds ∧
        ((∀ y ∈ s.pavs, y.2.bound = false ∨ y.2.isSpan = false) → t.pavs = s.pavs)) ∧
      (s.regs.pkgId ≠ none → exec (.dlPkgIdWrite v) s = .next s) ∧
      exec (.dlRtDataWrite v) s
        = .next { s with links := { s.links with routes := Tab.put (s.links.rtSel.toNat % 4096) (v &&& 0x1F1F#32) s.links.routes } }.rerouted) ∧
    ∀ v : Word64, s.exposed = true →
      (s.links.spanBase = none →
        exec (.dlSpanBaseWrite v) s = .next { s with links := { s.links with spanBase := some (BitVec.ofNat 64 (v.toNat / 65536 * 65536)) } }) ∧
      (s.links.spanBase ≠ none → exec (.dlSpanBaseWrite v) s = .next s)

/-- A TIMESTAMP flit that is taken on an UP port makes the package, if it is the time master, SYNC at offset 0 and depth 0; a package whose route to another master is this port takes its offset, half the difference of the two directions plus the peer's, its master and its depth plus one. On an UP port of a package with an id, rank 0's release of a barrier reaches the READY member under its winding once and names the tick there. A lost peer, and a winding abort of the current span winding, fault a FORMING or READY span: state FAULTED with the rank, no commit or barrier, the pavilion resetting with cause 0x08 first. At rank 0 a member's rollup formed after the same flip changes nothing if it equals its own, and else is reported to PF0 and, in one message, to that member. -/
def Obligations.TimeMasterAndSpans : Prop :=
  ∀ (s : State),
    (∀ port (t : TimeStamp), port < 16 → s.portUp port = true → t.flit.good 4 = true → BitVec.ofNat 16 t.flit.fseq = (s.port port).expect →
      let q := (s.flitIn port 4 t.flit).2
      let u := q.sendPort port { q.port port with
        stamp := some t, latency := BitVec.ofNat 16 t.delayNs, control := (q.port port).control ++ [4] }
      (u.master = some s.ownPkg → s.regs.pkgId ≠ none →
        Does (.timestampExchange port t) s fun v => v.links.tsync.sync = true ∧ v.links.tsync.offsetPs = 0 ∧ v.links.tsync.depth = 0 ∧
          v.time = s.time ∧ (v.port port).stamp = some t) ∧
      (∀ m, u.master = some m → m ≠ s.ownPkg → u.routeTo m = some port →
        Does (.timestampExchange port t) s fun v => v.links.tsync.offsetPs = ((t.sent - t.peerGot) + (t.got - t.peerSent)) / 2 + t.masterOffset ∧
          v.links.tsync.master = BitVec.ofNat 12 t.master ∧ v.links.tsync.depth = t.depth + 1 ∧ (v.port port).stamp = some t)) ∧
    (∀ port (f : FlitBits) src boot no delay id i tick p b, port < 16 → s.portUp port = true → s.regs.pkgId ≠ none → f.good 2 = true →
      BitVec.ofNat 16 f.fseq = (s.port port).expect → s.memberOfSpan id = some p →
      (s.pav p).span.st = 2 → (s.pav p).spanRank ≠ 0 → Tab.find i (s.pav p).barriers = some b →
      let u := (s.flitIn port 2 f).2
      let c : Instr := .syncFlitReceive port ⟨f, [⟨src, s.ownPkg, boot, no, delay, .release id (.barrier i) 0 tick (s.pav p).span.winding⟩]⟩
      match (Tab.getD s.links.syncGot src {}).take boot no with
      | some g => exec c s = .next ({ u with links := { u.links with syncGot := Tab.put src g s.links.syncGot } }.setPav p { s.pav p with
          barriers := Tab.put i { b with tick := some tick } (s.pav p).barriers })
      | none => exec c s = .next u) ∧
    (∀ (c : Instr) p rank id, (c = .peerLossDetect p rank ∧ p < 512 ∧ rank ≤ (s.pav p).spanLast ∧ rank ≠ (s.pav p).spanRank) ∨
        (c = .windingAbortReceive id (s.pav p).span.winding.toNat rank ∧ s.memberOfSpan id = some p) →
      (s.pav p).bound = true → (s.pav p).isSpan = true → (s.pav p).span.st = 1 ∨ (s.pav p).span.st = 2 → (s.pav p).resetting = none →
      Does c s fun t => (t.pav p).span.st = 3 ∧ (t.pav p).span.faultRank = rank ∧ (t.pav p).barriers = [] ∧ (t.pav p).commit = none ∧
        ((t.pav p).resetting.map Resetting.causes) = some [0x08] ∧ t.beds = s.beds) ∧
    (∀ p rank (tick roll : Word64) groups, p < 512 → (s.pav p).bound = true → (s.pav p).isSpan = true → (s.pav p).spanRank = 0 → (s.pav p).span.st = 2 →
      0 < rank → rank ≤ (s.pav p).spanLast → tick = (s.pav p).span.flipTick →
      (roll.toNat = s.spanFp p → exec (.spanRollupCompare p rank tick roll groups) s = .next s) ∧
      (roll.toNat ≠ s.spanFp p → ∃ g loc, exec (.spanRollupCompare p rank tick roll groups) s
        = .next ((s.raisePf0 0x0060 p (detailWords [1, loc, s.regs.epoch.toNat, (s.pav p).member rank])).syncSend ((s.pav p).member rank)
            (.diverged (s.pav p).spanId g (s.pav p).winding))))

/-- A half not in reset moves one operating point towards its target, up only with the higher VCORE reached and no write in progress, and not at all at its target. The escapement raises its limit by one unless a clamp holds, and the activity follows. A droop below 92 % clamps to 16, and recovery above 94 % ends the clamp and counts. Below 85 % a die-half reset starts. Heat raises the floor one step from 100 °C, lowers it below 97 °C, and clamps from 105 °C at divisor 12. A trim never falls. No other half changes. -/
def Obligations.HalvesMoveAndClamp : Prop :=
  ∀ (s : State) (h : Nat), h < 8 →
    let x := s.half h
    let same := fun (t : State) => (∀ g, g ≠ h → t.half g = s.half g) ∧ t.beds = s.beds ∧ t.strands = s.strands ∧ t.cores = s.cores
    (x.resetting = none →
      (x.div < x.target s.power.trimPending → Does (.divisorChange h) s fun t => (t.half h).div = divDown x.div ∧ same t) ∧
      (∀ d, divUp x.div = some d → x.target s.power.trimPending < x.div → Tab.find h s.power.avs = none → setPoint d x.trim ≤ x.vset →
        Does (.divisorChange h) s fun t => (t.half h).div = d ∧ (t.half h).escape = x.issue * d / x.div ∧ same t) ∧
      (x.target s.power.trimPending = x.div → exec (.divisorChange h) s = .next s)) ∧
    (∀ load, Does (.escapementStep h load) s fun t => same t ∧
      (t.half h).escape = (if x.droopClamp || x.thermalClamp then x.escape else min 64 (x.escape + 1)) ∧
      (x.droopClamp = false → x.thermalClamp = false → (t.half h).activity ≤ x.activity + 1 ∧ x.activity ≤ (t.half h).activity + 1)) ∧
    (∀ mv,
      (mv * 1000 < 92 * s.droopPoint h → x.droopClamp = false → x.resetting = none →
        Does (.droopDetect h mv) s fun t => same t ∧ (t.half h).droopClamp = true ∧ (t.half h).escape = min x.escape 16) ∧
      (94 * s.droopPoint h < mv * 1000 → x.droopClamp = true →
        Does (.droopRecover h mv) s fun t => same t ∧ (t.half h).droopClamp = false ∧ (t.half h).droops = sat16 x.droops) ∧
      (mv * 1000 < 85 * s.droopPoint h → exec (.supplyResetDip h mv) s = .next (s.startHalf h 1 []))) ∧
    (∀ c,
      (Does (.thermalThrottleStep h c) s fun t => same t ∧ (t.half h).tj = c ∧ (t.half h).floor =
        (if 100 ≤ c ∧ x.floor ≠ 12 ∧ s.sinceStep h 100000 = true then divDown x.floor else x.floor)) ∧
      (∀ d, c < 97 → s.sinceStep h 1000000 = true → divUp x.floor = some d →
        Does (.thermalRelaxStep h c) s fun t => same t ∧ (t.half h).tj = c ∧ (t.half h).floor = d) ∧
      Does (.thermalClamp h c) s fun t => same t ∧ (t.half h).tj = c ∧
        (105 ≤ c → x.div = 12 → (t.half h).thermalClamp = true ∧ (t.half h).escape = min x.escape 16) ∧
        (c < 103 → (t.half h).thermalClamp = false) ∧ (103 ≤ c → c < 105 → (t.half h).thermalClamp = x.thermalClamp)) ∧
    ∀ trim, Does (.ageingMeasure h trim) s fun t => (t.half h).trim = max x.trim (min 16 trim) ∧ t.beds = s.beds ∧ ∀ g, g ≠ h → (t.half g).trim = (s.half g).trim

/-- A voltage write is acknowledged, then done: a VCORE set-point becomes the value written. An unacknowledged one is sent again, three times in all, and a fixed rail that still does not answer is lost, reported to PF0 with event 0x0051. Readings add up by rail. A cap is held between 40 % and 100 % of the thermal design power. Bits 0 to 4 of PWR_PAD_RELEASE release pad groups and hold none. A domain that may be off goes off, held in Nap, with the pads of a link group held; a memory group that an access woke less than 10 ms ago stays on. Learned coefficients are saved once due. -/
def Obligations.RailsCapsAndDomains : Prop :=
  ∀ (s : State),
    (∀ rail a, rail < 14 → Tab.find rail s.power.avs = some a →
      exec (.avsResponse rail false) s = .next { s with power := { s.power with avs := Tab.put rail { a with acked := true } s.power.avs } } ∧
      (a.acked = true → rail < 8 → Does (.avsResponse rail true) s fun t => (t.half rail).vset = a.mv ∧ (t.half rail).div = (s.half rail).div ∧
        t.beds = s.beds ∧ ∀ g, g ≠ rail → t.half g = s.half g) ∧
      (a.acked = true → 8 ≤ rail → exec (.avsResponse rail true) s = .next { s with power := { s.power with avs := Tab.drop rail s.power.avs } }) ∧
      (a.acked = false → a.tries < 3 →
        exec (.avsTimeout rail) s = .next { s with power := { s.power with avs := Tab.put rail { a with tries := a.tries + 1 } s.power.avs } }) ∧
      (a.acked = true ∨ 3 ≤ a.tries → 8 ≤ rail → Does (.avsTimeout rail) s fun t => t.power.lost = addNew rail s.power.lost ∧ t.beds = s.beds) ∧
      (a.acked = true ∨ 3 ≤ a.tries → rail < 8 →
        exec (.avsTimeout rail) s = .next ({ s with power := { s.power with avs := Tab.drop rail s.power.avs } }.startHalf rail 2 []))) ∧
    (∀ readings : List (Nat × Nat), (∀ x ∈ readings, x.1 < 14) → Does (.telemetryRead readings) s fun t => t.beds = s.beds ∧ t.power.cap = s.power.cap ∧
      ∀ r, Tab.getD t.power.heard r (0, 0) = ((Tab.getD s.power.heard r (0, 0)).1 + ((readings.filter fun x => x.1 == r).map Prod.snd).sum,
        (Tab.getD s.power.heard r (0, 0)).2 + (readings.filter fun x => x.1 == r).length)) ∧
    (∀ v : Word32, s.exposed = true →
      (Does (.pwrCapWrite v) s fun t => t.power.cap = max (s.fuse.tdp * 2 / 5) (min s.fuse.tdp (v.toNat % 65536)) ∧ t.power.capInForce = s.power.capInForce) ∧
      Does (.pwrPadReleaseWrite v) s fun t => t.power.pads = s.power.pads &&& ~~~BitVec.ofNat 6 (v.toNat % 32) ∧ t.power.off = s.power.off ∧
        ∀ p, p < 16 → (s.port p).st ≠ 0 → t.port p = s.port p) ∧
    (∀ d, d < 96 → s.boot.stage = .running → s.mayBeOff d = true →
      (∀ w, Tab.find d s.power.woke = some w → (s.now - w).toNat < 1000000 → exec (.domainIdleOff d) s = .next s) ∧
      ((∀ w, Tab.find d s.power.woke = some w → 1000000 ≤ (s.now - w).toNat) → Does (.domainIdleOff d) s fun t =>
        t.power.off = addNew d s.power.off ∧ t.power.napHolds = (if s.power.nap then addNew d s.power.napHolds else s.power.napHolds) ∧
        t.power.pads = (if s.power.off.contains d then s.power.pads else s.power.pads ||| padsOf d) ∧
        t.power.ownPads = (if s.power.nap || s.power.off.contains d then s.power.ownPads else s.power.ownPads ||| (padsOf d &&& ~~~s.power.pads)) ∧
        t.beds = s.beds ∧ t.links = s.links ∧ t.pavs = s.pavs)) ∧
    (s.power.unsaved = true → (∀ t, s.power.savedAt = some t → hourTicks ≤ (s.now - t).toNat) →
      Does .calibrationWrite s fun t => t.power.flash = s.power.coeffs ∧ t.power.coeffs = s.power.coeffs ∧ t.power.unsaved = false ∧ t.fw.calibrated = true)

/-- When an interval ends at a TIME multiple of 100,000 in a running package whose pavilion table names each pavilion below 512 once, and its telemetry is valid, what it charges to pavilions and the increase of the unattributed energy add up to the energy measured, the sum over the rails of their mean power. Under invalid telemetry a pavilion is charged its model energy, and UNRECONCILED counts. The cap in force becomes the cap, and no memory changes. -/
def Obligations.EnergyOfAnIntervalIsConserved : Prop :=
  ∀ (s : State) (cycles : List (Nat × List Nat)) (overhead : Nat), s.boot.stage = .running → s.now.toNat % 100000 = 0 →
    (∀ x ∈ cycles, x.1 < 512) → (s.pavs.map Prod.fst).Nodup → (∀ x ∈ s.pavs, x.1 < 512) →
    Does (.energyInterval cycles overhead) s fun t =>
      t.power.capInForce = s.power.cap ∧ t.power.heard = [] ∧ t.beds = s.beds ∧ t.time = s.time ∧
      (∀ p, (s.pav p).acct.energy ≤ (t.pav p).acct.energy) ∧
      ((s.reconcile cycles overhead).1.valid = true →
        ((List.range 512).map fun p => (t.pav p).acct.energy - (s.pav p).acct.energy).sum + (t.power.overhead - s.power.overhead)
          = (s.power.heard.map fun x => meanOf x.2).sum) ∧
      ((s.reconcile cycles overhead).1.valid = false → ∀ p, (s.pav p).bound = true →
        (t.pav p).acct.energy = (s.pav p).acct.energy + (s.pav p).acct.modelled s.power.coeffs (cyclesOf cycles p) / 10 ^ 7)

/-- For each of the 41 rows of defined mailbox commands: a post to a BUSY slot sets POST_ERR in it and does nothing else; a post accepted while Gaold does not serve copies the request and TAG, zeroes the response, makes the slot BUSY and queues it; a served post that fails a common check completes with the first failing check's code and has no other effect. A command that passes the checks and names a pavilion in replay completes with 0x85, and one that names a recorded pavilion runs after its record is appended. A post with an undefined opcode completes with 0x80. -/
def Obligations.PostsAreCopiedQueuedAndChecked : Prop :=
  ∀ (s : State) (fn slot : Nat) (answers : List SpanAnswer),
    (∀ c ∈ mailboxCommands fn slot answers, Posts s fn slot c.sel →
      let u := c.before s
      ((s.slotAt fn slot).st = 1 → exec c.instr s = .next (u.setMb (s.postName fn slot) { s.slotAt fn slot with postErr := true })) ∧
      ((s.slotAt fn slot).st ≠ 1 →
        (s.serving = false → exec c.instr s = .next { u.postedAt fn slot with posts := s.posts ++ [s.postName fn slot] }) ∧
        (s.serving = true →
          ∀ code, (u.postedAt fn slot).failedCheck (s.postName fn slot) (c.form (u.postedAt fn slot) (s.postName fn slot)) = some code →
            exec c.instr s = .next ((u.postedAt fn slot).complete (s.postName fn slot) code [])) ∧
        (s.serving = true → (c.form (u.postedAt fn slot) (s.postName fn slot)).named = true →
          (u.postedAt fn slot).replaying ((u.postedAt fn slot).target (s.postName fn slot)) = true → s.replayer.diverged = false →
          (u.postedAt fn slot).failedCheck (s.postName fn slot) (c.form (u.postedAt fn slot) (s.postName fn slot)) = none →
          (s.slotAt fn slot).posted.w 0 % 256 ≠ 0x52 → exec c.instr s = .next ((u.postedAt fn slot).complete (s.postName fn slot) 0x85 [])))) ∧
    (∀ (t : State) (k : Nat) (f : CmdForm) (body : Nat → State → State), f.named = true → t.failedCheck k f = none →
      t.recording (t.target k) = true → t.replaying (t.target k) = false → (t.mb k).w 0 % 256 ∉ [0x52, 0x01, 0x50, 0x51] →
      t.start k f body = body (t.target k) (t.recordInput (t.target k) 1 0 (postFn k) (k % 4) ((t.mb k).copy.flatMap fun w => leBytes 4 w.toNat))) ∧
    (Starts s fn slot (fun w => !opcodes.contains (w 0 % 256)) →
      exec (.mbUnknown fn slot) s = .next ((s.postedAt fn slot).complete (s.postName fn slot) 0x80 []))

/-- Completing a live post writes response word 0 as STATUS and the request's second byte, the further words given and zeros after them, makes the slot DONE with the TAG copied at the post, and changes no other slot, memory, core or pavilion. A vector is sent only if the request asks for one. The answer of a command that a function reset has met is dropped and changes nothing else; a post that is not BUSY under its name is not answered. -/
def Obligations.CompletionAnswersTheSlot : Prop :=
  ∀ (s : State) (k status : Nat) (rsp : List Nat), replayPost k = false → k % 4 < (s.fn (postFn k)).slots.length → status < 256 → rsp.length ≤ 15 →
    ((s.mb k).st = 1 → (s.mb k).gen = k / 2048 → Tab.find k s.orphans = none →
      let t := s.complete k status rsp
      (t.mb k).st = 2 ∧ (t.mb k).status = BitVec.ofNat 8 status ∧ (t.mb k).postTag = (s.mb k).postTag ∧ (t.mb k).rsp.length = 16 ∧
      ((t.mb k).rsp[0]?).getD 0 = BitVec.ofNat 32 (status + (s.mb k).w 0 % 256 * 256) ∧
      (∀ i, 1 ≤ i → i < 16 → ((t.mb k).rsp[i]?).getD 0 = BitVec.ofNat 32 (nthD rsp (i - 1) 0)) ∧
      (∀ j, j % 2048 ≠ k % 2048 → replayPost j = false → t.mb j = s.mb j) ∧
      (bitAt ((s.mb k).w 0) 16 = false → t.irqs = s.irqs) ∧ t.beds = s.beds ∧ t.cores = s.cores ∧ t.pavs = s.pavs ∧ t.host = s.host) ∧
    ((s.mb k).st ≠ 1 ∨ (s.mb k).gen ≠ k / 2048 → s.complete k status rsp = s) ∧
    ((s.mb k).st = 1 → (s.mb k).gen = k / 2048 → (Tab.find k s.orphans).isSome = true →
      s.complete k status rsp = { s with orphans := Tab.drop k s.orphans })

/-- A POWER post that passes its checks, with no fixed rail lost, does what its ACTION says: QUERY answers PWR_STATE; SET_CAP stores the clamped cap and answers it; NAP turns the eligible domains off and holds them, or is refused during an apply; DOZE is refused with an enabled pavilion; ACTIVE ends Nap; HOLD holds or releases an eligible domain, and is refused during an apply; LIMIT_HALF sets a free half's limit, and an illegal divisor is refused; RESET_HALF starts the half's reset. -/
def Obligations.PowerCommandsAct : Prop :=
  ∀ (s : State) (fn slot : Nat),
    let t := s.postedAt fn slot
    let k := s.postName fn slot
    let w := (s.slotAt fn slot).posted.w
    let is := fun (act : Nat) => Passes s fn slot (fun w => opc 0x58 w && w 1 % 16 == act) powerForm
    (Passes s fn slot (fun w => opc 0x58 w && (w 1 % 16 == 0 || decide (w 1 % 16 > 7))) powerForm →
      exec (.powerQuery fn slot) s = .next (t.complete k 0 [t.pwrWord])) ∧
    (s.power.lost = [] →
      (is 1 → exec (.powerSetCap fn slot) s
        = .next ({ t with power := { t.power with cap := s.fuse.clampCap (w 2) } }.complete k 0 [s.fuse.clampCap (w 2)])) ∧
      (is 2 → s.applyOn = true → exec (.powerNap fn slot) s = .next (t.complete k 0x01 [])) ∧
      (is 2 → s.applyOn = false → Does (.powerNap fn slot) s fun u => u.power.nap = true ∧ u.power.napHolds = s.eligibles ∧ u.beds = s.beds ∧
        ∀ d ∈ s.eligibles, d ∈ u.power.off) ∧
      (is 3 → (s.pavs.any fun x => x.2.bound) = true → exec (.powerDoze fn slot) s = .next (t.complete k 0x01 [])) ∧
      (is 3 → (s.pavs.any fun x => x.2.bound) = false → s.applyOn = false → s.replayer.mode ≠ 1 →
        Does (.powerDoze fn slot) s fun u => u.power.dozing = true ∧ u.beds = s.beds ∧ ∀ p, p < 16 → s.portUp p = true → (u.port p).st = 3) ∧
      (is 4 → s.power.nap = true →
        exec (.powerActive fn slot) s = .next ({ t with power := { t.power with nap := false, napHolds := [] } }.complete k 0 [0])) ∧
      (is 4 → s.power.nap = false → exec (.powerActive fn slot) s = .next (t.complete k 0x01 [])) ∧
      (is 5 → s.applyOn = true → exec (.powerHold fn slot) s = .next (t.complete k 0x01 [])) ∧
      (is 5 → s.mayBeOff (w 3) = true → s.applyOn = false →
        (w 2 = 1 → Does (.powerHold fn slot) s fun u => w 3 ∈ u.power.holds ∧ w 3 ∈ u.power.off ∧ u.beds = s.beds) ∧
        (w 2 = 0 → Does (.powerHold fn slot) s fun u => u.power.holds = s.power.holds.filter (fun d => d != w 3) ∧ u.power.off = s.power.off)) ∧
      (is 6 → w 2 ∉ [6, 8, 12] → exec (.powerLimitHalf fn slot) s = .next (t.complete k 0x01 [])) ∧
      (is 6 → w 2 ∈ [6, 8, 12] → s.tied (w 3 / 2) = false → Does (.powerLimitHalf fn slot) s fun u => (u.half (w 3)).limit = w 2 ∧ u.beds = s.beds) ∧
      (is 7 → (s.half (w 3)).resetting = none → exec (.powerResetHalf fn slot) s = .next (t.startHalf (w 3) 3 [k])))

/-- A post that passes its checks: IDENTIFY answers the identity words. INVALIDATE is listed with its target and completes when every unit has received it and no use is left, with TIME. FAULT_RESOLVE with KILL empties the records and starts a reset with cause 0x04; RETRY of a record that is not OPEN answers 0, and its two counts add up to the tiles that waited. MEM_COPY with a bad range completes with 0x01; to the host it writes the bytes at the host function's IOVA and counts them in HOST; from the host it is listed as a transfer. RUN is refused with 0x07 beside four runs, and a run whose table is good is accepted last, in the state that reading the table leaves. PAV_RESET starts a reset for TIME + 20, and PKG_RESET a warm reset that leaves the slot IDLE. -/
def Obligations.MemoryAndRunCommandsAct : Prop :=
  ∀ (s : State) (fn slot : Nat),
    let t := s.postedAt fn slot
    let k := s.postName fn slot
    let m := (s.slotAt fn slot).posted
    let p := t.target k
    (Passes s fn slot (opc 0x01) { anyMajor := true } → exec (.identify fn slot) s = .next (t.complete k 0 (t.identity fn))) ∧
    (Passes s fn slot (opc 0x18) invalidateForm → exec (.invalidate fn slot) s
      = .next { t with invals := t.invals ++ [{ post := k, pav := p, kind := invalKind m, first := m.w2 2, len := m.w2 4 }] }) ∧
    (∀ v, fn < 512 → slot < 4 → s.inval fn slot = some v →
      (∀ u, u ≤ 76 → Does (.invalidateReceive u fn slot) s fun r => r.beds = s.beds ∧ r.strands = s.strands ∧ r.pavs = s.pavs ∧
        (∀ e ∈ Tab.getD r.tcache u [], e.pav = v.pav → v.hits (e.idx <<< (16 + 13 * e.level)) ((e.idx + 1) <<< (16 + 13 * e.level)) = false) ∧
        ∀ x ∈ r.invals, x.post = v.post → u ∈ x.units) ∧
      ((∀ u ∈ s.unitsOf v.pav, u ∈ v.units) → s.usesTarget v = false → s.heldTarget v = false →
        Does (.invalidateDrainComplete fn slot) s fun r => (∀ x ∈ r.invals, x.post ≠ v.post) ∧ r.beds = s.beds ∧ r.strands = s.strands ∧
          ((s.mb v.post).st = 1 → replayPost v.post = false → Tab.find v.post s.orphans = none → (s.mb v.post).gen = v.post / 2048 → v.post % 4 < (s.fn (postFn v.post)).slots.length →
            (r.mb v.post).st = 2 ∧ (r.mb v.post).status = 0))) ∧
    (Passes s fn slot (fun w => opc 0x19 w && bitAt (w 2) 8) resolveForm → (Tab.find (m.w 2 % 32) (s.pav p).faults).isSome = true →
      exec (.faultResolveKill fn slot) s
        = .next (((t.modPav p fun v => { v with faults := [], waiters := [] }).startReset p 0x04 0 []).complete k 0 [0])) ∧
    (Passes s fn slot (fun w => opc 0x19 w && !bitAt (w 2) 8) resolveForm →
      ((∀ r, Tab.find (m.w 2 % 32) (s.pav p).faults = some r → r.st ≠ 1) → exec (.faultResolveRetry fn slot) s = .next (t.complete k 0 [0])) ∧
      ∀ r, Tab.find (m.w 2 % 32) (s.pav p).faults = some r → r.st = 1 → ∃ (u : State) (go again : Nat),
        exec (.faultResolveRetry fn slot) s = .next (u.complete k 0 [go % 65536 + (again % 65536) <<< 16]) ∧
        go + again = ((s.pav p).waiters.filter fun w => w.page == r.page).length) ∧
    (Passes s fn slot (opc 0x24) (memCopyForm (s.pav p).conf) → s.replaying p = false →
      (m.w2 3 % 64 ≠ 0 ∨ m.w2 5 % copyUnit (s.pav p).conf ≠ 0 ∨ (s.pav p).capacity < m.w2 5 + m.w 7 → exec (.memCopy fn slot) s = .next (t.complete k 0x01 [])) ∧
      (m.w2 3 % 64 = 0 → m.w2 5 % copyUnit (s.pav p).conf = 0 → m.w2 5 + m.w 7 ≤ (s.pav p).capacity → s.sealedRange p (m.w2 5) (m.w 7) = false →
        (s.pav p).chan.halted = false →
        (bitAt (m.w 2) 0 = false → exec (.memCopy fn slot) s
          = .next { t with transfers := t.transfers ++ [{ post := k, pav := p, kind := 0, iova := m.w2 3, addr := m.w2 5, len := m.w 7 }] }) ∧
        (bitAt (m.w 2) 0 = true → (s.pav p).conf = false → s.beds.badIn (csKey (s.pav p) (s.pav p).channels) (m.w2 5) (m.w 7) = none →
          exec (.memCopy fn slot) s
            = .next (({ t with host := Mem.writeN s.host ((s.pav p).hostAt (m.w2 3)) (s.readCs p (m.w2 5) (m.w 7)) }.count p 0 (m.w 7)).complete k 0 [m.w 7])))) ∧
    (Passes s fn slot (opc 0x28) runForm →
      (4 ≤ (s.pav p).runs.length → exec (.run fn slot) s = .next (t.complete k 0x07 ([0] ++ lohi (s.pav p).committed.toNat))) ∧
      ∀ r, (s.pav p).runs.length < 4 → (s.pav p).isSpan = false →
        let q := t.readTable p { post := k } (some k) (m.w2 2) (bits (m.w 4) 9 0) (bits (m.w 4) 25 16) (m.w 5)
        q.1 = .ok r →
        Does (.run fn slot) s fun u => (u.pav p).runs = (s.pav p).runs ++ [r] ∧ u.beds = q.2.beds ∧ u.fns = t.fns ∧ u.cores = s.cores ∧ u.strands = s.strands) ∧
    (Passes s fn slot (opc 0x44) pavResetForm → (s.pav p).resetting = none →
      Does (.pavReset fn slot) s fun u => u.beds = s.beds ∧ u.strands = s.strands ∧ u.fns = t.fns ∧
        (u.pav p).resetting = some { causes := [9], tick := s.now + 20, slots := [k], oldWinding := (s.pav p).winding, oldStep := (s.pav p).committed, location := 0 }) ∧
    (Passes s fn slot (opc 0x45) pkgResetForm → exec (.pkgReset fn slot) s = .next (t.warmReset 3) ∧
      ∀ f x, Tab.find f (t.warmReset 3).fns = some x → ∀ y ∈ x.slots, y.st = 0)

/-- A post that passes its checks: MODEL_LOAD of a home that is not mapped LOCAL without WR, or is misaligned, completes with 0x01; of a good one without FILL or SEALED it registers a slice of LEN / 64 KiB pieces, none resident, under a handle that was free, and answers the handle. A handle not registered gives 0x02. MODEL_PIN beyond the capacity gives 0x03, else the slice is pinned; UNPIN clears the mark and answers the resident count; at rank 0 of a span it is passed to the other members and completes with the last of them. MODEL_EVICT leaves no piece of the slice resident, and RELEASE of a slice that no run lists gives its handle up. -/
def Obligations.ModelsLoadPinAndEvict : Prop :=
  ∀ (s : State) (fn slot : Nat),
    let t := s.postedAt fn slot
    let k := s.postName fn slot
    let m := (s.slotAt fn slot).posted
    let p := t.target k
    let h := m.w 2
    (s.pav p).shared = [] →
    (Passes s fn slot (opc 0x20) modelLoadForm →
      (s.homeOk p (m.w2 2) (m.w2 4) = false → exec (.modelLoad fn slot) s = .next (t.complete k 0x01 [])) ∧
      (s.homeOk p (m.w2 2) (m.w2 4) = true → s.sliceCount p < 65536 → (s.pav p).isSpan = false → bitAt (m.w 6) 0 = false → bitAt (m.w 6) 2 = false →
        ∃ handle, Tab.find handle (s.pav p).slices = none ∧ 0 < handle ∧ handle < 2 ^ 24 ∧
          Does (.modelLoad fn slot) s fun u => u.beds = s.beds ∧ (u.mb k).st = 2 ∧ (u.mb k).status = 0 ∧
            (u.pav p).slices = Tab.put handle { home := BitVec.ofNat 64 (m.w2 2), pieces := m.w2 4 / 65536, code := bitAt (m.w 6) 1, lastUse := s.now } (s.pav p).slices)) ∧
    (Passes s fn slot (fun w => opc 0x21 w && w 3 % 2 == 0) pinForm →
      (Tab.find h (s.pav p).slices = none → exec (.modelPin fn slot) s = .next (t.complete k 0x02 [])) ∧
      ∀ sl, Tab.find h (s.pav p).slices = some sl →
        let pinned := (((s.pav p).slices.filter fun x => x.2.pinned && x.1 != h).map fun x => x.2.pieces).sum
        (s.orangeryPieces p < pinned + sl.pieces → exec (.modelPin fn slot) s = .next (t.complete k 0x03 [])) ∧
        (pinned + sl.pieces ≤ s.orangeryPieces p → (s.pav p).isSpan = false → sl.residentCount = sl.pieces →
          exec (.modelPin fn slot) s = .next ((t.modSlice p h fun x => { x with pinned := true }).complete k 0 [sl.pieces])) ∧
        (pinned + sl.pieces ≤ s.orangeryPieces p → (s.pav p).isSpan = false → sl.residentCount ≠ sl.pieces →
          exec (.modelPin fn slot) s = .next ((t.modSlice p h fun x => { x with pinned := true }).beginFill p h (some k)))) ∧
    (Passes s fn slot (fun w => opc 0x21 w && w 3 % 2 == 1) pinForm →
      (Tab.find h (s.pav p).slices = none → exec (.modelUnpin fn slot) s = .next (t.complete k 0x02 [])) ∧
      ∀ sl, Tab.find h (s.pav p).slices = some sl →
        ((s.pav p).isSpan = false →
          exec (.modelUnpin fn slot) s = .next ((t.modSlice p h fun x => { x with pinned := false }).complete k 0 [sl.residentCount])) ∧
        ((s.pav p).isSpan = true → (s.pav p).spanRank = 0 → 0 < (s.pav p).spanLast → Does (.modelUnpin fn slot) s fun u =>
          u = ((t.share p k h (t.sliceWords k)).modSlice p h fun x => { x with pinned := false }).modPav p (fun v =>
            { v with shared := [(k, { left := (List.range (s.pav p).spanLast).map (· + 1), own := some (0, [sl.residentCount]) })] }) ∧
          Tab.find h (u.pav p).slices = some { sl with pinned := false } ∧ (u.mb k).st = 1 ∧
          (u.pav p).shared = [(k, { left := (List.range (s.pav p).spanLast).map (· + 1), own := some (0, [sl.residentCount]) })])) ∧
    (Passes s fn slot (opc 0x22) evictForm →
      (Tab.find h (s.pav p).slices = none → exec (.modelEvict fn slot) s = .next (t.complete k 0x02 [])) ∧
      ∀ sl, Tab.find h (s.pav p).slices = some sl →
        (m.w 3 % 2 = 1 → (s.pav p).lists h = true → exec (.modelEvict fn slot) s = .next (t.complete k 0x05 [])) ∧
        (m.w 3 % 2 = 0 → (s.pav p).isSpan = false → Does (.modelEvict fn slot) s fun u => u.beds = s.beds ∧
          ∃ sl', Tab.find h (u.pav p).slices = some sl' ∧ sl'.resident = [] ∧ sl'.pinned = sl.pinned ∧ sl'.home = sl.home) ∧
        (m.w 3 % 2 = 1 → (s.pav p).lists h = false → (s.pav p).isSpan = false → sl.key = none → ((s.pav p).slices.map Prod.fst).Pairwise (· < ·) →
          Does (.modelEvict fn slot) s fun u => u.beds = s.beds ∧ (u.pav p).slices = Tab.drop h (s.pav p).slices))

/-- A post that passes its checks: FREEZE of a frozen pavilion answers at once; of an idle one that no apply holds it freezes, every run suspended; else it waits with its TIME. A pavilion at a layer boundary freezes at FREEZE_TAKE_HOLD if that was asked. FREEZE_TIMEOUT ends the waits older than the watchdog period, and the pavilion runs on. THAW, which is refused while a SAVE or RESTORE is in progress, resumes every run, starts the fills of a layer that has yet to start and reads the tables of restored runs. SAVE and RESTORE of a pavilion not frozen complete with 0x02; without a usable key with 0x83 and 0x04; else RESTORE asks for the image, and SAVE writes it once all is delivered and until then is BUSY. -/
def Obligations.FreezeThawSaveAndRestore : Prop :=
  ∀ (s : State) (fn slot : Nat),
    let t := s.postedAt fn slot
    let k := s.postName fn slot
    let m := (s.slotAt fn slot).posted
    let p := t.target k
    let v := s.pav p
    (Passes s fn slot (fun w => opc 0x40 w && !bitAt (w 2) 0) (freezeForm v) →
      (v.freeze.frozen = true → exec (.freeze fn slot) s = .next (t.complete k 0 [])) ∧
      (v.freeze.frozen = false →
        (s.idle p = true → s.applying p = false → (∀ r ∈ v.runs, r.slot ≠ some k) → Does (.freeze fn slot) s fun u => (u.pav p).freeze.frozen = true ∧ (u.pav p).freeze.at_ = s.now ∧
          (u.pav p).freeze.waiting = [] ∧ (∀ r ∈ (u.pav p).runs, r.suspended = true ∧ r.slot = none) ∧ u.beds = s.beds ∧ u.strands = s.strands ∧
          (u.mb k).st = 2 ∧ (u.mb k).status = 0) ∧
        (s.idle p = false ∨ s.applying p = true →
          exec (.freeze fn slot) s = .next (t.modPav p fun v => { v with freeze := { v.freeze with waiting := v.freeze.waiting ++ [(k, s.now)] } })))) ∧
    (∀ q, q < 512 →
      (s.atBoundary q = true → s.applying q = false → (s.pav q).resetting = none → (s.pav q).freeze.waiting ≠ [] → (s.pav q).freeze.frozen = false →
        Does (.freezeTakeHold q) s fun u => (u.pav q).freeze.frozen = true ∧ (u.pav q).freeze.waiting = [] ∧ u.beds = s.beds ∧ u.strands = s.strands) ∧
      (s.atBoundary q = false → exec (.freezeTakeHold q) s = .next s) ∧
      Does (.freezeTimeout q) s fun u => u.beds = s.beds ∧ (u.pav q).freeze.frozen = (s.pav q).freeze.frozen ∧
        (u.pav q).freeze.waiting = (s.pav q).freeze.waiting.filter fun w => decide (s.now.toNat < w.2.toNat + (s.pav q).wdogTicks)) ∧
    (v.freeze.busy ≠ [] → bitAt (m.w 2) 0 = true → (freezeForm v).refused v m = true) ∧
    (Passes s fn slot (fun w => opc 0x40 w && bitAt (w 2) 0) (freezeForm v) → s.replayer.mode = 0 →
      let u := t.modPav p fun v => { v with runs := v.runs.map fun r => { r with suspended := false }, freeze := { v.freeze with frozen := false } }
      ((∀ r rest, v.runs = r :: rest → r.begun = false ∨ r.started = true ∨ r.kernel ≠ 0) → exec (.thaw fn slot) s = .next ((u.readRestored p).complete k 0 [])) ∧
      (∀ r rest, v.runs = r :: rest → r.begun = true → r.started = false → r.kernel = 0 → exec (.thaw fn slot) s = .next (((u.layerFills p).readRestored p).complete k 0 []))) ∧
    (Passes s fn slot (opc 0x41) (s.saveForm p) →
      (v.freeze.frozen = false → exec (.save fn slot) s = .next (t.complete k 0x02 [])) ∧
      (v.freeze.frozen = true →
        (s.usableKey p (m.w 7) false = none → exec (.save fn slot) s = .next (t.complete k 0x83 [])) ∧
        ((s.usableKey p (m.w 7) false).isSome = true → v.chan.halted = false →
          let u := t.modPav p fun v => { v with freeze := { v.freeze with busy := v.freeze.busy ++ [k], saves := v.freeze.saves ++ [(k, m.w2 2, m.w2 4, bitAt (m.w 6) 0, m.w 7)] } }
          (v.delivered = false → exec (.save fn slot) s = .next u) ∧
          (v.delivered = true → exec (.save fn slot) s = .next (u.saveNow p k (m.w2 2) (m.w2 4) (bitAt (m.w 6) 0) (m.w 7)))))) ∧
    (Passes s fn slot (opc 0x42) (restoreForm v) →
      (v.freeze.frozen = false → exec (.restore fn slot) s = .next (t.complete k 0x02 [])) ∧
      (v.freeze.frozen = true →
        (s.usableKey p (m.w 7) true = none → exec (.restore fn slot) s = .next (t.complete k 0x04 [])) ∧
        ((s.usableKey p (m.w 7) true).isSome = true → v.chan.halted = false → Does (.restore fn slot) s fun u =>
          (u.pav p).freeze.busy = v.freeze.busy ++ [k] ∧ u.beds = s.beds ∧
          u.transfers = s.transfers ++ [{ post := k, pav := p, kind := 1, iova := m.w2 2, addr := m.w 7, len := m.w2 4 }])))

/-- A post that passes its checks: SNAPSHOT for a tick before TIME + 20 completes with 0x01, with no free set with 0x02, and else reserves the first free set under the next id. At its tick, behind the flips and releases of that tick, a pending set takes the counters' values and its command completes. Freeing a set clears it and no other. FINGERPRINT answers the fingerprint named and EPOCH. A FINGERPRINT_TICK off a multiple of 100,000 does nothing, and one without a differing unit and without span members keeps no divergence; a unit that newly differs is reported. REPLAY refused by R565 completes with 0x01; ACTION 1 arms a recording with an empty ring, ACTION 2 a replay, ACTION 0 ends it. -/
def Obligations.SnapshotsFingerprintsAndReplay : Prop :=
  ∀ (s : State) (fn slot : Nat),
    let t := s.postedAt fn slot
    let k := s.postName fn slot
    let m := (s.slotAt fn slot).posted
    let p := t.target k
    let pkg := fn == 0 && m.w 1 % 512 == 0x1FF
    (Passes s fn slot (opc 0x50) (snapshotForm pkg) →
      (m.w2 2 < s.now.toNat + 20 → exec (.snapshot fn slot) s = .next (t.complete k 0x01 [])) ∧
      (s.now.toNat + 20 ≤ m.w2 2 →
        (s.belv.sets.findIdx? (fun x => x.st == 0) = none → exec (.snapshot fn slot) s = .next (t.complete k 0x02 [])) ∧
        ∀ i, s.belv.sets.findIdx? (fun x => x.st == 0) = some i → Does (.snapshot fn slot) s fun u => u.beds = s.beds ∧ u.fns = t.fns ∧
          u.belv.nextId = s.belv.nextId + 1 ∧ (∀ j, j ≠ i → nthD u.belv.sets j {} = nthD s.belv.sets j {}) ∧
          nthD u.belv.sets i {} = { id := s.belv.nextId, pav := if pkg then 0x1FF else p, st := 1, tick := BitVec.ofNat 64 (m.w2 2), post := k })) ∧
    (∀ i, i < 4 → i < s.belv.sets.length → (nthD s.belv.sets i {}).st = 1 →
      ((nthD s.belv.sets i {}).tick.toNat ≤ s.now.toNat →
        (((nthD s.belv.sets i {}).pav ≠ 0x1FF ∧ s.syncFirst (nthD s.belv.sets i {}).pav (nthD s.belv.sets i {}).tick = false) ∨
          (¬ (s.apply.phase = 3 ∧ s.apply.named = true ∧ s.apply.tick.toNat ≤ (nthD s.belv.sets i {}).tick.toNat) ∧
            ∀ x ∈ s.pavs, s.syncFirst x.1 (nthD s.belv.sets i {}).tick = false)) →
        Does (.snapshotTick i) s fun u => u.beds = s.beds ∧ u.pavs = s.pavs ∧
        (nthD u.belv.sets i {}).st = 2 ∧ (nthD u.belv.sets i {}).items = s.snapItems (nthD s.belv.sets i {}).pav) ∧
      (s.now.toNat < (nthD s.belv.sets i {}).tick.toNat → exec (.snapshotTick i) s = .next s)) ∧
    (∀ v : Word32, s.exposed = true → Does (.snapFreeWrite v) s fun u => u.beds = s.beds ∧ u.pavs = s.pavs ∧
      ∀ i, i < 4 → nthD u.belv.sets i {} = if v.getLsbD i then {} else nthD s.belv.sets i {}) ∧
    (Passes s fn slot (opc 0x51) (fingerprintForm s) → ∀ x, s.namedFp (m.w 1 % 65536) (m.w 1 / 65536) = some x →
      exec (.fingerprint fn slot) s = .next (t.complete k 0 (lohi x ++ [s.regs.epoch.toNat]))) ∧
    (∀ units, (s.now.toNat % 100000 ≠ 0 → exec (.fingerprintTick units) s = .next s) ∧
      (s.now.toNat % 100000 = 0 → (∀ l ∈ units, s.locFp l = none) → (∀ x ∈ s.pavs, x.2.bound = false ∨ x.2.isSpan = false) →
        exec (.fingerprintTick units) s = .next { s with belv := { s.belv with divergent := [] } })) ∧
    (∀ l, s.now.toNat % 100000 = 0 → (s.locFp l).isSome = true → l ∉ s.belv.divergent → (∀ x ∈ s.pavs, x.2.bound = false ∨ x.2.isSpan = false) →
      exec (.fingerprintTick [l]) s = .next ({ s with belv := { s.belv with divergent := [l] } }.raisePf0 0x0060 0 (detailWords [0, l, s.regs.epoch.toNat, s.ownPkg]))) ∧
    (Passes s fn slot (fun w => opc 0x52 w && w 2 % 4 != 1 && w 2 % 4 != 2) replayForm →
      (s.replayRefused p 0 (m.w2 3) (m.w2 5) = true → exec (.replayStop fn slot) s = .next (t.complete k 0x01 [])) ∧
      (s.replayRefused p 0 (m.w2 3) (m.w2 5) = false → exec (.replayStop fn slot) s = .next ((t.endReplay 1).complete k 0 (lohi s.replayer.records)) ∧
        (t.endReplay 1).replayer.mode = 0 ∧ (t.endReplay 1).replayer.cause = 1)) ∧
    (Passes s fn slot (fun w => opc 0x52 w && w 2 % 4 == 1) replayForm →
      (s.replayRefused p 1 (m.w2 3) (m.w2 5) = true → exec (.replayRecord fn slot) s = .next (t.complete k 0x01 [])) ∧
      (s.replayRefused p 1 (m.w2 3) (m.w2 5) = false → Does (.replayRecord fn slot) s fun u =>
        u.replayer = { mode := 1, pav := p, ring := BitVec.ofNat 64 (m.w2 3), len := m.w2 5 } ∧ (u.mb k).st = 2 ∧ (u.mb k).status = 0)) ∧
    (Passes s fn slot (fun w => opc 0x52 w && w 2 % 4 == 2) replayForm →
      (s.replayRefused p 2 (m.w2 3) (m.w2 5) = true → exec (.replayReplay fn slot) s = .next (t.complete k 0x01 [])) ∧
      (s.replayRefused p 2 (m.w2 3) (m.w2 5) = false → Does (.replayReplay fn slot) s fun u =>
        u.replayer.mode = 2 ∧ u.replayer.pav = p ∧ u.replayer.live = false ∧ u.beds = s.beds ∧ (u.mb k).st = 2 ∧ (u.mb k).status = 0))

/-- A post that passes its checks: under OWNER_LOCK, FW_STAGE, FW_ACTIVATE, RESTORE_FACTORY and RECOVERY complete with 0x02. FW_STAGE else asks for the image, or waits while one is in progress. FW_ACTIVATE without a VALID slot completes with 0x03, else it begins. A slot that fails its second verification is INVALID; else service pauses, where starts named but not begun are void, or the hand-over begins. The image ready is ACTIVE, with its version. In recovery, GO of a buffer of a wrong length gives error 1, of one that fails verification error 2, and else writes both slots; a failed write gives error 3. -/
def Obligations.FirmwareIsStagedActivatedAndRecovered : Prop :=
  ∀ (s : State) (fn slot : Nat),
    let t := s.postedAt fn slot
    let k := s.postName fn slot
    let m := (s.slotAt fn slot).posted
    let locked := s.fw.policy.getLsbD 0
    (Passes s fn slot (opc 0x60) fwStageForm →
      (s.fw.busy = true → exec (.fwStage fn slot) s = .next (t.modFw fun f => { f with waiting := f.waiting ++ [k] })) ∧
      (s.fw.busy = false → locked = true → exec (.fwStage fn slot) s = .next (t.complete k 0x02 [])) ∧
      (s.fw.busy = false → locked = false → exec (.fwStage fn slot) s = .next { t.modFw (fun f => { f with staging := some k }) with
        transfers := t.transfers ++ [{ post := k, pav := 512, kind := 2, iova := m.w2 1, len := m.w 3 }] })) ∧
    (Passes s fn slot (opc 0x61) fwActivateForm → s.fw.busy = false →
      (locked = true → exec (.fwActivate fn slot) s = .next (t.complete k 0x02 [])) ∧
      (s.activateBarred = false → s.fw.spare.st ≠ 2 → exec (.fwActivate fn slot) s = .next (t.complete k 0x03 [])) ∧
      (s.activateBarred = false → s.fw.spare.st = 2 → exec (.fwActivate fn slot) s
        = .next (t.modFw fun f => { f with activation := some { post := k, phase := 1, handover := bitAt (m.w 1) 0 } }))) ∧
    (Passes s fn slot (opc 0x62) { pf0 := true } →
      (locked = true → exec (.restoreFactory fn slot) s = .next (t.complete k 0x02 [])) ∧
      (locked = false → Does (.restoreFactory fn slot) s fun u => u.power.coeffs = factoryCoeffs ∧ u.power.flash = factoryCoeffs ∧
        u.fw.calibrated = false ∧ u.power.trimPending = true ∧ (∀ h, h < 8 → (u.half h).trim = 0 ∧ (u.half h).measured = false) ∧ u.beds = s.beds)) ∧
    (∀ arm : Bool, Passes s fn slot (fun w => opc 0x63 w && (if arm then bitAt (w 1) 0 else !bitAt (w 1) 0)) { pf0 := true, used := [1] } →
      exec (if arm then .recoveryArm fn slot else .recoveryDisarm fn slot) s
        = .next (if locked then t.complete k 0x02 [] else (t.modFw fun f => { f with armed := arm }).complete k 0 [])) ∧
    (∀ a, s.fw.activation = some a → s.fw.waiting = [] →
      (a.phase = 1 → s.fw.svnFloor.toNat ≤ s.fw.spare.svn.toNat → s.applyRuns = false →
        (a.handover = true → s.cp.spareUsed = false →
          exec (.fwActivatePause true) s = .next (s.modFw fun f => { f with activation := some { a with phase := 3, handover := true } })) ∧
        (a.handover = false ∨ s.cp.spareUsed = true →
          exec (.fwActivatePause true) s = .next (s.modFw fun f => { f with activation := some { a with phase := 2, handover := false } }).voidStarts)) ∧
      (a.phase = 1 → Does (.fwActivatePause false) s fun u => u.fw.activation = none ∧ u.fw.spare.st = 1 ∧ u.fw.active = s.fw.active ∧ u.beds = s.beds) ∧
      (a.phase ≠ 1 → s.posts = [] → Does .fwImageReady s fun u => u.fw.active = (!s.fw.active) ∧ u.fw.version = s.fw.spare.version ∧
        u.fw.cmdset = s.fw.spare.cmdset ∧ u.fw.activation = none ∧ u.fw.last = (if a.handover then 2 else 1) ∧ u.fw.svnFloor = s.fw.svnFloor) ∧
      (a.phase ≠ 1 → exec .fwActivateTimeout s = .next ((s.modFw fun f => { f with last := 3 }).warmReset 5))) ∧
    (∀ j, s.fw.staging = some j → s.fw.waiting = [] → s.fw.spare.st = 3 → Does .fwSlotWritten s fun u => u.fw.staging = none ∧ u.fw.spare.st = 2 ∧
      u.fw.active = s.fw.active ∧ u.beds = s.beds) ∧
    (s.boot.stage = .recovery →
      (s.fw.rcvState = 1 ∨ s.fw.rcvState = 5 →
        (s.fw.rcvLen.toNat < imageMin ∨ imageMax < s.fw.rcvLen.toNat → exec .fwRcvGo s = .next (s.modFw fun f => { f with rcvState := 5, rcvError := 1 })) ∧
        (imageMin ≤ s.fw.rcvLen.toNat → s.fw.rcvLen.toNat ≤ imageMax →
          (s.fw.verify (Mem.readN s.fw.rcvBuf 0 s.fw.rcvLen.toNat) = none →
            exec .fwRcvGo s = .next (s.modFw fun f => { f with rcvState := 5, rcvError := 2 })) ∧
          ∀ x, s.fw.verify (Mem.readN s.fw.rcvBuf 0 s.fw.rcvLen.toNat) = some x →
            exec .fwRcvGo s = .next (s.modFw fun f => { f with rcvState := 3, rcvError := 0, slotA := x, slotB := x }))) ∧
      (s.fw.rcvState = 3 →
        exec (.recoveryImageWritten false) s
          = .next (s.modFw fun f => { f with rcvState := 5, rcvError := 3, slotA := { st := 1 }, slotB := { st := 1 } }) ∧
        (s.fw.staging = none → Does (.recoveryImageWritten true) s fun u => u.fw.slotA.st = 2 ∧ u.fw.slotB.st = 2 ∧ u.fw.active = false ∧ u.fw.rcvState = (if s.fw.armed then 1 else 4) ∧
          u.cause.cause = 8)))

/-- In the boot ROM, a VALID slot whose SVN is at or above the floor and that reports ready makes Gaold run with that slot's version; the floor rises to the slot's only at a cold boot and never falls. A slot that fails, is not ready in 2 s, or lies below the floor gives way to the other slot, and the second failure to recovery. Outside the ROM, and with TEST_EN high, neither event does anything while no post waits. -/
def Obligations.BootTriesTheSlotsInTurn : Prop :=
  ∀ (s : State), s.posts = [] →
    let x := s.fw.slot s.bootSlot
    (s.boot.stage = .rom → s.boot.testEn = false → x.st = 2 → s.fw.svnFloor.toNat ≤ x.svn.toNat → Does (.fwBootComplete true) s fun u =>
      u.boot.stage = .running ∧ u.fw.version = x.version ∧ u.fw.cmdset = x.cmdset ∧ u.fw.active = s.bootSlot ∧ u.beds = s.beds ∧ u.cores = s.cores ∧
      u.fw.svnFloor = (if s.boot.cold = true ∧ s.fw.svnFloor.toNat < x.floor.toNat then x.floor else s.fw.svnFloor) ∧
      u.fw.fallback = s.boot.triedActive) ∧
    (∀ c, c = .bootReadyTimeout ∨ c = .fwBootComplete false ∨ (c = .fwBootComplete true ∧ (x.st ≠ 2 ∨ x.svn.toNat < s.fw.svnFloor.toNat)) →
      s.boot.stage = .rom → s.boot.testEn = false →
      (s.boot.triedActive = false → exec c s = .next { s with boot := { s.boot with triedActive := true } }) ∧
      (s.boot.triedActive = true → Does c s fun u => u.boot.stage = .recovery ∧ u.boot.triedActive = false ∧ u.fw.rcvState = 1 ∧ u.fw.svnFloor = s.fw.svnFloor ∧
        u.beds = s.beds)) ∧
    (s.boot.stage ≠ .rom ∨ s.boot.testEn = true → exec .bootReadyTimeout s = .next s ∧ ∀ good, exec (.fwBootComplete good) s = .next s)

/-- A post that passes its checks: PV_CHECK during an apply completes with 0x05; a check that fails keeps no copy, sets REASON and completes with it; one that passes keeps the copy, sets STATE to CHECKED and TARGET to EPOCH + 1. PV_APPLY of what was not checked completes with 0x06; a good one starts step 1. The steps follow in order: prepared, held pavilion by pavilion at a layer boundary, copied, and the flip tick named at TIME + 20 or as posted, or refused with 0x08 as too late. A pavilion late past its watchdog period ends the apply with 0x09. The flip advances EPOCH by one and records its tick, every core takes its new owner, and an entry enabled anew has its winding advanced. Each pavilion then resumes. -/
def Obligations.ChecksAndAppliesProceed : Prop :=
  ∀ (s : State) (fn slot : Nat) (answers : List SpanAnswer),
    let r := s.told answers
    let t := r.postedAt fn slot
    let k := s.postName fn slot
    let m := (s.slotAt fn slot).posted
    let a := s.apply
    let w := t.wakeTables (m.w2 1)
    (Passes r fn slot (opc 0x10) pvCheckForm →
      (a.phase ≠ 0 → exec (.pvCheck fn slot answers) s = .next (t.complete k 0x05 [512, 0, s.regs.pvTarget.toNat])) ∧
      (a.phase = 0 →
        (∀ f, w.check (m.w2 1) = .error f → Does (.pvCheck fn slot answers) s fun u => u.apply = {} ∧ u.regs.pvState = 0 ∧
          u.regs.pvReason = BitVec.ofNat 6 f.reason ∧ u.regs.epoch = s.regs.epoch ∧ u.beds.mem = s.beds.mem ∧ (f.reason ≠ 0x3B → u.beds = s.beds) ∧ (u.mb k).st = 2 ∧ (u.mb k).status = BitVec.ofNat 8 f.reason) ∧
        ∀ mask g, w.check (m.w2 1) = .ok (mask, g) → Does (.pvCheck fn slot answers) s fun u => u.apply.checked = true ∧ u.apply.phase = 0 ∧
          u.apply.checkEntries = g.entries ∧ u.regs.pvState = 1 ∧ u.regs.pvReason = 0 ∧ u.regs.pvTarget = s.regs.epoch + 1 ∧ u.regs.epoch = s.regs.epoch ∧
          u.beds = s.beds ∧ (u.mb k).st = 2 ∧ (u.mb k).status = 0)) ∧
    (Passes r fn slot (opc 0x11) pvApplyForm → ∀ mask, w.checkStage (m.w2 1) = .ok mask →
      (a.checked = false → Does (.pvApply fn slot answers) s fun u => u.regs.pvReason = 6 ∧ u.apply = a ∧ u.beds = s.beds ∧ (u.mb k).st = 2 ∧ (u.mb k).status = 6) ∧
      ∀ g, a.checked = true → a.checkAddr.toNat = m.w2 1 → a.checkMask.toNat = mask → w.checkApply mask (m.w2 3) = .ok g →
        Does (.pvApply fn slot answers) s fun u => u.apply.phase = 1 ∧ u.apply.entries = g.entries ∧ u.apply.slot = k ∧ u.regs.pvState = 2 ∧
          u.regs.pvReason = 0 ∧ u.regs.pvTarget = s.regs.epoch + 1 ∧ u.regs.pvFlipped = false ∧ u.beds = s.beds ∧ u.pavs = s.pavs ∧ (u.mb k).st = 1) ∧
    (a.phase = 1 → (∀ x ∈ a.owners, (s.core x.1).owner.isSome = true ∨ (s.core x.1).zeroing = false) →
      Does .applyPrepareDone s fun u => u.apply.phase = 2 ∧ u.apply.holdStart = s.now ∧ u.apply.entries = a.entries ∧ u.beds.mem = s.beds.mem ∧ u.cores = s.cores ∧
        ((∀ p ∈ a.affected, ∀ x ∈ (s.pav p).slices, x.2.pinned = false) → u.beds = s.beds ∧ u.pavs = s.pavs)) ∧
    (∀ p, p < 512 → a.phase = 2 → p ∈ a.affected → p ∉ a.heldAt → (s.pav p).bound = true →
      (s.atBoundary p = true → exec (.applyHold p) s
        = .next { ((s.modPav p fun v => { v with held? := true }).voidStart p) with apply := { a with heldAt := a.heldAt ++ [p] } }) ∧
      (s.atBoundary p = false → exec (.applyHold p) s = .next s) ∧
      (a.holdStart.toNat + (s.pav p).wdogTicks ≤ s.now.toNat → ∃ q, q ∈ a.affected ∧
        exec (.applyDrainTimeout p) s = .next (s.endApply ⟨0x09, some q, 0, 0⟩))) ∧
    (∀ f, (s.endApply f).apply = {} ∧ (s.endApply f).regs.pvState = 0 ∧ (s.endApply f).regs.pvReason = BitVec.ofNat 6 f.reason ∧
      (s.endApply f).regs.epoch = s.regs.epoch) ∧
    (a.phase = 2 → (∀ p ∈ a.affected, (s.pav p).bound = true → p ∈ a.heldAt) → s.zeroPending = false → s.spanApply = [] →
      (a.namedTick ≠ 0 → a.namedTick.toNat < s.now.toNat + 20 → exec .applyCopyDone s = .next (s.endApply ⟨0x08, none, 0, 0⟩)) ∧
      (a.namedTick ≠ 0 → s.now.toNat + 20 ≤ a.namedTick.toNat →
        exec .applyCopyDone s = .next { s with apply := { a with phase := 3, named := true, tick := a.namedTick } }) ∧
      (a.namedTick = 0 → exec .applyCopyDone s = .next { s with apply := { a with phase := 3, named := true, tick := s.now + 20 } })) ∧
    (a.phase = 3 → a.named = true → a.tick.toNat ≤ s.now.toNat → Does .epochFlip s fun u => u.regs.epoch = s.regs.epoch + 1 ∧ u.regs.flipTime = a.tick ∧
      u.regs.pvFlipped = true ∧ (u.apply = {} ∨ u.apply.phase = 4)) ∧
    (∀ c, c < 1088 → (s.flipCores.core c).owner = Tab.find c a.owners) ∧
    (∀ p epoch e, Tab.find p a.entries = some e → (s.pav p).bound = false → ({ entry := e.1 } : Pav).bound = true →
      ((s.flipPav p epoch).pav p).entry = e.1 ∧ ((s.flipPav p epoch).pav p).winding = (s.pav p).winding + 1 ∧
      ((s.flipPav p epoch).pav p).epochBound = epoch) ∧
    (∀ p, p < 512 → a.phase = 4 → p ∈ a.affected → (s.pav p).bound = true → p ∉ a.resumed → (∀ x ∈ s.coresOf p, (s.core x.2).zeroing = false) →
      Does (.applyPavilionResume p) s fun u => (u.pav p).held? = false ∧ u.regs.epoch = s.regs.epoch ∧ u.strands = s.strands ∧
        (p ∈ u.apply.resumed ∨ (u.apply = {} ∧ u.regs.pvState = 0)))

/-- At a directory whose records can change, a post that passes its checks: an unknown session gives 0x01, one that is not the poster's 0x02, a state that does not fit 0x06, a stale epoch 0x07. CREATE without protection in a pool of this package with room takes the pages and asks for a new ACTIVE record under the next serial. MOVE to such a pool asks for MOVING, and takes the pages once the record is so; ABORT for ACTIVE; COMMIT at the record's epoch for the target as owner at the next epoch; CLOSE for none. DIRECTORY_RECORD_WRITE first sends the partner a change that it has not been sent; then it writes the record, or takes a closed one out. -/
def Obligations.SessionCommandsChangeTheRecord : Prop :=
  ∀ (s : State) (fn slot : Nat), s.fenced = false →
    let t := s.postedAt fn slot
    let k := s.postName fn slot
    let w := (s.slotAt fn slot).posted.w
    let u := s.poster fn
    let id := w 2 + 2 ^ 32 * w 3
    let asks := fun (c : Instr) (i : Nat) (why : Change) (P : Option Session → Prop) =>
      Does c s fun v => ∃ new, P new ∧ v.dir.changes = s.dir.changes ++ [{ id := i, why := why, new := new, asker := some k, sent := s.partnerUp }] ∧ v.dir.records = s.dir.records ∧ (v.mb k).st = 1
    (Passes s fn slot (opc 0x30) createForm → s.dir.enabled = true → bitAt (w 4) 2 = false → bits (w 4) 1 0 = 0 →
      (u.pav = none → exec (.sessionCreate fn slot) s = .next (t.complete k 0x02 [])) ∧
      ∀ q root v, u.pav = some q → s.poolRefuses u (w 2 % 65536) = false → s.localPool (w 2 % 65536) = true → w 3 ≤ 4194304 → s.directed < 1048576 →
        ((t.useWindows [w 2 % 65536]).modDir fun d => { d with nextSerial := d.nextSerial + 1 }).takePages (w 2 % 65536 % 16) (s.ownPkg * 2 ^ 36 + s.dir.nextSerial) (w 3) 1 = some (root, v) →
        asks (.sessionCreate fn slot) (s.ownPkg * 2 ^ 36 + s.dir.nextSerial) .create fun new =>
          new = some { owner := w 2 % 65536, root := root, userPkg := s.ownPkg, userPav := q, pages := w 3 }) ∧
    (∀ c, (c = .sessionMove fn slot ∧ Passes s fn slot (fun w => opc 0x31 w && !bitAt (w 5) 2) moveForm) ∨
        (c = .sessionMoveAbort fn slot ∧ Passes s fn slot (fun w => opc 0x31 w && bitAt (w 5) 2) moveForm) ∨
        (c = .sessionCommit fn slot ∧ Passes s fn slot (opc 0x32) commitForm) ∨ (c = .sessionClose fn slot ∧ Passes s fn slot (opc 0x33) closeForm) →
      s.directs id = true →
      (s.session id = none → exec c s = .next (t.complete k 0x01 [])) ∧
      ∀ r, s.session id = some r →
        (s.mayCommand u r = false → exec c s = .next (t.complete k 0x02 [])) ∧
        (s.mayCommand u r = true → r.st ≠ 5 → s.settling id = false →
          (c = .sessionMove fn slot → r.st ≠ 1 → exec c s = .next (t.complete k 0x06 [])) ∧
          (c = .sessionMove fn slot → r.st = 1 → r.commitAt = none → w 4 % 65536 ≠ r.owner → bitAt (w 5) 3 = false → r.prot = 0 → s.mustAsk u r = false →
            s.poolRefuses (s.userOf u r) (w 4 % 65536) = false → s.localPool (w 4 % 65536) = true → s.poolReachable r.owner = true →
            ((s.pool (w 4 % 65536 % 16)).free (ceilDiv r.pages listSpan + r.pages)).isSome = true →
            asks c id .moving fun new => new = some { r with st := 2, target := w 4 % 65536, hasTarget := true, newProt := none, move := some k, user := none }) ∧
          (c = .sessionMoveAbort fn slot → (r.st = 2 ∨ r.st = 3) →
            asks c id .abort fun new => new = some { r with st := 1, target := 0, hasTarget := false, newProt := none }) ∧
          (c = .sessionCommit fn slot → r.st ≠ 3 → exec c s = .next (t.complete k 0x06 [])) ∧
          (c = .sessionCommit fn slot → r.st = 3 → w 4 ≠ r.epoch → exec c s = .next (t.complete k 0x07 [])) ∧
          (c = .sessionCommit fn slot → r.st = 3 → w 4 = r.epoch → s.poolReachable r.target = true →
            asks c id .commit fun new => ∃ r', new = some r' ∧ r'.owner = r.target ∧ r'.epoch = r.epoch + 1 ∧ r'.st = 1 ∧ r'.pages = r.pages ∧ r'.root = r.targetRoot)) ∧
        (s.mayCommand u r = true → c = .sessionClose fn slot → asks c id .close fun new => new = none)) ∧
    (∀ x c, s.dir.changes.find? (fun y => y.id == x) = some c →
      (s.partnerUp = true → c.sent = false → exec (.directoryRecordWrite x) s = .next (s.sendChange x)) ∧
      ((s.partnerUp = true → c.sent = true) →
      (∀ r, c.why = .create → c.new = some r → s.session x = none →
        Does (.directoryRecordWrite x) s fun v => Tab.find x v.dir.records = some { r with single := !s.partnerUp } ∧ v.strands = s.strands) ∧
      (c.why = .close → c.new = none → (s.session x).isSome = true → (s.dir.records.map Prod.fst).Nodup →
        Does (.directoryRecordWrite x) s fun v => Tab.find x v.dir.records = none ∧ v.strands = s.strands)))

/-- At the directory, the end of phase 1's copy asks for PREPARED, and the target's report ends the commit: its record keeps no source and no commit. 10 ms after the commit point a commit that still waits completes with 0x0C. At a pool of another package's session, DROP of an owned session takes OWN from it and retains its pages, OWN of an owned one stores the epoch, SEAL is kept, and a fetch that has its pages ends with the session sealed and nothing to fetch. -/
def Obligations.PoolsFollowTheDirectory : Prop :=
  ∀ (s : State) (id : Nat),
    (∀ r, s.session id = some r → s.directs id = true →
      (r.st = 2 → (∀ c ∈ s.dir.changes, c.id ≠ id) → (∀ j ∈ s.dir.jobs, j.id ≠ id) →
        (s.localPool r.owner = true → s.deniedSession (r.owner % 16) id = none) → Does (.sessionCopyComplete id) s fun u => u.dir.records = s.dir.records ∧
        u.dir.changes = s.dir.changes ++ [{ id := id, why := .prepared, new := some { r with st := 3 }, sent := s.partnerUp }]) ∧
      (r.st ≠ 2 → exec (.sessionCopyComplete id) s = .next s) ∧
      (∀ tick, r.commitAt = some tick → (s.localPool r.owner = true → s.heldState (r.owner % 16) id = 1 ∧ ∃ h, s.holding (r.owner % 16) id = some h ∧ h.own = true) →
        Does (.sessionServeReport id) s fun u => Tab.find id u.dir.records = some { r with
          commitAt := none, source := none, oldSet := [], dropAcked := false, commit := none, late := false, fetch := false }) ∧
      (r.commitAt = none → exec (.sessionServeReport id) s = .next s)) ∧
    (∀ r tick k, s.session id = some r → r.commitAt = some tick → r.commit = some k →
      (tick.toNat + 1000000 ≤ s.now.toNat → exec (.commitPendingTimeout id) s
        = .next ((s.modSession id fun r => { r with commit := none, late := true }).sessionDone k 0x0C [r.epoch, r.owner, r.root])) ∧
      (s.now.toNat < tick.toNat + 1000000 → exec (.commitPendingTimeout id) s = .next s)) ∧
    (∀ i h, i < 16 → s.directs id = false → s.holding i id = some h →
      (s.heldState i id = 1 →
        ((∀ g ∈ Pool.pagesOf h, (Tab.find g (s.pool i).pages).isSome = true) → ∀ target, Does (.sessionDropReceive i id target) s fun u => (u.holding i id).map Holding.own = some false ∧
          ∀ g ∈ Pool.pagesOf h, (Tab.find g (u.pool i).pages).map PoolPage.st = some 3) ∧
        ∀ epoch fetch, exec (.sessionOwnReceive i id epoch fetch) s = .next (s.modHolding i id fun h => { h with epoch := epoch, own := true })) ∧
      ((∀ j, j < 16 → j ≠ i → s.heldState j id ≠ 1) → Does (.sessionSealReceive i id) s fun u => (u.holding i id).map Holding.sealed = some true ∧ (u.holding i id).map Holding.pages = some h.pages) ∧
      ∀ data, h.restore = false → h.own = true → h.fetch = true → (s.recordOf id).source = none →
        Does (.sessionFetch i id data) s fun u => (u.holding i id).map Holding.fetch = some false ∧ (u.holding i id).map Holding.sealed = some true ∧
          u.dir = s.dir)

/-- A renewal under a live lease stores the later of the two ticks and who sent it; one after a lapse, sent by another package, takes OWN from every session of that directory first, as a lapse does 2 ms after the last renewal. A directory sends its TIME to the pools of its sessions. A session that is REBUILDING and may be taken over is LOST if nothing can give it; one that must be fetched from its protection first has its pages taken in the new owner. A lost pool that no record names gives up its pages. An update of the Mirror leaves its queue and asks for PSTEP. A resynchronised directory is ready. PV_DIR_CTL keeps bits 0xEFFF. -/
def Obligations.LeasesLossesAndMirrors : Prop :=
  ∀ (s : State),
    (∀ d i (tick : Word64) sender, i < 16 → d < 4096 → sender < 4096 → sender = s.ownPkg ∨ s.links.tsync.sync = true →
      (∀ last, Tab.find d (s.pool i).leases = some last → s.now.toNat < last.toNat + 200000 →
        exec (.renewalReceive d i ⟨tick, sender⟩) s
          = .next (s.modPool i fun x =>
            { x with leases := Tab.put d (if last.toNat > tick.toNat then last else tick) x.leases, dirs := Tab.put d sender x.dirs })) ∧
      (sender ≠ s.ownPkg → (∀ last, Tab.find d (s.pool i).leases = some last → last.toNat + 200000 ≤ s.now.toNat) →
        Does (.renewalReceive d i ⟨tick, sender⟩) s fun u => (∀ id ∈ s.holdingsOf i d, (u.holding i id).map Holding.own = some false) ∧ u.dir = s.dir ∧
          ∃ l, Tab.find d (u.pool i).leases = some l ∧ tick.toNat ≤ l.toNat)) ∧
    (∀ d i last, i < 16 → d < 4096 → Tab.find d (s.pool i).leases = some last →
      (last.toNat + 200000 ≤ s.now.toNat → Does (.leaseLapse d i) s fun u => (∀ id ∈ s.holdingsOf i d, (u.holding i id).map Holding.own = some false) ∧
        (u.pool i).pages = (s.pool i).pages ∧ u.beds = s.beds ∧ u.dir = s.dir) ∧
      (s.now.toNat < last.toNat + 200000 → exec (.leaseLapse d i) s = .next s)) ∧
    ((∀ x ∈ s.dir.records, x.2.st = 0 ∨ s.directs x.1 = false) → exec .renewalSend s = .next s) ∧
    (∀ id r n, s.dir.records = [(id, r)] → r.st ≠ 0 → s.directs id = true → r.pools = [n] → s.localPool n = true →
      exec .renewalSend s = .next ((s.modDir fun d => { d with renewals := Tab.put n s.now d.renewals }).takeRenewal s.ownPkg (directoryOf id) (n % 16) s.now)) ∧
    (∀ id r, s.session id = some r →
      (r.st ≠ 4 ∨ s.mayTakeOver r = false → exec (.ownershipTakeover id) s = .next s) ∧
      (r.st = 4 → s.directs id = true → s.mayTakeOver r = true → (∀ c ∈ s.dir.changes, c.id ≠ id) → (∀ j ∈ s.dir.jobs, j.id ≠ id) →
        (s.rebuilt id r = none → exec (.ownershipTakeover id) s = .next (s.change id .lost (some r.lost) none)) ∧
        ∀ n, s.rebuilt id r = some n →
          (n.fetch = false → Does (.ownershipTakeover id) s fun u => u.beds = s.beds ∧
            u.dir.changes = s.dir.changes ++ [{ id := id, why := .rebuilt, new := some n, sent := s.partnerUp }]) ∧
          (n.fetch = true → exec (.ownershipTakeover id) s = .next (s.startJob ⟨id, .rebuilt, n, 0, [n.owner], 0, 0⟩
            [{ op := .take, pool := n.owner, session := id, pages := r.pages, epoch := n.epoch, flag := true }])))) ∧
    (∀ name, name < 65536 → (∀ x ∈ s.dir.records, name ∉ x.2.pools) →
      (s.localPool name = true → Does (.poolLoss name) s fun u => (u.pool (name % 16)).pages = [] ∧ (u.pool (name % 16)).held = [] ∧ u.dir = s.dir ∧ u.strands = s.strands) ∧
      (s.localPool name = false → (∀ j ∈ s.dir.jobs, j.why ≠ .close ∧ j.why ≠ .grown) → exec (.poolLoss name) s = .next s) ∧
      ∀ since, Tab.find name s.dir.unreachable = some since →
        (since.toNat + 1000000 ≤ s.now.toNat → s.reach (name / 16) = none → exec (.poolUnreachableTimeout name) s
          = .next ((s.modDir fun d => { d with unreachable := Tab.drop name d.unreachable }).losePool name)) ∧
        (s.now.toNat < since.toNat + 1000000 → exec (.poolUnreachableTimeout name) s = .next s)) ∧
    (∀ id data q, s.dir.mirrorQueue.find? (fun x => x.1 == id) = some q →
      (∀ r, s.session id = some r → s.directs id = true → (∀ x ∈ s.dirtyIndices (r.owner % 16) id, s.hurtPoolPage (r.owner % 16) x.2 = none) →
        s.deniedPages (r.owner % 16) ((s.dirtyIndices (r.owner % 16) id).map Prod.snd) = none →
        Does (.mirrorUpdateComplete id data) s fun u =>
        u.dir.mirrorQueue = s.dir.mirrorQueue.erase q ∧ u.dir.changes = s.dir.changes ++ [{ id := id, why := .pstep, new := some { r with pstep := q.2 }, sent := s.partnerUp }]) ∧
      (s.session id = none → exec (.mirrorUpdateComplete id data) s = .next (s.modDir fun d => { d with mirrorQueue := d.mirrorQueue.erase q }))) ∧
    (s.dir.enabled = true → exec (.directoryResyncComplete []) s = .next (s.modDir fun d => { d with ready := true, syncing := false, syncLeft := 0, syncGot := [] }) ∧
      ∀ rs, Does (.directoryResyncComplete rs) s fun u => u.dir.ready = true ∧ u.dir.syncing = false ∧ s.dir.nextSerial ≤ u.dir.nextSerial ∧ u.pools = s.pools) ∧
    ∀ v : Word32, s.exposed = true → Does (.pvDirCtlWrite v) s fun u => u.dir.ctl = v &&& 0xEFFF#32 ∧ u.dir.records = s.dir.records ∧
      (s.dir.adopt = true → v.getLsbD 14 = false → u.dir.syncing = true) ∧ u.beds = s.beds

/-- At its tick, with nothing due before it, the reset of a pavilion that is no span member and that no apply affects advances its winding by one, drops its runs, faults, barriers and what was not committed, and zeroes its cores; it is over when the cores are zeroed and no die half it uses resets (its span, if it is a member of one, is not READY then). A VF without a pavilion loses only its own page's state in its reset, and its commands in progress go on without their slots. A warm reset of a listed cause advances the count, records the cause, and keeps TIME, windings, EPOCH as a flip due by then leaves it, package memory's retired frames and the SVN floor; local store is zero, and the ROM or armed recovery runs. A cold reset starts from flash, and keeps EPOCH only where it meets an apply (notes/assumptions/75.md). Clearing FATAL clears it alone. -/
def Obligations.ResetsTakeTheirCourse : Prop :=
  ∀ (s : State),
    (∀ p r, p < 512 → (s.pav p).resetting = some r → r.ticked = false → r.tick.toNat ≤ s.now.toNat → s.syncFirst p r.tick = false →
      p ∉ s.apply.affected → (s.pav p).isSpan = false → Does (.resetTick p) s fun t =>
        (t.pav p).winding = (s.pav p).winding + 1 ∧ (t.pav p).runs = [] ∧ (t.pav p).faults = [] ∧ (t.pav p).barriers = [] ∧ (t.pav p).commit = none ∧
        (∀ h ∈ (t.pav p).held, h.step.isSome = true) ∧ (t.pav p).committed = (if r.causes.all (fun c => c == 0x08) then (s.pav p).committed else 0) ∧
        ((t.pav p).resetting.map Resetting.ticked) = some true ∧ (∀ x ∈ s.coresOf p, (t.core x.2).zeroing = true ∧ (t.core x.2).running = false ∧
          ∀ i, i < 2048 → Tab.find (x.2 * 2048 + i) t.strands = none)) ∧
    (∀ p r, p < 512 → (s.pav p).resetting = some r → (r.ticked = false → s.now.toNat < r.tick.toNat → exec (.resetTick p) s = .next s) ∧
      (r.ticked = true → (∃ x ∈ s.coresOf p, (s.core x.2).zeroing = true) → exec (.pavResetReady p) s = .next s) ∧
      (r.ticked = true → (∀ x ∈ s.coresOf p, (s.core x.2).zeroing = false) → (∀ h, h < 8 → (s.half h).resetting = none ∨ s.inHalf p h = false) →
        ((s.pav p).isSpan = true → (s.pav p).span.st ≠ 2) →
        Does (.pavResetReady p) s fun t => (t.pav p).resetting = none ∧ (t.pav p).entry = (s.pav p).entry ∧ ((s.pav p).isSpan = false → (t.pav p).winding = (s.pav p).winding))) ∧
    (∀ f, f < 512 → s.pavOfFn f = none → ∀ c, (c = .vfFlr f ∧ f ≠ 0 ∧ s.hasFn f = true) ∨ (c = .pf0Flr ∧ f = 0) →
      exec c s = .next (({ s with
        orphans := ((s.fn f).slots.zipIdx.filter fun (x : MbSlot × Nat) => x.1.st == 1).foldl (fun (t : Tab MbSlot) (x : MbSlot × Nat) => Tab.put (postOf f x.2 x.1.gen) x.1 t) s.orphans }.setFn f (s.fn f).flr).endSpdm f) ∧ (∀ m ∈ (s.fn f).flr.slots, m.st = 0) ∧ (s.fn f).flr.ring = [] ∧ (s.fn f).flr.head = (s.fn f).flr.tail) ∧
    (∀ f p, f < 512 → s.pavOfFn f = some p → ∀ c, (c = .vfFlr f ∧ f ≠ 0 ∧ s.hasFn f = true) ∨ (c = .pf0Flr ∧ f = 0) →
      Does c s fun t => (t.pav p).chan.keys = [] ∧ (t.pav p).resetting.isSome = true ∧ (t.pav p).winding = (s.pav p).winding ∧ t.beds = s.beds) ∧
    (Does .vfEnableClear s fun t => t.regs.vfs = 0 ∧ ∀ x ∈ s.pavs, x.2.bound = true → x.2.hostFn ≠ 0 → (t.pav x.1).resetting.isSome = true) ∧
    (∀ n, n ≤ 511 → s.boot.stage ≠ .recovery → exec (.vfEnableSet n) s = .next (s.modRegs fun r => { r with vfs := n })) ∧
    (∀ cause, cause ∈ [0x02, 0x03, 0x04, 0x05, 0x07, 0x08] → Does (.warmReset cause) s fun t =>
      t.cause.cause = BitVec.ofNat 8 cause ∧ t.cause.warmCount = sat16 s.cause.warmCount ∧ t.time = s.time ∧ t.regs.epoch = s.settleFlip.regs.epoch ∧ (s.apply.phase ≠ 3 → t.regs.epoch = s.regs.epoch) ∧
      t.regs.tableBase = s.regs.tableBase ∧ t.regs.winBase = s.regs.winBase ∧ t.regs.vfs = 0 ∧ t.beds.ls = [] ∧ t.strands = [] ∧ t.apply = {} ∧
      t.fw.svnFloor = s.fw.svnFloor ∧ t.beds.retiredFrames = s.beds.retiredFrames ∧
      t.boot.stage = (if s.fw.armed then Stage.recovery else .rom) ∧ ∀ c, (t.core c).owner = none) ∧
    (∀ cause, cause ∈ [0x01, 0x04, 0x06] → Does (.coldReset cause) s fun t =>
      t.cause.cause = BitVec.ofNat 8 cause ∧ t.cause.warmCount = 0 ∧ t.beds.mem = [] ∧ t.beds.ls = [] ∧ t.beds.retiredFrames = s.beds.retiredFrames ∧
      t.pavs = [] ∧ t.cores = State.reset.cores ∧ t.regs = (if s.settleFlip.apply.phase = 0 then State.reset.regs else { State.reset.regs with epoch := s.settleFlip.regs.epoch }) ∧ t.fuse = s.fuse ∧ t.fw.svnFloor = s.fw.svnFloor ∧ t.fw.version = s.fw.version ∧
      t.power.coeffs = s.power.flash ∧ t.boot.stage = .rom ∧ t.boot.cold = true) ∧
    (s.boot.powered = true → exec .pkgFatalClear s = .next { s with cause := { s.cause with fatal := false } })

/-- PME_TURN_OFF takes a package that is ready for Doze there, its pads held and the alert pins at their levels; a wake by its SMBus address, with TEST_EN low, or by PERST_N released leaves Doze with its pads' link groups still held, group 5 free and the package not SYNC. A stopped REFCLK stops a powered package and marks FATAL; its return is a cold reset. PWRGD_IN starts the dies with TIME as it was; a supply lost turns all off but what flash holds. PERST_N asserted is a warm reset with cause 0x02. The link comes up without PERST_N, and goes down halting every enabled pavilion's host channel with LINK_DOWN. A thermal trip gates the dies, keeps TIME and the cause, and ends in a cold reset with cause 0x06. -/
def Obligations.PinsPowerAndDoze : Prop :=
  ∀ (s : State),
    (s.boot.stage = .running → s.power.dozing = true → Does .pmeTurnOff s fun t => t.boot.stage = .doze ∧ t.boot.link = false ∧ t.power.pads = 0x3F ∧ t.power.heldAlert = s.alerts ∧ t.power.heldFault = s.fault ∧
      t.time = s.time ∧ t.beds = s.beds ∧ t.pavs = s.pavs ∧ ∀ h, h < 8 → (t.half h).div = 12) ∧
    (∀ c, ((c = .smbusWakeMatch s.boot.address ∧ s.boot.testEn = false) ∨ (c = .perstNRelease ∧ s.boot.perst = true)) → s.boot.stage = .doze → s.boot.cold = false →
      Does c s fun t => t.cause.cause = 2 ∧ t.power.pads = s.power.pads &&& 0x1F ∧ t.links.tsync.sync = false ∧ t.time = s.time ∧
        t.boot.stage = (if s.fw.armed then Stage.recovery else .rom) ∧ (c = .perstNRelease → t.boot.perst = false ∧ t.boot.wake = false) ∧
        (c ≠ .perstNRelease → t.boot.wake = true)) ∧
    (∀ a, a ≠ s.boot.address ∨ s.boot.testEn = true → exec (.smbusWakeMatch a) s = .next s) ∧
    (s.boot.perst = true → s.boot.stage ≠ .doze → exec .perstNRelease s = .next { s with boot := { s.boot with perst := false, wake := false } }) ∧
    (s.boot.powered = true → Does .refclkStop s fun t => t.boot.stage = .stopped ∧ t.boot.refclk = false ∧ t.boot.alert = true ∧ t.cause.fatal = true ∧
      t.time = s.time ∧ t.beds = s.beds) ∧
    (s.boot.stage = .doze → exec .refclkStop s = .next { s with boot := { s.boot with refclk := false, cold := true } }) ∧
    (s.boot.refclk = false → s.boot.stage = .stopped → Does .refclkReturn s fun t => t.boot.refclk = true ∧ t.boot.stage = .rom ∧ t.boot.cold = true ∧
      t.cause.fatal = true ∧ t.beds.mem = [] ∧ t.fw.svnFloor = s.fw.svnFloor) ∧
    (s.boot.refclk = false → s.boot.stage ≠ .stopped → exec .refclkReturn s = .next { s with boot := { s.boot with refclk := true } }) ∧
    (∀ n, n ≤ 7 → s.boot.stage = .off → Does (.refclkValid n) s fun t => t.time.now = 0 ∧ t.boot.refclk = true ∧ t.boot.straps = BitVec.ofNat 3 n ∧
      t.boot.address = 0x58 + n) ∧
    (s.boot.stage = .off → s.boot.refclk = true → Does (.pwrgdInAssert []) s fun t => t.boot.stage = .rom ∧ t.boot.pwrgd = true ∧ t.time = s.time ∧
      t.cause.cause = 1 ∧ t.beds.mem = [] ∧ t.fw.svnFloor = s.fw.svnFloor) ∧
    (s.boot.stage ≠ .off → Does .powerLoss s fun t => t.boot.pwrgd = false ∧ t.pavs = [] ∧ t.beds.mem = [] ∧ t.fw.svnFloor = s.fw.svnFloor ∧
      t.boot.stage = (if s.boot.stage = .tripped then Stage.tripped else .off)) ∧
    (s.boot.powered = true → Does .perstNAssert s fun t => t.boot.perst = true ∧ t.boot.link = false ∧ t.cause.cause = 2 ∧ t.time = s.time) ∧
    (s.boot.perst = false → s.boot.powered = true → exec .pcieLinkUp s = .next { s with boot := { s.boot with link := true } }) ∧
    (s.boot.link = true → Does .pcieLinkDown s fun t => t.boot.link = false ∧ t.beds = s.beds ∧ t.cores = s.cores ∧
      ∀ x ∈ s.pavs, x.2.bound = true → (t.pav x.1).chan.halted = true ∧ ((s.pav x.1).chan.halted = false → (t.pav x.1).chan.cause = 5)) ∧
    (∀ h c, h < 8 → 115 ≤ c → s.boot.stage ≠ .tripped → Does (.thermtrip h c) s fun t => t.boot.stage = .tripped ∧ t.time = s.time ∧ t.cause = s.cause ∧
      (t.half h).tj = c ∧ t.pavs = [] ∧ t.beds.mem = []) ∧
    (s.boot.stage = .tripped → s.boot.pwrgd = true → Does .thermtripClear s fun t => t.boot.stage = .rom ∧ t.cause.cause = 6 ∧ t.cause.fatal = true) ∧
    (s.boot.stage = .tripped → s.boot.pwrgd = false → exec .thermtripClear s = .next { s with boot := { s.boot with stage := .off } })

/-- HOST_CHANNEL_ERROR of an enabled pavilion halts its channel with the cause and the DVA's 4 KiB page, once; one of the control processor's own transfer ends an FW_STAGE with HOST_ERROR. A resume by its function clears HALTED. Data that a MEM_COPY waits for is written and completes it; data that does not cover it changes nothing. A timeout of a transfer halts its pavilion's channel with cause 4 and ends the transfer. The oldest committed step whose delivery is due, none of its writes sealed, is delivered: its writes are held no longer. -/
def Obligations.HostChannelsHaltAndResume : Prop :=
  ∀ (s : State),
    (∀ p cause (dva : Word64), p < 512 → 1 ≤ cause → cause ≤ 6 → (s.pav p).bound = true →
      ((s.pav p).chan.halted = false → Does (.hostChannelError p cause dva) s fun t => (t.pav p).chan.halted = true ∧ (t.pav p).chan.cause = cause ∧
        (t.pav p).chan.dva.toNat = dva.toNat / 4096 * 4096 ∧ (t.pav p).chan.keys = (s.pav p).chan.keys ∧ t.beds = s.beds ∧ t.cores = s.cores ∧
        ∀ q, q ≠ p → t.pav q = s.pav q) ∧
      ((s.pav p).chan.halted = true → exec (.hostChannelError p cause dva) s = .next s)) ∧
    (∀ cause (dva : Word64), 1 ≤ cause → cause ≤ 6 →
      ((∀ y ∈ s.transfers, y.pav ≠ 512) → exec (.hostChannelError 512 cause dva) s = .next s) ∧
      ∀ x, s.transfers.find? (fun y => y.pav == 512) = some x → s.fw.waiting = [] → (s.mb x.post).st = 1 → (s.mb x.post).gen = x.post / 2048 →
        Tab.find x.post s.orphans = none → replayPost x.post = false → x.post % 4 < (s.fn (postFn x.post)).slots.length →
        Does (.hostChannelError 512 cause dva) s fun t => (t.mb x.post).status = 7 ∧ t.pavs = s.pavs ∧ t.beds = s.beds ∧
          (∀ y ∈ t.transfers, y.post ≠ x.post) ∧ (s.fw.staging = some x.post → t.fw.staging = none)) ∧
    (∀ f, f < 512 → s.exposed = true →
      (s.pavOfFn f = none → exec (.mbHchResume f) s = .next s) ∧
      ∀ p, s.pavOfFn f = some p → (s.pav p).chan.halted = true → (∀ x ∈ s.liveStrands p, ∀ y ∈ (s.strand x.1 x.2).flights, y.prog ≠ .hostWait) →
        exec (.mbHchResume f) s = .next (s.modPav p fun v => { v with chan := { v.chan with halted := false } })) ∧
    (∀ f slot x, f < 512 → slot < 4 → s.transferAt f slot = some x →
      (∀ data bs, x.kind = 0 → (s.pav x.pav).conf = false → s.recording x.pav = false →
        (hostBytes data x.iova x.len = some bs → Does (.pcieCompletionReceive (.command f slot) data) s fun t =>
          t.beds = (s.writeCs x.pav x.addr bs).beds ∧ (t.pav x.pav).acct.hostBytes = (s.pav x.pav).acct.hostBytes + (if (s.pav x.pav).freeze.frozen then 0 else BitVec.ofNat 64 x.len) ∧
          ∀ y ∈ t.transfers, y.post ≠ x.post) ∧
        (hostBytes data x.iova x.len = none → exec (.pcieCompletionReceive (.command f slot) data) s = .next s)) ∧
      (x.pav < 512 → (s.pav x.pav).chan.halted = false → s.fw.staging ≠ some x.post →
        Does (.pcieCompletionTimeout (.command f slot)) s fun t => (t.pav x.pav).chan.halted = true ∧ (t.pav x.pav).chan.cause = 4 ∧ t.beds = s.beds ∧
          ∀ y ∈ t.transfers, y.post ≠ x.post)) ∧
    (∀ core strand pos data, core < 1088 → strand < 2048 → (s.ownerOf core = none ∨ (s.strand core strand).flights.length ≤ pos) →
      exec (.pcieCompletionReceive (.tile core strand pos) data) s = .next s ∧ exec (.pcieCompletionTimeout (.tile core strand pos)) s = .next s) ∧
    (∀ core strand pos p x iova, core < 1088 → strand < 2048 → s.ownerOf core = some p → (s.strand core strand).flights[pos]? = some x →
      x.prog = .hostRead iova → (s.pav p).chan.halted = false →
      Does (.pcieCompletionTimeout (.tile core strand pos)) s fun t => (t.pav p).chan.halted = true ∧ (t.pav p).chan.cause = 4 ∧ t.beds = s.beds) ∧
    ∀ p n tick rest, p < 512 → (s.pav p).deliveries = (n, tick) :: rest → tick.toNat ≤ s.now.toNat → (s.pav p).chan.halted = false →
      (s.pav p).freeze.saves = [] → (∃ h ∈ (s.pav p).held, h.step = some n) → (∀ h ∈ (s.pav p).held, h.step = some n → h.sealed = false) →
      Does (.hostDeliveryComplete p) s fun t => (t.pav p).deliveries = rest ∧ (t.pav p).held = (s.pav p).held.filter (fun h => h.step != some n) ∧
        t.beds = s.beds ∧ (t.pav p).committed = (s.pav p).committed

/-- EVT_TAIL stores the count and sends the vector while records are left; clearing OVERFLOW clears LOST. MMU_FLT_SEL clears the latch, and a read of word 0 fills it with the selected record. Reading RG_PAV_STAT restarts MISS_CLASSES. The table, window and pool bases take their first write only, aligned. A register write of 4 or 8 aligned bytes acts on its register, and any other is discarded. A BAR2 read in the host area answers package memory's bytes; a write changes no byte outside its range and stores a byte written alone. -/
def Obligations.RegistersAndBarsAnswer : Prop :=
  ∀ (s : State), s.exposed = true →
    (∀ f (v : Word32), f < 512 → s.hasFn f = true →
      exec (.evtTailWrite f v) s = .next (if (s.fn f).head ≠ v then (s.setFn f { s.fn f with tail := v }).sendVector f (bits (s.fn f).vec.toNat 14 12)
        else s.setFn f { s.fn f with tail := v }) ∧
      exec (.evtOverflowClear f) s = .next (s.setFn f { s.fn f with overflow := false, lost := 0 }) ∧
      ((s.faultPav f).isSome = true → Does (.mmuFltSelWrite f v) s fun t => (t.fn f).fltLatch = 0 ∧ bits (t.fn f).fltSel.toNat 20 16 = bits v.toNat 20 16 ∧
        (f = 0 → bits (t.fn f).fltSel.toNat 8 0 = bits v.toNat 8 0) ∧ t.pavs = s.pavs) ∧
      (∀ p, s.faultPav f = some p → Does (.mmuFltData0Read f) s fun t =>
        (t.fn f).fltLatch = ((Tab.find (bits (s.fn f).fltSel.toNat 20 16) (s.pav p).faults).map fun r => r.pack (bits (s.fn f).fltSel.toNat 20 16)).getD 0 ∧
        t.answer = (t.fn f).fltLatch.toNat % 2 ^ 64 ∧ t.pavs = s.pavs) ∧
      (∀ p, s.rgPav f = some p → Does (.rgPavStatRead f) s fun t => t.answer = s.rgPavStat p ∧ (t.pav p).reg.missClasses = 0 ∧ t.beds = s.beds)) ∧
    (∀ v : Word64,
      (s.regs.tableBase = none → Does (.pvTableBaseWrite v) s fun t => t.regs.tableBase = some (BitVec.ofNat 64 (v.toNat / 65536 * 65536))) ∧
      (s.regs.tableBase.isSome = true → exec (.pvTableBaseWrite v) s = .next s) ∧
      (s.regs.winBase = none → Does (.mmuWinBaseWrite v) s fun t => t.regs.winBase = some (BitVec.ofNat 64 (v.toNat / 131072 * 131072))) ∧
      (s.regs.winBase.isSome = true → exec (.mmuWinBaseWrite v) s = .next s) ∧
      (s.regs.poolBase = none → Does (.pvPoolBaseWrite v) s fun t => t.regs.poolBase = some (BitVec.ofNat 64 (v.toNat / 512 * 512))) ∧
      (s.regs.poolBase.isSome = true → exec (.pvPoolBaseWrite v) s = .next s)) ∧
    (∀ f o size (v : Word64), f < 512 → s.hasFn f = true →
      (∀ r, size = 4 → o % 4 = 0 → reg32 f o = some r → exec (.registerWrite f o size v) s = .next (s.write32 f r (BitVec.ofNat 32 v.toNat))) ∧
      (∀ r, size = 8 → o % 8 = 0 → reg64 f o = some r → exec (.registerWrite f o size v) s = .next (s.write64 f r v true)) ∧
      (size = 4 → reg32 f o = none → reg64 f o = none → exec (.registerWrite f o size v) s = .next s) ∧
      (size ≠ 4 ∧ size ≠ 8 ∨ o % 4 ≠ 0 → exec (.registerWrite f o size v) s = .next s)) ∧
    (∀ slot i (v : Word32) f, f < 512 → slot < 4 → i < 16 → (s.fn f).slots.length = 4 → (s.slotAt f slot).req.length = 16 →
      nthD ((s.write32 f (.mbReq slot i) v).slotAt f slot).req i 0 = v ∧ ((s.write32 f (.mbReq slot i) v).slotAt f slot).copy = (s.slotAt f slot).copy) ∧
    (∀ o n, o + n ≤ hostArea → (∀ i, i < n → s.beds.bad (pkgKey s.pkgChannels (o + i)) = false) →
      Does (.bar2Read o n) s fun t => t.aborted = false ∧ t.beds = s.beds ∧
        t.answer = leNat ((List.range n).map fun i => Mem.read s.beds.mem (pkgKey s.pkgChannels (o + i)))) ∧
    ∀ o bs, s.replayer.mode ≠ 1 → s.barMergeHurt o bs.length = none → Does (.bar2Write o bs) s fun t => t.pavs = s.pavs ∧ t.cores = s.cores ∧ t.fns = s.fns ∧
      (∀ key, (∀ i, i < bs.length → s.barKey (o + i) ≠ some key) → Mem.read t.beds.mem key = Mem.read s.beds.mem key) ∧
      ∀ b key, bs = [b] → Mem.wf s.beds.mem = true → s.barKey o = some key → Mem.read t.beds.mem key = b

/-- ENABLE of a stream that does not run starts it at frame 0 or sets ERROR with the reason; DISABLE stops one without a frame in progress at once and else after it. At its tick an IN stream takes the frame that its host slot holds into its buffer, or counts an overrun where four frames stand; the oldest buffered frame goes into its device slot and leaves the buffer. An OUT stream looks at a device slot from four periods before its tick on, every PERIOD / 4 ticks, takes the frame that the slot holds, and at its tick goes on to the next frame, counting an underrun where none was ready. No other stream changes. -/
def Obligations.StreamsStartStopAndMoveFrames : Prop :=
  ∀ (s : State) (p i : Nat), p < 512 → i < 64 → s.hasStream p i = true →
    let x := s.stream p i
    let same := fun (t : State) => ∀ q j, j < 64 → (q ≠ p ∨ j ≠ i) → t.stream q j = s.stream q j
    (s.exposed = true →
      (x.st ≠ 1 → Does (.streamEnable p i) s fun t => same t ∧ t.beds = s.beds ∧
        (x.startError s.now.toNat = 0 → (t.stream p i).st = 1 ∧ (t.stream p i).next = 0 ∧ (t.stream p i).buffer = []) ∧
        (x.startError s.now.toNat ≠ 0 → (t.stream p i).st = 2 ∧ (t.stream p i).err = x.startError s.now.toNat)) ∧
      (x.st = 1 → exec (.streamEnable p i) s = .next (s.setStream p i x)) ∧
      (Does (.streamDisable p i) s fun t => same t ∧ t.beds = s.beds ∧ (t.stream p i).enable = false ∧
        (x.st ≠ 1 → (t.stream p i).st = 0 ∧ (t.stream p i).err = 0) ∧
        (x.st = 1 → x.buffer = [] → (t.stream p i).st = 0) ∧
        (x.st = 1 → x.dir = false → x.buffer ≠ [] → (t.stream p i).st = 1 ∧ (t.stream p i).stopping = true))) ∧
    (x.st = 1 → x.dir = false →
      (∀ data, x.stopping = false → x.tickOf x.next ≤ s.now.toNat →
        (4 ≤ (x.buffer.filter fun f => f.2.isSome).length → Does (.streamInFrame p i data) s fun t => same t ∧ t.beds = s.beds ∧
          (t.stream p i).next = x.next + 1 ∧ (t.stream p i).overrun = sat16 x.overrun ∧ (t.stream p i).buffer = x.buffer ++ [(x.next, none)]) ∧
        ∀ l u b, (x.buffer.filter fun f => f.2.isSome).length < 4 → s.replaying p = false →
          s.mapSlot p i (x.hostSlot x.next) (64 + x.payload) true false = (.parts l, u) → u.framePlain p l data = some (some b) →
          (SlotHead.of b).frame = x.next → (SlotHead.of b).len ≤ x.payload →
          Does (.streamInFrame p i data) s fun t => same t ∧ (t.stream p i).next = x.next + 1 ∧ (t.stream p i).buffer = x.buffer ++ [(x.next, some b)]) ∧
      ∀ n payload rest l u, x.buffer = (n, payload) :: rest → s.replaying p = false →
        s.mapSlot p i (x.devSlot n) (64 + x.payload) false true = (.parts l, u) →
        Does (.streamInDeviceWrite p i) s fun t => same t ∧ (t.stream p i).buffer = rest ∧ (t.stream p i).next = x.next) ∧
    (x.st = 1 → x.dir = true →
      (∀ n l u, x.stopping = false → x.next ≤ n → n < x.next + 4 → x.pollAt n ≤ s.now.toNat → s.now.toNat ≤ x.tickOf n →
        (∀ f ∈ x.buffer, f.1 ≠ n) → s.mapSlot p i (x.devSlot n) (64 + x.payload) false false = (.parts l, u) → u.hurtPart p l = none →
        (SlotHead.of (u.readParts p l)).frame = n → (SlotHead.of (u.readParts p l)).len ≤ x.payload →
        (SlotHead.of (u.readParts p l)).step ≤ (s.pav p).committed.toNat →
        Does (.streamOutPoll p i n) s fun t => same t ∧ (t.stream p i).buffer = x.buffer ++ [(n, some (u.readParts p l))] ∧
          Tab.getD (t.stream p i).polls n 0 = 4 * (s.now.toNat - (x.tickOf n - 4 * x.period.toNat)) / max 1 x.period.toNat + 1) ∧
      (∀ n, s.now.toNat < x.pollAt n → exec (.streamOutPoll p i n) s = .next s) ∧
      (x.tickOf x.next ≤ s.now.toNat → Does (.streamOutFrame p i) s fun t => same t ∧ (t.stream p i).next = x.next + 1 ∧
        ((∀ f ∈ x.buffer, f.1 ≠ x.next) → (t.stream p i).underrun = sat16 x.underrun)) ∧
      (s.now.toNat < x.tickOf x.next → exec (.streamOutFrame p i) s = .next s))

/-- DIE_HALF_RESET_START starts a half's reset once, clears its droop clamp and resets each enabled pavilion with resources there; DIE_HALF_READY ends it. A worn core with an owner at a layer boundary and a spare begins to be copied, its owner held; when the copy is done the spare has its place in the bindable set and its index and the old core is dead, owned by nobody, its local store zero. A dying spare only leaves; a core of the bindable set that dies with a spare for it starts its owner's reset with cause 0x05 and gives up its index; with none the owner stays FAULTED. A control-processor failure that leaves three cores is recovered from, one that leaves fewer resets the package with cause 0x05; recovery done, service resumes. A host mover's error resets its pavilion with 0x0B. -/
def Obligations.SparesAndFailuresAreContained : Prop :=
  ∀ (s : State),
    (∀ h, h < 8 → (s.half h).resetting = none → exec (.dieHalfResetStart h) s = .next (s.startHalf h 2 []) ∧
      (s.apply.phase = 0 → ((s.startHalf h 2 []).half h).resetting = some (2, []) ∧ ((s.startHalf h 2 []).half h).droopClamp = false ∧
        ∀ q, (s.pav q).bound = true → s.inHalf q h = true → ((s.startHalf h 2 []).pav q).resetting.isSome = true)) ∧
    (∀ h r, h < 8 → (s.half h).resetting = some r → exec (.dieHalfResetStart h) s = .next s ∧
      Does (.dieHalfReady h) s fun t => (t.half h).resetting = none ∧ (∀ g, g ≠ h → t.half g = s.half g) ∧ t.beds = s.beds ∧ t.pavs = s.pavs) ∧
    (∀ c x p i, c < 1088 → (s.core c).health = .working → s.cycleMode = false → Tab.find c s.sparing = none → (s.core c).owner = some (p, i) →
      s.inBindSet c = true → s.spareFor c = some x → s.atBoundary p = true → (s.pav p).resetting = none →
      exec (.coreSpare c true) s = .next { ((s.modPav p fun v => { v with held? := true }).voidStart p) with sparing := Tab.put c x s.sparing }) ∧
    (∀ c x p i, c < 1088 → Tab.find c s.sparing = some x → x ≠ c → (s.core c).owner = some (p, i) → (∀ k, (s.sparing.map Prod.fst).count k ≤ 1) →
      Does (.coreSpareCopyDone c) s fun t => t.bindSet (clusterOf c) = (s.bindSet (clusterOf c)).map (fun d => if d == c then x else d) ∧
        (s.lsHurt c 0 (s.pav p).scratchBytes = true → (t.pav p).resetting.isSome = true) ∧ (t.core x).owner = some (p, i) ∧ (t.core c).owner = none ∧ (t.core c).health = .dead ∧
        (t.core x).slots = (s.core c).slots ∧ Tab.find c t.sparing = none ∧ t.cause.coresSpared = sat16 s.cause.coresSpared ∧
        ∀ o, o < 2 ^ 25 → Mem.read t.beds.ls (lsKey c o) = 0) ∧
    (∀ c, c < 1088 → (s.core c).health ≠ .dead → s.inBindSet c = false → (s.core c).owner = none →
      Does (.coreDeath c) s fun t => (t.core c).health = .dead ∧ t.bindSets = s.bindSets ∧ (∀ y ∈ t.sparing, y.2 ≠ c) ∧
        t.cause.coresSpared = s.cause.coresSpared ∧ t.cause.coresFailed = s.cause.coresFailed) ∧
    (∀ c, c < 1088 → (s.core c).health ≠ .dead → s.inBindSet c = true → (∀ y ∈ s.sparing, y.2 ≠ c) →
      (∀ x p i, { s with sparing := Tab.drop c s.sparing }.spareFor c = some x → (s.core c).owner = some (p, i) →
        Does (.coreDeath c) s fun t => t.bindSet (clusterOf c) = (s.bindSet (clusterOf c)).map (fun d => if d == c then x else d) ∧ (t.core c).owner = none ∧ (t.core c).health = .dead ∧ (t.core x).owner = some (p, i) ∧ (t.core x).zeroing = true ∧
          (t.pav p).resetting.isSome = true ∧ ((s.pav p).resetting = none → (t.pav p).resetting.map Resetting.causes = some [5]) ∧
          t.cause.coresSpared = sat16 s.cause.coresSpared) ∧
      (∀ p i, { s with sparing := Tab.drop c s.sparing }.spareFor c = none → (s.core c).owner = some (p, i) →
        Does (.coreDeath c) s fun t => (t.core c).owner = none ∧ (t.core c).health = .dead ∧ (t.pav p).faulted = true ∧ (t.pav p).resetting.isSome = true ∧
          t.cause.coresFailed = sat16 s.cause.coresFailed)) ∧
    (∀ c, c < 5 → s.boot.stage = .running →
      ((if s.cp.spareUsed then s.cp.working - 1 else s.cp.working) < 3 → Does (.cpWatchdogExpire c []) s fun t => t.cause.cause = 5 ∧ t.cp.recovering = false) ∧
      (3 ≤ (if s.cp.spareUsed then s.cp.working - 1 else s.cp.working) → s.apply.phase = 0 → Does (.cpWatchdogExpire c []) s fun t =>
        t.cp.recovering = true ∧ t.cp.spareUsed = true ∧ t.beds = s.beds ∧ t.cores = s.cores ∧ t.strands = s.strands ∧ t.boot = s.boot)) ∧
    (s.cp.recovering = true → exec .cpRecoveryDone s = .next ({ s with cp := { s.cp with recovering := false } }.resumeService)) ∧
    (∀ u p, p < 512 →
      (7 ≤ u → u ≤ 14 → (s.pav p).bound = true → exec (.pkgUnitUncorrectable u p) s = .next (s.startReset p 0x0B (0x8000 + u) [])) ∧
      (u = 1 → exec (.pkgUnitUncorrectable u p) s = .next (s.warmReset 7)) ∧
      (u = 2 ∨ u = 3 ∨ u = 6 → exec (.pkgUnitUncorrectable u p) s = .next s))

/-- With a good PEC and the dies powered, code 0xE0 resets the package, warm or cold, with cause 0x04; a bad PEC does nothing. Code 0xE1 answers the reset cause and state and releases SMB_ALERT_N; the alert response answers the package's address, if it asserts the alert, and releases it. In recovery, 0xF0 sets the offset, 0xF1 writes 32 bytes there and advances it by 32, 0xF2 sets the length and starts as GO does; 0xF3 answers FW_RCV_STATUS. An SPDM request over MCTP is the gatehouse's transport 512. -/
def Obligations.SmbusCommandsAnswer : Prop :=
  ∀ (s : State),
    (s.boot.powered = true → exec (.smbusWarmReset true) s = .next (s.warmReset 4) ∧ exec (.smbusColdReset true) s = .next (s.coldReset 4 false) ∧
      exec (.smbusRcvStatus true) s = .next (s.answered s.fw.rcvWord)) ∧
    (∀ c, c = .smbusWarmReset false ∨ c = .smbusColdReset false ∨ c = .smbusRcvStatus false ∨ (∃ r, c = .smbusMctp false r) ∨ (∃ o, c = .smbusRcvOffset false o) ∨
      (∃ b, c = .smbusRcvWrite false b) ∨ (∃ n, c = .smbusRcvStart false n) → exec c s = .next s) ∧
    (s.boot.served = true → exec .smbusStatusRead s = .next ({ s with boot := { s.boot with alert := false } }.answered s.statusBytes) ∧
      s.statusBytes % 256 = s.cause.cause.toNat ∧
      (s.alerts = true → exec .smbusAlertResponse s = .next ({ s with boot := { s.boot with alert := false } }.answered (0x58 + s.boot.straps.toNat))) ∧
      (s.alerts = false → exec .smbusAlertResponse s = .next s)) ∧
    (s.boot.stage = .recovery → s.boot.testEn = false →
      (∀ o, exec (.smbusRcvOffset true o) s = .next (s.modFw fun f => { f with rcvOffset := o })) ∧
      (∀ bs : List Byte, bs.length = 32 → s.fw.rcvOffset.toNat + 32 ≤ imageMax → Mem.wf s.fw.rcvBuf = true → Does (.smbusRcvWrite true bs) s fun t =>
        t.fw.rcvOffset = s.fw.rcvOffset + 32 ∧ Mem.readN t.fw.rcvBuf s.fw.rcvOffset.toNat 32 = bs ∧
        (∀ a, a < s.fw.rcvOffset.toNat ∨ s.fw.rcvOffset.toNat + 32 ≤ a → Mem.read t.fw.rcvBuf a = Mem.read s.fw.rcvBuf a) ∧ t.beds = s.beds) ∧
      ∀ n : Word32, n.toNat < 2 ^ 25 → exec (.smbusRcvStart true n) s = exec .fwRcvGo (s.modFw fun f => { f with rcvLen := BitVec.ofNat 25 n.toNat }) ∧
        Goes (.smbusRcvStart true n) s) ∧
    (s.boot.powered = true → s.gate.ready = true →
      exec (.smbusMctp true .getVersion) s = exec (.getVersion 512) s ∧ Goes (.smbusMctp true .getVersion) s ∧
      exec (.smbusMctp true .other) s = exec (.spdmUnsupportedRequest 512) s ∧
      (∀ n, exec (.smbusMctp true (.finish n)) s = exec (.finish 512 n) s) ∧ (∀ n m, exec (.smbusMctp true (.installImageKey n m)) s = exec (.installImageKey 512 n m) s) ∧
      ∀ n i g b, exec (.smbusMctp true (.getMeasurements n i g b)) s = exec (.getMeasurements 512 n i g b) s)

/-- On a transport of a ready gatehouse, GET_VERSION starts the connection anew, and capabilities and algorithms bring it on; a request before its stage is unexpected, and other algorithms invalid. Then digests, certificate parts of slot 0, challenges, measurements and the KEM certificate are answered. KEY_EXCHANGE with a 1,568-byte key opens the next session below the limit of 2, or 4 over SMBus; FINISH secures it, once; heartbeats and key updates keep it, END_SESSION ends it, and 20 s without a message end it. Chunks gather and are fetched. An unknown request is unsupported. -/
def Obligations.TheGatehouseAnswersSpdm : Prop :=
  ∀ (s : State) (via : Nat), via ≤ 512 → s.hasVia via = true → s.gate.ready = true →
    let l := s.spdm via
    let tells := fun (c : Instr) (a : SpdmAnswer) => Does c s fun t => (t.spdm via).reply = some a ∧ t.pavs = s.pavs ∧ t.beds = s.beds ∧
      t.gate.imageKeys = s.gate.imageKeys ∧ t.gate.releases = s.gate.releases ∧ ∀ v, v ≠ via → t.spdm v = s.spdm v
    let stage := fun (c : Instr) (n : Nat) => Does c s fun t => (t.spdm via).stage = n
    (tells (.getVersion via) .version ∧ stage (.getVersion via) 1 ∧ tells (.spdmUnsupportedRequest via) (.error .unsupportedRequest)) ∧
    (∀ n, (1 ≤ l.stage → tells (.getCapabilities via n) .capabilities ∧ stage (.getCapabilities via n) 2) ∧
      (l.stage = 0 → tells (.getCapabilities via n) (.error .unexpectedRequest))) ∧
    (∀ a : SpdmAlgs, 2 ≤ l.stage →
      (SpdmAlgs.accepted a = true → tells (.negotiateAlgorithms via a) .algorithms ∧ stage (.negotiateAlgorithms via a) 3) ∧
      (SpdmAlgs.accepted a = false → tells (.negotiateAlgorithms via a) (.error .invalidRequest))) ∧
    (∀ c, (c = .getDigests via 0 ∨ (∃ a o n, c = .getCertificate via 0 a o n) ∨ (∃ a b, c = .challenge via 0 a b) ∨ (∃ i g b, c = .getMeasurements via 0 i g b) ∨
      (∃ a k, c = .keyExchange via a k) ∨ (∃ n, c = .finish via n) ∨ ∃ h, c = .getKemCert via ⟨0, h⟩) → l.stage < 3 → tells c (.error .unexpectedRequest)) ∧
    (2 ≤ l.stage →
      (∀ chunk last, (via = 512 → chunk.length = 64 ∨ (last = true ∧ chunk.length ≤ 64)) → tells (.chunkSend via chunk last) .chunkAck ∧
        Does (.chunkSend via chunk last) s fun t => (t.spdm via).whole = last ∧ (t.spdm via).gathered = (if l.whole then chunk else l.gathered ++ chunk)) ∧
      (∀ n, n * max 1 l.most < l.large.length →
        tells (.chunkGet via n) (.chunk ((l.large.drop (n * max 1 l.most)).take (max 1 l.most)) (decide (l.large.length ≤ (n + 1) * max 1 l.most)))) ∧
      ∀ n, l.large.length ≤ n * max 1 l.most → tells (.chunkGet via n) (.error .invalidRequest)) ∧
    (3 ≤ l.stage →
      (Config.certDigest.length ≤ l.most → tells (.getDigests via 0) (.digests Config.certDigest)) ∧
      (l.most < Config.certDigest.length → tells (.getDigests via 0) (.error .largeResponse) ∧ Does (.getDigests via 0) s fun t => (t.spdm via).large = Config.certDigest) ∧
      (∀ o n, o < Config.certChain.length → ((Config.certChain.drop o).take n).length ≤ l.most →
        tells (.getCertificate via 0 0 o n) (.certificate ((Config.certChain.drop o).take n) (Config.certChain.length - min Config.certChain.length (o + n)))) ∧
      (∀ a o n, a ≠ 0 ∨ Config.certChain.length ≤ o → tells (.getCertificate via 0 a o n) (.error .invalidRequest)) ∧
      (∀ a b, a ≠ 0 → tells (.challenge via 0 a b) (.error .invalidRequest)) ∧
      (∀ b, (Config.sign (b ++ leBytes 8 (Config.freeValue s.draws).toNat)).length ≤ l.most →
        tells (.challenge via 0 0 b) (.challengeAuth (Config.sign (b ++ leBytes 8 (Config.freeValue s.draws).toNat)))) ∧
      (tells (.getMeasurements via 0 0 false []) (.measurements [] [])) ∧
      (∀ i b, i ≠ 0 → i ≠ 0xFF → (s.measBlocks via).filter (fun x => x.1 == i) = [] → tells (.getMeasurements via 0 i false b) (.error .invalidRequest)) ∧
      (∀ h, (vendorKnown h = true → h.status = 0 → Config.kemCert.length ≤ l.most → tells (.getKemCert via ⟨0, h⟩) (.vendor 0 Config.kemCert)) ∧
        (vendorKnown h = true → h.status ≠ 0 → tells (.getKemCert via ⟨0, h⟩) (.vendor 7 [])) ∧
        (vendorKnown h = false → tells (.getKemCert via ⟨0, h⟩) (.error .unsupportedRequest))) ∧
      (∀ key : List Byte, key.length = 1568 →
        let live := s.gate.sessions.filter fun x => x.via == via && s.alive x
        (sessionLimit via ≤ live.length → tells (.keyExchange via 0 key) (.error .sessionLimit)) ∧
        (live.length < sessionLimit via → Does (.keyExchange via 0 key) s fun t => t.gate.nextSession = s.gate.nextSession + 1 ∧ t.pavs = s.pavs ∧
          t.gate.sessions = (s.gate.sessions.filter fun x => s.alive x) ++ [{ via := via, id := s.gate.nextSession, beat := s.now }])) ∧
      ∀ id x, s.session? via id = some x →
        (x.secured = true → tells (.finish via id) (.error .unexpectedRequest)) ∧
        (x.secured = false → tells (.finish via id) .finished ∧ (id ≠ 0 → tells (.heartbeat via id) (.error .unexpectedRequest))) ∧
        (x.secured = true → id ≠ 0 → tells (.heartbeat via id) .heartbeatAck ∧ tells (.keyUpdate via id) .keyUpdateAck ∧ tells (.endSession via id) .endSessionAck ∧
          Does (.endSession via id) s fun t => t.session? via id = none))

/-- Outside a secured session every key or release message completes with status 1. In one, over a VF of a confidential pavilion, a host key of a new id is added, at most 4, and removed by its id; over any transport a release of a new model and tenant is added, at most 256, and revoked; over PF0 an image key of a new id and a tenant is added, at most 32, and removed. A wrong length or a nonzero STATUS gives status 7 (the latter the model's choice, assumption 80), a head that R481 does not list is unsupported, a debug-open package refuses installation with 8, and nothing else of the pavilions or memory changes. -/
def Obligations.TheGatehouseKeepsKeysAndReleases : Prop :=
  ∀ (s : State) (via id : Nat) (x : SpdmSession), via ≤ 512 → s.hasVia via = true → s.gate.ready = true → (s.spdm via).stage = 3 →
    s.session? via id = some x → x.secured = true → 0 < id →
    let p := (s.pavOfFn via).getD 512
    let keys := (s.pav p).chan.keys
    let answers := fun (c : Instr) (n : Nat) (P : State → Prop) => Does c s fun t => (t.spdm via).reply = some (.vendor n []) ∧ t.beds = s.beds ∧ P t
    let kept := fun (t : State) => t.pavs = s.pavs ∧ t.gate.imageKeys = s.gate.imageKeys ∧ t.gate.releases = s.gate.releases
    (∀ (m : KeyMsg) (r : ReleaseMsg) c, vendorKnown m.head = true → vendorKnown r.head = true → c = .installHostKey via 0 m ∨ c = .removeHostKey via 0 m ∨ c = .releaseModel via 0 r ∨ c = .revokeModel via 0 r ∨
      c = .installImageKey via 0 m ∨ c = .removeImageKey via 0 m → answers c 1 kept) ∧
    (∀ (m : KeyMsg) c, vendorKnown m.head = false → c = .installHostKey via id m ∨ c = .removeHostKey via id m ∨ c = .installImageKey via id m ∨ c = .removeImageKey via id m →
      Does c s fun t => (t.spdm via).reply = some (.error .unsupportedRequest) ∧ kept t) ∧
    (∀ (r : ReleaseMsg) c, vendorKnown r.head = false → c = .releaseModel via id r ∨ c = .revokeModel via id r →
      Does c s fun t => (t.spdm via).reply = some (.error .unsupportedRequest) ∧ kept t) ∧
    (∀ m : KeyMsg, vendorKnown m.head = true → 0 < via → via < 512 → (s.pav p).conf = true →
      (keys.length < 4 → (∀ k ∈ keys, k.id ≠ m.id) →
        (m.sized = true → m.head.status = 0 → m.reserved = 0 → m.dir ≤ 1 →
          (s.fuse.debugOpen = false → answers (.installHostKey via id m) 0 fun t =>
            (t.pav p).chan.keys = keys ++ [{ id := m.id, key := m.key, toHost := m.dir == 1 }] ∧ t.gate.imageKeys = s.gate.imageKeys) ∧
          (s.fuse.debugOpen = true → answers (.installHostKey via id m) 8 kept)) ∧
        (m.sized = false ∨ m.head.status ≠ 0 → answers (.installHostKey via id m) 7 kept)) ∧
      (4 ≤ keys.length → answers (.installHostKey via id m) 4 kept) ∧
      ((∃ k ∈ keys, k.id = m.id) → m.sized = true → m.head.status = 0 → answers (.removeHostKey via id m) 0 fun t => (t.pav p).chan.keys = keys.filter fun k => k.id != m.id) ∧
      ((∀ k ∈ keys, k.id ≠ m.id) → answers (.removeHostKey via id m) 6 kept)) ∧
    (∀ m : ReleaseMsg, vendorKnown m.head = true →
      (s.releaseOf m.model m.tenant.toNat = none → s.gate.releases.length < 256 → m.sized = true → m.head.status = 0 → m.reserved = 0 → s.fuse.debugOpen = false →
        answers (.releaseModel via id m) 0 fun t => t.pavs = s.pavs ∧ t.gate.releases = s.gate.releases ++ [{ model := m.model, tenant := m.tenant, secret := m.secret }]) ∧
      (256 ≤ s.gate.releases.length → answers (.releaseModel via id m) 4 kept) ∧
      ((s.releaseOf m.model m.tenant.toNat).isSome = true → m.sized = true → m.head.status = 0 → answers (.revokeModel via id m) 0 fun t => t.pavs = s.pavs ∧
        t.releaseOf m.model m.tenant.toNat = none) ∧
      (s.releaseOf m.model m.tenant.toNat = none → answers (.revokeModel via id m) 6 kept)) ∧
    ∀ m : KeyMsg, vendorKnown m.head = true → via = 0 →
      (s.imageKey m.id.toNat = none → s.gate.imageKeys.length < 32 → m.sized = true → m.head.status = 0 → m.reserved = 0 → m.dir ≤ 1 → s.fuse.debugOpen = false →
        (m.tenant ≠ 0 → answers (.installImageKey via id m) 0 fun t => t.pavs = s.pavs ∧
          t.gate.imageKeys = s.gate.imageKeys ++ [{ id := m.id, tenant := m.tenant, opens := m.dir == 1, key := m.key }]) ∧
        (m.tenant = 0 → answers (.installImageKey via id m) 9 kept)) ∧
      (32 ≤ s.gate.imageKeys.length → answers (.installImageKey via id m) 4 kept) ∧
      ((s.imageKey m.id.toNat).isSome = true → m.sized = true → m.head.status = 0 → s.pavOfFn 0 = none → answers (.removeImageKey via id m) 0 fun t => t.pavs = s.pavs ∧
        t.imageKey m.id.toNat = none) ∧
      (s.imageKey m.id.toNat = none → answers (.removeImageKey via id m) 6 kept)

/-- For every command c and state s, a step at s with c in front of its queue is exec of c on s with the rest of the queue. With an empty queue a step serves the hub of the control network: a response that waits there first, else the oldest request of the requester that comes first in the round after the one served last, which joins the queue; with nothing at the hub a step answers the same state (that an empty queue does so is the model's choice, assumptions 7 and 79). -/
def Obligations.AStepRunsTheFrontCommand : Prop :=
  ∀ (s : State), (∀ c rest, step { s with pending := c :: rest } = exec c { s with pending := rest }) ∧
    (s.pending = [] →
      let h := s.net.hub
      (∀ r rest, h.responses = r :: rest →
        step s = .next { s with net := { s.net with hub := { h with responses := rest } }, answer := r.2 }) ∧
      (∀ l x r, h.responses = [] → h.requests = l ++ x :: r → (∀ y ∈ l, h.distance x.1 < h.distance y.1) → (∀ y ∈ r, h.distance x.1 ≤ h.distance y.1) →
        step s = .next { s with net := { s.net with hub := { h with last := x.1.place, requests := l ++ r } }, pending := [x.2] }) ∧
      (h.responses = [] → h.requests = [] → step s = .next s))

/-- At State.reset the memories are in canonical form, nothing waits, no pavilion, core or window is bound, TIME and every winding are 0, and PF0 reads: PKG_PART 0x00040100, reset cause 0x01 with no warm reset and not FATAL; PWR_CAP the thermal design power of the model's grade (3,600 W), RAMP 2 µs, no pad group held, half 0 at divisor 12, full issue budget, 620 mV; MB_VIEW.FIRST 1; MC_SCRUB with a period of 24 hours; no package id; every mailbox slot IDLE; LANE_OUT none; a stream period of 2,000 ticks; and all 64 vectors of the MSI-X table masked (assumption 5 names the values the spec does not give). -/
def Obligations.ResetLeavesTheRegisterValues : Prop :=
  let s := State.reset
  s.memWf = true ∧ s.postsWf ∧ s.orphans = [] ∧ s.pending = [] ∧ (∀ p, (s.pav p).bound = false ∧ (s.pav p).winding = 0) ∧ (∀ c, (s.core c).owner = none) ∧ s.windows = [] ∧
  s.readRegister 0 0x0 4 = 0x00040100 ∧ s.readRegister 0 0x100 4 = 0x01 ∧ s.readRegister 0 0x10000 8 = 0 ∧
  s.readRegister 0 0x40008 4 = 3600 ∧ s.readRegister 0 0x40010 4 = 2 ∧ s.readRegister 0 0x40018 4 = 0 ∧
  s.readRegister 0 0x40028 8 % 16 = 12 ∧ s.readRegister 0 0x40028 8 / 2 ^ 32 % 2 ^ 7 = 0x40 ∧ s.readRegister 0 0x40028 8 / 2 ^ 22 % 2 ^ 10 = 620 ∧
  s.readRegister 0 0x100810 4 = 1 ∧ s.readRegister 0 0x500000 4 / 2 % 256 = 24 ∧ s.readRegister 0 0x408000 4 = 0 ∧
  (∀ k, k < 4 → s.readRegister 0 (0x100044 + 0x200 * k) 4 % 4 = 0) ∧ (∀ p, p < 16 → s.readRegister 0 (0x400000 + 0x10000 * p) 4 / 2 ^ 12 % 16 = 15) ∧
  (s.stream 0 0).period = 2000 ∧ ∀ v, v < 8 → s.readRegister 0 (0xC000C + 16 * v) 4 % 2 = 1

/-- Every scalar and tile instruction whose word is an undefined encoding for it, and every word with an opcode the tables do not list or another undefined encoding, takes kernel fault 0x01 at its strand. A kernel fault kills the strand and starts a pavilion reset with cause 0x01; where none has been raised since the last reset began, it is reported to the host function with its code, opcode, strand, core, PC, tile, detail and TIME, and every fault record of the pavilion is discarded; where one has, nothing but the strand changes. -/
def Obligations.KernelFaultsKillAndAreReportedOnce : Prop :=
  (∀ (s : State) (core strand p i : Nat) (w0 w1 : Word64),
    let w := w0.toNat + 2 ^ 64 * w1.toNat
    (∀ op, op = w % 256 → op ∉ [0x01, 0x10, 0x11, 0x12, 0x13, 0x14, 0x15, 0x16, 0x17, 0x18, 0x19, 0x1A, 0x1B, 0x1C, 0x1D, 0x20, 0x21, 0x28, 0x29, 0x2A, 0x2B,
      0x30, 0x31, 0x32, 0x33, 0x34, 0x40, 0x41, 0x42, 0x43, 0x50, 0x51, 0x52, 0x53, 0x80, 0x81, 0x82, 0x83, 0x84, 0x90, 0x91, 0x92, 0x93, 0x94,
      0xA0, 0xA1, 0xA2, 0xA3, 0xB0, 0xB1, 0xB2] → undefinedWord w = true) ∧
    (Issues s core strand (if w % 256 < 128 then 8 else 16) p i → undefinedWord w = true →
      exec (.undefinedEncoding core strand w0 w1) s = .next (s.kernelFault core strand 0x01 (w % 256) 0 0))) ∧
  (∀ (s : State) (core strand p i : Nat) (f : ScalarFields) (h : SramErr), Issues s core strand 8 p i →
    ∀ x ∈ ([(.nop core strand f, shapeNone, 0x01), (.add core strand f, shapeAlu, 0x10), (.sub core strand f, shapeAlu, 0x11), (.mul core strand f, shapeAlu, 0x12),
        (.and core strand f, shapeAlu, 0x13), (.or core strand f, shapeAlu, 0x14), (.xor core strand f, shapeAlu, 0x15), (.shl core strand f, shapeAlu, 0x16),
        (.shr core strand f, shapeAlu, 0x17), (.sar core strand f, shapeAlu, 0x18), (.min core strand f, shapeAlu, 0x19), (.max core strand f, shapeAlu, 0x1A),
        (.cmp core strand f, shapeCmp, 0x1B), (.movi core strand f, shapeMovi, 0x1C), (.movhi core strand f, shapeMovi, 0x1D)] : List (Instr × ScalarShape × Nat)) ++
      ([(.lds core strand f h, shapeLds, 0x20), (.sts core strand f, shapeSts, 0x21), (.setd core strand f, shapeSetd, 0x28), (.getd core strand f, shapeGetd, 0x29),
        (.ldd core strand f, shapeLdd, 0x2A), (.std core strand f, shapeStd, 0x2B), (.rdas core strand f, shapeDst, 0x30), (.clas core strand f, shapeClas, 0x31),
        (.setsrc core strand f, shapeSetsrc, 0x32), (.rdsrc core strand f, shapeDst, 0x33), (.rdtime core strand f, shapeDst, 0x34)] : List (Instr × ScalarShape × Nat)) ++
      ([(.br core strand f, shapeBr, 0x40), (.jmp core strand f, shapeJmp, 0x41), (.jmpr core strand f, shapeJmpr, 0x42), (.call core strand f, shapeCall, 0x43),
        (.spawn core strand f, shapeSpawn, 0x50), (.yield core strand f, shapeNone, 0x51), (.exit core strand f, shapeNone, 0x52),
        (.fence core strand f, shapeFence, 0x53)] : List (Instr × ScalarShape × Nat)),
      x.2.1.undefined f = true → exec x.1 s = .next (s.kernelFault core strand 0x01 x.2.2 0 0)) ∧
  (∀ (s : State) (core strand p i : Nat) (f : TileFields), Issues s core strand 16 p i →
    ∀ x ∈ ([(.tld core strand f, 0x80), (.tst core strand f, 0x81), (.tcp core strand f, 0x82), (.tgather core strand f, 0x83), (.tscatter core strand f, 0x84),
        (.tmm core strand f, 0x90), (.tvop core strand f, 0x91), (.tred core strand f, 0x92), (.tcvt core strand f, 0x93), (.tdec core strand f, 0x94),
        (.tsend core strand f, 0xA0), (.trecv core strand f, 0xA1), (.tput core strand f, 0xA2), (.tget core strand f, 0xA3),
        (.tbar core strand f, 0xB0), (.twait core strand f, 0xB1), (.tcommit core strand f, 0xB2)] : List (Instr × Nat)),
      (tileShape x.2 f).undefined f = true → exec x.1 s = .next (s.kernelFault core strand 0x01 x.2 0 0)) ∧
  ∀ (s : State) (core strand code opc tile detail p i : Nat), (s.core core).owner = some (p, i) → code < 256 → opc < 256 → strand < 2048 → tile < 2 ^ 32 →
    detail < 2 ^ 64 → s.logicalOf p i < 2 ^ 32 →
    let t := s.kernelFault core strand code opc tile detail
    (t.strand core strand).mode = .waiting ∧ (t.strand core strand).wait = .killed ∧ ((t.pav p).resetting.map fun r => r.causes.contains 1) = some true ∧
    (((s.pav p).resetting.map fun r => r.causes.contains 1) = some true → t = s.modStrand core strand fun x => { x with mode := .waiting, wait := .killed }) ∧
    (((s.pav p).resetting.map fun r => r.causes.contains 1) ≠ some true →
      (t.pav p).faults = [] ∧ (t.pav p).waiters = [] ∧ t.beds = s.beds ∧
      ∃ rep, t = (((s.modStrand core strand fun x => { x with mode := .waiting, wait := .killed }).raisePav p 0x0001 rep).modPav p fun v =>
          { v with faults := [], waiters := [] }).startReset p 0x01 (coreLoc core) [] ∧
        rep % 256 = code ∧ rep / 2 ^ 8 % 256 = opc ∧ rep / 2 ^ 16 % 2048 = strand ∧ rep / 2 ^ 27 % 32 = 0 ∧ rep / 2 ^ 32 % 2 ^ 32 = s.logicalOf p i ∧
        rep / 2 ^ 64 % 2 ^ 32 = (s.strand core strand).pc.toNat ∧ rep / 2 ^ 96 % 2 ^ 32 = tile ∧ rep / 2 ^ 128 % 2 ^ 64 = detail ∧
        rep / 2 ^ 192 = s.now.toNat)

/-- For every command and every state: if every unit that the command names exists, exec answers a next state; if not, exec answers the fault noSuchUnit. No command is refused. -/
def Obligations.EveryCommandAnswersANextState : Prop :=
  ∀ (c : Instr) (s : State), (c.wf = true → Goes c s) ∧ (c.wf = false → exec c s = .fault .noSuchUnit)

/-- For every state, and whichever of the 296 commands is in front of its queue: if the step answers a next state, what the fuses hold (grade, step, serial, present units) is as before, the queue is the queue's rest (from an empty queue also the one request that the hub serves), the SVN floor is not lower than before, and if the bed, local-store, host and recovery memories were in canonical form, they are. If every function had four mailbox slots and every command that a function reset met was posted before its slot's present post, that holds after the step: so no new post is taken for such a command. -/
def Obligations.EveryStepKeepsWhatNoCommandMayChange : Prop :=
  ∀ (s t : State), step s = .next t →
    t.fuse = s.fuse ∧ (t.pending = s.pending.tail ∨ (s.pending = [] ∧ ∃ x ∈ s.net.hub.requests, t.pending = [x.2])) ∧ s.fw.svnFloor.toNat ≤ t.fw.svnFloor.toNat ∧ (s.memWf = true → t.memWf = true) ∧
    (s.postsWf → t.postsWf)
end

