-- ==== Sys2Proof/Laws/Control.lean ====
section
/-! SUPPORT. What the hub of the control network serves next. -/

namespace Sys2Proof.Machine

/-- What a pass of `Hub.next` over requests keeps: whatever it holds stands farther off than `x`. -/
theorem Hub.next_farther (h : Hub) (x : HubPort × Instr) (l : List (HubPort × Instr)) (b : Option (HubPort × Instr))
    (hb : ∀ y, b = some y → h.distance x.1 < h.distance y.1) (hl : ∀ y ∈ l, h.distance x.1 < h.distance y.1) (y : HubPort × Instr)
    (hy : l.foldl (fun b x => match b with
      | none => some x
      | some y => if h.distance x.1 < h.distance y.1 then some x else b) b = some y) : h.distance x.1 < h.distance y.1 := by
  induction l generalizing b with
  | nil => exact hb y hy
  | cons a l ih =>
    refine ih _ (fun z hz => ?_) (fun z hz => hl z (List.mem_cons_of_mem _ hz)) hy
    cases b with
    | none => cases hz; exact hl _ List.mem_cons_self
    | some w =>
      simp only at hz
      split at hz
      · cases hz; exact hl _ List.mem_cons_self
      · exact hb z hz

/-- A pass of `Hub.next` over requests that do not stand nearer keeps `x`. -/
theorem Hub.next_keeps (h : Hub) (x : HubPort × Instr) (r : List (HubPort × Instr)) (hr : ∀ y ∈ r, h.distance x.1 ≤ h.distance y.1) :
    r.foldl (fun b x => match b with
      | none => some x
      | some y => if h.distance x.1 < h.distance y.1 then some x else b) (some x) = some x := by
  induction r with
  | nil => rfl
  | cons a r ih =>
    simp only [List.foldl_cons]
    rw [if_neg (Nat.not_lt.mpr (hr a List.mem_cons_self))]
    exact ih fun y hy => hr y (List.mem_cons_of_mem _ hy)

/-- The hub serves the oldest request of the requester that comes first in the round (R244). -/
theorem Hub.next_eq (h : Hub) (l r : List (HubPort × Instr)) (x : HubPort × Instr) (hq : h.requests = l ++ x :: r)
    (hl : ∀ y ∈ l, h.distance x.1 < h.distance y.1) (hr : ∀ y ∈ r, h.distance x.1 ≤ h.distance y.1) : h.next = some x := by
  have far := h.next_farther x l none (fun _ hb => nomatch hb) hl
  unfold Hub.next
  rw [hq, List.foldl_append, List.foldl_cons]
  generalize List.foldl _ none l = b at far ⊢
  cases b with
  | none => exact h.next_keeps x r hr
  | some w => simp only [if_pos (far w rfl)]; exact h.next_keeps x r hr

end Sys2Proof.Machine
end

