-- ==== Sys2Proof/Laws/Tab.lean ====
section
/-! SUPPORT. Laws of tables: what stands at a key after an entry is put, taken out, or the values change. They hold of every list of
pairs. -/

namespace Sys2Proof.Machine

@[simp] theorem Tab.find_nil {α : Type} (k : Nat) : Tab.find k ([] : Tab α) = none := rfl

theorem Tab.find_put {α : Type} (k j : Nat) (a : α) (t : Tab α) :
    Tab.find j (Tab.put k a t) = if j = k then some a else Tab.find j t := by
  induction t with
  | nil =>
    by_cases h : j = k
    · simp [Tab.put, Tab.find, h]
    · simp [Tab.put, Tab.find, h, Ne.symm h]
  | cons c t ih =>
    obtain ⟨i, b⟩ := c
    simp only [Tab.put]
    split
    · by_cases h : j = k
      · simp [Tab.find, h]
      · simp [Tab.find, h, Ne.symm h]
    · split
      · rename_i h2
        have h2 : i = k := by simpa using h2
        subst h2
        by_cases h : j = i
        · simp [Tab.find, h]
        · simp [Tab.find, h, Ne.symm h]
      · rename_i h2
        have h2 : i ≠ k := by simpa using h2
        by_cases h : i = j
        · subst h; simp [Tab.find, h2]
        · simp [Tab.find, h, ih]

@[simp] theorem Tab.find_put_self {α : Type} (k : Nat) (a : α) (t : Tab α) : Tab.find k (Tab.put k a t) = some a := by simp [Tab.find_put]

theorem Tab.find_put_ne {α : Type} {k j : Nat} (h : j ≠ k) (a : α) (t : Tab α) : Tab.find j (Tab.put k a t) = Tab.find j t := by
  simp [Tab.find_put, h]

theorem Tab.getD_put {α : Type} (k j : Nat) (a d : α) (t : Tab α) : Tab.getD (Tab.put k a t) j d = if j = k then a else Tab.getD t j d := by
  unfold Tab.getD; rw [Tab.find_put]; split <;> rfl

@[simp] theorem Tab.getD_put_self {α : Type} (k : Nat) (a d : α) (t : Tab α) : Tab.getD (Tab.put k a t) k d = a := by simp [Tab.getD_put]

theorem Tab.getD_put_ne {α : Type} {k j : Nat} (h : j ≠ k) (a d : α) (t : Tab α) : Tab.getD (Tab.put k a t) j d = Tab.getD t j d := by
  simp [Tab.getD_put, h]

@[simp] theorem Tab.put_put {α : Type} (k : Nat) (a b : α) (t : Tab α) : Tab.put k a (Tab.put k b t) = Tab.put k a t := by
  induction t with
  | nil => simp [Tab.put]
  | cons c t ih =>
    obtain ⟨i, d⟩ := c
    simp only [Tab.put]
    split
    · simp [Tab.put]
    · rename_i h
      split
      · simp [Tab.put]
      · rename_i h2
        have h2 : i ≠ k := by simpa using h2
        simp [Tab.put, h, h2, ih]

theorem Tab.find_mapVals {α : Type} (f : Nat → α → α) (k : Nat) (t : Tab α) : Tab.find k (Tab.mapVals f t) = (Tab.find k t).map (f k) := by
  induction t with
  | nil => rfl
  | cons c t ih =>
    obtain ⟨i, b⟩ := c
    by_cases h : i = k
    · subst h; simp [Tab.mapVals, Tab.find]
    · simpa [Tab.mapVals, Tab.find, h] using ih

end Sys2Proof.Machine
end

