-- ==== Sys2Proof/Laws/State.lean ====
section
/-! SUPPORT. Laws of the state: what each setter leaves as it was, one lemma per field, and what the unit it sets then reads as. -/

namespace Sys2Proof.Machine.State

variable (s : State)

/-! ## setStrand -/

@[simp] theorem pending_setStrand (c t : Nat) (x : Strand) : (s.setStrand c t x).pending = s.pending := rfl
@[simp] theorem answer_setStrand (c t : Nat) (x : Strand) : (s.setStrand c t x).answer = s.answer := rfl
@[simp] theorem draws_setStrand (c t : Nat) (x : Strand) : (s.setStrand c t x).draws = s.draws := rfl
@[simp] theorem order_setStrand (c t : Nat) (x : Strand) : (s.setStrand c t x).order = s.order := rfl
@[simp] theorem fuse_setStrand (c t : Nat) (x : Strand) : (s.setStrand c t x).fuse = s.fuse := rfl
@[simp] theorem time_setStrand (c t : Nat) (x : Strand) : (s.setStrand c t x).time = s.time := rfl
@[simp] theorem regs_setStrand (c t : Nat) (x : Strand) : (s.setStrand c t x).regs = s.regs := rfl
@[simp] theorem cores_setStrand (c t : Nat) (x : Strand) : (s.setStrand c t x).cores = s.cores := rfl
@[simp] theorem beds_setStrand (c t : Nat) (x : Strand) : (s.setStrand c t x).beds = s.beds := rfl
@[simp] theorem tcache_setStrand (c t : Nat) (x : Strand) : (s.setStrand c t x).tcache = s.tcache := rfl
@[simp] theorem windows_setStrand (c t : Nat) (x : Strand) : (s.setStrand c t x).windows = s.windows := rfl
@[simp] theorem pavs_setStrand (c t : Nat) (x : Strand) : (s.setStrand c t x).pavs = s.pavs := rfl
@[simp] theorem fns_setStrand (c t : Nat) (x : Strand) : (s.setStrand c t x).fns = s.fns := rfl
@[simp] theorem orphans_setStrand (c t : Nat) (x : Strand) : (s.setStrand c t x).orphans = s.orphans := rfl
@[simp] theorem host_setStrand (c t : Nat) (x : Strand) : (s.setStrand c t x).host = s.host := rfl
@[simp] theorem irqs_setStrand (c t : Nat) (x : Strand) : (s.setStrand c t x).irqs = s.irqs := rfl
@[simp] theorem apply_setStrand (c t : Nat) (x : Strand) : (s.setStrand c t x).apply = s.apply := rfl
@[simp] theorem net_setStrand (c t : Nat) (x : Strand) : (s.setStrand c t x).net = s.net := rfl
@[simp] theorem invals_setStrand (c t : Nat) (x : Strand) : (s.setStrand c t x).invals = s.invals := rfl
@[simp] theorem transfers_setStrand (c t : Nat) (x : Strand) : (s.setStrand c t x).transfers = s.transfers := rfl
@[simp] theorem unseals_setStrand (c t : Nat) (x : Strand) : (s.setStrand c t x).unseals = s.unseals := rfl
@[simp] theorem boot_setStrand (c t : Nat) (x : Strand) : (s.setStrand c t x).boot = s.boot := rfl
@[simp] theorem fw_setStrand (c t : Nat) (x : Strand) : (s.setStrand c t x).fw = s.fw := rfl
@[simp] theorem cp_setStrand (c t : Nat) (x : Strand) : (s.setStrand c t x).cp = s.cp := rfl
@[simp] theorem bindSets_setStrand (c t : Nat) (x : Strand) : (s.setStrand c t x).bindSets = s.bindSets := rfl
@[simp] theorem sparing_setStrand (c t : Nat) (x : Strand) : (s.setStrand c t x).sparing = s.sparing := rfl
@[simp] theorem power_setStrand (c t : Nat) (x : Strand) : (s.setStrand c t x).power = s.power := rfl
@[simp] theorem cause_setStrand (c t : Nat) (x : Strand) : (s.setStrand c t x).cause = s.cause := rfl
@[simp] theorem ports_setStrand (c t : Nat) (x : Strand) : (s.setStrand c t x).ports = s.ports := rfl
@[simp] theorem links_setStrand (c t : Nat) (x : Strand) : (s.setStrand c t x).links = s.links := rfl
@[simp] theorem streams_setStrand (c t : Nat) (x : Strand) : (s.setStrand c t x).streams = s.streams := rfl
@[simp] theorem replayer_setStrand (c t : Nat) (x : Strand) : (s.setStrand c t x).replayer = s.replayer := rfl
@[simp] theorem belv_setStrand (c t : Nat) (x : Strand) : (s.setStrand c t x).belv = s.belv := rfl
@[simp] theorem pools_setStrand (c t : Nat) (x : Strand) : (s.setStrand c t x).pools = s.pools := rfl
@[simp] theorem dir_setStrand (c t : Nat) (x : Strand) : (s.setStrand c t x).dir = s.dir := rfl
@[simp] theorem gate_setStrand (c t : Nat) (x : Strand) : (s.setStrand c t x).gate = s.gate := rfl
@[simp] theorem aborted_setStrand (c t : Nat) (x : Strand) : (s.setStrand c t x).aborted = s.aborted := rfl
@[simp] theorem posts_setStrand (c t : Nat) (x : Strand) : (s.setStrand c t x).posts = s.posts := rfl

/-! ## setCore -/

@[simp] theorem pending_setCore (c : Nat) (x : Core) : (s.setCore c x).pending = s.pending := rfl
@[simp] theorem answer_setCore (c : Nat) (x : Core) : (s.setCore c x).answer = s.answer := rfl
@[simp] theorem draws_setCore (c : Nat) (x : Core) : (s.setCore c x).draws = s.draws := rfl
@[simp] theorem order_setCore (c : Nat) (x : Core) : (s.setCore c x).order = s.order := rfl
@[simp] theorem fuse_setCore (c : Nat) (x : Core) : (s.setCore c x).fuse = s.fuse := rfl
@[simp] theorem time_setCore (c : Nat) (x : Core) : (s.setCore c x).time = s.time := rfl
@[simp] theorem regs_setCore (c : Nat) (x : Core) : (s.setCore c x).regs = s.regs := rfl
@[simp] theorem strands_setCore (c : Nat) (x : Core) : (s.setCore c x).strands = s.strands := rfl
@[simp] theorem beds_setCore (c : Nat) (x : Core) : (s.setCore c x).beds = s.beds := rfl
@[simp] theorem tcache_setCore (c : Nat) (x : Core) : (s.setCore c x).tcache = s.tcache := rfl
@[simp] theorem windows_setCore (c : Nat) (x : Core) : (s.setCore c x).windows = s.windows := rfl
@[simp] theorem pavs_setCore (c : Nat) (x : Core) : (s.setCore c x).pavs = s.pavs := rfl
@[simp] theorem fns_setCore (c : Nat) (x : Core) : (s.setCore c x).fns = s.fns := rfl
@[simp] theorem orphans_setCore (c : Nat) (x : Core) : (s.setCore c x).orphans = s.orphans := rfl
@[simp] theorem host_setCore (c : Nat) (x : Core) : (s.setCore c x).host = s.host := rfl
@[simp] theorem irqs_setCore (c : Nat) (x : Core) : (s.setCore c x).irqs = s.irqs := rfl
@[simp] theorem apply_setCore (c : Nat) (x : Core) : (s.setCore c x).apply = s.apply := rfl
@[simp] theorem net_setCore (c : Nat) (x : Core) : (s.setCore c x).net = s.net := rfl
@[simp] theorem invals_setCore (c : Nat) (x : Core) : (s.setCore c x).invals = s.invals := rfl
@[simp] theorem transfers_setCore (c : Nat) (x : Core) : (s.setCore c x).transfers = s.transfers := rfl
@[simp] theorem unseals_setCore (c : Nat) (x : Core) : (s.setCore c x).unseals = s.unseals := rfl
@[simp] theorem boot_setCore (c : Nat) (x : Core) : (s.setCore c x).boot = s.boot := rfl
@[simp] theorem fw_setCore (c : Nat) (x : Core) : (s.setCore c x).fw = s.fw := rfl
@[simp] theorem cp_setCore (c : Nat) (x : Core) : (s.setCore c x).cp = s.cp := rfl
@[simp] theorem bindSets_setCore (c : Nat) (x : Core) : (s.setCore c x).bindSets = s.bindSets := rfl
@[simp] theorem sparing_setCore (c : Nat) (x : Core) : (s.setCore c x).sparing = s.sparing := rfl
@[simp] theorem power_setCore (c : Nat) (x : Core) : (s.setCore c x).power = s.power := rfl
@[simp] theorem cause_setCore (c : Nat) (x : Core) : (s.setCore c x).cause = s.cause := rfl
@[simp] theorem ports_setCore (c : Nat) (x : Core) : (s.setCore c x).ports = s.ports := rfl
@[simp] theorem links_setCore (c : Nat) (x : Core) : (s.setCore c x).links = s.links := rfl
@[simp] theorem streams_setCore (c : Nat) (x : Core) : (s.setCore c x).streams = s.streams := rfl
@[simp] theorem replayer_setCore (c : Nat) (x : Core) : (s.setCore c x).replayer = s.replayer := rfl
@[simp] theorem belv_setCore (c : Nat) (x : Core) : (s.setCore c x).belv = s.belv := rfl
@[simp] theorem pools_setCore (c : Nat) (x : Core) : (s.setCore c x).pools = s.pools := rfl
@[simp] theorem dir_setCore (c : Nat) (x : Core) : (s.setCore c x).dir = s.dir := rfl
@[simp] theorem gate_setCore (c : Nat) (x : Core) : (s.setCore c x).gate = s.gate := rfl
@[simp] theorem aborted_setCore (c : Nat) (x : Core) : (s.setCore c x).aborted = s.aborted := rfl
@[simp] theorem posts_setCore (c : Nat) (x : Core) : (s.setCore c x).posts = s.posts := rfl

/-! ## setPav -/

@[simp] theorem pending_setPav (p : Nat) (x : Pav) : (s.setPav p x).pending = s.pending := rfl
@[simp] theorem answer_setPav (p : Nat) (x : Pav) : (s.setPav p x).answer = s.answer := rfl
@[simp] theorem draws_setPav (p : Nat) (x : Pav) : (s.setPav p x).draws = s.draws := rfl
@[simp] theorem order_setPav (p : Nat) (x : Pav) : (s.setPav p x).order = s.order := rfl
@[simp] theorem fuse_setPav (p : Nat) (x : Pav) : (s.setPav p x).fuse = s.fuse := rfl
@[simp] theorem time_setPav (p : Nat) (x : Pav) : (s.setPav p x).time = s.time := rfl
@[simp] theorem regs_setPav (p : Nat) (x : Pav) : (s.setPav p x).regs = s.regs := rfl
@[simp] theorem cores_setPav (p : Nat) (x : Pav) : (s.setPav p x).cores = s.cores := rfl
@[simp] theorem strands_setPav (p : Nat) (x : Pav) : (s.setPav p x).strands = s.strands := rfl
@[simp] theorem beds_setPav (p : Nat) (x : Pav) : (s.setPav p x).beds = s.beds := rfl
@[simp] theorem tcache_setPav (p : Nat) (x : Pav) : (s.setPav p x).tcache = s.tcache := rfl
@[simp] theorem windows_setPav (p : Nat) (x : Pav) : (s.setPav p x).windows = s.windows := rfl
@[simp] theorem fns_setPav (p : Nat) (x : Pav) : (s.setPav p x).fns = s.fns := rfl
@[simp] theorem orphans_setPav (p : Nat) (x : Pav) : (s.setPav p x).orphans = s.orphans := rfl
@[simp] theorem host_setPav (p : Nat) (x : Pav) : (s.setPav p x).host = s.host := rfl
@[simp] theorem irqs_setPav (p : Nat) (x : Pav) : (s.setPav p x).irqs = s.irqs := rfl
@[simp] theorem apply_setPav (p : Nat) (x : Pav) : (s.setPav p x).apply = s.apply := rfl
@[simp] theorem net_setPav (p : Nat) (x : Pav) : (s.setPav p x).net = s.net := rfl
@[simp] theorem invals_setPav (p : Nat) (x : Pav) : (s.setPav p x).invals = s.invals := rfl
@[simp] theorem transfers_setPav (p : Nat) (x : Pav) : (s.setPav p x).transfers = s.transfers := rfl
@[simp] theorem unseals_setPav (p : Nat) (x : Pav) : (s.setPav p x).unseals = s.unseals := rfl
@[simp] theorem boot_setPav (p : Nat) (x : Pav) : (s.setPav p x).boot = s.boot := rfl
@[simp] theorem fw_setPav (p : Nat) (x : Pav) : (s.setPav p x).fw = s.fw := rfl
@[simp] theorem cp_setPav (p : Nat) (x : Pav) : (s.setPav p x).cp = s.cp := rfl
@[simp] theorem bindSets_setPav (p : Nat) (x : Pav) : (s.setPav p x).bindSets = s.bindSets := rfl
@[simp] theorem sparing_setPav (p : Nat) (x : Pav) : (s.setPav p x).sparing = s.sparing := rfl
@[simp] theorem power_setPav (p : Nat) (x : Pav) : (s.setPav p x).power = s.power := rfl
@[simp] theorem cause_setPav (p : Nat) (x : Pav) : (s.setPav p x).cause = s.cause := rfl
@[simp] theorem ports_setPav (p : Nat) (x : Pav) : (s.setPav p x).ports = s.ports := rfl
@[simp] theorem links_setPav (p : Nat) (x : Pav) : (s.setPav p x).links = s.links := rfl
@[simp] theorem streams_setPav (p : Nat) (x : Pav) : (s.setPav p x).streams = s.streams := rfl
@[simp] theorem replayer_setPav (p : Nat) (x : Pav) : (s.setPav p x).replayer = s.replayer := rfl
@[simp] theorem belv_setPav (p : Nat) (x : Pav) : (s.setPav p x).belv = s.belv := rfl
@[simp] theorem pools_setPav (p : Nat) (x : Pav) : (s.setPav p x).pools = s.pools := rfl
@[simp] theorem dir_setPav (p : Nat) (x : Pav) : (s.setPav p x).dir = s.dir := rfl
@[simp] theorem gate_setPav (p : Nat) (x : Pav) : (s.setPav p x).gate = s.gate := rfl
@[simp] theorem aborted_setPav (p : Nat) (x : Pav) : (s.setPav p x).aborted = s.aborted := rfl
@[simp] theorem posts_setPav (p : Nat) (x : Pav) : (s.setPav p x).posts = s.posts := rfl

/-! ## setFn -/

@[simp] theorem pending_setFn (f : Nat) (x : Fn) : (s.setFn f x).pending = s.pending := rfl
@[simp] theorem answer_setFn (f : Nat) (x : Fn) : (s.setFn f x).answer = s.answer := rfl
@[simp] theorem draws_setFn (f : Nat) (x : Fn) : (s.setFn f x).draws = s.draws := rfl
@[simp] theorem order_setFn (f : Nat) (x : Fn) : (s.setFn f x).order = s.order := rfl
@[simp] theorem fuse_setFn (f : Nat) (x : Fn) : (s.setFn f x).fuse = s.fuse := rfl
@[simp] theorem time_setFn (f : Nat) (x : Fn) : (s.setFn f x).time = s.time := rfl
@[simp] theorem regs_setFn (f : Nat) (x : Fn) : (s.setFn f x).regs = s.regs := rfl
@[simp] theorem cores_setFn (f : Nat) (x : Fn) : (s.setFn f x).cores = s.cores := rfl
@[simp] theorem strands_setFn (f : Nat) (x : Fn) : (s.setFn f x).strands = s.strands := rfl
@[simp] theorem beds_setFn (f : Nat) (x : Fn) : (s.setFn f x).beds = s.beds := rfl
@[simp] theorem tcache_setFn (f : Nat) (x : Fn) : (s.setFn f x).tcache = s.tcache := rfl
@[simp] theorem windows_setFn (f : Nat) (x : Fn) : (s.setFn f x).windows = s.windows := rfl
@[simp] theorem pavs_setFn (f : Nat) (x : Fn) : (s.setFn f x).pavs = s.pavs := rfl
@[simp] theorem orphans_setFn (f : Nat) (x : Fn) : (s.setFn f x).orphans = s.orphans := rfl
@[simp] theorem host_setFn (f : Nat) (x : Fn) : (s.setFn f x).host = s.host := rfl
@[simp] theorem irqs_setFn (f : Nat) (x : Fn) : (s.setFn f x).irqs = s.irqs := rfl
@[simp] theorem apply_setFn (f : Nat) (x : Fn) : (s.setFn f x).apply = s.apply := rfl
@[simp] theorem net_setFn (f : Nat) (x : Fn) : (s.setFn f x).net = s.net := rfl
@[simp] theorem invals_setFn (f : Nat) (x : Fn) : (s.setFn f x).invals = s.invals := rfl
@[simp] theorem transfers_setFn (f : Nat) (x : Fn) : (s.setFn f x).transfers = s.transfers := rfl
@[simp] theorem unseals_setFn (f : Nat) (x : Fn) : (s.setFn f x).unseals = s.unseals := rfl
@[simp] theorem boot_setFn (f : Nat) (x : Fn) : (s.setFn f x).boot = s.boot := rfl
@[simp] theorem fw_setFn (f : Nat) (x : Fn) : (s.setFn f x).fw = s.fw := rfl
@[simp] theorem cp_setFn (f : Nat) (x : Fn) : (s.setFn f x).cp = s.cp := rfl
@[simp] theorem bindSets_setFn (f : Nat) (x : Fn) : (s.setFn f x).bindSets = s.bindSets := rfl
@[simp] theorem sparing_setFn (f : Nat) (x : Fn) : (s.setFn f x).sparing = s.sparing := rfl
@[simp] theorem power_setFn (f : Nat) (x : Fn) : (s.setFn f x).power = s.power := rfl
@[simp] theorem cause_setFn (f : Nat) (x : Fn) : (s.setFn f x).cause = s.cause := rfl
@[simp] theorem ports_setFn (f : Nat) (x : Fn) : (s.setFn f x).ports = s.ports := rfl
@[simp] theorem links_setFn (f : Nat) (x : Fn) : (s.setFn f x).links = s.links := rfl
@[simp] theorem streams_setFn (f : Nat) (x : Fn) : (s.setFn f x).streams = s.streams := rfl
@[simp] theorem replayer_setFn (f : Nat) (x : Fn) : (s.setFn f x).replayer = s.replayer := rfl
@[simp] theorem belv_setFn (f : Nat) (x : Fn) : (s.setFn f x).belv = s.belv := rfl
@[simp] theorem pools_setFn (f : Nat) (x : Fn) : (s.setFn f x).pools = s.pools := rfl
@[simp] theorem dir_setFn (f : Nat) (x : Fn) : (s.setFn f x).dir = s.dir := rfl
@[simp] theorem gate_setFn (f : Nat) (x : Fn) : (s.setFn f x).gate = s.gate := rfl
@[simp] theorem aborted_setFn (f : Nat) (x : Fn) : (s.setFn f x).aborted = s.aborted := rfl
@[simp] theorem posts_setFn (f : Nat) (x : Fn) : (s.setFn f x).posts = s.posts := rfl

/-! ## setChannel -/

@[simp] theorem pending_setChannel (q : Nat) (x : Channel) : (s.setChannel q x).pending = s.pending := rfl
@[simp] theorem answer_setChannel (q : Nat) (x : Channel) : (s.setChannel q x).answer = s.answer := rfl
@[simp] theorem draws_setChannel (q : Nat) (x : Channel) : (s.setChannel q x).draws = s.draws := rfl
@[simp] theorem order_setChannel (q : Nat) (x : Channel) : (s.setChannel q x).order = s.order := rfl
@[simp] theorem fuse_setChannel (q : Nat) (x : Channel) : (s.setChannel q x).fuse = s.fuse := rfl
@[simp] theorem time_setChannel (q : Nat) (x : Channel) : (s.setChannel q x).time = s.time := rfl
@[simp] theorem regs_setChannel (q : Nat) (x : Channel) : (s.setChannel q x).regs = s.regs := rfl
@[simp] theorem cores_setChannel (q : Nat) (x : Channel) : (s.setChannel q x).cores = s.cores := rfl
@[simp] theorem strands_setChannel (q : Nat) (x : Channel) : (s.setChannel q x).strands = s.strands := rfl
@[simp] theorem tcache_setChannel (q : Nat) (x : Channel) : (s.setChannel q x).tcache = s.tcache := rfl
@[simp] theorem windows_setChannel (q : Nat) (x : Channel) : (s.setChannel q x).windows = s.windows := rfl
@[simp] theorem pavs_setChannel (q : Nat) (x : Channel) : (s.setChannel q x).pavs = s.pavs := rfl
@[simp] theorem fns_setChannel (q : Nat) (x : Channel) : (s.setChannel q x).fns = s.fns := rfl
@[simp] theorem orphans_setChannel (q : Nat) (x : Channel) : (s.setChannel q x).orphans = s.orphans := rfl
@[simp] theorem host_setChannel (q : Nat) (x : Channel) : (s.setChannel q x).host = s.host := rfl
@[simp] theorem irqs_setChannel (q : Nat) (x : Channel) : (s.setChannel q x).irqs = s.irqs := rfl
@[simp] theorem apply_setChannel (q : Nat) (x : Channel) : (s.setChannel q x).apply = s.apply := rfl
@[simp] theorem net_setChannel (q : Nat) (x : Channel) : (s.setChannel q x).net = s.net := rfl
@[simp] theorem invals_setChannel (q : Nat) (x : Channel) : (s.setChannel q x).invals = s.invals := rfl
@[simp] theorem transfers_setChannel (q : Nat) (x : Channel) : (s.setChannel q x).transfers = s.transfers := rfl
@[simp] theorem unseals_setChannel (q : Nat) (x : Channel) : (s.setChannel q x).unseals = s.unseals := rfl
@[simp] theorem boot_setChannel (q : Nat) (x : Channel) : (s.setChannel q x).boot = s.boot := rfl
@[simp] theorem fw_setChannel (q : Nat) (x : Channel) : (s.setChannel q x).fw = s.fw := rfl
@[simp] theorem cp_setChannel (q : Nat) (x : Channel) : (s.setChannel q x).cp = s.cp := rfl
@[simp] theorem bindSets_setChannel (q : Nat) (x : Channel) : (s.setChannel q x).bindSets = s.bindSets := rfl
@[simp] theorem sparing_setChannel (q : Nat) (x : Channel) : (s.setChannel q x).sparing = s.sparing := rfl
@[simp] theorem power_setChannel (q : Nat) (x : Channel) : (s.setChannel q x).power = s.power := rfl
@[simp] theorem cause_setChannel (q : Nat) (x : Channel) : (s.setChannel q x).cause = s.cause := rfl
@[simp] theorem ports_setChannel (q : Nat) (x : Channel) : (s.setChannel q x).ports = s.ports := rfl
@[simp] theorem links_setChannel (q : Nat) (x : Channel) : (s.setChannel q x).links = s.links := rfl
@[simp] theorem streams_setChannel (q : Nat) (x : Channel) : (s.setChannel q x).streams = s.streams := rfl
@[simp] theorem replayer_setChannel (q : Nat) (x : Channel) : (s.setChannel q x).replayer = s.replayer := rfl
@[simp] theorem belv_setChannel (q : Nat) (x : Channel) : (s.setChannel q x).belv = s.belv := rfl
@[simp] theorem pools_setChannel (q : Nat) (x : Channel) : (s.setChannel q x).pools = s.pools := rfl
@[simp] theorem dir_setChannel (q : Nat) (x : Channel) : (s.setChannel q x).dir = s.dir := rfl
@[simp] theorem gate_setChannel (q : Nat) (x : Channel) : (s.setChannel q x).gate = s.gate := rfl
@[simp] theorem aborted_setChannel (q : Nat) (x : Channel) : (s.setChannel q x).aborted = s.aborted := rfl
@[simp] theorem posts_setChannel (q : Nat) (x : Channel) : (s.setChannel q x).posts = s.posts := rfl

/-! ## setPort -/

@[simp] theorem pending_setPort (p : Nat) (x : Port) : (s.setPort p x).pending = s.pending := rfl
@[simp] theorem answer_setPort (p : Nat) (x : Port) : (s.setPort p x).answer = s.answer := rfl
@[simp] theorem draws_setPort (p : Nat) (x : Port) : (s.setPort p x).draws = s.draws := rfl
@[simp] theorem order_setPort (p : Nat) (x : Port) : (s.setPort p x).order = s.order := rfl
@[simp] theorem fuse_setPort (p : Nat) (x : Port) : (s.setPort p x).fuse = s.fuse := rfl
@[simp] theorem time_setPort (p : Nat) (x : Port) : (s.setPort p x).time = s.time := rfl
@[simp] theorem regs_setPort (p : Nat) (x : Port) : (s.setPort p x).regs = s.regs := rfl
@[simp] theorem cores_setPort (p : Nat) (x : Port) : (s.setPort p x).cores = s.cores := rfl
@[simp] theorem strands_setPort (p : Nat) (x : Port) : (s.setPort p x).strands = s.strands := rfl
@[simp] theorem beds_setPort (p : Nat) (x : Port) : (s.setPort p x).beds = s.beds := rfl
@[simp] theorem tcache_setPort (p : Nat) (x : Port) : (s.setPort p x).tcache = s.tcache := rfl
@[simp] theorem windows_setPort (p : Nat) (x : Port) : (s.setPort p x).windows = s.windows := rfl
@[simp] theorem pavs_setPort (p : Nat) (x : Port) : (s.setPort p x).pavs = s.pavs := rfl
@[simp] theorem fns_setPort (p : Nat) (x : Port) : (s.setPort p x).fns = s.fns := rfl
@[simp] theorem orphans_setPort (p : Nat) (x : Port) : (s.setPort p x).orphans = s.orphans := rfl
@[simp] theorem host_setPort (p : Nat) (x : Port) : (s.setPort p x).host = s.host := rfl
@[simp] theorem irqs_setPort (p : Nat) (x : Port) : (s.setPort p x).irqs = s.irqs := rfl
@[simp] theorem apply_setPort (p : Nat) (x : Port) : (s.setPort p x).apply = s.apply := rfl
@[simp] theorem net_setPort (p : Nat) (x : Port) : (s.setPort p x).net = s.net := rfl
@[simp] theorem invals_setPort (p : Nat) (x : Port) : (s.setPort p x).invals = s.invals := rfl
@[simp] theorem transfers_setPort (p : Nat) (x : Port) : (s.setPort p x).transfers = s.transfers := rfl
@[simp] theorem unseals_setPort (p : Nat) (x : Port) : (s.setPort p x).unseals = s.unseals := rfl
@[simp] theorem boot_setPort (p : Nat) (x : Port) : (s.setPort p x).boot = s.boot := rfl
@[simp] theorem fw_setPort (p : Nat) (x : Port) : (s.setPort p x).fw = s.fw := rfl
@[simp] theorem cp_setPort (p : Nat) (x : Port) : (s.setPort p x).cp = s.cp := rfl
@[simp] theorem bindSets_setPort (p : Nat) (x : Port) : (s.setPort p x).bindSets = s.bindSets := rfl
@[simp] theorem sparing_setPort (p : Nat) (x : Port) : (s.setPort p x).sparing = s.sparing := rfl
@[simp] theorem power_setPort (p : Nat) (x : Port) : (s.setPort p x).power = s.power := rfl
@[simp] theorem cause_setPort (p : Nat) (x : Port) : (s.setPort p x).cause = s.cause := rfl
@[simp] theorem links_setPort (p : Nat) (x : Port) : (s.setPort p x).links = s.links := rfl
@[simp] theorem streams_setPort (p : Nat) (x : Port) : (s.setPort p x).streams = s.streams := rfl
@[simp] theorem replayer_setPort (p : Nat) (x : Port) : (s.setPort p x).replayer = s.replayer := rfl
@[simp] theorem belv_setPort (p : Nat) (x : Port) : (s.setPort p x).belv = s.belv := rfl
@[simp] theorem pools_setPort (p : Nat) (x : Port) : (s.setPort p x).pools = s.pools := rfl
@[simp] theorem dir_setPort (p : Nat) (x : Port) : (s.setPort p x).dir = s.dir := rfl
@[simp] theorem gate_setPort (p : Nat) (x : Port) : (s.setPort p x).gate = s.gate := rfl
@[simp] theorem aborted_setPort (p : Nat) (x : Port) : (s.setPort p x).aborted = s.aborted := rfl
@[simp] theorem posts_setPort (p : Nat) (x : Port) : (s.setPort p x).posts = s.posts := rfl

/-! ## setStream -/

@[simp] theorem pending_setStream (p i : Nat) (x : Stream) : (s.setStream p i x).pending = s.pending := rfl
@[simp] theorem answer_setStream (p i : Nat) (x : Stream) : (s.setStream p i x).answer = s.answer := rfl
@[simp] theorem draws_setStream (p i : Nat) (x : Stream) : (s.setStream p i x).draws = s.draws := rfl
@[simp] theorem order_setStream (p i : Nat) (x : Stream) : (s.setStream p i x).order = s.order := rfl
@[simp] theorem fuse_setStream (p i : Nat) (x : Stream) : (s.setStream p i x).fuse = s.fuse := rfl
@[simp] theorem time_setStream (p i : Nat) (x : Stream) : (s.setStream p i x).time = s.time := rfl
@[simp] theorem regs_setStream (p i : Nat) (x : Stream) : (s.setStream p i x).regs = s.regs := rfl
@[simp] theorem cores_setStream (p i : Nat) (x : Stream) : (s.setStream p i x).cores = s.cores := rfl
@[simp] theorem strands_setStream (p i : Nat) (x : Stream) : (s.setStream p i x).strands = s.strands := rfl
@[simp] theorem beds_setStream (p i : Nat) (x : Stream) : (s.setStream p i x).beds = s.beds := rfl
@[simp] theorem tcache_setStream (p i : Nat) (x : Stream) : (s.setStream p i x).tcache = s.tcache := rfl
@[simp] theorem windows_setStream (p i : Nat) (x : Stream) : (s.setStream p i x).windows = s.windows := rfl
@[simp] theorem pavs_setStream (p i : Nat) (x : Stream) : (s.setStream p i x).pavs = s.pavs := rfl
@[simp] theorem fns_setStream (p i : Nat) (x : Stream) : (s.setStream p i x).fns = s.fns := rfl
@[simp] theorem orphans_setStream (p i : Nat) (x : Stream) : (s.setStream p i x).orphans = s.orphans := rfl
@[simp] theorem host_setStream (p i : Nat) (x : Stream) : (s.setStream p i x).host = s.host := rfl
@[simp] theorem irqs_setStream (p i : Nat) (x : Stream) : (s.setStream p i x).irqs = s.irqs := rfl
@[simp] theorem apply_setStream (p i : Nat) (x : Stream) : (s.setStream p i x).apply = s.apply := rfl
@[simp] theorem net_setStream (p i : Nat) (x : Stream) : (s.setStream p i x).net = s.net := rfl
@[simp] theorem invals_setStream (p i : Nat) (x : Stream) : (s.setStream p i x).invals = s.invals := rfl
@[simp] theorem transfers_setStream (p i : Nat) (x : Stream) : (s.setStream p i x).transfers = s.transfers := rfl
@[simp] theorem unseals_setStream (p i : Nat) (x : Stream) : (s.setStream p i x).unseals = s.unseals := rfl
@[simp] theorem boot_setStream (p i : Nat) (x : Stream) : (s.setStream p i x).boot = s.boot := rfl
@[simp] theorem fw_setStream (p i : Nat) (x : Stream) : (s.setStream p i x).fw = s.fw := rfl
@[simp] theorem cp_setStream (p i : Nat) (x : Stream) : (s.setStream p i x).cp = s.cp := rfl
@[simp] theorem bindSets_setStream (p i : Nat) (x : Stream) : (s.setStream p i x).bindSets = s.bindSets := rfl
@[simp] theorem sparing_setStream (p i : Nat) (x : Stream) : (s.setStream p i x).sparing = s.sparing := rfl
@[simp] theorem power_setStream (p i : Nat) (x : Stream) : (s.setStream p i x).power = s.power := rfl
@[simp] theorem cause_setStream (p i : Nat) (x : Stream) : (s.setStream p i x).cause = s.cause := rfl
@[simp] theorem ports_setStream (p i : Nat) (x : Stream) : (s.setStream p i x).ports = s.ports := rfl
@[simp] theorem links_setStream (p i : Nat) (x : Stream) : (s.setStream p i x).links = s.links := rfl
@[simp] theorem replayer_setStream (p i : Nat) (x : Stream) : (s.setStream p i x).replayer = s.replayer := rfl
@[simp] theorem belv_setStream (p i : Nat) (x : Stream) : (s.setStream p i x).belv = s.belv := rfl
@[simp] theorem pools_setStream (p i : Nat) (x : Stream) : (s.setStream p i x).pools = s.pools := rfl
@[simp] theorem dir_setStream (p i : Nat) (x : Stream) : (s.setStream p i x).dir = s.dir := rfl
@[simp] theorem gate_setStream (p i : Nat) (x : Stream) : (s.setStream p i x).gate = s.gate := rfl
@[simp] theorem aborted_setStream (p i : Nat) (x : Stream) : (s.setStream p i x).aborted = s.aborted := rfl
@[simp] theorem posts_setStream (p i : Nat) (x : Stream) : (s.setStream p i x).posts = s.posts := rfl

/-! ## setHalf -/

@[simp] theorem pending_setHalf (h : Nat) (x : Half) : (s.setHalf h x).pending = s.pending := rfl
@[simp] theorem answer_setHalf (h : Nat) (x : Half) : (s.setHalf h x).answer = s.answer := rfl
@[simp] theorem draws_setHalf (h : Nat) (x : Half) : (s.setHalf h x).draws = s.draws := rfl
@[simp] theorem order_setHalf (h : Nat) (x : Half) : (s.setHalf h x).order = s.order := rfl
@[simp] theorem fuse_setHalf (h : Nat) (x : Half) : (s.setHalf h x).fuse = s.fuse := rfl
@[simp] theorem time_setHalf (h : Nat) (x : Half) : (s.setHalf h x).time = s.time := rfl
@[simp] theorem regs_setHalf (h : Nat) (x : Half) : (s.setHalf h x).regs = s.regs := rfl
@[simp] theorem cores_setHalf (h : Nat) (x : Half) : (s.setHalf h x).cores = s.cores := rfl
@[simp] theorem strands_setHalf (h : Nat) (x : Half) : (s.setHalf h x).strands = s.strands := rfl
@[simp] theorem beds_setHalf (h : Nat) (x : Half) : (s.setHalf h x).beds = s.beds := rfl
@[simp] theorem tcache_setHalf (h : Nat) (x : Half) : (s.setHalf h x).tcache = s.tcache := rfl
@[simp] theorem windows_setHalf (h : Nat) (x : Half) : (s.setHalf h x).windows = s.windows := rfl
@[simp] theorem pavs_setHalf (h : Nat) (x : Half) : (s.setHalf h x).pavs = s.pavs := rfl
@[simp] theorem fns_setHalf (h : Nat) (x : Half) : (s.setHalf h x).fns = s.fns := rfl
@[simp] theorem orphans_setHalf (h : Nat) (x : Half) : (s.setHalf h x).orphans = s.orphans := rfl
@[simp] theorem host_setHalf (h : Nat) (x : Half) : (s.setHalf h x).host = s.host := rfl
@[simp] theorem irqs_setHalf (h : Nat) (x : Half) : (s.setHalf h x).irqs = s.irqs := rfl
@[simp] theorem apply_setHalf (h : Nat) (x : Half) : (s.setHalf h x).apply = s.apply := rfl
@[simp] theorem net_setHalf (h : Nat) (x : Half) : (s.setHalf h x).net = s.net := rfl
@[simp] theorem invals_setHalf (h : Nat) (x : Half) : (s.setHalf h x).invals = s.invals := rfl
@[simp] theorem transfers_setHalf (h : Nat) (x : Half) : (s.setHalf h x).transfers = s.transfers := rfl
@[simp] theorem unseals_setHalf (h : Nat) (x : Half) : (s.setHalf h x).unseals = s.unseals := rfl
@[simp] theorem boot_setHalf (h : Nat) (x : Half) : (s.setHalf h x).boot = s.boot := rfl
@[simp] theorem fw_setHalf (h : Nat) (x : Half) : (s.setHalf h x).fw = s.fw := rfl
@[simp] theorem cp_setHalf (h : Nat) (x : Half) : (s.setHalf h x).cp = s.cp := rfl
@[simp] theorem bindSets_setHalf (h : Nat) (x : Half) : (s.setHalf h x).bindSets = s.bindSets := rfl
@[simp] theorem sparing_setHalf (h : Nat) (x : Half) : (s.setHalf h x).sparing = s.sparing := rfl
@[simp] theorem cause_setHalf (h : Nat) (x : Half) : (s.setHalf h x).cause = s.cause := rfl
@[simp] theorem ports_setHalf (h : Nat) (x : Half) : (s.setHalf h x).ports = s.ports := rfl
@[simp] theorem links_setHalf (h : Nat) (x : Half) : (s.setHalf h x).links = s.links := rfl
@[simp] theorem streams_setHalf (h : Nat) (x : Half) : (s.setHalf h x).streams = s.streams := rfl
@[simp] theorem replayer_setHalf (h : Nat) (x : Half) : (s.setHalf h x).replayer = s.replayer := rfl
@[simp] theorem belv_setHalf (h : Nat) (x : Half) : (s.setHalf h x).belv = s.belv := rfl
@[simp] theorem pools_setHalf (h : Nat) (x : Half) : (s.setHalf h x).pools = s.pools := rfl
@[simp] theorem dir_setHalf (h : Nat) (x : Half) : (s.setHalf h x).dir = s.dir := rfl
@[simp] theorem gate_setHalf (h : Nat) (x : Half) : (s.setHalf h x).gate = s.gate := rfl
@[simp] theorem aborted_setHalf (h : Nat) (x : Half) : (s.setHalf h x).aborted = s.aborted := rfl
@[simp] theorem posts_setHalf (h : Nat) (x : Half) : (s.setHalf h x).posts = s.posts := rfl

/-! ## modBeds -/

@[simp] theorem pending_modBeds (f : Beds → Beds) : (s.modBeds f).pending = s.pending := rfl
@[simp] theorem answer_modBeds (f : Beds → Beds) : (s.modBeds f).answer = s.answer := rfl
@[simp] theorem draws_modBeds (f : Beds → Beds) : (s.modBeds f).draws = s.draws := rfl
@[simp] theorem order_modBeds (f : Beds → Beds) : (s.modBeds f).order = s.order := rfl
@[simp] theorem fuse_modBeds (f : Beds → Beds) : (s.modBeds f).fuse = s.fuse := rfl
@[simp] theorem time_modBeds (f : Beds → Beds) : (s.modBeds f).time = s.time := rfl
@[simp] theorem regs_modBeds (f : Beds → Beds) : (s.modBeds f).regs = s.regs := rfl
@[simp] theorem cores_modBeds (f : Beds → Beds) : (s.modBeds f).cores = s.cores := rfl
@[simp] theorem strands_modBeds (f : Beds → Beds) : (s.modBeds f).strands = s.strands := rfl
@[simp] theorem tcache_modBeds (f : Beds → Beds) : (s.modBeds f).tcache = s.tcache := rfl
@[simp] theorem windows_modBeds (f : Beds → Beds) : (s.modBeds f).windows = s.windows := rfl
@[simp] theorem pavs_modBeds (f : Beds → Beds) : (s.modBeds f).pavs = s.pavs := rfl
@[simp] theorem fns_modBeds (f : Beds → Beds) : (s.modBeds f).fns = s.fns := rfl
@[simp] theorem orphans_modBeds (f : Beds → Beds) : (s.modBeds f).orphans = s.orphans := rfl
@[simp] theorem host_modBeds (f : Beds → Beds) : (s.modBeds f).host = s.host := rfl
@[simp] theorem irqs_modBeds (f : Beds → Beds) : (s.modBeds f).irqs = s.irqs := rfl
@[simp] theorem apply_modBeds (f : Beds → Beds) : (s.modBeds f).apply = s.apply := rfl
@[simp] theorem net_modBeds (f : Beds → Beds) : (s.modBeds f).net = s.net := rfl
@[simp] theorem invals_modBeds (f : Beds → Beds) : (s.modBeds f).invals = s.invals := rfl
@[simp] theorem transfers_modBeds (f : Beds → Beds) : (s.modBeds f).transfers = s.transfers := rfl
@[simp] theorem unseals_modBeds (f : Beds → Beds) : (s.modBeds f).unseals = s.unseals := rfl
@[simp] theorem boot_modBeds (f : Beds → Beds) : (s.modBeds f).boot = s.boot := rfl
@[simp] theorem fw_modBeds (f : Beds → Beds) : (s.modBeds f).fw = s.fw := rfl
@[simp] theorem cp_modBeds (f : Beds → Beds) : (s.modBeds f).cp = s.cp := rfl
@[simp] theorem bindSets_modBeds (f : Beds → Beds) : (s.modBeds f).bindSets = s.bindSets := rfl
@[simp] theorem sparing_modBeds (f : Beds → Beds) : (s.modBeds f).sparing = s.sparing := rfl
@[simp] theorem power_modBeds (f : Beds → Beds) : (s.modBeds f).power = s.power := rfl
@[simp] theorem cause_modBeds (f : Beds → Beds) : (s.modBeds f).cause = s.cause := rfl
@[simp] theorem ports_modBeds (f : Beds → Beds) : (s.modBeds f).ports = s.ports := rfl
@[simp] theorem links_modBeds (f : Beds → Beds) : (s.modBeds f).links = s.links := rfl
@[simp] theorem streams_modBeds (f : Beds → Beds) : (s.modBeds f).streams = s.streams := rfl
@[simp] theorem replayer_modBeds (f : Beds → Beds) : (s.modBeds f).replayer = s.replayer := rfl
@[simp] theorem belv_modBeds (f : Beds → Beds) : (s.modBeds f).belv = s.belv := rfl
@[simp] theorem pools_modBeds (f : Beds → Beds) : (s.modBeds f).pools = s.pools := rfl
@[simp] theorem dir_modBeds (f : Beds → Beds) : (s.modBeds f).dir = s.dir := rfl
@[simp] theorem gate_modBeds (f : Beds → Beds) : (s.modBeds f).gate = s.gate := rfl
@[simp] theorem aborted_modBeds (f : Beds → Beds) : (s.modBeds f).aborted = s.aborted := rfl
@[simp] theorem posts_modBeds (f : Beds → Beds) : (s.modBeds f).posts = s.posts := rfl

/-! ## modRegs -/

@[simp] theorem pending_modRegs (f : Regs → Regs) : (s.modRegs f).pending = s.pending := rfl
@[simp] theorem answer_modRegs (f : Regs → Regs) : (s.modRegs f).answer = s.answer := rfl
@[simp] theorem draws_modRegs (f : Regs → Regs) : (s.modRegs f).draws = s.draws := rfl
@[simp] theorem order_modRegs (f : Regs → Regs) : (s.modRegs f).order = s.order := rfl
@[simp] theorem fuse_modRegs (f : Regs → Regs) : (s.modRegs f).fuse = s.fuse := rfl
@[simp] theorem time_modRegs (f : Regs → Regs) : (s.modRegs f).time = s.time := rfl
@[simp] theorem cores_modRegs (f : Regs → Regs) : (s.modRegs f).cores = s.cores := rfl
@[simp] theorem strands_modRegs (f : Regs → Regs) : (s.modRegs f).strands = s.strands := rfl
@[simp] theorem beds_modRegs (f : Regs → Regs) : (s.modRegs f).beds = s.beds := rfl
@[simp] theorem tcache_modRegs (f : Regs → Regs) : (s.modRegs f).tcache = s.tcache := rfl
@[simp] theorem windows_modRegs (f : Regs → Regs) : (s.modRegs f).windows = s.windows := rfl
@[simp] theorem pavs_modRegs (f : Regs → Regs) : (s.modRegs f).pavs = s.pavs := rfl
@[simp] theorem fns_modRegs (f : Regs → Regs) : (s.modRegs f).fns = s.fns := rfl
@[simp] theorem orphans_modRegs (f : Regs → Regs) : (s.modRegs f).orphans = s.orphans := rfl
@[simp] theorem host_modRegs (f : Regs → Regs) : (s.modRegs f).host = s.host := rfl
@[simp] theorem irqs_modRegs (f : Regs → Regs) : (s.modRegs f).irqs = s.irqs := rfl
@[simp] theorem apply_modRegs (f : Regs → Regs) : (s.modRegs f).apply = s.apply := rfl
@[simp] theorem net_modRegs (f : Regs → Regs) : (s.modRegs f).net = s.net := rfl
@[simp] theorem invals_modRegs (f : Regs → Regs) : (s.modRegs f).invals = s.invals := rfl
@[simp] theorem transfers_modRegs (f : Regs → Regs) : (s.modRegs f).transfers = s.transfers := rfl
@[simp] theorem unseals_modRegs (f : Regs → Regs) : (s.modRegs f).unseals = s.unseals := rfl
@[simp] theorem boot_modRegs (f : Regs → Regs) : (s.modRegs f).boot = s.boot := rfl
@[simp] theorem fw_modRegs (f : Regs → Regs) : (s.modRegs f).fw = s.fw := rfl
@[simp] theorem cp_modRegs (f : Regs → Regs) : (s.modRegs f).cp = s.cp := rfl
@[simp] theorem bindSets_modRegs (f : Regs → Regs) : (s.modRegs f).bindSets = s.bindSets := rfl
@[simp] theorem sparing_modRegs (f : Regs → Regs) : (s.modRegs f).sparing = s.sparing := rfl
@[simp] theorem power_modRegs (f : Regs → Regs) : (s.modRegs f).power = s.power := rfl
@[simp] theorem cause_modRegs (f : Regs → Regs) : (s.modRegs f).cause = s.cause := rfl
@[simp] theorem ports_modRegs (f : Regs → Regs) : (s.modRegs f).ports = s.ports := rfl
@[simp] theorem links_modRegs (f : Regs → Regs) : (s.modRegs f).links = s.links := rfl
@[simp] theorem streams_modRegs (f : Regs → Regs) : (s.modRegs f).streams = s.streams := rfl
@[simp] theorem replayer_modRegs (f : Regs → Regs) : (s.modRegs f).replayer = s.replayer := rfl
@[simp] theorem belv_modRegs (f : Regs → Regs) : (s.modRegs f).belv = s.belv := rfl
@[simp] theorem pools_modRegs (f : Regs → Regs) : (s.modRegs f).pools = s.pools := rfl
@[simp] theorem dir_modRegs (f : Regs → Regs) : (s.modRegs f).dir = s.dir := rfl
@[simp] theorem gate_modRegs (f : Regs → Regs) : (s.modRegs f).gate = s.gate := rfl
@[simp] theorem aborted_modRegs (f : Regs → Regs) : (s.modRegs f).aborted = s.aborted := rfl
@[simp] theorem posts_modRegs (f : Regs → Regs) : (s.modRegs f).posts = s.posts := rfl

/-! ## modNet -/

@[simp] theorem pending_modNet (f : Net → Net) : (s.modNet f).pending = s.pending := rfl
@[simp] theorem answer_modNet (f : Net → Net) : (s.modNet f).answer = s.answer := rfl
@[simp] theorem draws_modNet (f : Net → Net) : (s.modNet f).draws = s.draws := rfl
@[simp] theorem order_modNet (f : Net → Net) : (s.modNet f).order = s.order := rfl
@[simp] theorem fuse_modNet (f : Net → Net) : (s.modNet f).fuse = s.fuse := rfl
@[simp] theorem time_modNet (f : Net → Net) : (s.modNet f).time = s.time := rfl
@[simp] theorem regs_modNet (f : Net → Net) : (s.modNet f).regs = s.regs := rfl
@[simp] theorem cores_modNet (f : Net → Net) : (s.modNet f).cores = s.cores := rfl
@[simp] theorem strands_modNet (f : Net → Net) : (s.modNet f).strands = s.strands := rfl
@[simp] theorem beds_modNet (f : Net → Net) : (s.modNet f).beds = s.beds := rfl
@[simp] theorem tcache_modNet (f : Net → Net) : (s.modNet f).tcache = s.tcache := rfl
@[simp] theorem windows_modNet (f : Net → Net) : (s.modNet f).windows = s.windows := rfl
@[simp] theorem pavs_modNet (f : Net → Net) : (s.modNet f).pavs = s.pavs := rfl
@[simp] theorem fns_modNet (f : Net → Net) : (s.modNet f).fns = s.fns := rfl
@[simp] theorem orphans_modNet (f : Net → Net) : (s.modNet f).orphans = s.orphans := rfl
@[simp] theorem host_modNet (f : Net → Net) : (s.modNet f).host = s.host := rfl
@[simp] theorem irqs_modNet (f : Net → Net) : (s.modNet f).irqs = s.irqs := rfl
@[simp] theorem apply_modNet (f : Net → Net) : (s.modNet f).apply = s.apply := rfl
@[simp] theorem invals_modNet (f : Net → Net) : (s.modNet f).invals = s.invals := rfl
@[simp] theorem transfers_modNet (f : Net → Net) : (s.modNet f).transfers = s.transfers := rfl
@[simp] theorem unseals_modNet (f : Net → Net) : (s.modNet f).unseals = s.unseals := rfl
@[simp] theorem boot_modNet (f : Net → Net) : (s.modNet f).boot = s.boot := rfl
@[simp] theorem fw_modNet (f : Net → Net) : (s.modNet f).fw = s.fw := rfl
@[simp] theorem cp_modNet (f : Net → Net) : (s.modNet f).cp = s.cp := rfl
@[simp] theorem bindSets_modNet (f : Net → Net) : (s.modNet f).bindSets = s.bindSets := rfl
@[simp] theorem sparing_modNet (f : Net → Net) : (s.modNet f).sparing = s.sparing := rfl
@[simp] theorem power_modNet (f : Net → Net) : (s.modNet f).power = s.power := rfl
@[simp] theorem cause_modNet (f : Net → Net) : (s.modNet f).cause = s.cause := rfl
@[simp] theorem ports_modNet (f : Net → Net) : (s.modNet f).ports = s.ports := rfl
@[simp] theorem links_modNet (f : Net → Net) : (s.modNet f).links = s.links := rfl
@[simp] theorem streams_modNet (f : Net → Net) : (s.modNet f).streams = s.streams := rfl
@[simp] theorem replayer_modNet (f : Net → Net) : (s.modNet f).replayer = s.replayer := rfl
@[simp] theorem belv_modNet (f : Net → Net) : (s.modNet f).belv = s.belv := rfl
@[simp] theorem pools_modNet (f : Net → Net) : (s.modNet f).pools = s.pools := rfl
@[simp] theorem dir_modNet (f : Net → Net) : (s.modNet f).dir = s.dir := rfl
@[simp] theorem gate_modNet (f : Net → Net) : (s.modNet f).gate = s.gate := rfl
@[simp] theorem aborted_modNet (f : Net → Net) : (s.modNet f).aborted = s.aborted := rfl
@[simp] theorem posts_modNet (f : Net → Net) : (s.modNet f).posts = s.posts := rfl

/-! ## modGate -/

@[simp] theorem pending_modGate (f : Gate → Gate) : (s.modGate f).pending = s.pending := rfl
@[simp] theorem answer_modGate (f : Gate → Gate) : (s.modGate f).answer = s.answer := rfl
@[simp] theorem draws_modGate (f : Gate → Gate) : (s.modGate f).draws = s.draws := rfl
@[simp] theorem order_modGate (f : Gate → Gate) : (s.modGate f).order = s.order := rfl
@[simp] theorem fuse_modGate (f : Gate → Gate) : (s.modGate f).fuse = s.fuse := rfl
@[simp] theorem time_modGate (f : Gate → Gate) : (s.modGate f).time = s.time := rfl
@[simp] theorem regs_modGate (f : Gate → Gate) : (s.modGate f).regs = s.regs := rfl
@[simp] theorem cores_modGate (f : Gate → Gate) : (s.modGate f).cores = s.cores := rfl
@[simp] theorem strands_modGate (f : Gate → Gate) : (s.modGate f).strands = s.strands := rfl
@[simp] theorem beds_modGate (f : Gate → Gate) : (s.modGate f).beds = s.beds := rfl
@[simp] theorem tcache_modGate (f : Gate → Gate) : (s.modGate f).tcache = s.tcache := rfl
@[simp] theorem windows_modGate (f : Gate → Gate) : (s.modGate f).windows = s.windows := rfl
@[simp] theorem pavs_modGate (f : Gate → Gate) : (s.modGate f).pavs = s.pavs := rfl
@[simp] theorem fns_modGate (f : Gate → Gate) : (s.modGate f).fns = s.fns := rfl
@[simp] theorem orphans_modGate (f : Gate → Gate) : (s.modGate f).orphans = s.orphans := rfl
@[simp] theorem host_modGate (f : Gate → Gate) : (s.modGate f).host = s.host := rfl
@[simp] theorem irqs_modGate (f : Gate → Gate) : (s.modGate f).irqs = s.irqs := rfl
@[simp] theorem apply_modGate (f : Gate → Gate) : (s.modGate f).apply = s.apply := rfl
@[simp] theorem net_modGate (f : Gate → Gate) : (s.modGate f).net = s.net := rfl
@[simp] theorem invals_modGate (f : Gate → Gate) : (s.modGate f).invals = s.invals := rfl
@[simp] theorem transfers_modGate (f : Gate → Gate) : (s.modGate f).transfers = s.transfers := rfl
@[simp] theorem unseals_modGate (f : Gate → Gate) : (s.modGate f).unseals = s.unseals := rfl
@[simp] theorem boot_modGate (f : Gate → Gate) : (s.modGate f).boot = s.boot := rfl
@[simp] theorem fw_modGate (f : Gate → Gate) : (s.modGate f).fw = s.fw := rfl
@[simp] theorem cp_modGate (f : Gate → Gate) : (s.modGate f).cp = s.cp := rfl
@[simp] theorem bindSets_modGate (f : Gate → Gate) : (s.modGate f).bindSets = s.bindSets := rfl
@[simp] theorem sparing_modGate (f : Gate → Gate) : (s.modGate f).sparing = s.sparing := rfl
@[simp] theorem power_modGate (f : Gate → Gate) : (s.modGate f).power = s.power := rfl
@[simp] theorem cause_modGate (f : Gate → Gate) : (s.modGate f).cause = s.cause := rfl
@[simp] theorem ports_modGate (f : Gate → Gate) : (s.modGate f).ports = s.ports := rfl
@[simp] theorem links_modGate (f : Gate → Gate) : (s.modGate f).links = s.links := rfl
@[simp] theorem streams_modGate (f : Gate → Gate) : (s.modGate f).streams = s.streams := rfl
@[simp] theorem replayer_modGate (f : Gate → Gate) : (s.modGate f).replayer = s.replayer := rfl
@[simp] theorem belv_modGate (f : Gate → Gate) : (s.modGate f).belv = s.belv := rfl
@[simp] theorem pools_modGate (f : Gate → Gate) : (s.modGate f).pools = s.pools := rfl
@[simp] theorem dir_modGate (f : Gate → Gate) : (s.modGate f).dir = s.dir := rfl
@[simp] theorem aborted_modGate (f : Gate → Gate) : (s.modGate f).aborted = s.aborted := rfl
@[simp] theorem posts_modGate (f : Gate → Gate) : (s.modGate f).posts = s.posts := rfl

/-! ## modDir -/

@[simp] theorem pending_modDir (f : Dir → Dir) : (s.modDir f).pending = s.pending := rfl
@[simp] theorem answer_modDir (f : Dir → Dir) : (s.modDir f).answer = s.answer := rfl
@[simp] theorem draws_modDir (f : Dir → Dir) : (s.modDir f).draws = s.draws := rfl
@[simp] theorem order_modDir (f : Dir → Dir) : (s.modDir f).order = s.order := rfl
@[simp] theorem fuse_modDir (f : Dir → Dir) : (s.modDir f).fuse = s.fuse := rfl
@[simp] theorem time_modDir (f : Dir → Dir) : (s.modDir f).time = s.time := rfl
@[simp] theorem regs_modDir (f : Dir → Dir) : (s.modDir f).regs = s.regs := rfl
@[simp] theorem cores_modDir (f : Dir → Dir) : (s.modDir f).cores = s.cores := rfl
@[simp] theorem strands_modDir (f : Dir → Dir) : (s.modDir f).strands = s.strands := rfl
@[simp] theorem beds_modDir (f : Dir → Dir) : (s.modDir f).beds = s.beds := rfl
@[simp] theorem tcache_modDir (f : Dir → Dir) : (s.modDir f).tcache = s.tcache := rfl
@[simp] theorem windows_modDir (f : Dir → Dir) : (s.modDir f).windows = s.windows := rfl
@[simp] theorem pavs_modDir (f : Dir → Dir) : (s.modDir f).pavs = s.pavs := rfl
@[simp] theorem fns_modDir (f : Dir → Dir) : (s.modDir f).fns = s.fns := rfl
@[simp] theorem orphans_modDir (f : Dir → Dir) : (s.modDir f).orphans = s.orphans := rfl
@[simp] theorem host_modDir (f : Dir → Dir) : (s.modDir f).host = s.host := rfl
@[simp] theorem irqs_modDir (f : Dir → Dir) : (s.modDir f).irqs = s.irqs := rfl
@[simp] theorem apply_modDir (f : Dir → Dir) : (s.modDir f).apply = s.apply := rfl
@[simp] theorem net_modDir (f : Dir → Dir) : (s.modDir f).net = s.net := rfl
@[simp] theorem invals_modDir (f : Dir → Dir) : (s.modDir f).invals = s.invals := rfl
@[simp] theorem transfers_modDir (f : Dir → Dir) : (s.modDir f).transfers = s.transfers := rfl
@[simp] theorem unseals_modDir (f : Dir → Dir) : (s.modDir f).unseals = s.unseals := rfl
@[simp] theorem boot_modDir (f : Dir → Dir) : (s.modDir f).boot = s.boot := rfl
@[simp] theorem fw_modDir (f : Dir → Dir) : (s.modDir f).fw = s.fw := rfl
@[simp] theorem cp_modDir (f : Dir → Dir) : (s.modDir f).cp = s.cp := rfl
@[simp] theorem bindSets_modDir (f : Dir → Dir) : (s.modDir f).bindSets = s.bindSets := rfl
@[simp] theorem sparing_modDir (f : Dir → Dir) : (s.modDir f).sparing = s.sparing := rfl
@[simp] theorem power_modDir (f : Dir → Dir) : (s.modDir f).power = s.power := rfl
@[simp] theorem cause_modDir (f : Dir → Dir) : (s.modDir f).cause = s.cause := rfl
@[simp] theorem ports_modDir (f : Dir → Dir) : (s.modDir f).ports = s.ports := rfl
@[simp] theorem links_modDir (f : Dir → Dir) : (s.modDir f).links = s.links := rfl
@[simp] theorem streams_modDir (f : Dir → Dir) : (s.modDir f).streams = s.streams := rfl
@[simp] theorem replayer_modDir (f : Dir → Dir) : (s.modDir f).replayer = s.replayer := rfl
@[simp] theorem belv_modDir (f : Dir → Dir) : (s.modDir f).belv = s.belv := rfl
@[simp] theorem pools_modDir (f : Dir → Dir) : (s.modDir f).pools = s.pools := rfl
@[simp] theorem gate_modDir (f : Dir → Dir) : (s.modDir f).gate = s.gate := rfl
@[simp] theorem aborted_modDir (f : Dir → Dir) : (s.modDir f).aborted = s.aborted := rfl
@[simp] theorem posts_modDir (f : Dir → Dir) : (s.modDir f).posts = s.posts := rfl

/-! ## modFw -/

@[simp] theorem pending_modFw (f : Fw → Fw) : (s.modFw f).pending = s.pending := rfl
@[simp] theorem answer_modFw (f : Fw → Fw) : (s.modFw f).answer = s.answer := rfl
@[simp] theorem draws_modFw (f : Fw → Fw) : (s.modFw f).draws = s.draws := rfl
@[simp] theorem order_modFw (f : Fw → Fw) : (s.modFw f).order = s.order := rfl
@[simp] theorem fuse_modFw (f : Fw → Fw) : (s.modFw f).fuse = s.fuse := rfl
@[simp] theorem time_modFw (f : Fw → Fw) : (s.modFw f).time = s.time := rfl
@[simp] theorem regs_modFw (f : Fw → Fw) : (s.modFw f).regs = s.regs := rfl
@[simp] theorem cores_modFw (f : Fw → Fw) : (s.modFw f).cores = s.cores := rfl
@[simp] theorem strands_modFw (f : Fw → Fw) : (s.modFw f).strands = s.strands := rfl
@[simp] theorem beds_modFw (f : Fw → Fw) : (s.modFw f).beds = s.beds := rfl
@[simp] theorem tcache_modFw (f : Fw → Fw) : (s.modFw f).tcache = s.tcache := rfl
@[simp] theorem windows_modFw (f : Fw → Fw) : (s.modFw f).windows = s.windows := rfl
@[simp] theorem pavs_modFw (f : Fw → Fw) : (s.modFw f).pavs = s.pavs := rfl
@[simp] theorem fns_modFw (f : Fw → Fw) : (s.modFw f).fns = s.fns := rfl
@[simp] theorem orphans_modFw (f : Fw → Fw) : (s.modFw f).orphans = s.orphans := rfl
@[simp] theorem host_modFw (f : Fw → Fw) : (s.modFw f).host = s.host := rfl
@[simp] theorem irqs_modFw (f : Fw → Fw) : (s.modFw f).irqs = s.irqs := rfl
@[simp] theorem apply_modFw (f : Fw → Fw) : (s.modFw f).apply = s.apply := rfl
@[simp] theorem net_modFw (f : Fw → Fw) : (s.modFw f).net = s.net := rfl
@[simp] theorem invals_modFw (f : Fw → Fw) : (s.modFw f).invals = s.invals := rfl
@[simp] theorem transfers_modFw (f : Fw → Fw) : (s.modFw f).transfers = s.transfers := rfl
@[simp] theorem unseals_modFw (f : Fw → Fw) : (s.modFw f).unseals = s.unseals := rfl
@[simp] theorem boot_modFw (f : Fw → Fw) : (s.modFw f).boot = s.boot := rfl
@[simp] theorem cp_modFw (f : Fw → Fw) : (s.modFw f).cp = s.cp := rfl
@[simp] theorem bindSets_modFw (f : Fw → Fw) : (s.modFw f).bindSets = s.bindSets := rfl
@[simp] theorem sparing_modFw (f : Fw → Fw) : (s.modFw f).sparing = s.sparing := rfl
@[simp] theorem power_modFw (f : Fw → Fw) : (s.modFw f).power = s.power := rfl
@[simp] theorem cause_modFw (f : Fw → Fw) : (s.modFw f).cause = s.cause := rfl
@[simp] theorem ports_modFw (f : Fw → Fw) : (s.modFw f).ports = s.ports := rfl
@[simp] theorem links_modFw (f : Fw → Fw) : (s.modFw f).links = s.links := rfl
@[simp] theorem streams_modFw (f : Fw → Fw) : (s.modFw f).streams = s.streams := rfl
@[simp] theorem replayer_modFw (f : Fw → Fw) : (s.modFw f).replayer = s.replayer := rfl
@[simp] theorem belv_modFw (f : Fw → Fw) : (s.modFw f).belv = s.belv := rfl
@[simp] theorem pools_modFw (f : Fw → Fw) : (s.modFw f).pools = s.pools := rfl
@[simp] theorem dir_modFw (f : Fw → Fw) : (s.modFw f).dir = s.dir := rfl
@[simp] theorem gate_modFw (f : Fw → Fw) : (s.modFw f).gate = s.gate := rfl
@[simp] theorem aborted_modFw (f : Fw → Fw) : (s.modFw f).aborted = s.aborted := rfl
@[simp] theorem posts_modFw (f : Fw → Fw) : (s.modFw f).posts = s.posts := rfl

/-! ## modRec -/

@[simp] theorem pending_modRec (f : Recorder → Recorder) : (s.modRec f).pending = s.pending := rfl
@[simp] theorem answer_modRec (f : Recorder → Recorder) : (s.modRec f).answer = s.answer := rfl
@[simp] theorem draws_modRec (f : Recorder → Recorder) : (s.modRec f).draws = s.draws := rfl
@[simp] theorem order_modRec (f : Recorder → Recorder) : (s.modRec f).order = s.order := rfl
@[simp] theorem fuse_modRec (f : Recorder → Recorder) : (s.modRec f).fuse = s.fuse := rfl
@[simp] theorem time_modRec (f : Recorder → Recorder) : (s.modRec f).time = s.time := rfl
@[simp] theorem regs_modRec (f : Recorder → Recorder) : (s.modRec f).regs = s.regs := rfl
@[simp] theorem cores_modRec (f : Recorder → Recorder) : (s.modRec f).cores = s.cores := rfl
@[simp] theorem strands_modRec (f : Recorder → Recorder) : (s.modRec f).strands = s.strands := rfl
@[simp] theorem beds_modRec (f : Recorder → Recorder) : (s.modRec f).beds = s.beds := rfl
@[simp] theorem tcache_modRec (f : Recorder → Recorder) : (s.modRec f).tcache = s.tcache := rfl
@[simp] theorem windows_modRec (f : Recorder → Recorder) : (s.modRec f).windows = s.windows := rfl
@[simp] theorem pavs_modRec (f : Recorder → Recorder) : (s.modRec f).pavs = s.pavs := rfl
@[simp] theorem fns_modRec (f : Recorder → Recorder) : (s.modRec f).fns = s.fns := rfl
@[simp] theorem orphans_modRec (f : Recorder → Recorder) : (s.modRec f).orphans = s.orphans := rfl
@[simp] theorem host_modRec (f : Recorder → Recorder) : (s.modRec f).host = s.host := rfl
@[simp] theorem irqs_modRec (f : Recorder → Recorder) : (s.modRec f).irqs = s.irqs := rfl
@[simp] theorem apply_modRec (f : Recorder → Recorder) : (s.modRec f).apply = s.apply := rfl
@[simp] theorem net_modRec (f : Recorder → Recorder) : (s.modRec f).net = s.net := rfl
@[simp] theorem invals_modRec (f : Recorder → Recorder) : (s.modRec f).invals = s.invals := rfl
@[simp] theorem transfers_modRec (f : Recorder → Recorder) : (s.modRec f).transfers = s.transfers := rfl
@[simp] theorem unseals_modRec (f : Recorder → Recorder) : (s.modRec f).unseals = s.unseals := rfl
@[simp] theorem boot_modRec (f : Recorder → Recorder) : (s.modRec f).boot = s.boot := rfl
@[simp] theorem fw_modRec (f : Recorder → Recorder) : (s.modRec f).fw = s.fw := rfl
@[simp] theorem cp_modRec (f : Recorder → Recorder) : (s.modRec f).cp = s.cp := rfl
@[simp] theorem bindSets_modRec (f : Recorder → Recorder) : (s.modRec f).bindSets = s.bindSets := rfl
@[simp] theorem sparing_modRec (f : Recorder → Recorder) : (s.modRec f).sparing = s.sparing := rfl
@[simp] theorem power_modRec (f : Recorder → Recorder) : (s.modRec f).power = s.power := rfl
@[simp] theorem cause_modRec (f : Recorder → Recorder) : (s.modRec f).cause = s.cause := rfl
@[simp] theorem ports_modRec (f : Recorder → Recorder) : (s.modRec f).ports = s.ports := rfl
@[simp] theorem links_modRec (f : Recorder → Recorder) : (s.modRec f).links = s.links := rfl
@[simp] theorem streams_modRec (f : Recorder → Recorder) : (s.modRec f).streams = s.streams := rfl
@[simp] theorem belv_modRec (f : Recorder → Recorder) : (s.modRec f).belv = s.belv := rfl
@[simp] theorem pools_modRec (f : Recorder → Recorder) : (s.modRec f).pools = s.pools := rfl
@[simp] theorem dir_modRec (f : Recorder → Recorder) : (s.modRec f).dir = s.dir := rfl
@[simp] theorem gate_modRec (f : Recorder → Recorder) : (s.modRec f).gate = s.gate := rfl
@[simp] theorem aborted_modRec (f : Recorder → Recorder) : (s.modRec f).aborted = s.aborted := rfl
@[simp] theorem posts_modRec (f : Recorder → Recorder) : (s.modRec f).posts = s.posts := rfl

/-! ## answered -/

@[simp] theorem pending_answered (v : Nat) : (s.answered v).pending = s.pending := rfl
@[simp] theorem draws_answered (v : Nat) : (s.answered v).draws = s.draws := rfl
@[simp] theorem order_answered (v : Nat) : (s.answered v).order = s.order := rfl
@[simp] theorem fuse_answered (v : Nat) : (s.answered v).fuse = s.fuse := rfl
@[simp] theorem time_answered (v : Nat) : (s.answered v).time = s.time := rfl
@[simp] theorem regs_answered (v : Nat) : (s.answered v).regs = s.regs := rfl
@[simp] theorem cores_answered (v : Nat) : (s.answered v).cores = s.cores := rfl
@[simp] theorem strands_answered (v : Nat) : (s.answered v).strands = s.strands := rfl
@[simp] theorem beds_answered (v : Nat) : (s.answered v).beds = s.beds := rfl
@[simp] theorem tcache_answered (v : Nat) : (s.answered v).tcache = s.tcache := rfl
@[simp] theorem windows_answered (v : Nat) : (s.answered v).windows = s.windows := rfl
@[simp] theorem pavs_answered (v : Nat) : (s.answered v).pavs = s.pavs := rfl
@[simp] theorem fns_answered (v : Nat) : (s.answered v).fns = s.fns := rfl
@[simp] theorem orphans_answered (v : Nat) : (s.answered v).orphans = s.orphans := rfl
@[simp] theorem host_answered (v : Nat) : (s.answered v).host = s.host := rfl
@[simp] theorem irqs_answered (v : Nat) : (s.answered v).irqs = s.irqs := rfl
@[simp] theorem apply_answered (v : Nat) : (s.answered v).apply = s.apply := rfl
@[simp] theorem net_answered (v : Nat) : (s.answered v).net = s.net := rfl
@[simp] theorem invals_answered (v : Nat) : (s.answered v).invals = s.invals := rfl
@[simp] theorem transfers_answered (v : Nat) : (s.answered v).transfers = s.transfers := rfl
@[simp] theorem unseals_answered (v : Nat) : (s.answered v).unseals = s.unseals := rfl
@[simp] theorem boot_answered (v : Nat) : (s.answered v).boot = s.boot := rfl
@[simp] theorem fw_answered (v : Nat) : (s.answered v).fw = s.fw := rfl
@[simp] theorem cp_answered (v : Nat) : (s.answered v).cp = s.cp := rfl
@[simp] theorem bindSets_answered (v : Nat) : (s.answered v).bindSets = s.bindSets := rfl
@[simp] theorem sparing_answered (v : Nat) : (s.answered v).sparing = s.sparing := rfl
@[simp] theorem power_answered (v : Nat) : (s.answered v).power = s.power := rfl
@[simp] theorem cause_answered (v : Nat) : (s.answered v).cause = s.cause := rfl
@[simp] theorem ports_answered (v : Nat) : (s.answered v).ports = s.ports := rfl
@[simp] theorem links_answered (v : Nat) : (s.answered v).links = s.links := rfl
@[simp] theorem streams_answered (v : Nat) : (s.answered v).streams = s.streams := rfl
@[simp] theorem replayer_answered (v : Nat) : (s.answered v).replayer = s.replayer := rfl
@[simp] theorem belv_answered (v : Nat) : (s.answered v).belv = s.belv := rfl
@[simp] theorem pools_answered (v : Nat) : (s.answered v).pools = s.pools := rfl
@[simp] theorem dir_answered (v : Nat) : (s.answered v).dir = s.dir := rfl
@[simp] theorem gate_answered (v : Nat) : (s.answered v).gate = s.gate := rfl
@[simp] theorem aborted_answered (v : Nat) : (s.answered v).aborted = s.aborted := rfl
@[simp] theorem posts_answered (v : Nat) : (s.answered v).posts = s.posts := rfl

/-! ## What was set reads back -/

@[simp] theorem strand_setStrand_self (c t : Nat) (x : Strand) : (s.setStrand c t x).strand c t = x := by simp [strand, setStrand]
theorem strand_setStrand_ne (c t : Nat) (x : Strand) (c' t' : Nat) (h : c' * 2048 + t' ≠ c * 2048 + t) : (s.setStrand c t x).strand c' t' = s.strand c' t' := by
  simp [strand, setStrand, Tab.getD_put, h]
@[simp] theorem core_setCore_self (c : Nat) (x : Core) : (s.setCore c x).core c = x := by simp [core, setCore]
theorem core_setCore_ne (c : Nat) (x : Core) (c' : Nat) (h : c' ≠ c) : (s.setCore c x).core c' = s.core c' := by
  simp [core, setCore, Tab.getD_put, h]
@[simp] theorem pav_setPav_self (p : Nat) (x : Pav) : (s.setPav p x).pav p = x := by simp [pav, setPav]
theorem pav_setPav_ne (p : Nat) (x : Pav) (p' : Nat) (h : p' ≠ p) : (s.setPav p x).pav p' = s.pav p' := by
  simp [pav, setPav, Tab.getD_put, h]
@[simp] theorem fn_setFn_self (f : Nat) (x : Fn) : (s.setFn f x).fn f = x := by simp [fn, setFn]
theorem fn_setFn_ne (f : Nat) (x : Fn) (f' : Nat) (h : f' ≠ f) : (s.setFn f x).fn f' = s.fn f' := by
  simp [fn, setFn, Tab.getD_put, h]
@[simp] theorem channel_setChannel_self (q : Nat) (x : Channel) : (s.setChannel q x).channel q = x := by simp [channel, setChannel]
theorem channel_setChannel_ne (q : Nat) (x : Channel) (q' : Nat) (h : q' ≠ q) : (s.setChannel q x).channel q' = s.channel q' := by
  simp [channel, setChannel, Tab.getD_put, h]
@[simp] theorem port_setPort_self (p : Nat) (x : Port) : (s.setPort p x).port p = x := by simp [port, setPort]
theorem port_setPort_ne (p : Nat) (x : Port) (p' : Nat) (h : p' ≠ p) : (s.setPort p x).port p' = s.port p' := by
  simp [port, setPort, Tab.getD_put, h]
@[simp] theorem stream_setStream_self (p i : Nat) (x : Stream) : (s.setStream p i x).stream p i = x := by simp [stream, setStream]
theorem stream_setStream_ne (p i : Nat) (x : Stream) (p' i' : Nat) (h : p' * 64 + i' ≠ p * 64 + i) : (s.setStream p i x).stream p' i' = s.stream p' i' := by
  simp [stream, setStream, Tab.getD_put, h]
@[simp] theorem half_setHalf_self (h : Nat) (x : Half) : (s.setHalf h x).half h = x := by simp [half, setHalf]
theorem half_setHalf_ne (h : Nat) (x : Half) (h' : Nat) (hn : h' ≠ h) : (s.setHalf h x).half h' = s.half h' := by
  simp [half, setHalf, Tab.getD_put, hn]

/-! ## Getters that a setter leaves as they were -/

@[simp] theorem core_setStrand (c t : Nat) (x : Strand) (c' : Nat) : (s.setStrand c t x).core c' = s.core c' := rfl
@[simp] theorem pav_setStrand (c t : Nat) (x : Strand) (p' : Nat) : (s.setStrand c t x).pav p' = s.pav p' := rfl
@[simp] theorem fn_setStrand (c t : Nat) (x : Strand) (f' : Nat) : (s.setStrand c t x).fn f' = s.fn f' := rfl
@[simp] theorem channel_setStrand (c t : Nat) (x : Strand) (q' : Nat) : (s.setStrand c t x).channel q' = s.channel q' := rfl
@[simp] theorem port_setStrand (c t : Nat) (x : Strand) (p' : Nat) : (s.setStrand c t x).port p' = s.port p' := rfl
@[simp] theorem stream_setStrand (c t : Nat) (x : Strand) (p' i' : Nat) : (s.setStrand c t x).stream p' i' = s.stream p' i' := rfl
@[simp] theorem half_setStrand (c t : Nat) (x : Strand) (h' : Nat) : (s.setStrand c t x).half h' = s.half h' := rfl
@[simp] theorem strand_setCore (c : Nat) (x : Core) (c' t' : Nat) : (s.setCore c x).strand c' t' = s.strand c' t' := rfl
@[simp] theorem pav_setCore (c : Nat) (x : Core) (p' : Nat) : (s.setCore c x).pav p' = s.pav p' := rfl
@[simp] theorem fn_setCore (c : Nat) (x : Core) (f' : Nat) : (s.setCore c x).fn f' = s.fn f' := rfl
@[simp] theorem channel_setCore (c : Nat) (x : Core) (q' : Nat) : (s.setCore c x).channel q' = s.channel q' := rfl
@[simp] theorem port_setCore (c : Nat) (x : Core) (p' : Nat) : (s.setCore c x).port p' = s.port p' := rfl
@[simp] theorem stream_setCore (c : Nat) (x : Core) (p' i' : Nat) : (s.setCore c x).stream p' i' = s.stream p' i' := rfl
@[simp] theorem half_setCore (c : Nat) (x : Core) (h' : Nat) : (s.setCore c x).half h' = s.half h' := rfl
@[simp] theorem strand_setPav (p : Nat) (x : Pav) (c' t' : Nat) : (s.setPav p x).strand c' t' = s.strand c' t' := rfl
@[simp] theorem core_setPav (p : Nat) (x : Pav) (c' : Nat) : (s.setPav p x).core c' = s.core c' := rfl
@[simp] theorem fn_setPav (p : Nat) (x : Pav) (f' : Nat) : (s.setPav p x).fn f' = s.fn f' := rfl
@[simp] theorem channel_setPav (p : Nat) (x : Pav) (q' : Nat) : (s.setPav p x).channel q' = s.channel q' := rfl
@[simp] theorem port_setPav (p : Nat) (x : Pav) (p' : Nat) : (s.setPav p x).port p' = s.port p' := rfl
@[simp] theorem stream_setPav (p : Nat) (x : Pav) (p' i' : Nat) : (s.setPav p x).stream p' i' = s.stream p' i' := rfl
@[simp] theorem half_setPav (p : Nat) (x : Pav) (h' : Nat) : (s.setPav p x).half h' = s.half h' := rfl
@[simp] theorem strand_setFn (f : Nat) (x : Fn) (c' t' : Nat) : (s.setFn f x).strand c' t' = s.strand c' t' := rfl
@[simp] theorem core_setFn (f : Nat) (x : Fn) (c' : Nat) : (s.setFn f x).core c' = s.core c' := rfl
@[simp] theorem pav_setFn (f : Nat) (x : Fn) (p' : Nat) : (s.setFn f x).pav p' = s.pav p' := rfl
@[simp] theorem channel_setFn (f : Nat) (x : Fn) (q' : Nat) : (s.setFn f x).channel q' = s.channel q' := rfl
@[simp] theorem port_setFn (f : Nat) (x : Fn) (p' : Nat) : (s.setFn f x).port p' = s.port p' := rfl
@[simp] theorem stream_setFn (f : Nat) (x : Fn) (p' i' : Nat) : (s.setFn f x).stream p' i' = s.stream p' i' := rfl
@[simp] theorem half_setFn (f : Nat) (x : Fn) (h' : Nat) : (s.setFn f x).half h' = s.half h' := rfl
@[simp] theorem strand_setChannel (q : Nat) (x : Channel) (c' t' : Nat) : (s.setChannel q x).strand c' t' = s.strand c' t' := rfl
@[simp] theorem core_setChannel (q : Nat) (x : Channel) (c' : Nat) : (s.setChannel q x).core c' = s.core c' := rfl
@[simp] theorem pav_setChannel (q : Nat) (x : Channel) (p' : Nat) : (s.setChannel q x).pav p' = s.pav p' := rfl
@[simp] theorem fn_setChannel (q : Nat) (x : Channel) (f' : Nat) : (s.setChannel q x).fn f' = s.fn f' := rfl
@[simp] theorem port_setChannel (q : Nat) (x : Channel) (p' : Nat) : (s.setChannel q x).port p' = s.port p' := rfl
@[simp] theorem stream_setChannel (q : Nat) (x : Channel) (p' i' : Nat) : (s.setChannel q x).stream p' i' = s.stream p' i' := rfl
@[simp] theorem half_setChannel (q : Nat) (x : Channel) (h' : Nat) : (s.setChannel q x).half h' = s.half h' := rfl
@[simp] theorem strand_setPort (p : Nat) (x : Port) (c' t' : Nat) : (s.setPort p x).strand c' t' = s.strand c' t' := rfl
@[simp] theorem core_setPort (p : Nat) (x : Port) (c' : Nat) : (s.setPort p x).core c' = s.core c' := rfl
@[simp] theorem pav_setPort (p : Nat) (x : Port) (p' : Nat) : (s.setPort p x).pav p' = s.pav p' := rfl
@[simp] theorem fn_setPort (p : Nat) (x : Port) (f' : Nat) : (s.setPort p x).fn f' = s.fn f' := rfl
@[simp] theorem channel_setPort (p : Nat) (x : Port) (q' : Nat) : (s.setPort p x).channel q' = s.channel q' := rfl
@[simp] theorem stream_setPort (p : Nat) (x : Port) (p' i' : Nat) : (s.setPort p x).stream p' i' = s.stream p' i' := rfl
@[simp] theorem half_setPort (p : Nat) (x : Port) (h' : Nat) : (s.setPort p x).half h' = s.half h' := rfl
@[simp] theorem strand_setStream (p i : Nat) (x : Stream) (c' t' : Nat) : (s.setStream p i x).strand c' t' = s.strand c' t' := rfl
@[simp] theorem core_setStream (p i : Nat) (x : Stream) (c' : Nat) : (s.setStream p i x).core c' = s.core c' := rfl
@[simp] theorem pav_setStream (p i : Nat) (x : Stream) (p' : Nat) : (s.setStream p i x).pav p' = s.pav p' := rfl
@[simp] theorem fn_setStream (p i : Nat) (x : Stream) (f' : Nat) : (s.setStream p i x).fn f' = s.fn f' := rfl
@[simp] theorem channel_setStream (p i : Nat) (x : Stream) (q' : Nat) : (s.setStream p i x).channel q' = s.channel q' := rfl
@[simp] theorem port_setStream (p i : Nat) (x : Stream) (p' : Nat) : (s.setStream p i x).port p' = s.port p' := rfl
@[simp] theorem half_setStream (p i : Nat) (x : Stream) (h' : Nat) : (s.setStream p i x).half h' = s.half h' := rfl
@[simp] theorem strand_setHalf (h : Nat) (x : Half) (c' t' : Nat) : (s.setHalf h x).strand c' t' = s.strand c' t' := rfl
@[simp] theorem core_setHalf (h : Nat) (x : Half) (c' : Nat) : (s.setHalf h x).core c' = s.core c' := rfl
@[simp] theorem pav_setHalf (h : Nat) (x : Half) (p' : Nat) : (s.setHalf h x).pav p' = s.pav p' := rfl
@[simp] theorem fn_setHalf (h : Nat) (x : Half) (f' : Nat) : (s.setHalf h x).fn f' = s.fn f' := rfl
@[simp] theorem channel_setHalf (h : Nat) (x : Half) (q' : Nat) : (s.setHalf h x).channel q' = s.channel q' := rfl
@[simp] theorem port_setHalf (h : Nat) (x : Half) (p' : Nat) : (s.setHalf h x).port p' = s.port p' := rfl
@[simp] theorem stream_setHalf (h : Nat) (x : Half) (p' i' : Nat) : (s.setHalf h x).stream p' i' = s.stream p' i' := rfl
@[simp] theorem strand_modBeds (f : Beds → Beds) (c' t' : Nat) : (s.modBeds f).strand c' t' = s.strand c' t' := rfl
@[simp] theorem core_modBeds (f : Beds → Beds) (c' : Nat) : (s.modBeds f).core c' = s.core c' := rfl
@[simp] theorem pav_modBeds (f : Beds → Beds) (p' : Nat) : (s.modBeds f).pav p' = s.pav p' := rfl
@[simp] theorem fn_modBeds (f : Beds → Beds) (f' : Nat) : (s.modBeds f).fn f' = s.fn f' := rfl
@[simp] theorem port_modBeds (f : Beds → Beds) (p' : Nat) : (s.modBeds f).port p' = s.port p' := rfl
@[simp] theorem stream_modBeds (f : Beds → Beds) (p' i' : Nat) : (s.modBeds f).stream p' i' = s.stream p' i' := rfl
@[simp] theorem half_modBeds (f : Beds → Beds) (h' : Nat) : (s.modBeds f).half h' = s.half h' := rfl
@[simp] theorem strand_modRegs (f : Regs → Regs) (c' t' : Nat) : (s.modRegs f).strand c' t' = s.strand c' t' := rfl
@[simp] theorem core_modRegs (f : Regs → Regs) (c' : Nat) : (s.modRegs f).core c' = s.core c' := rfl
@[simp] theorem pav_modRegs (f : Regs → Regs) (p' : Nat) : (s.modRegs f).pav p' = s.pav p' := rfl
@[simp] theorem fn_modRegs (f : Regs → Regs) (f' : Nat) : (s.modRegs f).fn f' = s.fn f' := rfl
@[simp] theorem channel_modRegs (f : Regs → Regs) (q' : Nat) : (s.modRegs f).channel q' = s.channel q' := rfl
@[simp] theorem port_modRegs (f : Regs → Regs) (p' : Nat) : (s.modRegs f).port p' = s.port p' := rfl
@[simp] theorem stream_modRegs (f : Regs → Regs) (p' i' : Nat) : (s.modRegs f).stream p' i' = s.stream p' i' := rfl
@[simp] theorem half_modRegs (f : Regs → Regs) (h' : Nat) : (s.modRegs f).half h' = s.half h' := rfl
@[simp] theorem strand_modNet (f : Net → Net) (c' t' : Nat) : (s.modNet f).strand c' t' = s.strand c' t' := rfl
@[simp] theorem core_modNet (f : Net → Net) (c' : Nat) : (s.modNet f).core c' = s.core c' := rfl
@[simp] theorem pav_modNet (f : Net → Net) (p' : Nat) : (s.modNet f).pav p' = s.pav p' := rfl
@[simp] theorem fn_modNet (f : Net → Net) (f' : Nat) : (s.modNet f).fn f' = s.fn f' := rfl
@[simp] theorem channel_modNet (f : Net → Net) (q' : Nat) : (s.modNet f).channel q' = s.channel q' := rfl
@[simp] theorem port_modNet (f : Net → Net) (p' : Nat) : (s.modNet f).port p' = s.port p' := rfl
@[simp] theorem stream_modNet (f : Net → Net) (p' i' : Nat) : (s.modNet f).stream p' i' = s.stream p' i' := rfl
@[simp] theorem half_modNet (f : Net → Net) (h' : Nat) : (s.modNet f).half h' = s.half h' := rfl
@[simp] theorem strand_modGate (f : Gate → Gate) (c' t' : Nat) : (s.modGate f).strand c' t' = s.strand c' t' := rfl
@[simp] theorem core_modGate (f : Gate → Gate) (c' : Nat) : (s.modGate f).core c' = s.core c' := rfl
@[simp] theorem pav_modGate (f : Gate → Gate) (p' : Nat) : (s.modGate f).pav p' = s.pav p' := rfl
@[simp] theorem fn_modGate (f : Gate → Gate) (f' : Nat) : (s.modGate f).fn f' = s.fn f' := rfl
@[simp] theorem channel_modGate (f : Gate → Gate) (q' : Nat) : (s.modGate f).channel q' = s.channel q' := rfl
@[simp] theorem port_modGate (f : Gate → Gate) (p' : Nat) : (s.modGate f).port p' = s.port p' := rfl
@[simp] theorem stream_modGate (f : Gate → Gate) (p' i' : Nat) : (s.modGate f).stream p' i' = s.stream p' i' := rfl
@[simp] theorem half_modGate (f : Gate → Gate) (h' : Nat) : (s.modGate f).half h' = s.half h' := rfl
@[simp] theorem strand_modDir (f : Dir → Dir) (c' t' : Nat) : (s.modDir f).strand c' t' = s.strand c' t' := rfl
@[simp] theorem core_modDir (f : Dir → Dir) (c' : Nat) : (s.modDir f).core c' = s.core c' := rfl
@[simp] theorem pav_modDir (f : Dir → Dir) (p' : Nat) : (s.modDir f).pav p' = s.pav p' := rfl
@[simp] theorem fn_modDir (f : Dir → Dir) (f' : Nat) : (s.modDir f).fn f' = s.fn f' := rfl
@[simp] theorem channel_modDir (f : Dir → Dir) (q' : Nat) : (s.modDir f).channel q' = s.channel q' := rfl
@[simp] theorem port_modDir (f : Dir → Dir) (p' : Nat) : (s.modDir f).port p' = s.port p' := rfl
@[simp] theorem stream_modDir (f : Dir → Dir) (p' i' : Nat) : (s.modDir f).stream p' i' = s.stream p' i' := rfl
@[simp] theorem half_modDir (f : Dir → Dir) (h' : Nat) : (s.modDir f).half h' = s.half h' := rfl
@[simp] theorem strand_modFw (f : Fw → Fw) (c' t' : Nat) : (s.modFw f).strand c' t' = s.strand c' t' := rfl
@[simp] theorem core_modFw (f : Fw → Fw) (c' : Nat) : (s.modFw f).core c' = s.core c' := rfl
@[simp] theorem pav_modFw (f : Fw → Fw) (p' : Nat) : (s.modFw f).pav p' = s.pav p' := rfl
@[simp] theorem fn_modFw (f : Fw → Fw) (f' : Nat) : (s.modFw f).fn f' = s.fn f' := rfl
@[simp] theorem channel_modFw (f : Fw → Fw) (q' : Nat) : (s.modFw f).channel q' = s.channel q' := rfl
@[simp] theorem port_modFw (f : Fw → Fw) (p' : Nat) : (s.modFw f).port p' = s.port p' := rfl
@[simp] theorem stream_modFw (f : Fw → Fw) (p' i' : Nat) : (s.modFw f).stream p' i' = s.stream p' i' := rfl
@[simp] theorem half_modFw (f : Fw → Fw) (h' : Nat) : (s.modFw f).half h' = s.half h' := rfl
@[simp] theorem strand_modRec (f : Recorder → Recorder) (c' t' : Nat) : (s.modRec f).strand c' t' = s.strand c' t' := rfl
@[simp] theorem core_modRec (f : Recorder → Recorder) (c' : Nat) : (s.modRec f).core c' = s.core c' := rfl
@[simp] theorem pav_modRec (f : Recorder → Recorder) (p' : Nat) : (s.modRec f).pav p' = s.pav p' := rfl
@[simp] theorem fn_modRec (f : Recorder → Recorder) (f' : Nat) : (s.modRec f).fn f' = s.fn f' := rfl
@[simp] theorem channel_modRec (f : Recorder → Recorder) (q' : Nat) : (s.modRec f).channel q' = s.channel q' := rfl
@[simp] theorem port_modRec (f : Recorder → Recorder) (p' : Nat) : (s.modRec f).port p' = s.port p' := rfl
@[simp] theorem stream_modRec (f : Recorder → Recorder) (p' i' : Nat) : (s.modRec f).stream p' i' = s.stream p' i' := rfl
@[simp] theorem half_modRec (f : Recorder → Recorder) (h' : Nat) : (s.modRec f).half h' = s.half h' := rfl
@[simp] theorem strand_answered (v : Nat) (c' t' : Nat) : (s.answered v).strand c' t' = s.strand c' t' := rfl
@[simp] theorem core_answered (v : Nat) (c' : Nat) : (s.answered v).core c' = s.core c' := rfl
@[simp] theorem pav_answered (v : Nat) (p' : Nat) : (s.answered v).pav p' = s.pav p' := rfl
@[simp] theorem fn_answered (v : Nat) (f' : Nat) : (s.answered v).fn f' = s.fn f' := rfl
@[simp] theorem channel_answered (v : Nat) (q' : Nat) : (s.answered v).channel q' = s.channel q' := rfl
@[simp] theorem port_answered (v : Nat) (p' : Nat) : (s.answered v).port p' = s.port p' := rfl
@[simp] theorem stream_answered (v : Nat) (p' i' : Nat) : (s.answered v).stream p' i' = s.stream p' i' := rfl
@[simp] theorem half_answered (v : Nat) (h' : Nat) : (s.answered v).half h' = s.half h' := rfl

/-! ## The draw of a free value -/

@[simp] theorem draw_fst : s.draw.1 = Config.freeValue s.draws := rfl
@[simp] theorem pending_draw : s.draw.2.pending = s.pending := rfl
@[simp] theorem answer_draw : s.draw.2.answer = s.answer := rfl
@[simp] theorem draws_draw : s.draw.2.draws = s.draws + 1 := rfl
@[simp] theorem order_draw : s.draw.2.order = s.order := rfl
@[simp] theorem fuse_draw : s.draw.2.fuse = s.fuse := rfl
@[simp] theorem time_draw : s.draw.2.time = s.time := rfl
@[simp] theorem regs_draw : s.draw.2.regs = s.regs := rfl
@[simp] theorem cores_draw : s.draw.2.cores = s.cores := rfl
@[simp] theorem strands_draw : s.draw.2.strands = s.strands := rfl
@[simp] theorem beds_draw : s.draw.2.beds = s.beds := rfl
@[simp] theorem tcache_draw : s.draw.2.tcache = s.tcache := rfl
@[simp] theorem windows_draw : s.draw.2.windows = s.windows := rfl
@[simp] theorem pavs_draw : s.draw.2.pavs = s.pavs := rfl
@[simp] theorem fns_draw : s.draw.2.fns = s.fns := rfl
@[simp] theorem orphans_draw : s.draw.2.orphans = s.orphans := rfl
@[simp] theorem host_draw : s.draw.2.host = s.host := rfl
@[simp] theorem irqs_draw : s.draw.2.irqs = s.irqs := rfl
@[simp] theorem apply_draw : s.draw.2.apply = s.apply := rfl
@[simp] theorem net_draw : s.draw.2.net = s.net := rfl
@[simp] theorem invals_draw : s.draw.2.invals = s.invals := rfl
@[simp] theorem transfers_draw : s.draw.2.transfers = s.transfers := rfl
@[simp] theorem unseals_draw : s.draw.2.unseals = s.unseals := rfl
@[simp] theorem boot_draw : s.draw.2.boot = s.boot := rfl
@[simp] theorem fw_draw : s.draw.2.fw = s.fw := rfl
@[simp] theorem cp_draw : s.draw.2.cp = s.cp := rfl
@[simp] theorem bindSets_draw : s.draw.2.bindSets = s.bindSets := rfl
@[simp] theorem sparing_draw : s.draw.2.sparing = s.sparing := rfl
@[simp] theorem power_draw : s.draw.2.power = s.power := rfl
@[simp] theorem cause_draw : s.draw.2.cause = s.cause := rfl
@[simp] theorem ports_draw : s.draw.2.ports = s.ports := rfl
@[simp] theorem links_draw : s.draw.2.links = s.links := rfl
@[simp] theorem streams_draw : s.draw.2.streams = s.streams := rfl
@[simp] theorem replayer_draw : s.draw.2.replayer = s.replayer := rfl
@[simp] theorem belv_draw : s.draw.2.belv = s.belv := rfl
@[simp] theorem pools_draw : s.draw.2.pools = s.pools := rfl
@[simp] theorem dir_draw : s.draw.2.dir = s.dir := rfl
@[simp] theorem gate_draw : s.draw.2.gate = s.gate := rfl
@[simp] theorem aborted_draw : s.draw.2.aborted = s.aborted := rfl
@[simp] theorem posts_draw : s.draw.2.posts = s.posts := rfl

end Sys2Proof.Machine.State
end

