-- ==== Sys2Proof/Laws/Issue.lean ====
section
/-! SUPPORT. What a strand's instruction does before its own effect: the issue of an instruction, its undefined encodings, and the advance of the PC. -/

namespace Sys2Proof.Machine

variable {s : State} {core strand len p i : Nat}

/-- A strand that can issue runs the instruction's body. -/
theorem issue_of_issues (h : Issues s core strand len p i) (k : Nat → Nat → Strand → State) :
    issue core strand len s k = .next (k p i (s.strand core strand)) := by
  have hc : ((codeLines (s.core core).codeBase (s.strand core strand).pc len).all fun l => (s.core core).icache.contains l) = true := by
    simpa using h.cached
  have h1 : ¬ (1088 ≤ core) := by have := h.coreOk; omega
  have h2 : ¬ (2048 ≤ strand) := by have := h.strandOk; omega
  simp only [issue, numCores, numStrands, h.owner, h.ready, h.picked, hc]
  simp [h1, h2, ok]

/-- Whatever issue answers, it is a fault for units that do not exist or a next state. -/
theorem issue_cases (core strand len : Nat) (s : State) (k : Nat → Nat → Strand → State) :
    (issue core strand len s k = .fault .noSuchUnit ∧ (1088 ≤ core ∨ 2048 ≤ strand)) ∨
    (core < 1088 ∧ strand < 2048 ∧ (issue core strand len s k = .next s ∨ issue core strand len s k = .next (s.waitFor core strand (.icache len)) ∨
      ∃ p i, issue core strand len s k = .next (k p i (s.strand core strand)))) := by
  unfold issue
  split
  · rename_i h
    left
    simp only [numCores, numStrands, ge_iff_le, Bool.or_eq_true, decide_eq_true_eq] at h
    exact ⟨rfl, h⟩
  · rename_i h
    simp only [numCores, numStrands, ge_iff_le, Bool.or_eq_true, decide_eq_true_eq, not_or, Nat.not_le] at h
    right
    refine ⟨h.1, h.2, ?_⟩
    split
    · exact .inl rfl
    · rename_i q j _
      dsimp only
      split
      · exact .inl rfl
      · split
        · exact .inr (.inl rfl)
        · exact .inr (.inr ⟨q, j, rfl⟩)

/-- A defined scalar instruction of a strand that can issue runs its body. -/
theorem scalar_of_issues (h : Issues s core strand 8 p i) {k : ScalarShape} {f : ScalarFields} (hk : k.undefined f = false) (opc : Nat)
    (body : Nat → Nat → Strand → State) : scalar core strand opc k f s body = .next (body p i (s.strand core strand)) := by
  simp [scalar, issue_of_issues h, hk]

/-- An undefined scalar encoding takes the kernel fault ILLEGAL_INSTRUCTION. -/
theorem scalar_undefined (h : Issues s core strand 8 p i) {k : ScalarShape} {f : ScalarFields} (hk : k.undefined f = true) (opc : Nat)
    (body : Nat → Nat → Strand → State) :
    scalar core strand opc k f s body = .next (s.kernelFault core strand 0x01 opc 0 0) := by
  simp [scalar, issue_of_issues h, hk]

/-- A PC below the end of the code range advances. -/
theorem advance_of_lt (h : (s.strand core strand).pc.toNat + len < 2 ^ 32) :
    s.advance core strand len = s.setStrand core strand ((s.strand core strand).withPc ((s.strand core strand).pc + BitVec.ofNat 32 len)) := by
  have h1 : ¬ ((s.strand core strand).pc.toNat + len ≥ 2 ^ 32) := by omega
  simp only [State.advance, if_neg h1, Strand.withPc]
  congr 2
  apply BitVec.eq_of_toNat_eq
  simp

@[simp] theorem setStrand_setStrand (s : State) (c t : Nat) (x y : Strand) : (s.setStrand c t x).setStrand c t y = s.setStrand c t y := by
  simp [State.setStrand]

theorem setReg_pc (t : Strand) (d : BitVec 3) (v : Word64) : (t.setReg d v).pc = t.pc := by
  unfold Strand.setReg; split <;> rfl

/-- New scalar state with the PC of the old one: the strand goes on with it at PC + 8. -/
theorem scalarDone_of_lt {t : Strand} (hp : t.pc.toNat + 8 < 2 ^ 32) :
    s.scalarDone core strand t = s.setStrand core strand (t.withPc (t.pc + 8)) := by
  rw [State.scalarDone, advance_of_lt (by simpa using hp)]
  simp

end Sys2Proof.Machine
end

