-- ==== Sys2Proof/Laws/Mem.lean ====
section
/-! SUPPORT. Laws of byte memories: a read after a write, the bytes a write leaves alone, and the canonical form, which every memory
operation keeps. -/

namespace Sys2Proof.Machine

/-! ## The canonical form -/

theorem Mem.above_iff (a : Nat) (m : Mem) : Mem.above a m = true ↔ ∀ c ∈ m, a < c.1 := by simp [Mem.above]

theorem Mem.wf_cons (c : Nat × Byte) (m : Mem) : Mem.wf (c :: m) = true ↔ c.2 ≠ 0 ∧ (∀ d ∈ m, c.1 < d.1) ∧ Mem.wf m = true := by
  simp [Mem.wf, Mem.above, and_assoc]

theorem Mem.mem_write {m : Mem} {a : Nat} {b : Byte} {c : Nat × Byte} (h : c ∈ Mem.write m a b) : c = (a, b) ∨ c ∈ m := by
  induction m with
  | nil => simp only [Mem.write] at h; split at h <;> simp_all
  | cons d m ih =>
    simp only [Mem.write] at h
    split at h
    · split at h <;> simp_all
    · split at h
      · split at h
        · simp_all
        · rcases List.mem_cons.1 h with h | h <;> simp_all
      · rcases List.mem_cons.1 h with h | h
        · simp [h]
        · rcases ih h with h | h <;> simp_all

theorem Mem.wf_write {m : Mem} (h : Mem.wf m = true) (a : Nat) (b : Byte) : Mem.wf (Mem.write m a b) = true := by
  induction m with
  | nil => simp only [Mem.write]; split <;> simp_all [Mem.wf, Mem.above]
  | cons c m ih =>
    obtain ⟨h1, h2, h3⟩ := (Mem.wf_cons c m).1 h
    simp only [Mem.write]
    split
    · rename_i hlt
      split
      · exact h
      · rename_i hb
        refine (Mem.wf_cons _ _).2 ⟨by simpa using hb, ?_, h⟩
        intro d hd
        rcases List.mem_cons.1 hd with rfl | hd
        · exact hlt
        · exact Nat.lt_trans hlt (h2 d hd)
    · split
      · rename_i heq
        have heq : c.1 = a := by simpa using heq
        split
        · exact h3
        · rename_i hb
          exact (Mem.wf_cons _ _).2 ⟨by simpa using hb, fun d hd => by simpa [heq] using h2 d hd, h3⟩
      · rename_i hlt hne
        refine (Mem.wf_cons _ _).2 ⟨h1, ?_, ih h3⟩
        intro d hd
        rcases Mem.mem_write hd with rfl | hd
        · have hne : c.1 ≠ a := by simpa using hne
          show c.1 < a
          omega
        · exact h2 d hd

theorem Mem.wf_filter {m : Mem} (h : Mem.wf m = true) (p : Nat × Byte → Bool) : Mem.wf (m.filter p) = true := by
  induction m with
  | nil => rfl
  | cons c m ih =>
    obtain ⟨h1, h2, h3⟩ := (Mem.wf_cons c m).1 h
    by_cases hp : p c = true
    · rw [List.filter_cons_of_pos hp]
      exact (Mem.wf_cons _ _).2 ⟨h1, fun d hd => h2 d (List.mem_of_mem_filter hd), ih h3⟩
    · rw [List.filter_cons_of_neg hp]; exact ih h3

theorem Mem.wf_clear {m : Mem} (h : Mem.wf m = true) (lo hi : Nat) : Mem.wf (Mem.clear m lo hi) = true := Mem.wf_filter h _

theorem Mem.wf_writeN {m : Mem} (h : Mem.wf m = true) (a : Nat) (bs : List Byte) : Mem.wf (Mem.writeN m a bs) = true := by
  induction bs generalizing m a with
  | nil => exact h
  | cons b bs ih => exact ih (Mem.wf_write h a b) (a + 1)

theorem Mem.wf_writeLe {m : Mem} (h : Mem.wf m = true) (a n w : Nat) : Mem.wf (Mem.writeLe m a n w) = true := Mem.wf_writeN h _ _

theorem Mem.wf_scatter {m : Mem} (h : Mem.wf m = true) (key : Nat → Nat) (a : Nat) (bs : List Byte) :
    Mem.wf (Mem.scatter m key a bs) = true := by
  induction bs generalizing m a with
  | nil => exact h
  | cons b bs ih => exact ih (Mem.wf_write h _ b) (a + 1)

theorem Mem.wf_foldl {α : Type} {m : Mem} (h : Mem.wf m = true) (f : Mem → α → Mem) (hf : ∀ m x, Mem.wf m = true → Mem.wf (f m x) = true)
    (l : List α) : Mem.wf (l.foldl f m) = true := by
  induction l generalizing m with
  | nil => exact h
  | cons x l ih => exact ih (hf m x h)

theorem Mem.wf_copy {m : Mem} (h : Mem.wf m = true) (src dst n : Nat) : Mem.wf (Mem.copy m src dst n) = true :=
  Mem.wf_foldl (Mem.wf_clear h _ _) _ (fun _ _ hm => Mem.wf_write hm _ _) _

/-! ## Reads after writes -/

theorem Mem.read_above {m : Mem} {a : Nat} (h : ∀ c ∈ m, a < c.1) : Mem.read m a = 0 := by
  induction m with
  | nil => rfl
  | cons c m ih =>
    have hc := h c (List.mem_cons_self ..)
    have : c.1 ≠ a := by omega
    simp [Mem.read, this, ih fun d hd => h d (List.mem_cons_of_mem _ hd)]

theorem Mem.read_write_self {m : Mem} (h : Mem.wf m = true) (a : Nat) (b : Byte) : Mem.read (Mem.write m a b) a = b := by
  induction m with
  | nil => simp only [Mem.write]; split <;> simp_all [Mem.read]
  | cons c m ih =>
    obtain ⟨_, h2, h3⟩ := (Mem.wf_cons c m).1 h
    simp only [Mem.write]
    split
    · rename_i hlt
      split
      · rename_i hb
        have hb : b = 0 := by simpa using hb
        rw [hb]
        exact Mem.read_above fun d hd => by
          rcases List.mem_cons.1 hd with rfl | hd
          · exact hlt
          · exact Nat.lt_trans hlt (h2 d hd)
      · simp [Mem.read]
    · split
      · rename_i heq
        have heq : c.1 = a := by simpa using heq
        split
        · rename_i hb
          have hb : b = 0 := by simpa using hb
          rw [hb]
          exact Mem.read_above fun d hd => by simpa [heq] using h2 d hd
        · simp [Mem.read]
      · rename_i hne
        have hne : c.1 ≠ a := by simpa using hne
        simp [Mem.read, hne, ih h3]

theorem Mem.read_write_ne (m : Mem) {a x : Nat} (h : x ≠ a) (b : Byte) : Mem.read (Mem.write m a b) x = Mem.read m x := by
  induction m with
  | nil => simp only [Mem.write]; split <;> simp [Mem.read, h.symm]
  | cons c m ih =>
    simp only [Mem.write]
    split
    · split
      · rfl
      · simp [Mem.read, h.symm]
    · split
      · rename_i heq
        have heq : c.1 = a := by simpa using heq
        split <;> simp [Mem.read, heq, h.symm]
      · simp [Mem.read, ih]

theorem Mem.read_writeN_before (m : Mem) (a : Nat) (bs : List Byte) {x : Nat} (h : x < a) : Mem.read (Mem.writeN m a bs) x = Mem.read m x := by
  induction bs generalizing m a with
  | nil => rfl
  | cons b bs ih =>
    show Mem.read (Mem.writeN (Mem.write m a b) (a + 1) bs) x = _
    rw [ih _ _ (by omega), Mem.read_write_ne _ (by omega)]

theorem Mem.read_writeN_after (m : Mem) (a : Nat) (bs : List Byte) {x : Nat} (h : a + bs.length ≤ x) :
    Mem.read (Mem.writeN m a bs) x = Mem.read m x := by
  induction bs generalizing m a with
  | nil => rfl
  | cons b bs ih =>
    simp only [List.length_cons] at h
    show Mem.read (Mem.writeN (Mem.write m a b) (a + 1) bs) x = _
    rw [ih _ _ (by omega), Mem.read_write_ne _ (by omega)]

theorem Mem.readN_writeN {m : Mem} (h : Mem.wf m = true) (a : Nat) (bs : List Byte) : Mem.readN (Mem.writeN m a bs) a bs.length = bs := by
  induction bs generalizing m a with
  | nil => rfl
  | cons b bs ih =>
    show Mem.read (Mem.writeN (Mem.write m a b) (a + 1) bs) a :: Mem.readN (Mem.writeN (Mem.write m a b) (a + 1) bs) (a + 1) bs.length = _
    rw [Mem.read_writeN_before _ _ _ (by omega), Mem.read_write_self h, ih (Mem.wf_write h a b)]

/-- Reset's memories have the canonical form. -/
theorem Mem.wf_reset : Mem.wf State.reset.beds.mem = true := rfl

end Sys2Proof.Machine
end

