-- ==== Sys2Proof/Laws/Post.lean ====
section
/-! SUPPORT. Laws of mailbox posts: what a post does before its command's own effect, and how a command that passes its checks starts. -/

namespace Sys2Proof.Machine

theorem postFn_postOf {fn slot gen : Nat} (hf : fn < 512) (hs : slot < 4) : postFn (postOf fn slot gen) = fn := by
  simp only [postFn, postOf]; omega

theorem slot_postOf {fn slot gen : Nat} (hs : slot < 4) : postOf fn slot gen % 4 = slot := by
  simp only [postOf]; omega

theorem gen_postOf {fn slot gen : Nat} (hf : fn < 512) (hs : slot < 4) : postOf fn slot gen / 2048 = gen := by
  simp only [postOf]; omega

theorem not_replayPost {fn slot gen : Nat} (hf : fn < 512) (hs : slot < 4) (hg : gen < 2 ^ 20) : replayPost (postOf fn slot gen) = false := by
  simp only [replayPost, gen_postOf hf hs]; simp; omega

/-- A posted slot holds the copy of the request under the post's name. -/
theorem Posts.mb_postedAt {s : State} {fn slot : Nat} {sel : (Nat → Nat) → Bool} (h : Posts s fn slot sel) :
    (s.postedAt fn slot).mb (s.postName fn slot) = (s.slotAt fn slot).posted := by
  have hl : slot < (s.fn fn).slots.length := by rw [h.four]; exact h.slotOk
  simp [State.mb, State.postName, not_replayPost h.fnOk h.slotOk h.fresh, postFn_postOf h.fnOk h.slotOk, slot_postOf h.slotOk, State.postedAt,
    State.setMb, State.fn, State.setFn, nthD, setNth, List.getElem?_set]
  have hm := h.mine
  simp [State.fn] at hl
  simp [State.postName] at hm
  simp [hl, hm]

/-- A post of a free slot while Gaold serves starts its command. -/
theorem post_starts {s : State} {fn slot : Nat} {sel : (Nat → Nat) → Bool} (h : Starts s fn slot sel) (start : Nat → State → State) :
    post fn slot sel start s = .next (start (s.postName fn slot) (s.postedAt fn slot)) := by
  have hc := h.posts.chosen
  have hf : ((s.slotAt fn slot).st == 1) = false := by simpa using h.free
  have h1 : (s.setMb (s.postName fn slot) (s.slotAt fn slot).posted).serving = true := h.serving
  show (if fn ≥ numFns || slot ≥ 4 then _ else if !s.hasFn fn || !s.accepts || !sel (fun n => (nthD (s.slotAt fn slot).req n 0).toNat) then _
    else if (s.slotAt fn slot).st == 1 then _
    else if (s.setMb (s.postName fn slot) (s.slotAt fn slot).posted).serving then _ else _) = _
  rw [hc, hf, h1, h.posts.page, h.posts.powered, if_neg (by simp [numFns]; exact ⟨h.posts.fnOk, h.posts.slotOk⟩)]
  rfl

/-- A command that passes its checks has its body's effect. -/
theorem start_passes {s : State} {fn slot : Nat} {sel : (Nat → Nat) → Bool} {f : CmdForm} (h : Passes s fn slot sel f) (body : Nat → State → State) :
    (s.postedAt fn slot).start (s.postName fn slot) f body
      = body ((s.postedAt fn slot).target (s.postName fn slot)) (s.postedAt fn slot) := by
  have hk := h.checks
  unfold State.start
  simp only [hk]
  by_cases hn : f.named = true
  · obtain ⟨h1, h2⟩ := h.live hn
    rw [if_neg (by simp; intro _ a b c; rcases h1 a with d | d <;> simp_all)]
    simp only [hn, Bool.true_and]
    rw [if_neg]
    intro a
    simp only [Bool.and_eq_true, Bool.not_eq_true'] at a
    have := h2 a.1
    rw [List.contains_iff_mem.mpr this] at a
    simp at a
  · simp [hn]

/-- Posting and starting in one. -/
theorem post_passes {s : State} {fn slot : Nat} {sel : (Nat → Nat) → Bool} {f : CmdForm} (h : Passes s fn slot sel f) (body : Nat → State → State)
    {start : Nat → State → State} (hs : ∀ k t, start k t = t.start k f body) :
    post fn slot sel start s = .next (body ((s.postedAt fn slot).target (s.postName fn slot)) (s.postedAt fn slot)) := by
  rw [post_starts h.starts, hs, start_passes h]

end Sys2Proof.Machine
end

