-- ==== Sys2Proof/Laws/Tile.lean ====
section
/-! SUPPORT. What a tile instruction does before its own effect. -/

namespace Sys2Proof.Machine

variable {s : State} {core strand op p i : Nat} {f : TileFields}

/-- A tile instruction that passes the checks of its issue runs its body. -/
theorem tile_of_issues (h : TileIssues s core strand op p i f) (body : Nat → Nat → Flight → State → State) :
    tile core strand op f s body = .next (body p i (s.newFlight core strand op f) (s.atIssue core (s.newFlight core strand op f))) := by
  have h1 : ¬ (32 ≤ (s.strand core strand).flights.length) := by have := h.room; omega
  have h2 : ¬ (256 ≤ s.coreFlights core) := by have := h.coreRoom; omega
  have h3 := h.free
  rw [tile, issue_of_issues h.issues, if_neg (by simp [h.defined]), if_neg (by simp [State.flightsFull, h1, h2])]
  dsimp only
  rw [h3, if_neg (by decide)]
  split
  · rename_i he
    cases h.legal.symm.trans he
  · rfl

theorem adoptShape_strand (s : State) (core e k : Nat) (sh : Option (Nat × Nat)) (c t : Nat) : (s.adoptShape core e k sh).strand c t = s.strand c t := by
  unfold State.adoptShape
  split
  · split <;> simp [State.putSlot, State.modCore]
  · rfl

theorem dropShadows_strand (s : State) (core strand c t : Nat) : (s.dropShadows core strand).strand c t = s.strand c t := by
  simp [State.dropShadows, State.modCore]

theorem modCore_strand (s : State) (core : Nat) (f : Core → Core) (c t : Nat) : (s.modCore core f).strand c t = s.strand c t := by
  simp [State.modCore]

/-- What the strand is once the instruction is launched. -/
theorem launched_strand (x : Flight) (hp : (s.strand core strand).pc.toNat + 16 < 2 ^ 32) :
    (s.launched core strand x).strand core strand =
      { s.strand core strand with
        pc := (s.strand core strand).pc + 16
        flights := (s.strand core strand).flights ++ [x]
        issued := (s.strand core strand).issued + 1
        occ := if runAheadOp x.op.toNat then Tab.put x.pc.toNat (x.occ + 1) (s.strand core strand).occ else (s.strand core strand).occ } := by
  have key : ∀ c t, (s.launch core strand x).strand c t = (({ s with order := s.order + 1 } : State).setStrand core strand
      { s.strand core strand with
        flights := (s.strand core strand).flights ++ [x]
        issued := (s.strand core strand).issued + 1
        occ := if runAheadOp x.op.toNat then Tab.put x.pc.toNat (x.occ + 1) (s.strand core strand).occ else (s.strand core strand).occ }).strand c t := by
    intro c t
    simp only [State.launch]
    rw [modCore_strand]
  have key2 := key core strand
  simp only [State.strand_setStrand_self] at key2
  rw [State.launched, advance_of_lt (by rw [key2]; exact hp)]
  simp [key2, Strand.withPc]

end Sys2Proof.Machine
end

