-- ==== Sys2Proof/Tests/Slice0.lean ====
section
/-! SUPPORT. Tests: ill-formed commands that the check refuses, a state that meets the hypotheses of each statement, and single
steps whose results the manual gives. -/

open Sys2Proof Sys2Proof.Machine

namespace Sys2Proof.Tests

-- Each test in turn: side by side, their evaluations would need too many threads.
set_option Elab.async false

/-! ## Small states -/

/-- A running package. -/
def on : State := { State.reset with boot := { State.reset.boot with stage := .running } }

/-- A table entry: enabled, host function `fn`, own cores of cluster 0 `coreNum`, channels 0 and 1. -/
def entryOf (fn coreNum : Nat) : BitVec 2048 :=
  BitVec.ofNat 2048 (1 + fn * 2 ^ 8 + 2 ^ 104 + 2 ^ 352 + 2 ^ 384 + 2 ^ 385 + coreNum * 2 ^ 768)

/-- Pavilion 1, of VF 1, with one core and its strand 0 READY. -/
def one : State :=
  { on with pavs := [(1, { entry := entryOf 1 1 })], cores := [(0, { owner := some (1, 0), icache := [0, 1] })],
            strands := [(0, { mode := .ready, pc := 8, s0 := 24, s1 := 5 })] }

/-- `Issues`, computed. -/
def issuesB (s : State) (core strand len p i : Nat) : Bool :=
  decide (core < 1088) && decide (strand < 2048) && decide ((s.core core).owner = some (p, i)) && decide ((s.strand core strand).mode = .ready)
    && s.picks p core strand (len == 16) && (codeLines (s.core core).codeBase (s.strand core strand).pc len).all fun l => (s.core core).icache.contains l

theorem issues_of {s : State} {core strand len p i : Nat} (h : issuesB s core strand len p i = true) : Issues s core strand len p i := by
  simp only [issuesB, Bool.and_eq_true, decide_eq_true_eq, List.all_eq_true, List.contains_iff_mem] at h
  exact ⟨h.1.1.1.1.1, h.1.1.1.1.2, h.1.1.1.2, h.1.1.2, h.1.2, h.2⟩

theorem witness_Issues : Issues one 0 0 8 1 0 := issues_of (by decide +kernel)

/-- `TileIssues`, computed. -/
def tileIssuesB (s : State) (core strand op p i : Nat) (f : TileFields) : Bool :=
  let x := s.newFlight core strand op f
  issuesB s core strand 16 p i && !(tileShape op f).undefined f && decide ((s.strand core strand).flights.length < 32)
    && decide (s.coreFlights core < 256) && decide ((s.strand core strand).tileBlockers x ++ (s.strand core strand).slotBlockers x
      ++ (if x.drawsSrc then (s.strand core strand).srcBlockers else []) = [])
    && decide ((s.atIssue core x).tileFault p op f x.dd x.ds1 x.ds2 x.xs ((s.atIssue core x).slotOf core x.engine (slotNum f x.xs)) = none)
    && decide ((s.strand core strand).pc.toNat + 16 < 2 ^ 32)

theorem tileIssues_of {s : State} {core strand op p i : Nat} {f : TileFields} (h : tileIssuesB s core strand op p i f = true) :
    TileIssues s core strand op p i f := by
  simp only [tileIssuesB, Bool.and_eq_true, decide_eq_true_eq, Bool.not_eq_true'] at h
  exact ⟨issues_of h.1.1.1.1.1.1, h.1.1.1.1.1.2, h.1.1.1.1.2, h.1.1.1.2, h.1.1.2, h.1.2, h.2⟩

/-- A word (R112): location, format code, BASE, rows, columns and the bytes from row to row, dense. -/
def desc (loc fmt base rows cols pitch : Nat) : Desc :=
  BitVec.ofNat 256 (base + pitch * 2 ^ 64 + 2 ^ 96 + cols * 2 ^ 128 + rows * 2 ^ 152 + fmt * 2 ^ 176 + loc * 2 ^ 181)

/-- `one` with other descriptors in slots 0 to 2, and its PC at the last place of an instruction of `len` bytes. -/
def withDescs (a b c : Desc) : State :=
  { one with strands := [(0, { mode := .ready, pc := 0xFFFFFFE0, s0 := 24, s1 := 5, descs := [a, b, c, 0, 0, 0, 0, 0] })],
             cores := [(0, { owner := some (1, 0), icache := [0x3FFFFFF] })] }

/-- `SlotAdmits`, computed. -/
def slotAdmitsB (r : State) (p core : Nat) (x : Flight) (m : Tab PageLoc) : Bool :=
  let k := (r.slotOf core x.engine (slotNum x.f x.xs)).toList
  (x.op != 0x90 || x.f.opt0 || k.any fun k => k.n == x.ds1.extent1 && k.m == x.ds2.extent1 &&
    k.elems.all fun a => (a.auto || x.dd.auto || a.anchor == x.dd.anchor) && decide (a.count.toNat + x.ds1.extent0 < 2 ^ 32)) &&
  (x.op != 0x92 || x.f.fn != 0x10 || k.any fun k => k.n == x.ds1.extent0 && k.m == x.ds1.extent1 &&
    (k.elems.zip (tileAccs x.ds1 (r.opByte p core m {} x.ds1)).flatten).all fun a => !Acc.mismatch a.1 a.2 && !Acc.overCount a.1 a.2) &&
  (x.op != 0x93 || !x.f.opt0 || k.any fun k => k.n == x.dd.extent0 && k.m == x.dd.extent1)

theorem slotAdmits_of {r : State} {p core : Nat} {x : Flight} {m : Tab PageLoc} (h : slotAdmitsB r p core x m = true) : SlotAdmits r p core x m := by
  simp only [slotAdmitsB, Bool.and_eq_true, Bool.or_eq_true, bne_iff_ne, List.any_eq_true, Option.mem_toList, List.all_eq_true, beq_iff_eq,
    decide_eq_true_eq, Bool.not_eq_true'] at h
  obtain ⟨⟨h1, h2⟩, h3⟩ := h
  refine ⟨fun ho hf => ?_, fun ho hf => ?_, fun ho hf => ?_⟩
  · obtain (h | h) | ⟨k, hk, ⟨hn, hm⟩, he⟩ := h1
    · exact absurd ho h
    · simp [hf] at h
    · exact ⟨k, hk, hn, hm, fun a ha => ⟨by obtain ⟨(h | h) | h, -⟩ := he a ha <;> simp [h], (he a ha).2⟩⟩
  · obtain (h | h) | ⟨k, hk, ⟨hn, hm⟩, he⟩ := h2
    · exact absurd ho h
    · exact absurd hf h
    · exact ⟨k, hk, hn, hm, he⟩
  · obtain (h | h) | ⟨k, hk, hn, hm⟩ := h3
    · exact absurd ho h
    · simp [hf] at h
    · exact ⟨k, hk, hn, hm⟩

/-- `OneTile` in the states before and after the tile's pages are resolved, and what is asked of the slot, computed. -/
def oneTileB (l : State) (p core strand : Nat) (x : Flight) (res : Resolved × State) : Bool :=
  match res with
  | (.pages m, q) =>
    let r := q.tileTraffic p core m x (if isMove x.op.toNat then (l.tileRows p core x).map Prod.snd else List.range x.ds1.rows)
      ((l.tileRows p core x).map Prod.fst)
    decide (x.extent.1 ≤ x.extent.2) && !l.moverFull core strand x && decide (l.dropHurt p (l.tileReads p core x) = l) && decide (x.prog = .pending)
      && decide (l.badIndex p core x = none) && !q.replaying p
      && (m.all fun y => match y.2 with | .bed _ _ => true | .package => true | _ => false) && decide (r.badLs p core x.sources = none)
      && !r.badSlot core x
      && decide ((if isMove x.op.toNat && !x.fromSlot then r.badSource p m x.ds1 ((l.tileRows p core x).map Prod.snd)
        else (x.sources.findSome? fun d => r.badSource p m d (List.range d.rows))) = none)
      && decide ((if isMove x.op.toNat then r.badDest m x.dd ((l.tileRows p core x).map Prod.fst) else none) = none) && slotAdmitsB r p core x m
  | _ => false

theorem oneTile_of {l : State} {p core strand : Nat} {x : Flight}
    (h : oneTileB l p core strand x (l.resolve (clusterOf core) p (x.pages (l.pav p) (l.tileRows p core x))) = true) :
    ∃ r m, OneTile l r p core strand x m ∧ SlotAdmits r p core x m := by
  revert h
  generalize hr : l.resolve (clusterOf core) p (x.pages (l.pav p) (l.tileRows p core x)) = y
  unfold oneTileB
  obtain ⟨y, q⟩ := y
  cases y with
  | pages m =>
    intro h
    simp only [Bool.and_eq_true, decide_eq_true_eq, Bool.not_eq_true', List.all_eq_true] at h
    obtain ⟨⟨⟨⟨⟨⟨⟨⟨⟨⟨⟨h1, h2⟩, h3⟩, h4⟩, h5⟩, h6⟩, h7⟩, h8⟩, h9⟩, h10⟩, h11⟩, h12⟩ := h
    refine ⟨_, m, ⟨h1, h2, h4, h3, h5, ⟨q, hr, h6, rfl⟩, fun z hz => ?_, h8, h9, by simpa only [Bool.and_eq_true, Bool.not_eq_true'] using h10, h11⟩,
      slotAdmits_of h12⟩
    have hz := h7 z hz
    revert hz
    cases z.2 with
    | bed q cs => intro _; exact .inl ⟨q, cs, rfl⟩
    | package => intro _; exact .inr rfl
    | _ => intro hz; cases hz
  | _ => intro h; cases h

/-- A tile instruction of `s` passes its issue, finds its engine idle, has no shadow buffer and one tile that can be carried out at once. -/
def runsB (s : State) (op : Nat) (f : TileFields) : Bool :=
  let x := s.newFlight 0 0 op f
  let a := if op = 0xA2 then (s.atIssue 0 x).dropShadows 0 0 else s.atIssue 0 x
  let l := a.launched 0 0 x
  tileIssuesB s 0 0 op 1 0 f && decide ((a.core 0).shadowFor 0 x.pc x.occ = none) && !a.engineBusy 0 x
    && oneTileB l 1 0 0 x (l.resolve (clusterOf 0) 1 (x.pages (l.pav 1) (l.tileRows 1 0 x)))

/-- The hypotheses of MovementMovesOneTile and ComputeRunsOneTile. -/
def Runs (s : State) (op : Nat) (f : TileFields) : Prop :=
  TileIssues s 0 0 op 1 0 f ∧
    let x := s.newFlight 0 0 op f
    let a := if op = 0xA2 then (s.atIssue 0 x).dropShadows 0 0 else s.atIssue 0 x
    (a.core 0).shadowFor 0 x.pc x.occ = none ∧ a.engineBusy 0 x = false ∧ ∃ r m, OneTile (a.launched 0 0 x) r 1 0 0 x m ∧ SlotAdmits r 1 0 x m

theorem runs_of {s : State} {op : Nat} {f : TileFields} (h : runsB s op f = true) : Runs s op f := by
  simp only [runsB, Bool.and_eq_true, decide_eq_true_eq, Bool.not_eq_true'] at h
  exact ⟨tileIssues_of h.1.1.1, h.1.1.2, h.1.2, oneTile_of h.2⟩

/-! ## Statements about scalar instructions have states that meet their hypotheses -/

/-- The last PC from which an instruction can go on. -/
def atEnd : State :=
  { one with strands := [(0, { mode := .ready, pc := 0xFFFFFFF0, s0 := 65528, s1 := 5 })], cores := [(0, { owner := some (1, 0), icache := [0x3FFFFFF] })] }

theorem witness_AluResults : Issues atEnd 0 0 8 1 0 ∧ shapeAlu.undefined {} = false ∧ (atEnd.strand 0 0).pc.toNat + 8 < 2 ^ 32 :=
  ⟨issues_of (by decide +kernel), by decide +kernel, by decide +kernel⟩

theorem witness_MoveAndCompareResults : Issues atEnd 0 0 8 1 0 ∧ (atEnd.strand 0 0).pc.toNat + 8 < 2 ^ 32 ∧
    ((atEnd.strand 0 0).srcBlockers = [] ∧ (atEnd.strand 0 0).astatBlockers = []) ∧
    ∀ k ∈ [shapeCmp, shapeMovi, shapeDst, shapeGetd, shapeSetd, shapeClas, shapeSetsrc, shapeNone], k.undefined {} = false :=
  ⟨issues_of (by decide +kernel), by decide +kernel, by decide +kernel, by decide +kernel⟩

theorem witness_RegisterAndDescriptorFieldsReadBack : (5#3).toNat < 6 ∧ (0#3) ≠ 5#3 ∧ 0 < 256 ∧ (0 < 64 ∨ 95 < 0) ∧ 255 < 256 ∧ (255 < 184 ∨ 194 < 255) := by
  decide

/-- The last word of scratch and the last descriptor place. -/
theorem witness_ScratchLoads : Issues atEnd 0 0 8 1 0 ∧ (atEnd.strand 0 0).pc.toNat + 8 < 2 ^ 32 ∧
    (sramOutcome ({} : SramErr).symbols = .clean ∧ shapeLds.undefined { fn := 3 } = false ∧ 65528 % 8 = 0 ∧ ((atEnd.strand 0 0).reg 0 + (0 : Word32).signExtend 64).toNat = 65528 ∧
      65528 + 8 ≤ (atEnd.pav 1).scratchBytes ∧ (atEnd.strand 0 0).blockers ⟨0, 65528, 8⟩ false = [] ∧ atEnd.lsHurt 0 65528 8 = false) ∧
    (shapeLdd.undefined { imm := 0xFFFFFFE8 } = false ∧ 65504 % 32 = 0 ∧ ((atEnd.strand 0 0).reg 0 + (0xFFFFFFE8 : Word32).signExtend 64).toNat = 65504 ∧
      65504 + 32 ≤ (atEnd.pav 1).scratchBytes ∧ (atEnd.strand 0 0).blockers ⟨0, 65504, 32⟩ false = [] ∧ atEnd.lsHurt 0 65504 32 = false) :=
  ⟨issues_of (by decide +kernel), by decide +kernel, by decide +kernel, by decide +kernel⟩

theorem witness_ScratchStores : Issues atEnd 0 0 8 1 0 ∧ Mem.wf atEnd.beds.ls = true ∧ (atEnd.strand 0 0).pc.toNat + 8 < 2 ^ 32 ∧
    (shapeSts.undefined { fn := 3 } = false ∧ 65528 + 8 ≤ (atEnd.pav 1).scratchBytes ∧ (atEnd.strand 0 0).blockers ⟨0, 65528, 8⟩ true = []) ∧
    (shapeStd.undefined { imm := 0xFFFFFFE8 } = false ∧ 65504 + 32 ≤ (atEnd.pav 1).scratchBytes ∧ (atEnd.strand 0 0).blockers ⟨0, 65504, 32⟩ true = []) :=
  ⟨issues_of (by decide +kernel), by decide +kernel, by decide +kernel, by decide +kernel, by decide +kernel⟩

theorem witness_BranchesAndJumps : Issues atEnd 0 0 8 1 0 ∧ (atEnd.strand 0 0).pc.toNat + 8 < 2 ^ 32 ∧
    (∀ k ∈ [shapeBr, shapeJmp, shapeJmpr, shapeCall], k.undefined {} = false) ∧
    -- a taken and an untaken branch, a target below 2^32 and one at it, JMPR aligned
    ((atEnd.strand 0 0).reg 0 = (atEnd.strand 0 0).reg 0 ∧ ¬(atEnd.strand 0 0).reg 0 ≠ (atEnd.strand 0 0).reg 0) ∧
    (0xFFFFFFF0 + (1 : Word32).toInt * 8 < 2 ^ 32 ∧ ¬0xFFFFFFF0 + (2 : Word32).toInt * 8 < 2 ^ 32) ∧
    ((atEnd.strand 0 0).reg 0).toNat % 8 = 0 ∧ ((atEnd.strand 0 0).reg 1).toNat % 8 ≠ 0 :=
  ⟨issues_of (by decide +kernel), by decide +kernel, by decide +kernel, by decide +kernel, by decide +kernel, by decide +kernel, by decide +kernel⟩

theorem witness_StrandControl : Issues atEnd 0 0 8 1 0 ∧ (atEnd.strand 0 0).pc.toNat + 8 < 2 ^ 32 ∧
    (∀ k ∈ [shapeSpawn, shapeNone, shapeFence], k.undefined {} = false) ∧
    (0xFFFFFFF0 + (1 : Word32).toInt * 8 < 2 ^ 32 ∧ (atEnd.strand 0 1).mode = .free ∧ (∀ m, m < 1 → (atEnd.strand 0 m).mode ≠ .free)) ∧
    (atEnd.strand 0 0).flights.findSome? Flight.stall = none ∧ (atEnd.strand 0 0).flights = [] ∧ (atEnd.pav 1).isSpan = false ∧
    -- FENCE FN 1 of a strand of a member of a span
    (let m : State := { atEnd with pavs := [(1, { entry := entryOf 1 1 ||| BitVec.ofNat 2048 (2 ^ 64 + 2 ^ 92), span := { st := 2, members := [0, 6] } })] }
     issuesB m 0 0 8 1 0 = true ∧ (m.pav 1).isSpan = true ∧ (1 : BitVec 5) ≠ 0) :=
  ⟨issues_of (by decide +kernel), by decide +kernel, by decide +kernel, by decide +kernel, by decide +kernel, by decide +kernel, by decide +kernel, by decide +kernel⟩

/-! ## Statements about tile instructions -/

/-- A translation of the first page of the DVA space to channel-set page 3, accessed and written before. -/
def mapped (s : State) : State :=
  ((s.writeCs 1 0 (leBytes 8 (65536 + 1))).writeCs 1 65536 (leBytes 8 (131072 + 1))).writeCs 1 131072 (leBytes 8 (196608 + 0xDA))

/-- The same without WR. -/
def readOnly (s : State) : State := (mapped s).writeCs 1 131072 (leBytes 8 (196608 + 0x4A))

/-- A slice with one piece, resident in segment 1 of core 0. -/
def withSlice (s : State) : State :=
  { s with pavs := [(1, { entry := entryOf 1 1, slices := [(5, { home := 0, pieces := 1, resident := [(0, { core := 0, segment := 1, resident := true, written := true })] })] })] }

/-- Accumulator slot 0 of engine 0 with a shape, each element with a count. -/
def withSlot (n m count : Nat) (s : State) : State :=
  s.putSlot 0 0 0 (some { n := n, m := m, elems := List.replicate (n * m) { count := BitVec.ofNat 32 count } })

/-- Two rows of four bytes (FP32, one element each) at the end of scratch, or elsewhere. -/
def rows2 (loc base : Nat) : Desc := desc loc 0x0C base 2 1 4

theorem witness_MovementMovesOneTile :
    Runs (withDescs (rows2 0 65528) (rows2 0 0) 0) 0x82 { ds1 := 1 } ∧
    Runs (withSlice (withDescs (rows2 0 65528) (rows2 1 (5 * 2 ^ 40 + 65528)) 0)) 0x80 { ds1 := 1 } ∧
    Runs (mapped (withDescs (rows2 2 65528) (rows2 0 0) 0)) 0x81 { ds1 := 1 } ∧
    Runs (withSlice (withDescs (rows2 0 65528) (rows2 1 (5 * 2 ^ 40)) (desc 0 0x0D 8 1 2 8))) 0x83 { ds1 := 1, ds2 := 2 } ∧
    Runs (mapped (withDescs (rows2 2 65528) (rows2 0 0) (desc 0 0x0D 8 1 2 8))) 0x84 { ds1 := 1, ds2 := 2 } ∧
    Runs (withDescs (rows2 4 65528) (rows2 0 0) 0) 0xA2 { ds1 := 1 } ∧
    Runs (withDescs (rows2 0 65528) (rows2 4 0) 0) 0xA3 { ds1 := 1 } :=
  ⟨runs_of (by decide +kernel), runs_of (by decide +kernel), runs_of (by decide +kernel), runs_of (by decide +kernel),
    runs_of (by decide +kernel), runs_of (by decide +kernel), runs_of (by decide +kernel)⟩

theorem witness_ComputeRunsOneTile :
    Runs (withDescs (desc 0 0x10 0 2 2 4096) (desc 0 0 64 2 4 4) (desc 0 0 128 2 4 4)) 0x90 { ds1 := 1, ds2 := 2, opt := 1 } ∧
    Runs (withSlot 2 2 0xFFFFFFFB (withDescs (desc 0 0x10 0 2 2 4096) (desc 0 0 64 2 4 4) (desc 0 0 128 2 4 4))) 0x90 { ds1 := 1, ds2 := 2 } ∧
    Runs (withSlot 2 1 0xFFFFFFFF (withDescs 0 (desc 0 0x10 0 1 2 4096) 0)) 0x92 { ds1 := 1, fn := 0x10 } ∧
    Runs (withSlot 1 2 0 (withDescs (rows2 0 65528) 0 0)) 0x93 { opt := 1 } ∧
    Runs (withDescs (rows2 0 65528) (rows2 0 0) (rows2 0 64)) 0x91 { ds1 := 1, ds2 := 2, fn := 6 } ∧
    Runs (withSlice (withDescs (rows2 0 65528) (rows2 1 (5 * 2 ^ 40)) 0)) 0x92 { ds1 := 1 } ∧
    Runs (withDescs (rows2 0 65528) (rows2 0 0) 0) 0x93 { ds1 := 1 } ∧
    Runs (withDescs (desc 0 0x0A 2048 1 256 512) (desc 0 0x0E 0 1 256 1024) 0) 0x94 { ds1 := 1 } :=
  ⟨runs_of (by decide +kernel), runs_of (by decide +kernel), runs_of (by decide +kernel), runs_of (by decide +kernel), runs_of (by decide +kernel),
    runs_of (by decide +kernel), runs_of (by decide +kernel), runs_of (by decide +kernel)⟩

/-- A dense copy whose rows overlap, at the end of a local store. -/
theorem witness_LocalCopyCopiesRows :
    let x : Flight := { op := 0x82, f := { ds1 := 1 }, pc := 0, dd := rows2 0 65528, ds1 := rows2 0 65524, ds2 := 0, xs := 0 }
    (∀ op ∈ [0x80#8, 0x82#8, 0xA2#8, 0xA3#8], ({ x with op := op } : Flight).op.toNat ∈ [0x80, 0x82, 0xA2, 0xA3] ∧
      ({ x with op := op } : Flight).fromSlot = false ∧ x.dd.rows ≤ rowsPerTile op.toNat x.f x.dd x.ds1) ∧
    Mem.wf one.beds.ls = true ∧ one.recording 1 = false ∧ x.dd.loc = 0 ∧ x.ds1.loc = 0 ∧ x.dd.stride0 = 1 ∧ x.ds1.stride0 = 1 ∧
    x.dd.rowBytes ≤ x.dd.stride1 ∧ x.dd.rowBytes = x.ds1.rowBytes ∧ x.dd.base + x.dd.span x.dd.rows ≤ 2 ^ 25 ∧ x.tile = 0 := by
  decide +kernel

/-- A cleared slot, and one continued with its shape at the last counts that have room. -/
theorem witness_TmmAccumulates :
    let w := desc 0 0 64 2 4 4
    let old : List Acc := List.replicate 4 { count := 0xFFFFFFFB }
    (({ opt := 1 } : TileFields).opt0 = true ∧ w.extent1 = 2 ∧
      ∀ a ∈ List.replicate (2 * 2) (Acc.fresh (rows2 0 0).auto (rows2 0 0).anchor), a.count.toNat + w.extent0 < 2 ^ 32) ∧
    (({} : TileFields).opt0 = false ∧ ((⟨2, 2, old, true⟩ : Slot).n = w.extent1 ∧ (⟨2, 2, old, true⟩ : Slot).m = w.extent1) ∧
      old.length = w.extent1 * w.extent1 ∧
      ∀ a ∈ old, ((rows2 0 0).auto = true ∨ a.auto = true ∨ a.anchor = (rows2 0 0).anchor) ∧ a.count.toNat + w.extent0 < 2 ^ 32) := by
  decide +kernel

theorem witness_AnchoredSumsAreExactAndOrderFree :
    let a : Acc := {}
    let ps : List Machine.Num := [.fin false 1 0, .fin true 3 200]
    let qs : List Machine.Num := [.fin false 5 (-300)]
    a.auto = false ∧ (a.addAll ps).isSome = true ∧ ((Acc.fresh false a.anchor).addAll qs).isSome = true ∧ (a.addAll (ps ++ qs)).isSome = true ∧
      ps.Perm [.fin true 3 200, .fin false 1 0] :=
  ⟨rfl, by decide +kernel, by decide +kernel, by decide +kernel, List.Perm.swap _ _ _⟩

theorem witness_AccSumNeverWraps : ((Acc.fresh false 5).addAll [.fin false 1 400, .fin true 1 400, .nan]).isSome = true := by decide +kernel

/-! ## Messages and synchronisation -/

/-- Two instructions in flight of one strand whose keys match: a TSEND and a TRECV of two rows. -/
def posted : State :=
  let k : MsgKey := ⟨0, 0, 7, 9⟩
  { one with
    strands := [(0, { mode := .waiting, flights := [
      { num := 1, op := 0xA0, f := {}, pc := 0, dd := 0, ds1 := rows2 0 0, ds2 := 0, xs := 0, prog := .posted },
      { num := 2, op := 0xA1, f := {}, pc := 16, dd := rows2 0 65528, ds1 := 0, ds2 := 0, xs := 0, prog := .posted }] })],
    pavs := [(1, { entry := entryOf 1 1, sends := [⟨k, 0, 0, 1⟩], recvs := [⟨k, 0, 0, 2⟩] })] }

theorem witness_MessagesPostAndMatch :
    (TileIssues (withDescs 0 (rows2 0 65528) 0) 0 0 0xA0 1 0 { ds1 := 1, xs := 6, imm := 0xFFFFFFFF } ∧
      TileIssues (withDescs (rows2 0 65528) 0 0) 0 0 0xA1 1 0 { xs := 6, imm := 0xFFFFFFFF }) ∧
    let q : Post := ⟨⟨0, 0, 7, 9⟩, 0, 0, 1⟩
    let r : Post := ⟨⟨0, 0, 7, 9⟩, 0, 0, 2⟩
    (posted.pav 1).sends.find? (fun z => z.key == q.key) = some q ∧ (posted.pav 1).recvs.find? (fun z => z.key == q.key) = some r ∧
    (match (posted.strand 0 0).flight 1, (posted.strand 0 0).flight 2 with
      | some x, some y => decide (x.f.opt0 = false ∧ y.f.opt0 = false ∧ posted.badLs 1 0 x.sources = none ∧ posted.badSlot 0 x = false ∧ x.ds1.fmt = some .fp32 ∧
        y.dd.fmt = some .fp32 ∧ y.dd.extent0 = x.ds1.extent0 ∧ y.dd.extent1 = x.ds1.extent1)
      | _, _ => false) = true :=
  ⟨⟨tileIssues_of (by decide +kernel), tileIssues_of (by decide +kernel)⟩, by decide +kernel, by decide +kernel, by decide +kernel⟩

/-- A barrier that still expects one arrival. -/
def atBarrier : State := { withDescs 0 0 0 with pavs := [(1, { entry := entryOf 1 1, barriers := [(15, { expected := 24, arrived := [(0, 1)] })] })] }

theorem witness_SynchronisationWaits :
    (TileIssues (withDescs 0 0 0) 0 0 0xB0 1 0 { imm := 15 } ∧ Tab.find 15 ((withDescs 0 0 0).pav 1).barriers = none) ∧
    (TileIssues atBarrier 0 0 0xB0 1 0 { imm := 15 } ∧ 0 < ((atBarrier.strand 0 0).reg 0).toNat ∧
      Tab.find 15 (atBarrier.pav 1).barriers = some { expected := ((atBarrier.strand 0 0).reg 0).toNat, arrived := [(0, 1)] } ∧ [(0, 1)].length < 24) ∧
    TileIssues (withDescs 0 0 0) 0 0 0xB1 1 0 { imm := 0xFFFF } ∧
    (TileIssues (withDescs 0 0 0) 0 0 0xB1 1 0 { fn := 1, imm := 65528 } ∧ (withDescs 0 0 0).lsHurt 0 65528 8 = false) ∧
    (TileIssues (withDescs 0 0 0) 0 0 0xB2 1 0 {} ∧ (withDescs 0 0 0).commitSteps 1 = [] ∧
      ((withDescs 0 0 0).pav 1).committed.toNat < ((withDescs 0 0 0).strand 0 0).s0.toNat) :=
  ⟨⟨tileIssues_of (by decide +kernel), by decide +kernel⟩, ⟨tileIssues_of (by decide +kernel), by decide +kernel⟩, tileIssues_of (by decide +kernel),
    ⟨tileIssues_of (by decide +kernel), by decide +kernel⟩, tileIssues_of (by decide +kernel), by decide +kernel⟩

/-! ## Core events and the sync tree -/

/-- A running package with pavilion 1 as given, with one core. -/
def pav1 (v : Pav) : State := { one with pavs := [(1, { v with entry := entryOf 1 1 })] }

/-- `one` with strand 2,047 of its core as given. -/
def strandAs (t : Strand) : State := { one with strands := [(0, { mode := .ready }), (2047, t)] }

/-- An instruction in flight with operands at the end of scratch. -/
def inFlight (prog : Prog) : Flight :=
  { num := 3, op := 0x82, f := { ds1 := 1 }, pc := 0, dd := rows2 0 65528, ds1 := rows2 0 0, ds2 := 0, xs := 0, prog := prog }

theorem witness_CoreEventsComplete :
    let ic : State := { strandAs { mode := .waiting, wait := .icache 8, pc := 2 ^ 16 - 8 } with
      pavs := [(1, { entry := entryOf 1 1, slices := [(5, { home := 0, pieces := 2, code := true, resident := [(0, { core := 0, segment := 1, resident := true })] })] })] }
    let wake := strandAs { mode := .waiting, wait := .operand [3] }
    let gone := strandAs { mode := .waiting, wait := .exit }
    let done := strandAs { mode := .waiting, flights := [inFlight .moved] }
    let next := strandAs { mode := .waiting, flights := [inFlight .pending] }
    let pred := strandAs { mode := .waiting, wait := .operand [3], pc := 64, predicates := [64], flights := [inFlight .pending] }
    let ahead := strandAs { mode := .runAhead, wait := .operand [3] }
    let sh : Shadow := { strand := 2047, load := ⟨0, 0, 0x80, 0, 0, 0⟩, complete := true }
    let buf : State := { strandAs { mode := .waiting, flights := [inFlight (.promote 7)] } with
      cores := [(0, { owner := some (1, 0), shadows := [(7, sh)] })] }
    let ld : Shadow := { strand := 2047, load := ⟨0, 0, 0x80, rows2 0 65528, rows2 2 0, 0⟩, rows := [0, 1] }
    let spec : State := { readOnly one with cores := [(0, { owner := some (1, 0), shadows := [(7, ld)] })] }
    (one.core 0).owner = some (1, 0) ∧
    ((ic.strand 0 2047).wait = .icache 8 ∧ ic.missingLine 0 2047 8 = some 1023 ∧ (ic.codePiece 1 1023).isSome = true) ∧
    ((wake.strand 0 2047).mode = .waiting ∧ (wake.strand 0 2047).wait ≠ .exit ∧ wake.cleared 0 2047 = true ∧
      (wake.strand 0 2047).flights.findSome? Flight.stall = none) ∧
    ((gone.strand 0 2047).mode = .waiting ∧ (gone.strand 0 2047).wait = .exit ∧ (gone.strand 0 2047).flights = []) ∧
    ((done.strand 0 2047).flights[0]? = some (inFlight .moved) ∧ (isMove (inFlight .moved).op.toNat && moverBefore (done.strand 0 2047).flights 0) = false ∧
      done.fillsOpen (inFlight .moved).fills.1 (inFlight .moved).fills.2 = false) ∧
    (next.strand 0 2047).flights[0]? = some (inFlight .pending) ∧
    ((pred.strand 0 2047).atPredicate = true ∧ (pred.strand 0 2047).mode = .waiting ∧ (pred.core 0).freeShadow.isSome = true ∧
      (pred.strands.filter fun x => x.1 / 2048 == 0 && x.2.mode == .runAhead).length < 8) ∧
    ((ahead.strand 0 2047).mode = .runAhead ∧ ahead.cleared 0 2047 = true ∧ (ahead.strand 0 2047).flights.findSome? Flight.stall = none) ∧
    (Tab.find 7 (spec.core 0).shadows = some ld ∧ spec.hurtPieces 1 ld.load.src ld.rows = [] ∧
      (match spec.specPages 0 1 (ld.load.src.pagesOf (spec.pav 1) ld.rows) with
        | (some m, u) => decide (u.badSource 1 m ld.load.src ld.rows = none)
        | _ => false) = true) ∧
    (Tab.find 7 (buf.core 0).shadows = some sh ∧ sh.strand = 2047 ∧ sh.complete = true ∧ sh.hurt = false ∧
      (buf.strand 0 2047).flights.find? (fun y => y.prog == .promote 7) = some (inFlight (.promote 7)) ∧
      buf.touchesLs 0 3 (inFlight (.promote 7)).dd.range = false) := by
  decide +kernel

/-- The strands of a pavilion of one core as given. -/
def strandsAs (v : Pav) (ts : Tab Strand) : State := { pav1 v with strands := ts }

/-- A begun run of one layer with two kernels. -/
def run1 : Run :=
  { slot := none, first := 0, last := 0, repeats := 1, layers := [BitVec.ofNat 256 (2 * 2 ^ 28)], kernels := [(0, 0), (1, 0)], slices := [], begun := true }

theorem witness_SyncTreeForwardsAndDecides :
    let bar := strandsAs { barriers := [(15, { expected := 1, arrived := [(0, 0)] })] } [(0, { mode := .waiting, wait := .barrier 15 })]
    let com := strandsAs {} [(0, { mode := .waiting, wait := .commit 9 })]
    let ker := { strandsAs { runs := [{ run1 with started := true }] } [] with cores := [(0, { owner := some (1, 0) })] }
    let barRoot := pav1 { barriers := [(0, { expected := 1, forwarded := [(72, 1)] })] }
    let comRoot := pav1 { commit := some { step := 9, forwarded := [(72, 1)] } }
    let kerRoot := pav1 { runs := [run1] }
    let cyc : State := { one with pavs := [(1, { entry := entryOf 1 1 ||| BitVec.ofNat 2048 (2 ^ 2), runs := [run1] })] }
    (bar.pav 1).bound = true ∧ bar.nodeServes 1 0 = true ∧
    (0 < bar.barrierCount { expected := 1, arrived := [(0, 0)] } 0 ∧ bar.barrierDone 1 { expected := 1, arrived := [(0, 0)] } 0 = true ∧
      Tab.find 0 ({ expected := 1 } : Barrier).forwarded = none) ∧
    (com.nodeServes 1 0 = true ∧ com.treeDone 1 0 [] (com.commitArrived 1) = true ∧ com.commitSteps 1 = [9] ∧ ({} : Commit).step = 0) ∧
    (ker.nodeServes 1 0 = true ∧ ker.treeDone 1 0 [] (fun x => !(ker.core x).running) = true ∧ (ker.pav 1).runs = [{ run1 with started := true }]) ∧
    ((barRoot.pav 1).isSpan = false ∧ ({ expected := 1, forwarded := [(72, 1)] } : Barrier).members = [] ∧ 1 ≤ atRoot [(72, 1)]) ∧
    (comRoot.rootDone 1 [(72, 1)] = true ∧ (9 : Word64) ≠ 0) ∧
    (kerRoot.kernelReady 1 = true ∧ (kerRoot.pav 1).cycle = false ∧ (kerRoot.pav 1).kernel.tick = none) ∧
    (cyc.kernelReady 1 = true ∧ (cyc.pav 1).cycle = true ∧ (cyc.pav 1).bound = true ∧ run1.iter = 0 ∧ run1.layer = 0 ∧ run1.kernel = 0) := by
  decide +kernel

theorem witness_ReleasesResumeStrands :
    let bar := strandsAs { barriers := [(15, { expected := 1, arrived := [(0, 2047)], tick := some 0 })] }
      [(2047, { mode := .waiting, wait := .barrier 15, pc := 0xFFFFFFEF })]
    let com := strandsAs { commit := some { step := 9, tick := some 0 } } [(2047, { mode := .waiting, wait := .commit 9, pc := 0xFFFFFFEF })]
    let next := strandsAs { barriers := [(15, { expected := 1, arrived := [(0, 2047)], tick := some 0, later := [(2, [(0, 5)])], early := [(1, 1, 2)] })] }
      [(5, { mode := .waiting, wait := .barrier 15, pc := 16 }), (2047, { mode := .waiting, wait := .barrier 15, pc := 0xFFFFFFEF })]
    let h : Held := { step := some 8, core := 0, strand := 0, dva := 0, iova := 0, sealed := false, bytes := [1] }
    let span : State := { one with pavs := [(1, { entry := entryOf 1 1 ||| BitVec.ofNat 2048 (2 ^ 64 + 2 ^ 92), deliveries := [(8, 0), (9, 0)], held := [h] })] }
    (Tab.find 15 (bar.pav 1).barriers = some { expected := 1, arrived := [(0, 2047)], tick := some 0 } ∧ (bar.strand 0 2047).pc.toNat + 16 < 2 ^ 32 ∧
      (bar.strand 0 2047).wait = .barrier 15 ∧ (bar.strand 0 2047).flights.findSome? Flight.stall = none ∧
      bar.flipFirst 1 0 = false ∧ (bar.pav 1).commitFirst 0 = false ∧ ({ expected := 1 } : Barrier).later = [] ∧
      (Tab.find 15 (next.pav 1).barriers).map Barrier.later = some [(2, [(0, 5)])] ∧ (Tab.find 15 (next.pav 1).barriers).map Barrier.tick = some (some 0) ∧
      next.flipFirst 1 0 = false ∧ (next.pav 1).commitFirst 0 = false ∧ (next.strand 0 2047).wait = .barrier 15) ∧
    ((com.pav 1).commit = some { step := 9, tick := some 0 } ∧ com.replaying 1 = false ∧ com.recording 1 = false ∧ com.flipFirst 1 0 = false ∧
      ({ step := 9, tick := some 0 } : Commit).early = [] ∧
      ∀ x ∈ com.liveStrands 1, (com.strand x.1 x.2).pc.toNat + 16 < 2 ^ 32) ∧
    ((span.pav 1).isSpan = true ∧ ((span.pav 1).deliveries.find? fun d => decide (d.2.toNat ≤ span.time.now.toNat) &&
      (span.pav 1).held.all fun h => h.step != some d.1) = some (9, 0)) := by
  decide +kernel

theorem witness_RunsAndKernels :
    let begin_ := pav1 { runs := [{ run1 with begun := false }] }
    let due_ := pav1 { runs := [run1], kernel := { tick := some 0 } }
    let busy : State := { one with cores := [(0, { owner := some (1, 0), running := true })], strands := [(0, {})] }
    let ended := { pav1 { runs := [{ run1 with started := true }], kernel := { forwarded := [(72, 1)] } } with cores := [(0, { owner := some (1, 0) })] }
    let hang := pav1 { runs := [run1], watchdog := ({ entry := entryOf 1 1 } : Pav).wdogTicks }
    (begin_.replaying 1 = false ∧ begin_.mayBegin 1 = true) ∧
    (due_.kernelDue 1 = true ∧ due_.recording 1 = false ∧ ((due_.coresOf 1).map Prod.snd).Nodup ∧ (due_.coresOf 1) = [(0, 0)]) ∧
    ((busy.core 0).running = true ∧ ∀ x ∈ busy.strands, x.1 / 2048 = 0 → x.2.mode = .free) ∧
    (ended.rootDone 1 (ended.pav 1).kernel.forwarded = true ∧ (∀ x ∈ ended.coresOf 1, (ended.core x.2).running = false) ∧ run1.kernel + 1 < bits run1.entry 35 28) ∧
    (hang.watching 1 = true ∧ (hang.pav 1).wdogTicks ≤ (hang.pav 1).watchdog) := by
  decide +kernel

/-! ## Beds, orangery, time -/

/-- Pavilion 1 fills piece 0 of slice 5 into the last segment of core 0. -/
def filling (written : Bool) : State :=
  mapped (pav1 { slices := [(5, { home := 0, pieces := 1, filling := some 0, resident := [(0, { core := 0, segment := 383, written := written })] })] })

theorem witness_OrangeryFillsAndWalks :
    ((filling false).ownerOf 0 = some 1 ∧ (filling false).fills 1 = true ∧
      ((filling false).pav 1).slices.findSome? (fun x =>
        (x.2.resident.find? fun y => y.2.core == 0 && y.2.segment == 383 && !y.2.resident && x.2.nextRead == some y.1).map fun y => (x.1, y.1)) = some (5, 0) ∧
      ((filling false).homePiece 1 { home := 0, pieces := 1, filling := some 0 } 0).isSome = true ∧
      (filling false).beds.badIn (csKey ((filling false).pav 1) ((filling false).pav 1).channels) 196608 65536 = none) ∧
    (Tab.find 5 ((filling true).pav 1).slices).isSome = true ∧
    ((pav1 { slices := [(5, { home := 0, pieces := 1, filling := some 1 })] }).fills 1 = true ∧
      (pav1 { slices := [(5, { home := 0, pieces := 1, filling := some 1 })] }).fillOver 1 5 = true) ∧
    ((one.pav 1).bound = true ∧ (one.pav 1).chOwn ≠ 0 ∧ (2 ^ 55 - 2 ^ 17 : Word64).toNat < 2 ^ 55 ∧
      (2 ^ 55 - 2 ^ 17 : Word64).toNat / 65536 * 65536 ≠ packagePage) := by
  decide +kernel

theorem witness_AccessSlotServesHighestPriority :
    let ws : List McAccess := [{ kind := .copy, age := 9 }, { kind := .background, age := 5 }]
    let alone : List McAccess := [{ kind := .copy, age := 9 }]
    let gapped : State := { on with beds := { channels := [(383, { copyPoint := some 5, copySlots := 2, rowShadows := [0] })] } }
    let copying : State := { on with beds := { channels := [(383, { copyPoint := some 5, copySlots := 3 })] } }
    on.fuse.populated 383 = true ∧ (∃ a ∈ ws, on.mayServe 383 a = true) ∧
    (on.choose 383 ws).map (fun x => (x.1, x.2.1)) = some (1, { kind := .background, age := 5 }) ∧
    (∀ k ∈ [McKind.tenant 1 0, .spec 511 3, .window 0 64, .sys, .scrub, .stream 0 63], ((on.choose 383 [{ kind := k, age := 0 }]).map fun x => x.2.1.kind) = some k) ∧
    ((copying.choose 383 ws).map fun x => x.1) = some 0 ∧
    (∀ a ∈ alone, gapped.mayServe 383 a = false) ∧ on.beds.bad (bedKey 383 (0 * 64)) = false ∧ (on.channel 383).outcome 0 [] = .clean ∧
    (on.channel 383).outcome 0 [(67, 0x80)] = .corrected ∧ (gapped.channel 383).outcome 31 [] = .clean ∧ LineOp.part ≠ .whole := by
  decide +kernel

theorem witness_BedEvents :
    let copying : State := { on with beds := { channels := [(22, { copyPoint := some 5 })] } }
    let copied : State := { on with beds := { channels := [(22, { copyPoint := some linesPerChannel })] } }
    (on.fuse.populated 383 = true ∧ on.scrubs = true ∧ (on.channel 383).retired = false ∧ on.groupOn 383 = true ∧
      on.beds.bad (bedKey 383 ((on.channel 383).scrubLine * 64)) = false ∧
      (on.channel 383).outcome 0 [] = .clean ∧ (on.channel 383).outcome 0 [(67, 0x80)] = .corrected ∧
      (on.channel 383).outcome 0 [(0, 1), (67, 1)] = .uncorrectable) ∧
    (on.place 382 = true ∧ (on.channel 382).retired = false ∧ on.spareTaken (groupOf 382) = false ∧ (on.channel 382).worn on.now true = true ∧
      ({ rowShadows := List.replicate 8 0 } : Channel).worn 0 false = true ∧ ∀ x ∈ on.pools, x.2.defined = true → bitAt (on.pav x.2.holder).chMask 382 = false) ∧
    ((copied.channel 22).copyPoint = some linesPerChannel ∧ (copying.channel 22).copyPoint ≠ some linesPerChannel) ∧
    -- the failing channel's group has its spare free, or takes it already
    (copying.place 21 = true ∧ (copying.channel 21).retired = false ∧ (copying.channel (groupOf 21 * 24 + 22)).copyPoint ≠ none ∧
      ∀ i < 24, (on.channel (groupOf 382 * 24 + i)).spared = false ∧ (on.channel (groupOf 382 * 24 + i)).copyPoint = none) ∧
    (let row : State := { on with cores := [(1087, { lsRepairs := [(63, 7)], lsRows := [(383 * 64 + 63, (0, true))] })] }
     Tab.getD (row.core 1087).lsRepairs 63 0 < 8 ∧ (Tab.find (383 * 64 + 63) (row.core 1087).lsRows).map Prod.snd = some true) := by
  decide +kernel

theorem witness_ZeroingLeavesZeros :
    let z : State := { on with cores := [(1087, { zeroing := true })], beds := { zeroGranules := [383 * 4096 + 3589] } }
    (z.core 1087).zeroing = true ∧ 383 * 4096 + 3589 ∈ z.beds.zeroGranules := by
  decide +kernel

theorem witness_RegulationEvents :
    let full : State := { on with pavs := [(1, { entry := entryOf 1 1, reg := { table := BitVec.ofNat 2048 (2 ^ 2048 - 1) } })],
                                  beds := { channels := [(1, { retired := true })] } }
    let cured : State := { on with time := { now := 100000 }, beds := { channels := [(1, { scale := 1 })] } }
    (full.scaleFor 1 ≠ (full.channel 1).scale ∧ full.scaleFor 1 ≠ 1024) ∧ on.scaleFor 383 = (on.channel 383).scale ∧
    ((one.pav 1).bound = true ∧ ({ on with time := { now := 99 } } : State).time.now.toNat % 100 ≠ 0 ∧
      (let m : State := { one with pavs := [(1, { entry := entryOf 1 1, reg := { meters := [(3 * 512 + 511, {})] } })] }
       (Tab.find (3 * 512 + 511) (m.pav 1).reg.meters).isSome = true)) ∧
    ((cured.channel 1).scale ≠ 1024 ∧ cured.scaleFor 1 = 1024 ∧ 100000 ≤ (cured.time.now - (cured.channel 1).capAt).toNat ∧
      100000 ≤ (cured.time.now - cured.power.emergAt).toNat) ∧
    (on.time.now.toNat % 100 = 0 ∧ ∀ x ∈ on.pavs, x.2.bound = false) := by
  decide +kernel

theorem witness_TimeAdvances :
    (one.boot.refclk = true ∧ one.links.tsync.toMove = 0 ∧ one.unseals = []) ∧
    (({ one with time := { now := 1023 } } : State).time.now + 1).toNat % 1024 = 0 ∧ one.time.now.toNat % 1024 = 0 ∧ one.exposed = true := by
  decide +kernel

theorem witness_BulkMessagesAndReplies :
    let m : BulkMsg := { stream := 2048, vc := 2, dstLoc := 0 }
    let w : State := { one with pavs := [(1, { entry := entryOf 1 1, winding := 7 })] }
    let q : Sent := { core := 1087, strand := 0, num := 1, msg := { stream := 2048, kind := 4 } }
    ({ m with dstPkg := 4095 } : BulkMsg).dstPkg.toNat ≠ one.ownPkg ∧
    (m.formed = true ∧ m.dstPkg.toNat = one.ownPkg ∧ m.sys = false ∧ m.srcPkg.toNat = one.ownPkg ∧ m.kind ≠ 2 ∧ m.kind ≠ 3 ∧
      m.winding ≠ (w.pav (m.stream.toNat / 2048)).winding ∧ m.winding = (one.pav (m.stream.toNat / 2048)).winding) ∧
    ((Tab.getD one.net.pairs (bulkPair m) {}).early = [] ∧ m.seq = (Tab.getD one.net.pairs (bulkPair m) {}).expect ∧
      ∀ k ∈ [0#5, 1#5, 5#5, 6#5], ({ m with kind := k } : BulkMsg).formed = true ∧ ({ m with kind := k } : BulkMsg).pool = none ∧
        (Tab.getD one.net.pairs (bulkPair { m with kind := k }) {}).early = []) ∧
    ((∀ x ∈ one.net.sent, x.got.isSome = true) ∧ ({ m with kind := 3 } : BulkMsg).kind = 3) ∧
    (({ m with kind := 3, vc := 0 } : BulkMsg).formed = true ∧ q.got = none ∧ q.msg.sys = m.sys ∧ q.msg.stream = m.stream ∧ q.msg.seq = m.seq ∧ q.msg.dstPkg = m.srcPkg ∧ q.core < 1088 ∧ q.msg.kind = 4) := by
  decide +kernel

theorem witness_OnPackageLanes :
    -- the infrastructure of die 3, and the first cluster of die 0
    let l := 0x1000
    let worn : State := { one with net := { lanes := [(l * 65536, 2)], hopFails := [(l, 2)] } }
    (locOfLink 0x7C00 = true ∧ Tab.getD one.net.hopFails 0x7C00 0 < 2 ∧ Tab.getD one.net.lanes (0x7C00 * 65536 + 65535 / 64) 0 < 2) ∧
    (locOfLink l = true ∧ 2 ≤ Tab.getD worn.net.hopFails l 0 ∧ 2 ≤ Tab.getD worn.net.lanes (l * 65536 + 0 / 64) 0 ∧ worn.onDie 1 (l / 1024 % 4) = true) := by
  decide +kernel

/-! ## Links -/

/-- A running package with id 5 whose port 15 is as given. -/
def linked (x : Port) : State := { on with ports := [(15, x)], regs := { pkgId := some 5 } }

theorem witness_PortsTrainAndFail :
    let up := linked { st := 2, width := 2, goodLanes := 9 }
    let off := linked { st := 0 }
    let narrow := linked { st := 2, width := 2, laneOut := 8 }
    (off.exposed = true ∧ off.fuse.portOn 15 = true ∧ (off.port 15).st = 0 ∧ off.power.pads.getLsbD (15 / 4) = false ∧
      off.power.off.contains (15 / 4 * 20 + 18) = false ∧ ((linked { st := 4 }).port 15).st = 4) ∧
    -- a link group that Gaold turned off on its own
    (let own : State := { off with power := { off.power with off := [78], pads := 8, ownPads := 8 } }
     own.domainHeld (15 / 4 * 20 + 18) = false ∧ own.power.pads.getLsbD (15 / 4) = true ∧ own.power.ownPads.getLsbD (15 / 4) = true) ∧
    ((up.port 15).st = 2 ∧ (up.port 15).width = 2 ∧ (up.port 15).laneOut = 15 ∧ 8 < (up.port 15).goodLanes ∧
      ((linked { st := 2, width := 2, goodLanes := 8 }).port 15).goodLanes ≤ 8) ∧
    ((off.port 15).enable = true ∧ (off.port 15).quiesce = false ∧ off.portHeld 15 = false ∧ off.selfPeer 5 = true ∧ off.selfPeer 4095 = false) ∧
    ((narrow.port 15).st = 2 ∧ (narrow.port 15).laneOut ≠ 15) := by
  decide +kernel

theorem witness_FlitsIdsAndRoutes :
    let up := linked { st := 2, expect := 65535 }
    let f : FlitBits := { fseq := 65535, crc := 9765049154986438775 }
    let good (typ : Nat) (f : FlitBits) : Prop := crc64 (f.head typ ++ f.payload) = f.crc.toNat ∧ f.fecBad = 0
    ((up.port 15).st = 2 ∧ up.regs.pkgId ≠ none ∧ good 1 f ∧ BitVec.ofNat 16 f.fseq = (up.port 15).expect ∧
      -- out of order, with a wrong CRC, with a codeword that was not corrected
      good 1 { crc := 13658187450582133389 } ∧ BitVec.ofNat 16 0 ≠ (up.port 15).expect ∧ ¬good 1 { f with ack := 1 } ∧ ¬good 1 { f with fecBad := 15 }) ∧
    (let l : FlitBits := { fseq := 65535, crc := 13719037232903427070 }
     l.good 3 = true ∧ BitVec.ofNat 16 l.fseq = (up.port 15).expect) ∧
    (on.exposed = true ∧ on.regs.pkgId = none ∧ on.links.spanBase = none) ∧
    (({ up with links := { spanBase := some 0 } } : State).links.spanBase ≠ none) := by
  decide +kernel

/-- A READY member of rank `rank` of span 1 of two members, with barrier 15 in use. -/
def member (rank : Nat) : State :=
  { linked { st := 2 } with
    pavs := [(1, { entry := entryOf 1 1 ||| BitVec.ofNat 2048 (2 ^ 64 + rank * 2 ^ 80 + 2 ^ 92), span := { st := 2, members := [5, 6] },
                   barriers := [(15, { expected := 2 })] })] }

theorem leNat_lt (bs : List Byte) : leNat bs < 256 ^ bs.length := by
  induction bs with
  | nil => simp [leNat]
  | cons b bs ih => simp only [leNat, List.length_cons, Nat.pow_succ]; have := b.isLt; omega

theorem fp8_lt (bs : List Byte) : fp8 bs < 2 ^ 64 := by
  have h : leNat ((Config.shake256 8 bs).take 8) < 256 ^ 8 :=
    Nat.lt_of_lt_of_le (leNat_lt _) (Nat.pow_le_pow_right (by decide) (List.length_take_le _ _))
  exact h

theorem spanFp_lt (s : State) (p : Nat) : s.spanFp p < 2 ^ 64 := fp8_lt _

theorem witness_TimeMasterAndSpans :
    let t : TimeStamp := { flit := { crc := 8344967431575422738 }, sent := 0, peerGot := 18000, peerSent := 20000, got := 38000, master := 6, masterOffset := 0
                           depth := 1, sync := true }
    let heard (s : State) : State :=
      let q := (s.flitIn 15 4 t.flit).2
      q.sendPort 15 { q.port 15 with stamp := some t, latency := BitVec.ofNat 16 t.delayNs, control := (q.port 15).control ++ [4] }
    let alone := linked { st := 2 }
    let routed : State := { alone with links := { routes := [(6, 0x1F)] } }
    (alone.portUp 15 = true ∧ t.flit.good 4 = true ∧ BitVec.ofNat 16 t.flit.fseq = (alone.port 15).expect ∧
      (heard alone).master = some alone.ownPkg ∧ alone.regs.pkgId ≠ none) ∧
    (routed.portUp 15 = true ∧ BitVec.ofNat 16 t.flit.fseq = (routed.port 15).expect ∧ (heard routed).master = some 6 ∧ 6 ≠ routed.ownPkg ∧
      (heard routed).routeTo 6 = some 15) ∧
    (let f : FlitBits := { crc := 4172483715787711369 }
     (member 1).portUp 15 = true ∧ (member 1).regs.pkgId ≠ none ∧ f.good 2 = true ∧ BitVec.ofNat 16 f.fseq = ((member 1).port 15).expect ∧
      (member 1).memberOfSpan 1 = some 1 ∧ ((member 1).pav 1).span.st = 2 ∧ ((member 1).pav 1).spanRank ≠ 0 ∧
      (Tab.find 15 ((member 1).pav 1).barriers).isSome = true ∧ (({} : SyncGot).take 0 0).isSome = true ∧ ({ next := 1 } : SyncGot).take 0 0 = none) ∧
    (((member 1).pav 1).bound = true ∧ ((member 1).pav 1).isSpan = true ∧ 0 ≤ ((member 1).pav 1).spanLast ∧ 0 ≠ ((member 1).pav 1).spanRank ∧
      ((member 1).pav 1).resetting = none) ∧
    (((member 0).pav 1).spanRank = 0 ∧ ((member 0).pav 1).span.st = 2 ∧ 1 ≤ ((member 0).pav 1).spanLast ∧ (0 : Word64) = ((member 0).pav 1).span.flipTick) ∧
    (∃ roll : Word64, roll.toNat = (member 0).spanFp 1) ∧ ∃ roll : Word64, roll.toNat ≠ (member 0).spanFp 1 :=
  ⟨by decide +kernel, by decide +kernel, by decide +kernel, by decide +kernel, by decide +kernel,
    ⟨BitVec.ofNat 64 ((member 0).spanFp 1), by rw [BitVec.toNat_ofNat, Nat.mod_eq_of_lt (spanFp_lt _ _)]⟩,
    ⟨BitVec.ofNat 64 ((member 0).spanFp 1 + 1), by rw [BitVec.toNat_ofNat]; have := spanFp_lt (member 0) 1; omega⟩⟩

/-! ## Power -/

/-- A running package whose half 7 is as given. -/
def halfAs (x : Half) : State := { on with power := { on.power with halves := [(7, x)] } }

theorem witness_HalvesMoveAndClamp :
    let x : Half := { div := 12, want := 6, vset := 7000 }
    ((halfAs { div := 6 }).half 7).resetting = none ∧ ((halfAs { div := 6 }).half 7).div < ((halfAs { div := 6 }).half 7).target on.power.trimPending ∧
    (divUp x.div = some 8 ∧ x.target on.power.trimPending < x.div ∧ Tab.find 7 (halfAs x).power.avs = none ∧ setPoint 8 x.trim ≤ x.vset) ∧
    ((on.half 7).target on.power.trimPending = (on.half 7).div) ∧
    (0 * 1000 < 92 * on.droopPoint 7 ∧ (on.half 7).droopClamp = false ∧ (on.half 7).resetting = none) ∧
    (94 * (halfAs { droopClamp := true }).droopPoint 7 < 1000 * 1000 ∧ ((halfAs { droopClamp := true }).half 7).droopClamp = true) ∧
    0 * 1000 < 85 * on.droopPoint 7 ∧
    (96 < 97 ∧ (halfAs { floor := 12 }).sinceStep 7 1000000 = true ∧ divUp ((halfAs { floor := 12 }).half 7).floor = some 8) := by
  decide +kernel

theorem witness_RailsCapsAndDomains :
    let avs (a : Avs) (rail : Nat) : State := { on with power := { on.power with avs := [(rail, a)] } }
    let due_ : State := { on with time := { now := 400000000000 }, power := { on.power with unsaved := true, savedAt := some 0 } }
    (Tab.find 13 (avs { mv := 7000 } 13).power.avs = some { mv := 7000 } ∧ ({ mv := 7000 } : Avs).acked = false ∧ ({ mv := 7000 } : Avs).tries < 3) ∧
    (Tab.find 7 (avs { mv := 7000, acked := true } 7).power.avs = some { mv := 7000, acked := true } ∧
      Tab.find 8 (avs { mv := 7000, acked := true } 8).power.avs = some { mv := 7000, acked := true } ∧
      Tab.find 7 (avs { mv := 7000, tries := 3 } 7).power.avs = some { mv := 7000, tries := 3 } ∧ 3 ≤ ({ mv := 7000, tries := 3 } : Avs).tries) ∧
    (∀ x ∈ [((0 : Nat), (5 : Nat)), (13, 7), (0, 2)], x.1 < 14) ∧ on.exposed = true ∧ (on.port 0).st = 0 ∧
    ((on.boot.stage = .running) ∧ on.mayBeOff 0 = true ∧ on.mayBeOff 90 = true ∧ Tab.find 90 on.power.woke = none) ∧
    -- woken at TIME 1 and at the bound 10 ms after
    (let w (n : Nat) : State := { on with time := { now := BitVec.ofNat 64 n }, power := { on.power with woke := [(77, 1)] } }
     (w 1000000).mayBeOff 77 = true ∧ Tab.find 77 (w 1000000).power.woke = some 1 ∧ ((w 1000000).now - 1).toNat < 1000000 ∧
       1000000 ≤ ((w 1000001).now - 1).toNat) ∧
    (due_.power.unsaved = true ∧ hourTicks ≤ (due_.now - 0).toNat) := by
  decide +kernel

theorem witness_EnergyOfAnIntervalIsConserved :
    let heard : State := { one with time := { now := 100000 }, power := { one.power with heard := (List.range 14).map fun r => (r, (1000, 1)) } }
    (one.boot.stage = .running ∧ one.now.toNat % 100000 = 0 ∧ (∀ x ∈ [((511 : Nat), ([1, 2] : List Nat))], x.1 < 512) ∧ (one.pavs.map Prod.fst).Nodup ∧
      (∀ x ∈ one.pavs, x.1 < 512)) ∧
    (one.reconcile [] 0).1.valid = false ∧ (one.pav 1).bound = true ∧
    (heard.boot.stage = .running ∧ heard.now.toNat % 100000 = 0 ∧ (heard.reconcile [] 0).1.valid = true) := by
  decide +kernel

/-! ## Mailbox posts -/

/-- PF0's slot 3 holds these request words; VFs are enabled. -/
def mail (s : State) (ws : List Nat) : State :=
  { s with regs := { s.regs with vfs := 511 },
           fns := [(0, { slots := [{}, {}, {}, { req := ws.map (BitVec.ofNat 32) ++ List.replicate (16 - ws.length) 0 }] })] }

/-- `Posts` and `Passes`, computed. -/
def postsB (s : State) (fn slot : Nat) (sel : (Nat → Nat) → Bool) : Bool :=
  decide (fn < 512) && decide (Tab.find (s.postName fn slot) s.orphans = none) && decide (slot < 4) && s.hasFn fn && decide ((s.fn fn).slots.length = 4) && decide ((s.slotAt fn slot).gen < 2 ^ 20) && s.accepts
    && sel fun n => (nthD (s.slotAt fn slot).req n 0).toNat

theorem posts_of {s : State} {fn slot : Nat} {sel : (Nat → Nat) → Bool} (h : postsB s fn slot sel = true) : Posts s fn slot sel := by
  simp only [postsB, Bool.and_eq_true, decide_eq_true_eq] at h
  obtain ⟨⟨⟨⟨⟨⟨⟨h1, h2⟩, h3⟩, h4⟩, h5⟩, h6⟩, h7⟩, h8⟩ := h
  exact ⟨h1, h2, h3, h4, h5, h6, h7, h8⟩

def passesB (s : State) (fn slot : Nat) (sel : (Nat → Nat) → Bool) (f : CmdForm) : Bool :=
  let t := s.postedAt fn slot
  let k := s.postName fn slot
  postsB s fn slot sel && decide ((s.slotAt fn slot).st ≠ 1) && s.serving
    && (decide ((t.mb k).w 0 % 256 = 0x52) || (!t.replaying (t.target k) && !t.recording (t.target k))) && decide (t.failedCheck k f = none)

theorem passes_of {s : State} {fn slot : Nat} {sel : (Nat → Nat) → Bool} {f : CmdForm} (h : passesB s fn slot sel f = true) :
    Passes s fn slot sel f := by
  simp only [passesB, Bool.and_eq_true, Bool.or_eq_true, decide_eq_true_eq, Bool.not_eq_true'] at h
  obtain ⟨⟨⟨⟨h1, h2⟩, h3⟩, h4⟩, h5⟩ := h
  refine ⟨⟨posts_of h1, h2, h3⟩, fun _ => ⟨fun hr => ?_, fun hr => ?_⟩, h5⟩
  · rcases h4 with h | h
    · exact .inr h
    · rw [h.1] at hr; cases hr
  · rcases h4 with h | h
    · rw [h]; decide
    · rw [h.2] at hr; cases hr

/-- Request words that choose each row of `mailboxCommands`: opcode and MAJOR in word 0, and what its selector reads. -/
def rowWords : List (List Nat) :=
  [[0x101], [0x110], [0x111], [0x118], [0x119, 1], [0x119, 1, 0x100], [0x120], [0x121, 1, 5], [0x121, 1, 5, 1], [0x122], [0x124], [0x128]] ++
  [[0x130], [0x131], [0x131, 1, 0, 0, 0, 4], [0x132], [0x133], [0x140], [0x140, 1, 1], [0x141], [0x142], [0x144], [0x145]] ++
  [[0x150], [0x151], [0x152], [0x152, 1, 1], [0x152, 1, 2], [0x158], [0x158, 1], [0x158, 2], [0x158, 3], [0x158, 4], [0x158, 5], [0x158, 6],
   [0x158, 7], [0x160], [0x161], [0x162], [0x163, 1], [0x163]]

theorem witness_PostsAreCopiedQueuedAndChecked :
    let busy : State := { mail one [0x101] with fns := [(0, { slots := [{}, {}, {}, { st := 1 }] })] }
    let paused : State := { mail one [0x101] with cp := { recovering := true } }
    let taped (mode : Nat) : State := { mail one [0x118, 0x10001] with replayer := { mode := mode, pav := 1, live := true } }
    (rowWords.length = (mailboxCommands 0 3 []).length ∧
      ∀ x ∈ (mailboxCommands 0 3 []).zip rowWords, postsB (mail one x.2) 0 3 x.1.sel = true ∧ ((mail one x.2).slotAt 0 3).st ≠ 1) ∧
    ((busy.slotAt 0 3).st = 1 ∧ paused.serving = false ∧ (mail one [0x101]).serving = true) ∧
    ((mail one [0x018, 1]).postedAt 0 3).failedCheck ((mail one [0x018, 1]).postName 0 3) invalidateForm = some 0x81 ∧
    (((taped 2).postedAt 0 3).replaying (((taped 2).postedAt 0 3).target ((taped 2).postName 0 3)) = true ∧ (taped 2).replayer.diverged = false ∧
      invalidateForm.named = true ∧ ((taped 2).postedAt 0 3).failedCheck ((taped 2).postName 0 3) invalidateForm = none) ∧
    (((taped 1).postedAt 0 3).failedCheck ((taped 1).postName 0 3) invalidateForm = none ∧ ((taped 1).postedAt 0 3).recording (((taped 1).postedAt 0 3).target ((taped 1).postName 0 3)) = true ∧
      ((taped 1).postedAt 0 3).replaying 1 = false ∧
      (((taped 1).postedAt 0 3).mb ((taped 1).postName 0 3)).w 0 % 256 ∉ [0x52, 0x01, 0x50, 0x51]) ∧
    postsB (mail one [0xFF]) 0 3 (fun w => !opcodes.contains (w 0 % 256)) = true := by
  decide +kernel

theorem witness_CompletionAnswersTheSlot :
    let s : State := { mail one [0x1FF] with fns := [(511, { slots := [{}, {}, {}, { st := 1, gen := 7, copy := List.replicate 16 0 }] })] }
    let k := postOf 511 3 7
    (replayPost k = false ∧ k % 4 < (s.fn (postFn k)).slots.length ∧ 255 < 256 ∧ (List.replicate 15 (0 : Nat)).length ≤ 15) ∧
    ((s.mb k).st = 1 ∧ (s.mb k).gen = k / 2048 ∧ Tab.find k s.orphans = none) ∧ ((s.mb (postOf 511 3 6)).gen ≠ postOf 511 3 6 / 2048) ∧
    -- the post before it, that a function reset has met
    (let o : State := { s with orphans := [(postOf 511 3 6, { st := 1, gen := 6, copy := List.replicate 16 0 })] }
     (o.mb (postOf 511 3 6)).st = 1 ∧ (o.mb (postOf 511 3 6)).gen = postOf 511 3 6 / 2048 ∧ (Tab.find (postOf 511 3 6) o.orphans).isSome = true) := by
  decide +kernel

theorem witness_PowerCommandsAct :
    let p (s : State) (act : Nat) (a b : Nat) : Bool := passesB (mail s [0x158, act, a, b]) 0 3 (fun w => opc 0x58 w && w 1 % 16 == act) powerForm
    let held : State := { one with apply := { phase := 4 } }
    let nap : State := { on with power := { on.power with nap := true } }
    (passesB (mail on [0x158]) 0 3 (fun w => opc 0x58 w && (w 1 % 16 == 0 || decide (w 1 % 16 > 7))) powerForm = true ∧ on.power.lost = []) ∧
    p on 1 65535 0 = true ∧ (p held 2 0 0 = true ∧ held.applyOn = true) ∧ (p on 2 0 0 = true ∧ on.applyOn = false) ∧
    (p one 3 0 0 = true ∧ (one.pavs.any fun x => x.2.bound) = true) ∧
    (p on 3 0 0 = true ∧ (on.pavs.any fun x => x.2.bound) = false ∧ on.applyOn = false ∧ on.replayer.mode ≠ 1) ∧
    (p nap 4 0 0 = true ∧ nap.power.nap = true) ∧ (p on 4 0 0 = true ∧ on.power.nap = false) ∧
    (p held 5 1 90 = true ∧ p on 5 1 90 = true ∧ p on 5 0 90 = true ∧ (mail on []).mayBeOff 90 = true ∧ (mail on []).applyOn = false) ∧
    (p on 6 7 7 = true ∧ 7 ∉ [6, 8, 12]) ∧ (p on 6 12 7 = true ∧ 12 ∈ [6, 8, 12] ∧ (mail on []).tied (7 / 2) = false) ∧
    (p on 7 0 7 = true ∧ ((mail on []).half 7).resetting = none) := by
  decide +kernel

/-- Words of a 64-bit field. -/
def lh (x : Nat) : List Nat := [x % 2 ^ 32, x / 2 ^ 32]

/-- A program table at DVA 0, in channel-set page 3: one layer of one kernel. -/
def tabled : State :=
  (((mapped one).writeCs 1 196608 (leBytes 32 (1 + 2 ^ 16 + 2 ^ 32 + 64 * 2 ^ 64 + 96 * 2 ^ 128))).writeCs 1 (196608 + 64) (leBytes 32 (2 ^ 28))).writeCs 1
    (196608 + 96) (leBytes 32 4096)

theorem witness_MemoryAndRunCommandsAct :
    let v : Inval := { post := postOf 511 3 0, pav := 1, kind := 1, first := 0, len := 0 }
    let drained : State := { one with invals := [{ v with units := one.unitsOf 1 }], fns := [(511, { slots := [{}, {}, {}, { st := 1 }] })] }
    let faulty (st : Nat) : State := pav1 { faults := [(31, { page := 0, time := 0, cause := 1, level := 0, access := 1, st := st })] }
    let cp (dir iova addr n : Nat) : List Nat := [0x124, 1, dir] ++ lh iova ++ lh addr ++ [n]
    let copies (ws : List Nat) : Bool := passesB (mail one ws) 0 3 (opc 0x24) (memCopyForm (one.pav 1).conf)
    let cap := (one.pav 1).capacity
    let runs (n : Nat) : State := { tabled with pavs := [(1, { entry := entryOf 1 1, runs := List.replicate n run1 })] }
    passesB (mail one [0x01]) 0 3 (opc 0x01) { anyMajor := true } = true ∧
    passesB (mail one [0x118, 0x10001]) 0 3 (opc 0x18) invalidateForm = true ∧
    (drained.inval 511 3 = some { v with units := one.unitsOf 1 } ∧ (∀ u ∈ drained.unitsOf 1, u ∈ one.unitsOf 1) ∧
      drained.usesTarget { v with units := one.unitsOf 1 } = false ∧ drained.heldTarget { v with units := one.unitsOf 1 } = false ∧
      (drained.mb v.post).st = 1 ∧ replayPost v.post = false ∧ Tab.find v.post drained.orphans = none ∧ (drained.mb v.post).gen = v.post / 2048 ∧ v.post % 4 < (drained.fn 511).slots.length) ∧
    (passesB (mail (faulty 1) [0x119, 1, 0x11F]) 0 3 (fun w => opc 0x19 w && bitAt (w 2) 8) resolveForm = true ∧ (Tab.find 31 ((faulty 1).pav 1).faults).isSome = true) ∧
    (passesB (mail (faulty 1) [0x119, 1, 31]) 0 3 (fun w => opc 0x19 w && !bitAt (w 2) 8) resolveForm = true ∧
      passesB (mail (faulty 2) [0x119, 1, 31]) 0 3 (fun w => opc 0x19 w && !bitAt (w 2) 8) resolveForm = true) ∧
    (copies (cp 0 1 0 64) = true ∧ 1 % 64 ≠ 0 ∧ one.replaying 1 = false) ∧
    (copies (cp 0 64 (cap - 64) 64) = true ∧ copies (cp 1 64 (cap - 64) 64) = true ∧ cap - 64 + 64 ≤ cap ∧ (cap - 64) % copyUnit (one.pav 1).conf = 0 ∧
      one.sealedRange 1 (cap - 64) 64 = false ∧ (one.pav 1).chan.halted = false ∧ (one.pav 1).conf = false ∧
      one.beds.badIn (csKey (one.pav 1) (one.pav 1).channels) (cap - 64) 64 = none) ∧
    (passesB (mail (runs 4) ([0x128, 1] ++ lh 0 ++ [0, 1])) 0 3 (opc 0x28) runForm = true ∧ 4 ≤ ((runs 4).pav 1).runs.length) ∧
    (passesB (mail (runs 0) ([0x128, 1] ++ lh 0 ++ [0, 1])) 0 3 (opc 0x28) runForm = true ∧ ((runs 0).pav 1).isSpan = false ∧
      (match (((mail (runs 0) []).postedAt 0 3).readTable 1 { post := 3 } (some 3) 0 0 0 1).1 with | .ok _ => true | .error _ => false) = true) ∧
    (passesB (mail one [0x144, 1]) 0 3 (opc 0x44) pavResetForm = true ∧ (one.pav 1).resetting = none) ∧
    passesB (mail one [0x145]) 0 3 (opc 0x45) pkgResetForm = true := by
  decide +kernel

theorem witness_ModelsLoadPinAndEvict :
    let load (s : State) (home len o : Nat) : Bool := passesB (mail s ([0x120, 1] ++ lh home ++ lh len ++ [o])) 0 3 (opc 0x20) modelLoadForm
    let ro := readOnly one
    let have_ (sl : Slice) (rs : List Run) : State := pav1 { slices := [(0xFFFFFF, sl)], runs := rs }
    let sl : Slice := { home := 0, pieces := 1 }
    let sp : State := { member 0 with pavs := [(1, { (member 0).pav 1 with slices := [(0xFFFFFF, sl)] })] }
    let big : Slice := { home := 0, pieces := 2 ^ 24 }
    let full : Slice := { home := 0, pieces := 1, resident := [(0, { core := 0, segment := 383, resident := true, written := true })] }
    let pin (s : State) : Bool := passesB (mail s [0x121, 1, 0xFFFFFF, 0]) 0 3 (fun w => opc 0x21 w && w 3 % 2 == 0) pinForm
    let unpin (s : State) : Bool := passesB (mail s [0x121, 1, 0xFFFFFF, 1]) 0 3 (fun w => opc 0x21 w && w 3 % 2 == 1) pinForm
    let evict (s : State) (r : Nat) : Bool := passesB (mail s [0x122, 1, 0xFFFFFF, r]) 0 3 (opc 0x22) evictForm
    (load ro 1 65536 0 = true ∧ ro.homeOk 1 1 65536 = false) ∧ (load ro 0 65536 0 = true ∧ ro.homeOk 1 0 65536 = true ∧ ro.sliceCount 1 < 65536) ∧
    (pin one = true ∧ unpin one = true ∧ evict one 0 = true ∧ Tab.find 0xFFFFFF (one.pav 1).slices = none) ∧
    (pin (have_ big []) = true ∧ (have_ big []).orangeryPieces 1 < 0 + big.pieces) ∧
    (((have_ sl []).pav 1).isSpan = false ∧ ((have_ sl []).pav 1).shared = [] ∧ (one.pav 1).isSpan = false) ∧
    (unpin sp = true ∧ (sp.pav 1).shared = [] ∧ (sp.pav 1).isSpan = true ∧ (sp.pav 1).spanRank = 0 ∧ 0 < (sp.pav 1).spanLast ∧
      (sp.pav 1).span.members.length = (sp.pav 1).spanLast + 1) ∧
    (pin (have_ sl []) = true ∧ 0 + sl.pieces ≤ (have_ sl []).orangeryPieces 1 ∧ sl.residentCount ≠ sl.pieces) ∧
    (pin (have_ full []) = true ∧ full.residentCount = full.pieces) ∧ unpin (have_ sl []) = true ∧
    (evict (have_ sl [{ run1 with slices := [(0, 0xFFFFFF)] }]) 1 = true ∧ ((have_ sl [{ run1 with slices := [(0, 0xFFFFFF)] }]).pav 1).lists 0xFFFFFF = true) ∧
    evict (have_ full []) 0 = true ∧
    (evict (have_ sl []) 1 = true ∧ ((have_ sl []).pav 1).lists 0xFFFFFF = false ∧ sl.key = none ∧ (((have_ sl []).pav 1).slices.map Prod.fst).Pairwise (· < ·)) := by
  decide +kernel

/-! ## Freeze, snapshots, firmware, checks -/

theorem witness_FreezeThawSaveAndRestore :
    let fz (s : State) : Bool := passesB (mail s [0x140, 1, 0]) 0 3 (fun w => opc 0x40 w && !bitAt (w 2) 0) (freezeForm (s.pav 1))
    let th (s : State) : Bool := passesB (mail s [0x140, 1, 1]) 0 3 (fun w => opc 0x40 w && bitAt (w 2) 0) (freezeForm (s.pav 1))
    let sv (s : State) : Bool := passesB (mail s [0x141, 1, 0, 0, 2 ^ 20, 0, 0, 7]) 0 3 (opc 0x41) (s.saveForm 1)
    let rs (s : State) : Bool := passesB (mail s [0x142, 1, 0, 0, 2 ^ 20, 0, 0, 7]) 0 3 (opc 0x42) (restoreForm (s.pav 1))
    let frozen := pav1 { freeze := { frozen := true } }
    let keyed (opens : Bool) : State := { frozen with gate := { imageKeys := [{ id := 7, tenant := 0, opens := opens, key := 0 }] } }
    let busy := pav1 { runs := [run1] }
    let stood := pav1 { freeze := { frozen := true }, runs := [run1] }
    let late := pav1 { freeze := { waiting := [(3, 0)] } }
    let mid := pav1 { runs := [{ run1 with started := true }] }
    let owing := pav1 { freeze := { frozen := true }, deliveries := [(1, 5)] }
    (fz frozen = true ∧ (frozen.pav 1).freeze.frozen = true) ∧ (fz one = true ∧ one.idle 1 = true ∧ one.applying 1 = false ∧ (one.pav 1).runs = []) ∧
    (fz busy = true ∧ busy.idle 1 = false) ∧
    (late.atBoundary 1 = true ∧ late.applying 1 = false ∧ (late.pav 1).resetting = none ∧ (late.pav 1).freeze.waiting ≠ [] ∧
      (late.pav 1).freeze.frozen = false) ∧
    mid.atBoundary 1 = false ∧ (th frozen = true ∧ frozen.replayer.mode = 0 ∧ (frozen.pav 1).runs = []) ∧
    (th { tabled with pavs := Tab.mapVals (fun _ v => { v with freeze := { frozen := true }, runs := imageRuns (runEntry { run1 with repeats := 2, iter := 1 }) }) tabled.pavs } = true) ∧
    (th stood = true ∧ (stood.pav 1).runs = [run1] ∧ run1.begun = true ∧ run1.started = false ∧ run1.kernel = 0) ∧ (sv one = true ∧ rs one = true ∧ (one.pav 1).freeze.frozen = false) ∧
    (sv frozen = true ∧ frozen.usableKey 1 7 false = none ∧ rs frozen = true ∧ frozen.usableKey 1 7 true = none) ∧
    (let saving : Pav := { entry := entryOf 1 1, freeze := { frozen := true, busy := [3] } }
     saving.freeze.busy ≠ [] ∧ (freezeForm { saving with freeze := { frozen := true } }).refused { saving with freeze := { frozen := true } } { copy := [0x140, 1, 1] } = false) ∧
    (sv (keyed false) = true ∧ ((keyed false).usableKey 1 7 false).isSome = true ∧ ((keyed false).pav 1).chan.halted = false ∧
      ((keyed false).pav 1).delivered = true ∧ (owing.pav 1).delivered = false) ∧
    (rs (keyed true) = true ∧ ((keyed true).usableKey 1 7 true).isSome = true) := by
  decide +kernel

theorem witness_SnapshotsFingerprintsAndReplay :
    let late : State := { one with time := { now := 100000 } }
    let full : State := { one with belv := { sets := List.replicate 4 { st := 1 } } }
    let snap (s : State) (tick : Nat) : Bool := passesB (mail s ([0x150, 1] ++ lh tick)) 0 3 (opc 0x50) (snapshotForm false)
    let pend : State := { one with belv := { sets := [{}, {}, {}, { st := 1, tick := 0 }] } }
    -- a pavilion that may use Replay, frozen or recorded, with an empty table at DVA 0
    let rp (v : Pav) : State := { one with pavs := [(1, { v with entry := entryOf 1 1 ||| BitVec.ofNat 2048 (2 ^ 121) })] }
    let rec_ : State := { rp {} with replayer := { mode := 1, pav := 1 } }
    -- its tables: a root entry, and a level-1 leaf of 512 MiB with RD and WR
    let ring (m : Mem) : State := { rp { freeze := { frozen := true } } with
      pavs := [(1, { entry := entryOf 1 1 ||| BitVec.ofNat 2048 (2 ^ 121 + 2 ^ 360), freeze := { frozen := true } })]
      beds := { mem := [(0, 1), (2, 1), (32768, 0xDA)] ++ m } }
    let frozen := ring []
    -- a header at DVA 2^20: 2 in bytes 4 to 7, the running FW_VERSION and CMDSET_VERSION in bytes 24 to 31
    let headed := ring [(524292, 2), (524315, 1), (524318, 1)]
    let act (s : State) (a : Nat) (len : Nat) (sel : (Nat → Nat) → Bool) : Bool := passesB (mail s ([0x152, 1, a] ++ lh (2 ^ 20) ++ lh len)) 0 3 sel replayForm
    let sel (a : Nat) := fun (w : Nat → Nat) => opc 0x52 w && w 2 % 4 == a
    let stop := fun (w : Nat → Nat) => opc 0x52 w && w 2 % 4 != 1 && w 2 % 4 != 2
    passesB (mail one ([0x150, 0x1FF] ++ lh 20)) 0 3 (opc 0x50) (snapshotForm true) = true ∧
    (snap one 19 = true ∧ 19 < one.now.toNat + 20) ∧ (snap full 20 = true ∧ full.belv.sets.findIdx? (fun x => x.st == 0) = none) ∧
    (snap one 20 = true ∧ one.now.toNat + 20 ≤ 20 ∧ one.belv.sets.findIdx? (fun x => x.st == 0) = some 0) ∧
    (3 < pend.belv.sets.length ∧ (nthD pend.belv.sets 3 {}).st = 1 ∧ (nthD pend.belv.sets 3 {}).tick.toNat ≤ pend.now.toNat ∧
      ((nthD pend.belv.sets 3 {}).pav ≠ 0x1FF ∧ pend.syncFirst (nthD pend.belv.sets 3 {}).pav 0 = false) ∧
      pend.apply.phase ≠ 3 ∧ ∀ x ∈ pend.pavs, pend.syncFirst x.1 0 = false) ∧
    one.exposed = true ∧ passesB (mail one [0x151, 0]) 0 3 (opc 0x51) (fingerprintForm (mail one [0x151, 0])) = true ∧
    (late.now.toNat % 100000 = 0 ∧ 1 % 100000 ≠ 0 ∧ late.locFp 0x1000 = none ∧ (late.locFp 0).isSome = true ∧
      (∀ x ∈ late.pavs, x.2.bound = false ∨ x.2.isSpan = false) ∧ 0 ∉ late.belv.divergent) ∧
    (passesB (mail one [0x152, 1]) 0 3 stop replayForm = true ∧ one.replayRefused 1 0 0 0 = true ∧ act one 1 (2 ^ 20) (sel 1) = true ∧ one.replayRefused 1 1 (2 ^ 20) (2 ^ 20) = true ∧
      act one 2 (2 ^ 20) (sel 2) = true ∧ one.replayRefused 1 2 (2 ^ 20) (2 ^ 20) = true) ∧
    (passesB (mail rec_ [0x152, 1]) 0 3 stop replayForm = true ∧ rec_.replayRefused 1 0 0 0 = false) ∧
    (act frozen 1 (2 ^ 20) (sel 1) = true ∧ frozen.replayRefused 1 1 (2 ^ 20) (2 ^ 20) = false) ∧
    (act headed 2 (2 ^ 20) (sel 2) = true ∧ headed.replayRefused 1 2 (2 ^ 20) (2 ^ 20) = false) := by
  decide +kernel

theorem witness_FirmwareIsStagedActivatedAndRecovered :
    let fw (f : Fw) : State := { on with fw := f }
    let stage (s : State) : Bool := passesB (mail s ([0x160] ++ lh 0 ++ [imageMin])) 0 3 (opc 0x60) fwStageForm
    let act (s : State) : Bool := passesB (mail s [0x161, 1]) 0 3 (opc 0x61) fwActivateForm
    let a (ph : Nat) : Activation := { post := 3, phase := ph, handover := true }
    let rcv (st : BitVec 4) (n : BitVec 25) : State := { on with boot := { on.boot with stage := .recovery }, fw := { rcvState := st, rcvLen := n } }
    (stage (fw { staging := some 3 }) = true ∧ (fw { staging := some 3 }).fw.busy = true) ∧ (stage on = true ∧ on.fw.busy = false ∧ on.fw.policy.getLsbD 0 = false) ∧
    (stage (fw { policy := 1 }) = true ∧ act (fw { policy := 1 }) = true ∧ (fw { policy := 1 }).fw.policy.getLsbD 0 = true) ∧
    (act on = true ∧ on.activateBarred = false ∧ on.fw.spare.st ≠ 2) ∧
    (act (fw { slotB := { st := 2, cmdset := 0x00010000 } }) = true ∧ (fw { slotB := { st := 2, cmdset := 0x00010000 } }).activateBarred = false ∧
      (fw { slotB := { st := 2, cmdset := 0x00010000 } }).fw.spare.st = 2) ∧
    (passesB (mail on [0x162]) 0 3 (opc 0x62) { pf0 := true } = true ∧ passesB (mail (fw { policy := 1 }) [0x162]) 0 3 (opc 0x62) { pf0 := true } = true) ∧
    (passesB (mail on [0x163, 1]) 0 3 (fun w => opc 0x63 w && bitAt (w 1) 0) { pf0 := true, used := [1] } = true ∧
      passesB (mail on [0x163, 0]) 0 3 (fun w => opc 0x63 w && !bitAt (w 1) 0) { pf0 := true, used := [1] } = true) ∧
    ((fw { activation := some (a 1) }).fw.svnFloor.toNat ≤ (fw { activation := some (a 1) }).fw.spare.svn.toNat ∧
      (fw { activation := some (a 1) }).applyRuns = false ∧ (fw { activation := some (a 2) }).posts = [] ∧ (a 2).phase ≠ 1 ∧
      (fw { activation := some (a 1) }).fw.waiting = [] ∧ on.cp.spareUsed = false ∧ ({ a 1 with handover := false } : Activation).handover = false) ∧
    ((fw { staging := some 3, slotB := { st := 3 } }).fw.staging = some 3 ∧ (fw { staging := some 3, slotB := { st := 3 } }).fw.spare.st = 3) ∧
    ((rcv 1 0).boot.stage = .recovery ∧ (rcv 1 0).fw.rcvState = 1 ∧ (rcv 1 0).fw.rcvLen.toNat < imageMin ∧ imageMax < (rcv 5 (2 ^ 24 + 1)).fw.rcvLen.toNat ∧
      imageMin ≤ (rcv 5 4691).fw.rcvLen.toNat ∧ (rcv 5 4691).fw.rcvLen.toNat ≤ imageMax ∧ (rcv 3 0).fw.rcvState = 3 ∧ (rcv 3 0).fw.staging = none) ∧
    (on.fw.verify (Mem.readN on.fw.rcvBuf 0 4691) = none) := by
  decide +kernel

/-- Whether an image verifies is open (Config.imageVerified): one with a good header is taken if it does. -/
theorem witness_an_image_can_verify :
    let bs := leBytes 64 (1 + 0x01000000 * 2 ^ 32 + 0x00010000 * 2 ^ 64) ++ List.replicate 4627 0
    Config.imageVerified bs = true → (on.fw.verify bs).isSome = true := by
  intro bs h
  have h1 : (leNat ((bs.drop 0).take 4) != 1 || leNat ((bs.drop 0x0E).take 2) != 0 || leNat ((bs.drop 0x24).take 12) != 0
    || decide (0x40 + leNat ((bs.drop 0x10).take 4) + 4627 > bs.length) || decide (leNat ((bs.drop 0x0C).take 1) < on.fw.svnFloor.toNat)) = false := by
    decide +kernel
  simp only [Fw.verify, h1, h, Bool.not_true, Bool.or_false]
  rfl

theorem witness_BootTriesTheSlotsInTurn :
    let rom (b : Bool) : State := { State.reset with boot := { State.reset.boot with triedActive := b } }
    (State.reset.posts = [] ∧ State.reset.boot.stage = .rom ∧ State.reset.boot.testEn = false ∧ (State.reset.fw.slot State.reset.bootSlot).st = 2 ∧
      State.reset.fw.svnFloor.toNat ≤ (State.reset.fw.slot State.reset.bootSlot).svn.toNat) ∧
    ((rom true).boot.triedActive = true ∧ ((rom true).fw.slot (rom true).bootSlot).st ≠ 2 ∧ (rom false).boot.triedActive = false) ∧ on.boot.stage ≠ .rom ∧
    ({ State.reset.boot with testEn := true } : Boot).testEn = true := by
  decide +kernel

/-- A package whose pavilion table stands at 0, with a stage mask that selects the disabled entry 5 behind it. -/
def staged : State :=
  { on with regs := { on.regs with tableBase := some 0 }, beds := { mem := Mem.write [] (pkgKey on.pkgChannels 131072) 0x20 } }

/-- `staged` once PV_CHECK has kept a copy of it. -/
def checked : State := after (exec (.pvCheck 0 3 []) (mail staged ([0x110] ++ lh 131072))) staged

theorem witness_ChecksAndAppliesProceed :
    let chk (s : State) (a : Nat) : Bool := passesB ((mail s ([0x110] ++ lh a)).told []) 0 3 (opc 0x10) pvCheckForm
    let app (s : State) : Bool := passesB ((mail s ([0x111] ++ lh 131072 ++ lh 0 ++ [0])).told []) 0 3 (opc 0x11) pvApplyForm
    let w (s : State) (a : Nat) : State := (((mail s ([0x110] ++ lh a)).told []).postedAt 0 3).wakeTables a
    let ph (a : Apply) : State := { one with apply := a }
    let timed (n : Word64) (a : Apply) : State := { one with time := { now := n }, apply := a }
    (chk (ph { phase := 1 }) 0 = true ∧ (ph { phase := 1 }).apply.phase ≠ 0) ∧
    (chk staged 1 = true ∧ staged.apply.phase = 0 ∧ (match (w staged 1).check 1 with | .error _ => true | .ok _ => false) = true) ∧
    (chk staged 131072 = true ∧ (match (w staged 131072).check 131072 with | .error _ => false | .ok _ => true) = true) ∧
    (app staged = true ∧ staged.apply.checked = false ∧ (match (w staged 131072).checkStage 131072 with | .ok mask => mask == 32 | .error _ => false) = true) ∧
    (app checked = true ∧ checked.apply.checked = true ∧ checked.apply.checkAddr.toNat = 131072 ∧ checked.apply.checkMask.toNat = 32 ∧
      (match (w checked 131072).checkApply 32 0 with | .error _ => false | .ok _ => true) = true) ∧
    ((ph { phase := 1, owners := [(0, (1, 0))] }).apply.phase = 1 ∧ ((one.core 0).owner.isSome = true) ∧ (one.core 1).zeroing = false ∧
      ∀ x ∈ (one.pav 1).slices, x.2.pinned = false) ∧
    ((ph { phase := 2, affected := [1] }).atBoundary 1 = true ∧ (one.pav 1).bound = true ∧ 1 ∉ (ph { phase := 2, affected := [1] }).apply.heldAt ∧
      (pav1 { runs := [{ run1 with started := true }] }).atBoundary 1 = false ∧ 0 + (one.pav 1).wdogTicks ≤ (timed 50000000 { phase := 2, affected := [1] }).now.toNat) ∧
    ((ph { phase := 2, affected := [1], heldAt := [1] }).zeroPending = false ∧ (ph { phase := 2, affected := [1], heldAt := [1] }).spanApply = [] ∧
      (19 : Word64).toNat < one.now.toNat + 20 ∧ one.now.toNat + 20 ≤ (20 : Word64).toNat) ∧
    ((ph { phase := 3, named := true, tick := 0 }).apply.tick.toNat ≤ one.now.toNat) ∧
    (Tab.find 5 (ph { entries := [(5, (1, 0))] }).apply.entries = some (1, 0) ∧ (one.pav 5).bound = false ∧ ({ entry := 1 } : Pav).bound = true) ∧
    ((ph { phase := 4, affected := [1] }).apply.phase = 4 ∧ ∀ x ∈ one.coresOf 1, (one.core x.2).zeroing = false) := by
  decide +kernel

/-! ## Session state -/

/-- An enabled directory, without its partner, with these records; pools 14 and 15 of eight pages, which pavilion 1 may use, with the
window 0 of pavilion 1 for both. -/
def directory (records : Tab Session) : State :=
  let e := BitVec.ofNat 256 (2 ^ 16 + 2 ^ 84 + 8 * 2 ^ 128)
  { one with pavs := [(1, { entry := entryOf 1 1 ||| BitVec.ofNat 2048 (3 * 2 ^ 270) })], pools := [(14, { entry := e }), (15, { entry := e })]
             windows := [(0, BitVec.ofNat 256 (7 + 2 ^ 16 + 2 ^ 76 + 65536 * 2 ^ 192))]
             dir := { records := records, ctl := 0xA000, ready := true } }

/-- The slot of VF 1 instead of PF0. -/
def mailVf (s : State) (ws : List Nat) : State := { mail s ws with fns := [(1, (mail s ws).fn 0)] }

/-- A session of pavilion 1 in pool 15. -/
def record (st : Nat) : Session := { owner := 15, st := st, root := 0, userPkg := 0, userPav := 1, pages := 1, target := 14, hasTarget := st != 1 }

theorem witness_SessionCommandsChangeTheRecord :
    let d := directory [(5, record 1)]
    let create (s : State) : Bool := passesB s 0 3 (opc 0x30) createForm
    let move (s : State) (o : Nat) : Bool := passesB (mail s ([0x131, 0] ++ lh 5 ++ [14, o])) 0 3 (fun w => opc 0x31 w && (if o == 4 then bitAt (w 5) 2 else !bitAt (w 5) 2)) moveForm
    let commit (s : State) (e : Nat) : Bool := passesB (mail s ([0x132, 0] ++ lh 5 ++ [e])) 0 3 (opc 0x32) commitForm
    let close (s : State) : Bool := passesB (mail s ([0x133, 0] ++ lh 5)) 0 3 (opc 0x33) closeForm
    let u := d.poster 0
    let vf := mailVf d [0x130, 0, 15, 1]
    let asked : State := { d with dir := { d.dir with changes := [⟨5, .close, none, none, false⟩, ⟨6, .create, some (record 1), none, false⟩] } }
    -- with its partner, package 6, up
    let paired : State := { asked with regs := { pkgId := some 5 }, ports := [(15, { st := 2 })], dir := { asked.dir with ctl := 0x2006 }
                                       links := { routes := [(6, 0x1F)], tsync := { sync := true } } }
    (d.fenced = false ∧ d.directs 5 = true ∧ (mail d []).fenced = false) ∧
    (create (mail d [0x130, 0, 15, 1]) = true ∧ (mail d []).pavOfFn 0 = none) ∧
    (passesB vf 1 3 (opc 0x30) createForm = true ∧ vf.dir.enabled = true ∧ (vf.poster 1).pav = some 1 ∧ vf.poolRefuses (vf.poster 1) 15 = false ∧ vf.localPool 15 = true ∧
      ((((vf.postedAt 1 3).useWindows [15]).modDir fun d => { d with nextSerial := d.nextSerial + 1 }).takePages 15 0 1 1).isSome = true ∧ vf.directed < 1048576) ∧
    (move (directory []) 0 = true ∧ move (directory []) 4 = true ∧ commit (directory []) 0 = true ∧ close (directory []) = true ∧ (directory []).session 5 = none) ∧
    (passesB (mailVf (directory [(5, { record 1 with userPav := 2 })]) ([0x133, 0] ++ lh 5)) 1 3 (opc 0x33) closeForm = true ∧
      d.mayCommand (d.poster 1) { record 1 with userPav := 2 } = false) ∧
    (move (directory [(5, record 2)]) 0 = true ∧ d.mayCommand u (record 2) = true ∧ (record 2).st ≠ 1 ∧ d.settling 5 = false) ∧
    (move d 0 = true ∧ d.session 5 = some (record 1) ∧ (record 1).commitAt = none ∧ 14 ≠ (record 1).owner ∧ (record 1).prot = 0 ∧ d.mustAsk u (record 1) = false ∧
      (mail d []).poolRefuses ((mail d []).userOf u (record 1)) 14 = false ∧ (mail d []).localPool 14 = true ∧ (mail d []).poolReachable 15 = true ∧
      ((d.pool 14).free (ceilDiv 1 listSpan + 1)).isSome = true) ∧
    (move (directory [(5, record 3)]) 4 = true ∧ (record 3).st = 3) ∧ commit d 1 = true ∧
    (commit (directory [(5, record 3)]) 0 = true ∧ 0 ≠ (record 3).epoch ∧ commit (directory [(5, record 3)]) 1 = true ∧ 1 = (record 3).epoch ∧
      (directory [(5, record 3)]).poolReachable (record 3).target = true) ∧
    (close d = true ∧ d.mayCommand u (record 1) = true) ∧
    (paired.fenced = false ∧ paired.partnerUp = true ∧ paired.dir.changes.find? (fun y => y.id == 6) = some ⟨6, .create, some (record 1), none, false⟩) ∧
    (asked.fenced = false ∧ asked.partnerUp = false ∧ asked.dir.changes.find? (fun y => y.id == 6) = some ⟨6, .create, some (record 1), none, false⟩ ∧
      asked.session 6 = none ∧ asked.dir.changes.find? (fun y => y.id == 5) = some ⟨5, .close, none, none, false⟩ ∧ (asked.session 5).isSome = true ∧ (asked.dir.records.map Prod.fst).Nodup) := by
  decide +kernel

/-- What pool 15 holds of a session whose directory is package 7. -/
def held (h : Holding) : State :=
  { directory [] with pools := [(15, { entry := 1, held := [(7 * 2 ^ 36, h)], pages := [(3, { st := 1, session := 7 * 2 ^ 36 })], leases := [(7, 0)] })] }

theorem witness_PoolsFollowTheDirectory :
    let h : Holding := { epoch := 1, lists := [], pages := [3], own := true, fetch := true }
    let own : State := { directory [(5, { record 1 with commitAt := some 0, commit := some 3 })] with
      pools := [(15, { entry := 1, held := [(5, h)], pages := [(3, { st := 1, session := 5 })] })] }
    let late : State := { own with time := { now := 1000000 } }
    ((directory [(5, record 2)]).session 5 = some (record 2) ∧ (directory [(5, record 2)]).directs 5 = true ∧ (directory [(5, record 2)]).dir.changes = [] ∧
      (directory [(5, record 2)]).dir.jobs = [] ∧ (directory [(5, record 2)]).localPool (record 2).owner = true ∧
      (directory [(5, record 2)]).deniedSession ((record 2).owner % 16) 5 = none ∧ (record 1).st ≠ 2 ∧ (record 1).commitAt = none) ∧
    (own.localPool 15 = true ∧ own.heldState (15 % 16) 5 = 1 ∧ own.holding (15 % 16) 5 = some h ∧ h.own = true) ∧
    ((0 : Word64).toNat + 1000000 ≤ late.now.toNat ∧ own.now.toNat < (0 : Word64).toNat + 1000000 ∧
      own.session 5 = some { record 1 with commitAt := some 0, commit := some 3 }) ∧
    ((held h).directs (7 * 2 ^ 36) = false ∧ (held h).holding 15 (7 * 2 ^ 36) = some h ∧ (held h).heldState 15 (7 * 2 ^ 36) = 1 ∧
      (∀ g ∈ Pool.pagesOf h, (Tab.find g ((held h).pool 15).pages).isSome = true) ∧ h.restore = false ∧
      (∀ j < 16, j ≠ 15 → (held h).heldState j (7 * 2 ^ 36) ≠ 1) ∧ h.own = true ∧ h.fetch = true ∧ ((held h).recordOf (7 * 2 ^ 36)).source = none) := by
  decide +kernel

theorem witness_LeasesLossesAndMirrors :
    let h : Holding := { epoch := 1, lists := [], pages := [3], own := true }
    let late : State := { held h with time := { now := 200000 }, links := { tsync := { sync := true } } }
    let sync : State := { held h with links := { tsync := { sync := true } } }
    let lost := directory [(5, record 4)]
    let kept : State := { directory [(5, { record 4 with source := some 14 })] with
      pools := [(14, { entry := 1, held := [(5, { epoch := 1, lists := [], pages := [3], sealed := true })], pages := [(3, { st := 3, session := 5 })] })] }
    -- a loss under an erasure code, of which pool 14 holds a member
    let coded : Session := { record 4 with prot := 2, k := 1, set := [14] }
    let code : State := { directory [(5, coded)] with pools := [(14, { entry := ((directory []).pool 14).entry, held := [(protKey 5, { epoch := 1, lists := [], pages := [] })] })] }
    let far : State := { directory [] with time := { now := 1000000 }, dir := { ctl := 0xA000, unreachable := [(65535, 0)] } }
    let mir : State := { directory [(5, record 1)] with dir := { records := [(5, record 1)], mirrorQueue := [(5, 9), (6, 9)], ctl := 0x4000 } }
    (sync.links.tsync.sync = true ∧ Tab.find 7 (sync.pool 15).leases = some 0 ∧ sync.now.toNat < (0 : Word64).toNat + 200000 ∧ 7 ≠ sync.ownPkg) ∧
    ((0 : Word64).toNat + 200000 ≤ late.now.toNat ∧ Tab.find 7 (late.pool 15).leases = some 0 ∧ late.links.tsync.sync = true ∧ late.holdingsOf 15 7 = [7 * 2 ^ 36]) ∧
    ((directory []).dir.records = [] ∧ (directory [(5, record 1)]).dir.records = [(5, record 1)] ∧ (record 1).pools = [15] ∧ (directory []).localPool 15 = true ∧
      (directory []).directs 5 = true) ∧
    (lost.session 5 = some (record 4) ∧ lost.mayTakeOver (record 4) = true ∧ lost.dir.changes = [] ∧ lost.rebuilt 5 (record 4) = none ∧ (record 1).st ≠ 4) ∧
    ((kept.rebuilt 5 { record 4 with source := some 14 }).map Session.fetch = some false) ∧
    (code.session 5 = some coded ∧ coded.st = 4 ∧ code.mayTakeOver coded = true ∧ code.directs 5 = true ∧ code.dir.jobs = [] ∧
      (code.rebuilt 5 coded).map Session.fetch = some true) ∧
    ((∀ x ∈ (directory []).dir.records, 15 ∉ x.2.pools) ∧ (directory []).localPool 65535 = false ∧ (directory []).dir.jobs = []) ∧
    (Tab.find 65535 far.dir.unreachable = some 0 ∧ (0 : Word64).toNat + 1000000 ≤ far.now.toNat ∧ far.reach (65535 / 16) = none ∧ sync.now.toNat < 0 + 1000000) ∧
    (mir.dir.mirrorQueue.find? (fun x => x.1 == 5) = some (5, 9) ∧ (∀ x ∈ mir.dirtyIndices 15 5, mir.hurtPoolPage 15 x.2 = none) ∧
      mir.deniedPages 15 ((mir.dirtyIndices 15 5).map Prod.snd) = none ∧ (mir.session 5).isSome = true ∧
      mir.dir.mirrorQueue.find? (fun x => x.1 == 6) = some (6, 9) ∧ mir.session 6 = none ∧ mir.directs 5 = true) ∧
    ((directory []).dir.enabled = true ∧ (directory []).exposed = true ∧ mir.dir.adopt = true) := by
  decide +kernel

/-! ## Resets, pins, host channels -/

theorem witness_ResetsTakeTheirCourse :
    let r : Resetting := { causes := [0x08], tick := 0 }
    let due_ := pav1 { resetting := some r, held := [] }
    let soon := pav1 { resetting := some { r with tick := 1 } }
    let wait (z : Bool) : State := { pav1 { resetting := some { r with ticked := true } } with cores := [(0, { owner := some (1, 0), zeroing := z })] }
    let vfs : State := { one with regs := { vfs := 511 } }
    let pf0 : State := { one with pavs := [(1, { entry := entryOf 0 1 })] }
    let rcv : State := { on with boot := { on.boot with stage := .recovery } }
    ((due_.pav 1).resetting = some r ∧ r.ticked = false ∧ r.tick.toNat ≤ due_.now.toNat ∧ due_.syncFirst 1 r.tick = false ∧ 1 ∉ due_.apply.affected ∧
      (due_.pav 1).isSpan = false) ∧
    ((soon.pav 1).resetting = some { r with tick := 1 } ∧ soon.now.toNat < (1 : Word64).toNat) ∧
    ((wait true).coresOf 1 = [(0, 0)] ∧ ((wait true).core 0).zeroing = true ∧ (∀ x ∈ (wait false).coresOf 1, ((wait false).core x.2).zeroing = false) ∧
      (∀ h, h < 8 → ((wait false).half h).resetting = none) ∧ ((wait false).pav 1).isSpan = false) ∧
    (vfs.pavOfFn 511 = none ∧ vfs.hasFn 511 = true ∧ vfs.pavOfFn 0 = none ∧ vfs.pavOfFn 1 = some 1 ∧ vfs.hasFn 1 = true ∧ pf0.pavOfFn 0 = some 1) ∧
    (one.apply.phase ≠ 3 ∧ one.boot.stage ≠ .recovery ∧ one.boot.powered = true ∧ (rcv.boot.stage = .recovery)) := by
  decide +kernel

theorem witness_PinsPowerAndDoze :
    let at_ (st : Stage) : State := { on with boot := { on.boot with stage := st, cold := false } }
    let ready : State := { on with power := { on.power with dozing := true } }
    let reset_ (st : Stage) : State := { on with boot := { on.boot with stage := st, cold := false, perst := true } }
    let still : State := { on with boot := { on.boot with stage := .stopped, refclk := false } }
    let offNoClock : State := { on with boot := { on.boot with stage := .off, refclk := false } }
    let noPower : State := { on with boot := { on.boot with stage := .tripped, pwrgd := false } }
    (ready.boot.stage = .running ∧ ready.power.dozing = true) ∧ ((at_ .doze).boot.stage = .doze ∧ (at_ .doze).boot.cold = false) ∧
    ((reset_ .doze).boot.perst = true ∧ (reset_ .running).boot.perst = true ∧ (reset_ .running).boot.stage ≠ .doze) ∧ (0x57 ≠ on.boot.address ∧ (at_ .doze).boot.testEn = false ∧ ({ on.boot with testEn := true } : Boot).testEn = true) ∧
    (on.boot.powered = true ∧ on.boot.stage ≠ .off ∧ on.boot.stage ≠ .tripped ∧ on.boot.perst = false) ∧
    (still.boot.refclk = false ∧ still.boot.stage = .stopped ∧ offNoClock.boot.refclk = false ∧ offNoClock.boot.stage ≠ .stopped) ∧
    ((at_ .off).boot.stage = .off ∧ (at_ .off).boot.refclk = true) ∧ ({ one with boot := { one.boot with link := true } } : State).boot.link = true ∧
    ((at_ .tripped).boot.stage = .tripped ∧ (at_ .tripped).boot.pwrgd = true ∧ noPower.boot.stage = .tripped ∧ noPower.boot.pwrgd = false) := by
  decide +kernel

theorem witness_HostChannelsHaltAndResume :
    let halted := pav1 { chan := { halted := true } }
    let x : Transfer := { post := postOf 511 3 0, pav := 1, kind := 0, iova := 64, addr := 0, len := 64 }
    let asked : State := { one with transfers := [x] }
    let reads := strandAs { mode := .waiting, flights := [inFlight (.hostRead 64)] }
    let h : Held := { step := some 9, core := 0, strand := 0, dva := 0, iova := 0, sealed := false, bytes := [1] }
    let owed := pav1 { deliveries := [(9, 0)], held := [h] }
    ((one.pav 1).bound = true ∧ (one.pav 1).chan.halted = false ∧ (halted.pav 1).chan.halted = true) ∧
    (one.exposed = true ∧ one.pavOfFn 511 = none ∧ halted.pavOfFn 1 = some 1 ∧ ∀ x ∈ halted.liveStrands 1, ∀ y ∈ (halted.strand x.1 x.2).flights, y.prog ≠ .hostWait) ∧
    (asked.transferAt 511 3 = some x ∧ (asked.pav 1).conf = false ∧ asked.recording 1 = false ∧ asked.fw.staging ≠ some x.post ∧
      (hostBytes [⟨64, List.replicate 64 7⟩] 64 64).isSome = true ∧ hostBytes [⟨64, List.replicate 63 7⟩] 64 64 = none) ∧
    (one.ownerOf 1087 = none ∧ (one.strand 0 0).flights.length ≤ 0) ∧
    (reads.ownerOf 0 = some 1 ∧ (reads.strand 0 2047).flights[0]? = some (inFlight (.hostRead 64)) ∧ (reads.pav 1).chan.halted = false) ∧
    (on.transfers = [] ∧ (let y : Transfer := { post := postOf 0 3 0, pav := 512, kind := 2, iova := 64, len := 64 }
      let own : State := { on with transfers := [y], fw := { staging := some y.post }, fns := [(0, { slots := [{}, {}, {}, { st := 1 }] })] }
      own.transfers.find? (fun y => y.pav == 512) = some y ∧ own.fw.waiting = [] ∧ (own.mb y.post).st = 1 ∧ (own.mb y.post).gen = y.post / 2048 ∧
        Tab.find y.post own.orphans = none ∧ replayPost y.post = false ∧ y.post % 4 < (own.fn (postFn y.post)).slots.length ∧ own.fw.staging = some y.post)) ∧
    ((owed.pav 1).deliveries = [(9, 0)] ∧ (0 : Word64).toNat ≤ owed.now.toNat ∧ (owed.pav 1).freeze.saves = [] ∧ (owed.pav 1).held = [h] ∧ h.step = some 9 ∧
      h.sealed = false) := by
  decide +kernel

/-- A run's entry names layer and kernel entries by their indices in the tables, and a restored run stands where it stood (R462, R466). -/
theorem test_restored_run_stands_where_it_stood :
    let r : Run := { slot := none, table := 64, first := 5, last := 6, repeats := 3, layers := [0, BitVec.ofNat 256 (7 * 2 ^ 16 + 3 * 2 ^ 28)],
                     kernels := [], slices := [], begun := true, iter := 1, layer := 1, kernel := 2, suspended := true }
    let u := (imageRuns (runEntry r)).headD { run1 with first := 0 }
    leNat (((runEntry r).drop 20).take 8) = 6 + 9 * 2 ^ 32 ∧ u.unread = true ∧ runEntry u = runEntry r ∧
      u.readAs { r with begun := false, iter := 0, layer := 0, kernel := 0, suspended := false } = { r with no := 1 } := by
  decide +kernel

/-! ## Registers, streams, spares -/

theorem witness_RegistersAndBarsAnswer :
    let vfs : State := { one with regs := { vfs := 511 } }
    let set_ : State := { one with regs := { tableBase := some 0, winBase := some 0, poolBase := some 0 } }
    (vfs.exposed = true ∧ vfs.hasFn 511 = true ∧ (vfs.faultPav 1).isSome = true ∧ vfs.faultPav 0 = some 0 ∧ vfs.rgPav 1 = some 1) ∧
    (one.regs.tableBase = none ∧ one.regs.winBase = none ∧ one.regs.poolBase = none ∧ set_.exposed = true ∧ set_.regs.tableBase.isSome = true ∧
      set_.regs.winBase.isSome = true ∧ set_.regs.poolBase.isSome = true) ∧
    ((reg32 0 0x500000).isSome = true ∧ (reg64 0 0x100808).isSome = true ∧ 0x100808 % 8 = 0) ∧
    (reg32 0 0xFFFFFC = none ∧ reg64 0 0xFFFFFC = none ∧ 2 % 4 ≠ 0) ∧
    ((one.fn 511).slots.length = 4 ∧ (one.slotAt 511 3).req.length = 16) ∧
    (hostArea - 64 + 64 ≤ hostArea ∧ (∀ i, i < 64 → one.beds.bad (pkgKey one.pkgChannels (hostArea - 64 + i)) = false)) ∧
    (one.replayer.mode ≠ 1 ∧ one.barMergeHurt 0 1 = none ∧ Mem.wf one.beds.mem = true ∧ (one.barKey 0).isSome = true) := by
  decide +kernel

/-- Stream 63 of pavilion 1 as given: device slots in a LOCAL page at DVA 0, host slots in a HOST page at DVA 65,536. -/
def streaming (x : Stream) : State :=
  { one with pavs := [(1, { entry := entryOf 1 1, streams := List.range 64 })], streams := [(1 * 64 + 63, { x with hostRing := 65536 })]
             beds := { mem := [(0, 1), (2, 1), (32768, 1), (32770, 2), (65536, 0xDA), (65538, 3), (65544, 0xDB), (65546, 5)] } }

theorem witness_StreamsStartStopAndMoveFrames :
    let run_ (d : Bool) : Stream := { st := 1, dir := d, period := 1000 }
    let in_ := streaming (run_ false)
    let out := streaming (run_ true)
    let full := streaming { run_ false with buffer := List.replicate 4 (0, some []) }
    let one_ := streaming { run_ false with buffer := [(0, some (List.replicate 128 0))] }
    let later := streaming { run_ true with start := 1 }
    let good := streaming { start := 20 }
    let parts (m : SlotMap) : Option (List SlotPart) := match m with | .parts l => some l | _ => none
    let dev (s : State) (wr : Bool) := s.mapSlot 1 63 ((s.stream 1 63).devSlot 0) (64 + (s.stream 1 63).payload) false wr
    let host := in_.mapSlot 1 63 ((in_.stream 1 63).hostSlot 0) (64 + (in_.stream 1 63).payload) true false
    (in_.hasStream 1 63 = true ∧ in_.exposed = true) ∧
    ((good.stream 1 63).st ≠ 1 ∧ (good.stream 1 63).startError good.now.toNat = 0 ∧ ({} : Stream).startError 0 ≠ 0) ∧
    ((in_.stream 1 63).st = 1 ∧ (in_.stream 1 63).dir = false ∧ (in_.stream 1 63).buffer = [] ∧ (in_.stream 1 63).stopping = false ∧
      (in_.stream 1 63).tickOf (in_.stream 1 63).next ≤ in_.now.toNat) ∧
    (4 ≤ ((full.stream 1 63).buffer.filter fun f => f.2.isSome).length) ∧
    (((in_.stream 1 63).buffer.filter fun f => f.2.isSome).length < 4 ∧ in_.replaying 1 = false ∧
      (match parts host.1 with
        | some l => (match host.2.framePlain 1 l [⟨0x50000, List.replicate 128 0⟩] with
          | some (some b) => (SlotHead.of b).frame == (in_.stream 1 63).next && decide ((SlotHead.of b).len ≤ (in_.stream 1 63).payload)
          | _ => false)
        | none => false) = true) ∧
    ((one_.stream 1 63).buffer = [(0, some (List.replicate 128 0))] ∧ (parts (dev one_ true).1).isSome = true) ∧
    (out.now.toNat < ({ out.stream 1 63 with start := 4001 } : Stream).pollAt 0 ∧ ({ out.stream 1 63 with start := 4000 } : Stream).pollAt 0 ≤ out.now.toNat) ∧
    ((out.stream 1 63).dir = true ∧ (out.stream 1 63).stopping = false ∧ (out.stream 1 63).next = 0 ∧ (out.stream 1 63).pollAt 0 ≤ out.now.toNat ∧
      out.now.toNat ≤ (out.stream 1 63).tickOf 0 ∧ (out.stream 1 63).buffer = [] ∧
      (match parts (dev out false).1 with
        | some l => decide ((dev out false).2.hurtPart 1 l = none) && (SlotHead.of ((dev out false).2.readParts 1 l)).frame == 0
          && decide ((SlotHead.of ((dev out false).2.readParts 1 l)).len ≤ (out.stream 1 63).payload)
          && decide ((SlotHead.of ((dev out false).2.readParts 1 l)).step ≤ (out.pav 1).committed.toNat)
        | none => false) = true) ∧
    (later.now.toNat < (later.stream 1 63).tickOf (later.stream 1 63).next) := by
  decide +kernel

theorem witness_SparesAndFailuresAreContained :
    let hs : State := halfAs { resetting := some (2, []) }
    let sp : State := { one with sparing := [(0, 1)] }
    let last : State := { one with cores := (0, ({ owner := some (1, 0) } : Core)) :: (List.range 16).map fun i => (i + 1, ({ health := .dead } : Core)) }
    let two : State := { on with cp := { working := 3, spareUsed := true } }
    let rec_ : State := { on with cp := { recovering := true } }
    ((on.half 7).resetting = none ∧ on.apply.phase = 0 ∧ (hs.half 7).resetting = some (2, [])) ∧
    ((one.core 0).health = .working ∧ one.cycleMode = false ∧ Tab.find 0 one.sparing = none ∧ (one.core 0).owner = some (1, 0) ∧ one.inBindSet 0 = true ∧ (one.spareFor 0).isSome = true ∧
      one.atBoundary 1 = true ∧ (one.pav 1).resetting = none) ∧
    (Tab.find 0 sp.sparing = some 1 ∧ 1 ≠ 0 ∧ (sp.core 0).owner = some (1, 0) ∧ ∀ k ∈ [0, 1], (sp.sparing.map Prod.fst).count k ≤ 1) ∧
    (({ one with sparing := Tab.drop 0 one.sparing } : State).spareFor 0).isSome = true ∧
    (({ last with sparing := Tab.drop 0 last.sparing } : State).spareFor 0 = none ∧ (last.core 0).owner = some (1, 0) ∧ (last.core 0).health ≠ .dead ∧
      last.inBindSet 0 = true ∧ ∀ y ∈ last.sparing, y.2 ≠ 0) ∧
    (one.inBindSet 16 = false ∧ (one.core 16).owner = none ∧ (one.core 16).health ≠ .dead) ∧
    (on.boot.stage = .running ∧ 3 ≤ (if on.cp.spareUsed then on.cp.working - 1 else on.cp.working) ∧ (if two.cp.spareUsed then two.cp.working - 1 else two.cp.working) < 3) ∧
    (rec_.cp.recovering = true ∧ (one.pav 1).bound = true) := by
  decide +kernel

/-! ## SMBus and the gatehouse -/

theorem witness_SmbusCommandsAnswer :
    let rcv : State := { on with boot := { on.boot with stage := .recovery }, fw := { rcvOffset := BitVec.ofNat 32 (imageMax - 32) } }
    let hot : State := { on with boot := { on.boot with alert := true }, cause := { fatal := true } }
    let gate : State := { on with gate := { ready := true } }
    (on.boot.powered = true ∧ on.boot.served = true ∧ hot.alerts = true ∧ on.alerts = false ∧ hot.boot.served = true) ∧
    (rcv.boot.stage = .recovery ∧ rcv.boot.testEn = false ∧ (List.replicate 32 (1 : Byte)).length = 32 ∧ rcv.fw.rcvOffset.toNat + 32 ≤ imageMax ∧ Mem.wf rcv.fw.rcvBuf = true ∧
      (0x1FFFFFF : Word32).toNat < 2 ^ 25) ∧ (gate.boot.powered = true ∧ gate.gate.ready = true) := by
  decide +kernel

/-- A ready gatehouse with the connection of transport 512, and session 1 of it. -/
def gated (l : SpdmLink) (secured : Bool) : State :=
  { on with gate := { ready := true, links := [(512, l)], sessions := [{ via := 512, id := 1, secured := secured, beat := 0 }] } }

/-- Whether a certificate, a digest or a signature fits a response, and whether the chain holds a byte at an offset, are open
(Config): the link below takes the longest of them, and the chain's clauses are met wherever it is not empty. -/
theorem witness_TheGatehouseAnswersSpdm :
    let ok_ : SpdmAlgs := ⟨(0x04, 0xA701), (0x04, 0xA702), true, true, true, true⟩
    let s (n : Nat) := gated { stage := n } true
    ((s 0).hasVia 512 = true ∧ (s 0).gate.ready = true ∧ ((s 0).spdm 512).stage = 0 ∧ 1 ≤ ((s 1).spdm 512).stage) ∧
    (2 ≤ ((s 2).spdm 512).stage ∧ SpdmAlgs.accepted ok_ = true ∧ SpdmAlgs.accepted { ok_ with sha384 := false } = false ∧ ((s 2).spdm 512).stage < 3) ∧
    ((List.replicate 64 (0 : Byte)).length = 64 ∧ 0 * max 1 ((gated { stage := 2, large := [7] } true).spdm 512).most < ((gated { stage := 2, large := [7] } true).spdm 512).large.length ∧
      ((s 2).spdm 512).large.length ≤ 0 * max 1 ((s 2).spdm 512).most) ∧
    (3 ≤ ((s 3).spdm 512).stage ∧ (List.replicate 1568 (0 : Byte)).length = 1568 ∧ ((s 3).gate.sessions.filter fun x => x.via == 512 && (s 3).alive x).length < sessionLimit 512) ∧
    (let full : State := { s 3 with gate := { (s 3).gate with sessions := (List.range 4).map fun i => { via := 512, id := i + 1, beat := 0 } } }
     sessionLimit 512 ≤ (full.gate.sessions.filter fun x => x.via == 512 && full.alive x).length) ∧
    ((s 3).session? 512 1 = some { via := 512, id := 1, secured := true, beat := 0 } ∧
      (gated { stage := 3 } false).session? 512 1 = some { via := 512, id := 1, secured := false, beat := 0 }) := by
  decide +kernel

theorem witness_a_link_takes_them_all :
    let l : SpdmLink := { stage := 3, most := Config.certDigest.length + Config.kemCert.length + Config.certChain.length }
    3 ≤ ((gated l true).spdm 512).stage ∧ Config.certDigest.length ≤ ((gated l true).spdm 512).most ∧ Config.kemCert.length ≤ ((gated l true).spdm 512).most ∧
      ∀ o n, ((Config.certChain.drop o).take n).length ≤ ((gated l true).spdm 512).most := by
  refine ⟨by decide, ?_, ?_, fun o n => ?_⟩
  · show Config.certDigest.length ≤ Config.certDigest.length + Config.kemCert.length + Config.certChain.length
    omega
  · show Config.kemCert.length ≤ Config.certDigest.length + Config.kemCert.length + Config.certChain.length
    omega
  · show ((Config.certChain.drop o).take n).length ≤ Config.certDigest.length + Config.kemCert.length + Config.certChain.length
    have := List.length_take_le n (Config.certChain.drop o)
    have := List.length_drop (i := o) (l := Config.certChain)
    have := List.length_take (i := n) (l := Config.certChain.drop o)
    omega

theorem witness_TheGatehouseKeepsKeysAndReleases :
    let x : SpdmSession := { via := 1, id := 1, secured := true, beat := 0 }
    let via (v : Nat) (g : Gate) : State := { one with
      pavs := [(1, { entry := entryOf 1 1 ||| 8 })], regs := { vfs := 511 }
      gate := { g with ready := true, links := [(v, { stage := 3 })], sessions := [{ x with via := v }] } }
    let m : KeyMsg := { id := 9, tenant := 5 }
    let head : VendorHead := { status := 1 }
    let r : ReleaseMsg := { model := 3, tenant := 5 }
    let keyed (ks : List HostKey) : State := { via 1 {} with pavs := [(1, { entry := entryOf 1 1 ||| 8, chan := { keys := ks } })] }
    let key : HostKey := { id := 9, key := 0, toHost := false }
    let open_ : State := { via 1 {} with fuse := { debugOpen := true } }
    let images : State := via 0 { imageKeys := [{ id := 9, tenant := 5, opens := false, key := 0 }] }
    let rels : State := via 1 { releases := [{ model := 3, tenant := 5, secret := 0 }] }
    ((via 1 {}).hasVia 1 = true ∧ (via 1 {}).gate.ready = true ∧ ((via 1 {}).spdm 1).stage = 3 ∧ (via 1 {}).session? 1 1 = some x ∧ x.secured = true) ∧
    ((via 1 {}).pavOfFn 1 = some 1 ∧ ((via 1 {}).pav 1).conf = true ∧ ((via 1 {}).pav 1).chan.keys.length < 4 ∧ m.sized = true ∧ m.reserved = 0 ∧ m.dir ≤ 1 ∧
      vendorKnown m.head = true ∧ m.head.status = 0 ∧ vendorKnown head = true ∧ head.status ≠ 0 ∧ vendorKnown { code := some 0x0E } = false ∧
      vendorKnown { standard := 1 } = false ∧ vendorKnown { ownVendor := false } = false ∧
      (via 1 {}).fuse.debugOpen = false ∧ open_.fuse.debugOpen = true ∧ ({ m with sized := false } : KeyMsg).sized = false) ∧
    (4 ≤ ((keyed (List.replicate 4 key)).pav 1).chan.keys.length ∧ (∃ k ∈ ((keyed [key]).pav 1).chan.keys, k.id = m.id)) ∧
    ((via 1 {}).releaseOf r.model r.tenant.toNat = none ∧ (via 1 {}).gate.releases.length < 256 ∧ r.sized = true ∧ r.reserved = 0 ∧
      vendorKnown r.head = true ∧ r.head.status = 0 ∧
      (rels.releaseOf r.model r.tenant.toNat).isSome = true ∧ 256 ≤ (via 1 { releases := List.replicate 256 { model := 0, tenant := 0, secret := 0 } }).gate.releases.length) ∧
    ((via 0 {}).imageKey m.id.toNat = none ∧ (via 0 {}).gate.imageKeys.length < 32 ∧ m.tenant ≠ 0 ∧ ({ m with tenant := 0 } : KeyMsg).tenant = 0 ∧
      (images.imageKey m.id.toNat).isSome = true ∧ images.pavOfFn 0 = none ∧ (via 0 {}).session? 0 1 = some { x with via := 0 } ∧
      32 ≤ (via 0 { imageKeys := List.replicate 32 { id := 1, tenant := 1, opens := true, key := 0 } }).gate.imageKeys.length) := by
  decide +kernel

/-! ## The machine as a whole -/

theorem witness_AStepRunsTheFrontCommand : ({ on with pending := [] } : State).pending = [] ∧ ({ on with pending := [Instr.timeBroadcast] } : State).pending ≠ [] ∧
    -- VF 511 was served last: the control processor comes before VF 1, whose request is older, and the response goes first
    (let vf : HubPort × Instr := (.function 1, .timeBroadcast)
     let cp : HubPort × Instr := (.control, .timeTick)
     let h : Hub := { last := 511, requests := [vf] ++ cp :: [cp], responses := [] }
     h.distance cp.1 < h.distance vf.1 ∧ h.distance cp.1 ≤ h.distance cp.1 ∧ h.next = some cp ∧ ({ h with responses := [(.gatehouse, 7)] } : Hub).responses ≠ []) := by
  decide +kernel

theorem witness_KernelFaultsKillAndAreReportedOnce :
    (undefinedWord 0xFF = true ∧ 0xFF ∉ [0x01, 0xB2] ∧ undefinedWord (0x10 + 7 * 2 ^ 8) = true) ∧
    Issues one 0 0 8 1 0 ∧ shapeAlu.undefined { dst := 7 } = true ∧ Issues (withDescs 0 0 0) 0 0 16 1 0 ∧ (tileShape 0x80 { fn := 1 }).undefined { fn := 1 } = true ∧
    ((one.core 0).owner = some (1, 0) ∧ one.logicalOf 1 0 < 2 ^ 32 ∧ ((one.pav 1).resetting.map fun r => r.causes.contains 1) ≠ some true) ∧
    (((pav1 { resetting := some { causes := [1], tick := 20 } }).pav 1).resetting.map fun r => r.causes.contains 1) = some true :=
  ⟨by decide +kernel, issues_of (by decide +kernel), by decide +kernel, issues_of (by decide +kernel), by decide +kernel, by decide +kernel, by decide +kernel⟩

theorem witness_EveryCommandAnswersANextState : Instr.timeTick.wf = true ∧ (Instr.refresh 384).wf = false := by decide

theorem witness_EveryStepKeepsWhatNoCommandMayChange : step { on with pending := [Instr.timeBroadcast] } = .next on ∧ on.memWf = true ∧ on.postsWf :=
  ⟨rfl, by decide, fun _ => rfl, fun x h => absurd h (List.not_mem_nil (a := x))⟩

/-! ## Ill-formed commands: one for each check, and terms at the last unit -/

/-- A name past the last unit (R4, R11, R22, R258, R262, R316, R526, R532). -/
theorem smoke_units_that_do_not_exist :
    ∀ i ∈ ([.add 1088 0 {}, .add 0 2048 {}, .tmm 1088 0 {}, .tmm 0 2048 {}, .lds 0 2048 {} {}, .messageMatch 512 ⟨0, 0, 0, 0⟩, .identify 512 0,
        .identify 0 4, .refresh 384, .dlPortEnable 16 true, .streamEnable 0 64, .streamEnable 512 0, .droopDetect 8 0, .avsTimeout 14,
        .domainIdleOff 96, .pieceOverwrite 0 384, .leaseLapse 0 16, .leaseLapse 4096 0, .pageWalkRead 77 0 0 0, .pageWalkRead 0 512 0 0,
        .getVersion 513, .shadowLoadComplete 0 8, .kernelCompleteCore 1088, .kernelStart 512] : List Instr),
      i.wf = false := by
  decide

/-- An operand outside the range of its field. -/
theorem smoke_operands_out_of_range :
    ∀ i ∈ ([.pageWalkRead 0 0 0 3, .syncArrivalForward 0 76 .commit, .barrierRelease 0 16, .lsRowRepair 0 64 0, .granuleZeroComplete 0 3590,
        .onpkgFlitError 65536 0, .onpkgFlitError 0 0, .onpkgFlitError 0x1010 0, .onpkgLaneSpare 0x6002 0, .onpkgLaneSpare 0x1000 65536, .portTrainComplete 0 10 0 0, .portTrainComplete 0 9 0 16, .dlLaneSpare 0 9,
        .dlSpareNow 0 16, .portRetrainNarrow 0 10, .flitReplay 0 65536, .snapshotTick 4, .poolLoss 65536, .poolUnreachableTimeout 65536,
        .hostChannelError 0 0 0, .hostChannelError 0 7 0, .hostChannelError 513 6 0, .pcieCompletionTimeout (.tile 1088 0 0), .pcieCompletionReceive (.command 0 4) [],
        .energyInterval [(512, [])] 0, .telemetryRead [(14, 0)], .refclkValid 8, .pwrgdInAssert [14], .vfFlr 0, .cpWatchdogExpire 5 [],
        .cpWatchdogExpire 0 [(0, 4)], .pkgUnitUncorrectable 15 0, .vfEnableSet 512, .bridgeLaneRepair 4 0 0, .bridgeLaneRepair 0 40 0,
        .bridgeLaneRepair 0 0 64, .shadowPromote 0 0 8, .sessionOwnReceive 16 0 0 false] : List Instr),
      i.wf = false := by
  decide

theorem smoke_the_last_units_exist :
    ∀ i ∈ ([.add 1087 2047 {}, .tmm 1087 2047 {}, .messageMatch 511 ⟨0, 0, 0, 0⟩, .identify 511 3, .refresh 383, .dlPortEnable 15 true,
        .streamEnable 511 63, .droopDetect 7 0, .avsTimeout 13, .domainIdleOff 95, .pieceOverwrite 1087 383, .leaseLapse 4095 15,
        .pageWalkRead 76 511 0 2, .getVersion 512, .shadowLoadComplete 1087 7, .syncArrivalForward 511 75 .commit, .barrierRelease 511 15,
        .lsRowRepair 1087 63 383, .granuleZeroComplete 383 3589, .portTrainComplete 15 9 4096 15, .dlLaneSpare 15 8, .flitReplay 15 65535,
        .onpkgFlitError 0x7C00 0, .onpkgLaneSpare 0x6C01 65535, .snapshotTick 3, .poolLoss 65535, .hostChannelError 512 6 0, .pcieCompletionTimeout (.tile 1087 2047 9), .refclkValid 7,
        .vfFlr 511, .cpWatchdogExpire 4 [(511, 3)], .pkgUnitUncorrectable 14 511, .vfEnableSet 511, .bridgeLaneRepair 3 39 63] : List Instr),
      i.wf = true := by
  decide

/-- A command that is not well formed names no unit, and the machine stops on it. -/
theorem test_ill_formed_command_stops : exec (.refresh 384) on = .fault .noSuchUnit := rfl

/-- No row of the table gives bits (opcode_table.json). -/
theorem test_no_word_spells_a_command : decodeTableWord 64 1 = none ∧ State.reset.withFetchWord 64 1 = State.reset := ⟨rfl, rfl⟩

/-! ## Single steps of scalar instructions -/

/-- The state that a command leaves. -/
def ran (i : Instr) (s : State) : State := after (exec i s) s

/-- `one` with s0 and s1. -/
def holds (a b : Word64) : State := { one with strands := [(0, { mode := .ready, pc := 8, s0 := a, s1 := b, s2 := 0xAAAAAAAABBBBBBBB })] }

/-- s2 after an instruction on s0 = a and s1 = b that writes d = s2. -/
def d2 (i : ScalarFields → Instr) (a b : Word64) (f : ScalarFields := { srcb := 1 }) : Word64 :=
  ((ran (i { f with dst := 2 }) (holds a b)).strand 0 0).s2

/-- R120: sums and products wrap; a shift counts modulo 64; SAR keeps the sign. -/
theorem test_arithmetic_wraps :
    d2 (.add 0 0) 0xFFFFFFFFFFFFFFFF 3 = 2 ∧ d2 (.sub 0 0) 2 3 = 0xFFFFFFFFFFFFFFFF ∧ d2 (.mul 0 0) 0x8000000000000001 2 = 2 ∧
    d2 (.shl 0 0) 5 65 = 10 ∧ d2 (.shr 0 0) 0x8000000000000000 127 = 1 ∧ d2 (.sar 0 0) 0x8000000000000000 127 = 0xFFFFFFFFFFFFFFFF := by
  decide +kernel

/-- R108, R120: B is the sign-extended immediate where USE_IMM is set. -/
theorem test_immediate_operand :
    d2 (.add 0 0) 5 0 { useImm := true, imm := 0xFFFFFFFF } = 4 ∧ d2 (.and 0 0) 0xF00000000000000F 0 { useImm := true, imm := 0x8000000C } = 0xF00000000000000C := by
  decide +kernel

/-- R120, R122: MIN and MAX compare signed values; LT is signed in FN 2 and unsigned in FN 4. -/
theorem test_comparisons_are_signed_or_not :
    d2 (.min 0 0) 0xFFFFFFFFFFFFFFFF 1 = 0xFFFFFFFFFFFFFFFF ∧ d2 (.max 0 0) 0xFFFFFFFFFFFFFFFF 1 = 1 ∧
    d2 (.cmp 0 0) 0xFFFFFFFFFFFFFFFF 1 { srcb := 1, fn := 2 } = 1 ∧ d2 (.cmp 0 0) 0xFFFFFFFFFFFFFFFF 1 { srcb := 1, fn := 4 } = 0 ∧ d2 (.cmp 0 0) 7 7 { srcb := 1, fn := 3 } = 1 := by
  decide +kernel

/-- R120: MOVI sign-extends; MOVHI keeps the low half. -/
theorem test_moves :
    d2 (.movi 0 0) 0 0 { imm := 0x80000000 } = 0xFFFFFFFF80000000 ∧ d2 (.movhi 0 0) 0 0 { imm := 0x12345678 } = 0x12345678BBBBBBBB := by
  decide +kernel

/-- `holds` with scratch bytes at 24. -/
def scratch (bs : Mem) : State := { holds 24 0x1122334455667788 with beds := { ls := bs } }

/-- R10, R121: little endian; FN[2] = 1 sign-extends. -/
theorem test_scratch_loads_and_stores :
    let s := scratch [(24, 0x80), (25, 0xFF)]
    (((ran (.lds 0 0 { dst := 2, fn := 1 } {}) s).strand 0 0).s2 = 0xFF80) ∧
    (((ran (.lds 0 0 { dst := 2, fn := 5 } {}) s).strand 0 0).s2 = 0xFFFFFFFFFFFFFF80) ∧
    ((ran (.sts 0 0 { srcb := 1, fn := 2, imm := 8 }) s).beds.ls = [(24, 0x80), (25, 0xFF), (32, 0x88), (33, 0x77), (34, 0x66), (35, 0x55)]) := by
  decide +kernel

/-- R121, R152: an address that is no multiple of the width kills the strand. -/
theorem test_misaligned_load_kills : ((ran (.lds 0 0 { dst := 2, fn := 1, imm := 1 } {}) (scratch [])).strand 0 0).wait = .killed := by
  decide +kernel

/-- R112, R123: SETD writes the low bits that fit and leaves the descriptor's other fields. -/
theorem test_setd_keeps_the_low_bits :
    let s := holds 0xFFFFFFFFFFFFFFE3 0
    ((ran (.setd 0 0 { dst := 1, fn := 5 }) s).strand 0 0).desc 1 = BitVec.ofNat 256 (3 * 2 ^ 176) := by
  decide +kernel

/-- R111: a branch counts in 8-byte units from its own offset, upward or downward; CALL keeps PC + 8. -/
theorem test_jumps_count_from_their_own_offset :
    ((ran (.br 0 0 { srcb := 1, imm := 0xFFFFFFFF }) (holds 4 4)).strand 0 0).pc = 0 ∧
    ((ran (.br 0 0 { srcb := 1, imm := 0xFFFFFFFF }) (holds 4 5)).strand 0 0).pc = 16 ∧
    ((ran (.call 0 0 { dst := 2, imm := 4 }) (holds 0 0)).strand 0 0).pc = 40 ∧ ((ran (.call 0 0 { dst := 2, imm := 4 }) (holds 0 0)).strand 0 0).s2 = 16 ∧
    ((ran (.jmpr 0 0 {}) (holds 12 0)).strand 0 0).wait = .killed ∧
    -- a target below 0
    ((ran (.jmp 0 0 { imm := 0xFFFFFFFE }) (holds 0 0)).strand 0 0).wait = .killed := by
  decide +kernel

/-- R74, R75: SPAWN takes strand 1, at PC + 16 with s0 = a; EXIT frees the strand. -/
theorem test_spawn_and_exit :
    let t := (ran (.spawn 0 0 { imm := 2, fn := 1 }) (holds 7 9)).strand 0 1
    (t.mode = .ready ∧ t.pc = 24 ∧ t.s0 = 7 ∧ t.s1 = 0 ∧ t.cls = 1) ∧ ((ran (.exit 0 0 {}) one).strand 0 0).mode = .free := by
  decide +kernel

/-- R111: sequential flow that would pass offset 2^32 − 8 kills the strand. -/
theorem test_flow_past_the_last_offset_kills :
    let s : State := { one with strands := [(0, { mode := .ready, pc := 0xFFFFFFF8 })], cores := [(0, { owner := some (1, 0), icache := [0x3FFFFFF] })] }
    ((ran (.nop 0 0 {}) s).strand 0 0).wait = .killed := by
  decide +kernel

/-! ## Numbers and tile instructions -/

/-- R25 to R36: the largest finite codes, and the specials. -/
theorem test_number_formats :
    e4m3.decode 0x7E = .fin false 14 5 ∧ e4m3.decode 0x7F = .nan ∧ e5m2.decode 0xFC = .inf true ∧ (e2m1.decode 7).expo = 2 ∧
    -- 2,049 to FP16 is a tie: the even 2,048
    (fp16.convert (.fin false 2049 0)).1 = 0x6800 ∧ (fp16.convert (.fin false 2051 0)).1 = 0x6802 := by
  decide +kernel

/-- R126: TCP copies the rows, and nothing beside them. -/
theorem test_tcp_copies_rows :
    let s : State := { withDescs (rows2 0 65528) (rows2 0 0) 0 with beds := { ls := [(0, 1), (5, 2), (8, 9), (65527, 3), (65528, 4)] } }
    (ran (.tcp 0 0 { ds1 := 1 }) s).beds.ls = [(0, 1), (5, 2), (8, 9), (65527, 3), (65528, 1), (65533, 2)] := by
  decide +kernel

/-- R42, R133: a cleared slot of anchor 0 holds the INT8 products of two weight rows and two activation rows, in units of 2^-96. -/
theorem test_tmm_int8_product :
    let s : State := { withDescs (desc 0 0x10 0 2 2 4096) (desc 0 0 64 2 4 4) (desc 0 0 128 2 4 4) with
      beds := { ls := [(64, 1), (65, 2), (66, 3), (67, 4), (68, 0xFF), (128, 5), (129, 6), (130, 7), (131, 8), (135, 10)] } }
    (Tab.find 0 ((ran (.tmm 0 0 { ds1 := 1, ds2 := 2, opt := 1 }) s).core 0).slots).map (fun x => (x.n, x.m, x.elems.map fun e => (e.sum.toInt, e.count.toNat)))
      = some (2, 2, [(70 * 2 ^ 96, 4), (-5 * 2 ^ 96, 4), (40 * 2 ^ 96, 4), (0, 4)]) := by
  decide +kernel

/-- R107, R152: a reserved opcode is an ILLEGAL_INSTRUCTION. -/
theorem test_undefined_encoding_kills : ((ran (.undefinedEncoding 0 0 0xFF 0) (withDescs 0 0 0)).strand 0 0).wait = .killed := by
  decide +kernel

/-! ## Run-ahead, the network, the line code -/

/-- R88 to R92: the load at the predicate takes its predictor entry 7, the branch on it is taken from offset 16 to 32, and the TLD walked
there is issued into the lowest buffer. -/
theorem test_walk_issues_a_load :
    let row (loc base : Nat) : Desc := desc loc 0x0C base 1 16384 65536
    -- with two segments of scratch
    let s : State := { readOnly one with
      pavs := [(1, { entry := entryOf 1 1 + BitVec.ofNat 2048 (2 ^ 104) })]
      strands := [(0, { mode := .waiting, wait := .operand [3], pc := 8, predicates := [8], s2 := 7, flights := [inFlight .pending]
                        descs := [row 0 65536, row 2 0, 0, 0, 0, 0, 0, 0] })],
      cores := [(0, { owner := some (1, 0), predictor := [⟨0, 0, 8, 0, 7⟩] })] }
    let lds : Nat := 0x20 + 1 * 2 ^ 8 + 6 * 2 ^ 11 + 3 * 2 ^ 18 + 65528 * 2 ^ 32
    let br : Nat := 0x40 + 1 * 2 ^ 11 + 2 * 2 ^ 14 + 2 * 2 ^ 32
    let t := ran (.episodeOpen 0 0 [(BitVec.ofNat 64 lds, 0), (BitVec.ofNat 64 br, 0), (0x80 + 2 ^ 11, 0)]) s
    (t.strand 0 0).mode = .runAhead ∧ (t.strand 0 0).s1 = 0 ∧
    (t.core 0).shadows.map (fun x => (x.1, x.2.load.pc, x.2.load.op, x.2.load.dst, x.2.rows)) = [(0, 32, 0x80, row 0 65536, [0])] := by
  decide +kernel

/-- R14, R230, R232: diagonal traffic turns first east-west; within a die a message goes along its row and then along its column. -/
theorem test_routes :
    diePath 0 3 = [0, 1, 3] ∧ diePath 3 0 = [3, 2, 0] ∧ diePath 1 2 = [1, 0, 2] ∧ diePath 2 1 = [2, 3, 1] ∧
    (meshRow 7 = 3 ∧ meshCol 7 = 1 ∧ meshRow 8 = 0 ∧ meshCol 8 = 2) ∧ meshPath 7 8 = [7, 14, 12, 10, 8] := by
  decide +kernel

/-- R236: the owners of the 32 slots. -/
theorem test_calendar :
    (List.range 32).map calendarOwner = (List.range 32).map fun i =>
      if i ∈ [0, 4, 8, 12, 16, 20, 24, 28] then some 0 else if i ∈ [2, 6, 10, 14, 18, 22, 26, 30] then some 1
      else if i ∈ [15, 31] then some 3 else if i ∈ [7, 23] then none else some 2 := by
  decide +kernel

/-- R168: a line with its check bytes is a multiple of the generator: it is zero at 1, α, α² and α³. -/
theorem test_line_code :
    let data : List Byte := (List.range 64).map fun i => BitVec.ofNat 8 (37 * i + 11)
    ∀ j < 4, syndrome ((data ++ lineCheck data).zipIdx.map fun x => (x.2, x.1)) j = 0 := by
  decide +kernel

/-- R348: CRC-64 of the ASCII digits 1 to 9, as ECMA-182's published check value has it (from zero, not inverted). -/
theorem test_crc64 : crc64 ((List.range 9).map fun i => BitVec.ofNat 8 (0x31 + i)) = 0x6C40DF5F0B497347 := by decide +kernel

/-! ## Single steps of the block's other commands -/

/-- R410, R415, R419: a post to a busy slot is discarded with POST_ERR; an undefined opcode completes with BAD_OPCODE. -/
theorem test_posts :
    let busy : State := { on with fns := [(0, { slots := [{ req := 1 :: List.replicate 15 0, st := 1 }, {}, {}, {}] })] }
    ((ran (.identify 0 0) busy).slotAt 0 0).postErr = true ∧
    ((ran (.mbUnknown 0 3) (mail on [0xFF])).slotAt 0 3).st = 2 ∧ ((ran (.mbUnknown 0 3) (mail on [0xFF])).slotAt 0 3).status = 0x80 := by
  decide +kernel

/-- R251: one tick. R353: the first write of DL_PKG_ID counts. R544: a cap outside 40 % to 100 % of 3,600 W is stored as the nearer limit. -/
theorem test_registers :
    (ran .timeTick on).time.now = 1 ∧ (ran (.dlPkgIdWrite 7) (ran (.dlPkgIdWrite 5) on)).regs.pkgId = some 5 ∧
    (ran (.pwrCapWrite 100) on).power.cap = 1440 ∧ (ran (.pwrCapWrite 5000) on).power.cap = 3600 := by
  decide +kernel

/-- R9: an access of another alignment is discarded. -/
theorem test_misaligned_register_write : ran (.registerWrite 0 0x40009 4 2000) on = on ∧ (ran (.registerWrite 0 0x40008 4 2000) on).power.cap = 2000 := by
  decide +kernel

/-- R171: twice the base rate up to 105 °C, four times above. -/
theorem test_refresh_rate :
    ((ran (.dramTemperatureReport 5 60) on).channel 5).refresh = 1 ∧ ((ran (.dramTemperatureReport 5 105) on).channel 5).refresh = 2 ∧
    ((ran (.dramTemperatureReport 5 106) on).channel 5).refresh = 4 := by
  decide +kernel

/-- R390, R435: the thresholds of the margin, of a stream to the host whose four frames are of 256 bytes. -/
theorem test_urgency :
    let x (frames : List (Nat × Option (List Byte))) : State := { on with streams := [(127, { dir := true, lines := 3, buffer := frames })] }
    ((ran (.streamUrgencyChange 1 63 1 1) (x [(0, some [])])).stream 1 63).urgency = 0 ∧ ((ran (.streamUrgencyChange 1 63 1 1) (x [])).stream 1 63).urgency = 1 ∧
    ((ran (.streamUrgencyChange 1 63 1 2) (x [])).stream 1 63).urgency = 2 ∧ ((ran (.streamUrgencyChange 1 63 127 256) (x [])).stream 1 63).urgency = 3 := by
  decide +kernel

/-- R506, R509, R522: a warm reset names its cause, counts, clears bindings and keeps TIME and memory. -/
theorem test_warm_reset :
    let s := ran .perstNAssert { one with time := { now := 9 }, beds := { mem := [(3, 7)] } }
    s.cause.cause = 2 ∧ s.cause.warmCount = 1 ∧ (s.pav 1).bound = false ∧ s.time.now = 9 ∧ s.beds.mem = [(3, 7)] := by
  decide +kernel

/-- R617, R618: the address is 0x58 plus the straps; the Alert Response Address releases SMB_ALERT_N. -/
theorem test_smbus_address :
    let s : State := { on with boot := { on.boot with alert := true, straps := 5 }, cause := { fatal := true } }
    (ran .smbusAlertResponse s).boot.alert = false ∧ (ran .smbusAlertResponse s).answer = 0x5D ∧ (ran .pkgFatalClear s).cause.fatal = false := by
  decide +kernel

/-- The block idles on an empty queue. -/
theorem test_idle : step on = .next on := rfl

end Sys2Proof.Tests
end

section
/-! SUPPORT. What no command may change: a relation between the state before and a state after, which every operation over the state
extends, and what a command answers. -/

namespace Sys2Proof.Machine

/-! ## Mailbox slots and the function resets they have seen -/

/-- How often each slot of a function has been reset, in slot order (R401). -/
def State.gens (s : State) (f : Nat) : List Nat := (s.fn f).slots.map MbSlot.gen

theorem nthD_map_gen (l : List MbSlot) (i : Nat) : nthD (l.map MbSlot.gen) i 0 = (nthD l i {}).gen := by
  simp only [nthD, List.getElem?_map]
  cases l[i]? <;> rfl

/-- The rule of posts speaks of the slots' reset counts and the orphans alone. -/
theorem postsWf_iff (s : State) :
    s.postsWf ↔ (∀ f, (s.gens f).length = 4) ∧ ∀ x ∈ s.orphans, x.1 / 2048 < nthD (s.gens (postFn x.1)) (x.1 % 4) 0 := by
  simp only [State.postsWf, State.gens, nthD_map_gen, List.length_map]

theorem postsWf_of_gens {s t : State} (hg : t.gens = s.gens) (ho : ∀ x ∈ t.orphans, x ∈ s.orphans) (hs : s.postsWf) : t.postsWf := by
  rw [postsWf_iff] at hs ⊢
  rw [hg]
  exact ⟨hs.1, fun x hx => hs.2 x (ho x hx)⟩

theorem gens_setFn {s : State} {f : Nat} {x : Fn} (e : x.slots.map MbSlot.gen = s.gens f) : (s.setFn f x).gens = s.gens := by
  funext g
  by_cases hg : g = f
  · subst hg; simp [State.gens, e]
  · simp only [State.gens, State.fn_setFn_ne _ _ _ _ hg]

/-- A slot that keeps its reset count changes no count of its function. -/
theorem gens_setNth {l : List MbSlot} {i : Nat} {m : MbSlot} (e : m.gen = (nthD l i {}).gen) :
    (setNth l i m).map MbSlot.gen = l.map MbSlot.gen := by
  apply List.ext_getElem?
  intro j
  simp only [setNth, List.getElem?_map, List.getElem?_set]
  split
  · next h =>
    subst h
    split
    · next hl => simp [e, nthD, hl]
    · next hl => simp [hl]
  · rfl

theorem Tab.mem_drop {α : Type} {k : Nat} {t : Tab α} {x : Nat × α} (h : x ∈ Tab.drop k t) : x ∈ t := by
  induction t with
  | nil => exact h
  | cons c t ih =>
    simp only [Tab.drop] at h
    split at h
    · exact List.mem_cons_of_mem _ h
    · rcases List.mem_cons.1 h with h | h
      · exact h ▸ List.mem_cons_self
      · exact List.mem_cons_of_mem _ (ih h)

theorem Tab.mem_put {α : Type} {k : Nat} {a : α} {t : Tab α} {x : Nat × α} (h : x ∈ Tab.put k a t) : x = (k, a) ∨ x ∈ t := by
  induction t with
  | nil => simpa [Tab.put] using h
  | cons c t ih =>
    simp only [Tab.put] at h
    split at h
    · exact List.mem_cons.1 h
    · split at h
      · rcases List.mem_cons.1 h with h | h
        · exact .inl h
        · exact .inr (List.mem_cons_of_mem _ h)
      · rcases List.mem_cons.1 h with h | h
        · exact .inr (h ▸ List.mem_cons_self)
        · exact (ih h).imp_right (List.mem_cons_of_mem _)

theorem fn_mapVals (f : Nat → Fn → Fn) (s : State) (g : Nat) :
    ({ s with fns := Tab.mapVals f s.fns } : State).fn g = s.fn g ∨ ({ s with fns := Tab.mapVals f s.fns } : State).fn g = f g (s.fn g) := by
  simp only [State.fn, Tab.getD, Tab.find_mapVals]
  cases Tab.find g s.fns
  · exact .inl rfl
  · exact .inr rfl

/-! ## What no command may change -/

/-- The state `u` with the parts of `t` that the rule of steps names: fuses, queue, SVN floor, the four memories, functions and orphans. -/
def State.keeping (t u : State) : State :=
  { u with
    fuse := t.fuse, pending := t.pending, host := t.host, fns := t.fns, orphans := t.orphans
    beds := { u.beds with mem := t.beds.mem, ls := t.beds.ls }
    fw := { u.fw with svnFloor := t.fw.svnFloor, rcvBuf := t.fw.rcvBuf } }

/-- From `s` to `t` the fuses and the queue are as before, the SVN floor is not lower, memories stay in canonical form, and the rule of
posts holds on. -/
structure Kept (s t : State) : Prop where
  fuse : t.fuse = s.fuse
  pending : t.pending = s.pending
  floor : s.fw.svnFloor.toNat ≤ t.fw.svnFloor.toNat
  mem : s.memWf = true → t.memWf = true
  posts : s.postsWf → t.postsWf

theorem memWf_iff (s : State) : s.memWf = true ↔
    Mem.wf s.beds.mem = true ∧ Mem.wf s.beds.ls = true ∧ Mem.wf s.host = true ∧ Mem.wf s.fw.rcvBuf = true := by
  simp only [State.memWf, Bool.and_eq_true, and_assoc]

namespace Kept

variable {s t u : State}

theorem refl : Kept s s := ⟨Eq.refl _, Eq.refl _, Nat.le_refl _, id, id⟩

theorem trans (h : Kept s t) (h' : Kept t u) : Kept s u :=
  ⟨h'.fuse.trans h.fuse, h'.pending.trans h.pending, h.floor.trans h'.floor, h'.mem ∘ h.mem, h'.posts ∘ h.posts⟩

/-- An update of any other part of the state. -/
theorem update (h : Kept s t) (e : u = t.keeping u) : Kept s u := by
  rw [e]
  exact h.trans ⟨Eq.refl _, Eq.refl _, Nat.le_refl _, id, postsWf_of_gens (Eq.refl _) fun _ => id⟩

theorem ite {c : Prop} [Decidable c] {a b : State} (ha : Kept s a) (hb : Kept s b) : Kept s (if c then a else b) := by
  split
  · exact ha
  · exact hb

theorem foldl {α : Type} {f : State → α → State} {l : List α} (h : Kept s t) (hf : ∀ u x, Kept s u → Kept s (f u x)) :
    Kept s (l.foldl f t) := by
  induction l generalizing t with
  | nil => exact h
  | cons x l ih => exact ih (hf _ _ h)

theorem snd {α : Type} {x : α × State} {a : α} (e : x = (a, u)) (h : Kept s x.2) : Kept s u := by
  subst e; exact h

theorem fst {α : Type} {x : State × α} {a : α} (e : x = (u, a)) (h : Kept s x.1) : Kept s u := by
  subst e; exact h

theorem foldlSnd {α β : Type} {f : α × State → β → α × State} {l : List β} {x : α × State} (h : Kept s x.2)
    (hf : ∀ x b, Kept s x.2 → Kept s (f x b).2) : Kept s (l.foldl f x).2 := by
  induction l generalizing x with
  | nil => exact h
  | cons b l ih => exact ih (hf _ _ h)

theorem foldlFst {α β : Type} {f : State × α → β → State × α} {l : List β} {x : State × α} (h : Kept s x.1)
    (hf : ∀ x b, Kept s x.1 → Kept s (f x b).1) : Kept s (l.foldl f x).1 := by
  induction l generalizing x with
  | nil => exact h
  | cons b l ih => exact ih (hf _ _ h)

theorem ofNone {α : Type} {P : α → Prop} : ∀ u ∈ (none : Option α), P u := nofun

theorem ofSome {α : Type} {P : α → Prop} {a : α} (h : P a) : ∀ u ∈ some a, P u := by
  rintro _ ⟨⟩; exact h

theorem ofIte {c : Prop} [Decidable c] {o : Option State} (h : ∀ u ∈ o, Kept s u) : ∀ u ∈ (if c then o else none), Kept s u := by
  split
  · exact h
  · exact ofNone

/-! ### Updates of the parts themselves -/

/-- An update of the beds that keeps the canonical form of bed memory and local stores. -/
theorem modBeds {f : Beds → Beds} (h : Kept s t) (hm : Mem.wf t.beds.mem = true → Mem.wf (f t.beds).mem = true)
    (hl : Mem.wf t.beds.ls = true → Mem.wf (f t.beds).ls = true) : Kept s (t.modBeds f) := by
  refine h.trans ⟨Eq.refl _, Eq.refl _, Nat.le_refl _, fun hw => ?_, id⟩
  rw [memWf_iff] at hw ⊢
  obtain ⟨h1, h2, h3, h4⟩ := hw
  exact ⟨hm h1, hl h2, h3, h4⟩

/-- Host memory is written. -/
theorem host {m : Mem} (h : Kept s t) (hm : Mem.wf t.host = true → Mem.wf m = true) : Kept s { t with host := m } := by
  refine h.trans ⟨Eq.refl _, Eq.refl _, Nat.le_refl _, fun hw => ?_, id⟩
  rw [memWf_iff] at hw ⊢
  obtain ⟨h1, h2, h3, h4⟩ := hw
  exact ⟨h1, h2, hm h3, h4⟩

/-- The firmware's state changes: its floor does not fall, and the recovery buffer keeps its canonical form. -/
theorem modFw {f : Fw → Fw} (h : Kept s t) (hv : t.fw.svnFloor.toNat ≤ (f t.fw).svnFloor.toNat)
    (hr : Mem.wf t.fw.rcvBuf = true → Mem.wf (f t.fw).rcvBuf = true) : Kept s (t.modFw f) := by
  refine h.trans ⟨Eq.refl _, Eq.refl _, hv, fun hw => ?_, id⟩
  rw [memWf_iff] at hw ⊢
  obtain ⟨h1, h2, h3, h4⟩ := hw
  exact ⟨h1, h2, h3, hr h4⟩

/-- A firmware slot changes. -/
theorem setSlot {b : Fw → Bool} {x : Fw → FwSlot} (h : Kept s t) : Kept s (t.modFw fun f => f.setSlot (b f) (x f)) := by
  refine h.modFw ?_ ?_ <;> unfold Fw.setSlot
  · split <;> exact Nat.le_refl _
  · split <;> exact id

/-- A function changes and its slots keep their reset counts. -/
theorem setFn {f : Nat} {x : Fn} (h : Kept s t) (e : x.slots.map MbSlot.gen = t.gens f) : Kept s (t.setFn f x) :=
  h.trans ⟨Eq.refl _, Eq.refl _, Nat.le_refl _, id, postsWf_of_gens (gens_setFn e) fun _ => id⟩

/-- An orphan's command ends. -/
theorem dropOrphan {k : Nat} (h : Kept s t) : Kept s { t with orphans := Tab.drop k t.orphans } :=
  h.trans ⟨Eq.refl _, Eq.refl _, Nat.le_refl _, id, postsWf_of_gens (Eq.refl _) fun _ => Tab.mem_drop⟩

end Kept

/-! ## What a command answers -/

/-- A command answers a next state to which everything is kept. -/
def Steps (s : State) (o : Host.Outcome State Fault Refusal) : Prop := ∃ t, o = .next t ∧ Kept s t

/-- A command whose units exist answers a next state to which everything is kept, and one that names a missing unit the fault for that. -/
def Answers (wf : Bool) (s : State) (o : Host.Outcome State Fault Refusal) : Prop :=
  (wf = true → Steps s o) ∧ (wf = false → o = noUnit)

theorem Steps.ok {s t : State} (h : Kept s t) : Steps s (ok t) := ⟨t, rfl, h⟩

theorem Steps.ite {s : State} {c : Prop} [Decidable c] {a b : Host.Outcome State Fault Refusal} (ha : Steps s a) (hb : Steps s b) :
    Steps s (if c then a else b) := by
  split
  · exact ha
  · exact hb

theorem Steps.answers {s : State} {o : Host.Outcome State Fault Refusal} (h : Steps s o) : Answers true s o :=
  ⟨fun _ => h, fun hw => nomatch hw⟩

/-- The first check of a command: its units exist. -/
theorem Answers.guard {s : State} {wf : Bool} {c : Prop} [Decidable c] {o : Host.Outcome State Fault Refusal} (hc : ¬ c ↔ wf = true)
    (ho : wf = true → Steps s o) : Answers wf s (if c then noUnit else o) := by
  refine ⟨fun hw => ?_, fun hw => if_pos (Decidable.not_not.1 fun h => ?_)⟩
  · rw [if_neg (hc.2 hw)]; exact ho hw
  · rw [hc.1 h] at hw; cases hw

@[simp] theorem numCores_eq : numCores = 1088 := rfl
@[simp] theorem numStrands_eq : numStrands = 2048 := rfl
@[simp] theorem numPavs_eq : numPavs = 512 := rfl
@[simp] theorem numFns_eq : numFns = 512 := rfl
@[simp] theorem numRails_eq : numRails = 14 := rfl
@[simp] theorem numShadows_eq : numShadows = 8 := rfl
@[simp] theorem wf_tile (core strand pos : Nat) : (HostTarget.tile core strand pos).wf = (isCore core && isStrand strand) := rfl
@[simp] theorem wf_command (fn slot : Nat) : (HostTarget.command fn slot).wf = (isFn fn && isSlot slot) := rfl
@[simp] theorem numPorts_eq : numPorts = 16 := rfl
@[simp] theorem numChannels_eq : numChannels = 384 := rfl
@[simp] theorem isCore_iff {n : Nat} : isCore n = true ↔ n < 1088 := decide_eq_true_iff
@[simp] theorem isStrand_iff {n : Nat} : isStrand n = true ↔ n < 2048 := decide_eq_true_iff
@[simp] theorem isPav_iff {n : Nat} : isPav n = true ↔ n < 512 := decide_eq_true_iff
@[simp] theorem isFn_iff {n : Nat} : isFn n = true ↔ n < 512 := decide_eq_true_iff
@[simp] theorem isSlot_iff {n : Nat} : isSlot n = true ↔ n < 4 := decide_eq_true_iff
@[simp] theorem isChannel_iff {n : Nat} : isChannel n = true ↔ n < 384 := decide_eq_true_iff
@[simp] theorem isPort_iff {n : Nat} : isPort n = true ↔ n < 16 := decide_eq_true_iff
@[simp] theorem isStream_iff {n : Nat} : isStream n = true ↔ n < 64 := decide_eq_true_iff
@[simp] theorem isHalf_iff {n : Nat} : isHalf n = true ↔ n < 8 := decide_eq_true_iff
@[simp] theorem isRail_iff {n : Nat} : isRail n = true ↔ n < 14 := decide_eq_true_iff
@[simp] theorem isDomain_iff {n : Nat} : isDomain n = true ↔ n < 96 := decide_eq_true_iff
@[simp] theorem isSegment_iff {n : Nat} : isSegment n = true ↔ n < 384 := decide_eq_true_iff
@[simp] theorem isPool_iff {n : Nat} : isPool n = true ↔ n < 16 := decide_eq_true_iff
@[simp] theorem isPkg_iff {n : Nat} : isPkg n = true ↔ n < 4096 := decide_eq_true_iff
@[simp] theorem isTUnit_iff {n : Nat} : isTUnit n = true ↔ n ≤ 76 := decide_eq_true_iff
@[simp] theorem isVia_iff {n : Nat} : isVia n = true ↔ n ≤ 512 := decide_eq_true_iff

/-- A command that names a link names one of the units that have them (R23, R511). -/
@[simp] theorem locOfLink_eq (l : Nat) : locOfLink l = isLink l := by
  have hi : locIndex l = l % 1024 := by simp [locIndex, bits]
  simp only [locOfLink, locValid, isLink, hi, locKind]
  generalize l / 4096 = k
  split <;> simp_all
  exact Bool.eq_iff_iff.2 (by simp)

/-- Where the state has changed before the command, everything is kept on from the state before. -/
theorem Answers.trans {s t : State} {wf : Bool} {o : Host.Outcome State Fault Refusal} (h : Kept s t) (ho : Answers wf t o) :
    Answers wf s o :=
  ⟨fun hw => let ⟨u, e, hu⟩ := ho.1 hw; ⟨u, e, h.trans hu⟩, ho.2⟩

theorem Kept.after {s t : State} {wf : Bool} {o : Host.Outcome State Fault Refusal} (h : Kept s t) (ho : Answers wf t o) :
    Kept s (after o t) := by
  cases wf
  · rw [ho.2 rfl]; exact h
  · obtain ⟨u, rfl, hu⟩ := ho.1 rfl; exact h.trans hu

end Sys2Proof.Machine
end

section
/-! SUPPORT. What no command may change, through the operations that every family shares. -/

namespace Sys2Proof.Machine

variable {s t : State}

theorem Kept.setStrand {core strand : Nat} {t' : Strand} (h : Kept s t) : Kept s (t.setStrand core strand t') :=
  h.update rfl

theorem Kept.setCore {c : Nat} {x' : Core} (h : Kept s t) : Kept s (t.setCore c x') :=
  h.update rfl

theorem Kept.setPav {p : Nat} {x' : Pav} (h : Kept s t) : Kept s (t.setPav p x') :=
  h.update rfl

theorem Kept.setChannel {q : Nat} {x' : Channel} (h : Kept s t) : Kept s (t.setChannel q x') :=
  h.update rfl

theorem Kept.modPav {p : Nat} {f : Pav → Pav} (h : Kept s t) : Kept s (t.modPav p f) :=
  h.setPav

theorem Kept.modCore {c : Nat} {f : Core → Core} (h : Kept s t) : Kept s (t.modCore c f) :=
  h.setCore

theorem Kept.modStrand {c t' : Nat} {f : Strand → Strand} (h : Kept s t) : Kept s (t.modStrand c t' f) :=
  h.setStrand

theorem Kept.modRegs {f : Regs → Regs} (h : Kept s t) : Kept s (t.modRegs f) :=
  h.update rfl

theorem Kept.modNet {f : Net → Net} (h : Kept s t) : Kept s (t.modNet f) :=
  h.update rfl

theorem Kept.draw (h : Kept s t) : Kept s t.draw.2 :=
  h.update rfl

theorem Kept.answered {v : Nat} (h : Kept s t) : Kept s (t.answered v) :=
  h.update rfl

theorem Kept.bringIn {old new : Nat} (h : Kept s t) : Kept s (t.bringIn old new) :=
  h.update rfl

theorem Kept.writeCs {p a : Nat} {bs : List Byte} (h : Kept s t) : Kept s (t.writeCs p a bs) := by
  unfold State.writeCs
  exact .modBeds h (fun hm => Mem.wf_scatter hm _ _ _) id

theorem Kept.wakePkg {a n : Nat} (h : Kept s t) : Kept s (t.wakePkg a n) :=
  .ite h (h.update rfl)

theorem Kept.writeLs {core o : Nat} {bs : List Byte} (h : Kept s t) : Kept s (t.writeLs core o bs) := by
  unfold State.writeLs
  exact .modBeds h id fun hl => Mem.wf_writeN hl _ _

theorem Kept.zeroLsRange {core lo hi : Nat} (h : Kept s t) : Kept s (t.zeroLsRange core lo hi) := by
  unfold State.zeroLsRange
  exact .modBeds h id fun hl => Mem.wf_clear hl _ _

theorem Kept.zeroLs {core : Nat} (h : Kept s t) : Kept s (t.zeroLs core) := by
  unfold State.zeroLs
  exact .modBeds h id fun hl => Mem.wf_clear hl _ _

theorem Kept.unrepeatable {p cause : Nat} (h : Kept s t) : Kept s (t.unrepeatable p cause) :=
  .ite h h.modPav

theorem Kept.sendVector {f v : Nat} (h : Kept s t) : Kept s (t.sendVector f v) :=
  .ite (h.setFn rfl) (h.update rfl)

theorem Kept.raise {f code pav detail : Nat} (h : Kept s t) : Kept s (t.raise f code pav detail) :=
  .ite (h.setFn rfl) (.ite (.sendVector (h.setFn rfl)) (h.setFn rfl))

theorem Kept.raisePav {p code detail : Nat} (h : Kept s t) : Kept s (t.raisePav p code detail) :=
  h.raise

theorem Kept.raisePf0 {code pav detail : Nat} (h : Kept s t) : Kept s (t.raisePf0 code pav detail) :=
  h.raise

theorem Kept.logMem {kind loc whereAt : Nat} (h : Kept s t) : Kept s (t.logMem kind loc whereAt) :=
  .ite (.raisePf0 (h.modBeds id id)) (h.modBeds id id)

theorem Kept.bedUncorrectable {key : Nat} (h : Kept s t) : Kept s (t.bedUncorrectable key) := by
  unfold State.bedUncorrectable
  exact .logMem (h.modBeds id id)

/-- A slot is set for a post of its own reset count. -/
theorem Kept.setMb {k : Nat} {m : MbSlot} (h : Kept s t) (e : m.gen = (nthD (t.fn (postFn k)).slots (k % 4) {}).gen) : Kept s (t.setMb k m) :=
  h.setFn (gens_setNth e)

/-- A command's completion finds the slot at the reset count of its post, or answers nobody (R401, R411). -/
theorem Kept.complete {k status : Nat} {rsp : List Nat} (h : Kept s t) : Kept s (t.complete k status rsp) := by
  rw [State.complete]
  split
  · exact h
  · next hb =>
    split
    · exact h.dropOrphan
    · next ho =>
      have hm : t.mb k = nthD (t.fn (postFn k)).slots (k % 4) {} := by
        have hr : replayPost k = false := by
          cases hr : replayPost k
          · rfl
          · simp [State.mb, hr] at hb
        simp [State.mb, hr, Option.not_isSome_iff_eq_none.1 ho]
      have hk : ∀ m : MbSlot, m.gen = (t.mb k).gen → Kept s (t.setMb k m) := fun m e => h.setMb (e.trans (congrArg MbSlot.gen hm))
      exact .ite (.sendVector (hk _ rfl)) (hk _ rfl)

theorem Kept.startReset {p cause loc : Nat} {slots : List Nat} (h : Kept s t) : Kept s (t.startReset p cause loc slots) :=
  h.modPav

theorem Kept.kernelFaultAt {core strand code opc tile detail : Nat} {pc : Word32} (h : Kept s t) :
    Kept s (t.kernelFaultAt core strand code opc tile detail pc) := by
  rw [State.kernelFaultAt]
  split
  · exact h.modStrand
  · exact .ite h.modStrand h.modStrand.raisePav.modPav.startReset

theorem Kept.kernelFault {core strand code opc tile detail : Nat} (h : Kept s t) : Kept s (t.kernelFault core strand code opc tile detail) :=
  h.kernelFaultAt

theorem Kept.makeReady {core strand : Nat} (h : Kept s t) : Kept s (t.makeReady core strand) := by
  unfold State.makeReady
  exact .modStrand (h.update rfl)

theorem Kept.waitFor {core strand : Nat} {w : Wait} (h : Kept s t) : Kept s (t.waitFor core strand w) :=
  h.modStrand

theorem Kept.retireFrame {key : Nat} (h : Kept s t) : Kept s (t.retireFrame key) :=
  .ite h (.logMem (h.modBeds id id))

theorem Kept.bedCorrected {key : Nat} (h : Kept s t) : Kept s (t.bedCorrected key) :=
  .ite (.setChannel (.logMem (h.modBeds id id))) (.ite (.setChannel (.logMem (h.modBeds id id)))
    (.ite (.logMem (.setChannel (.logMem (h.modBeds id id)))) (.retireFrame (.setChannel (.logMem (h.modBeds id id))))))

theorem Kept.killOwner {q key : Nat} (h : Kept s t) : Kept s (t.killOwner q key) :=
  h.bedUncorrectable.startReset

theorem Kept.killSram {p core row : Nat} (h : Kept s t) : Kept s (t.killSram p core row) :=
  .startReset (.logMem (h.modBeds id id))

end Sys2Proof.Machine
end

section
/-! SUPPORT. What no command may change, through translation, descriptors and the pages of pools. -/

namespace Sys2Proof.Machine

variable {s t : State}

theorem Kept.cacheEntries {un p level : Nat} {es : List (Nat × Nat)} (h : Kept s t) : Kept s (t.cacheEntries un p level es) :=
  h.update rfl

theorem Kept.readMemEntry {un p page dva level : Nat} (h : Kept s t) : Kept s (t.readMemEntry un p page dva level).2 := by
  unfold State.readMemEntry
  dsimp only
  split
  · exact h
  · split
    · exact h
    · split
      · split
        · exact h
        · split <;> exact h.cacheEntries
      · exact h.cacheEntries

theorem Kept.readEntry {un p page dva level : Nat} (h : Kept s t) : Kept s (t.readEntry un p page dva level).2 := by
  unfold State.readEntry
  dsimp only
  split
  · exact h.readMemEntry
  · split
    · exact h
    · split
      · exact h.draw
      · exact h.draw.readMemEntry

/-- One level of a walk: what is read there ends it, or `next` walks on from the page that the entry names. -/
def State.walkLevel (s : State) (un p dva level page : Nat) (next : State → Nat → Walk × State) : Walk × State :=
  let r := s.readEntry un p page dva level
  match r.1 with
  | .error key => (.hurt key, r.2)
  | .ok e =>
    if Pte.typ e == 0 then (.bad 0x01 level, r.2)
    else if Pte.malformed (s.pav p).capacity level e then (.bad 0x05 level, r.2)
    else if Pte.typ e == 1 then next r.2 (Pte.addr e)
    else (.leaf ⟨level, pteAddr page dva level, e⟩, r.2)

set_option smartUnfolding false in
theorem walkFrom_zero {un p dva page : Nat} :
    t.walkFrom un p dva 0 page = t.walkLevel un p dva 0 page fun u _ => (.bad 0x05 0, u) := rfl

set_option smartUnfolding false in
theorem walkFrom_succ {un p dva level page : Nat} :
    t.walkFrom un p dva (level + 1) page = t.walkLevel un p dva (level + 1) page fun u a => u.walkFrom un p dva level a := rfl

theorem Kept.walkLevel {un p dva level page : Nat} {next : State → Nat → Walk × State} (h : Kept s t)
    (hn : ∀ u a, Kept s u → Kept s (next u a).2) : Kept s (t.walkLevel un p dva level page next).2 := by
  rw [State.walkLevel]
  split
  · exact h.readEntry
  · split
    · exact h.readEntry
    · split
      · exact h.readEntry
      · split
        · exact hn _ _ h.readEntry
        · exact h.readEntry

theorem Kept.walkFrom {un p dva level page : Nat} (h : Kept s t) : Kept s (t.walkFrom un p dva level page).2 := by
  induction level generalizing t page with
  | zero =>
    rw [walkFrom_zero]
    exact h.walkLevel fun _ _ hu => hu
  | succ level ih =>
    rw [walkFrom_succ]
    exact h.walkLevel fun _ _ hu => ih hu

theorem Kept.walk {un p dva : Nat} (h : Kept s t) : Kept s (t.walk un p dva).2 := by
  rw [State.walk]
  split
  · exact h
  · split
    · exact h
    · exact h.walkFrom

theorem Kept.dropPage {un p dva : Nat} (h : Kept s t) : Kept s (t.dropPage un p dva) :=
  h.update rfl

theorem Kept.dropWalk {un p dva : Nat} (h : Kept s t) : Kept s (t.dropWalk un p dva) :=
  h.dropPage.update rfl

theorem Kept.touch {un p dva : Nat} {l : Leaf} {wr : Bool} (h : Kept s t) : Kept s (t.touch un p dva l wr) := by
  unfold State.touch
  dsimp only
  refine h.foldl fun _ _ hu => ?_
  split
  · exact hu
  · split
    · exact hu.writeCs.cacheEntries
    · exact hu.writeCs

theorem Kept.mmuFault {p id : Nat} {page : Word64} (h : Kept s t) : Kept s (t.mmuFault p id page) :=
  h.raisePav

theorem Kept.recordFault {p : Nat} {w : Waiter} (h : Kept s t) : Kept s (t.recordFault p w) := by
  rw [State.recordFault]
  split
  · exact .ite h.modPav.mmuFault h.modPav
  · split
    · exact h.modPav
    · exact h.modPav.mmuFault

theorem Kept.admitWaiters {p : Nat} (h : Kept s t) : Kept s (t.admitWaiters p) := by
  unfold State.admitWaiters
  dsimp only
  refine h.foldl fun _ _ hu => ?_
  split
  · exact hu
  · split
    · exact hu
    · exact hu.modPav.mmuFault

theorem Kept.walkPages {un p : Nat} {a : List (Nat × Access)} (h : Kept s t) : Kept s (t.walkPages un p a).2 := by
  induction a generalizing t with
  | nil => exact h
  | cons x rest ih =>
    rw [State.walkPages]
    dsimp only
    split
    · exact h.walk
    · split
      · dsimp only
        split
        · exact h.walk.dropPage
        · exact h.walk
      · split
        · exact ih h.walk
        · exact ih h.walk

theorem Kept.touchAll {un p : Nat} {ls : List (Nat × Walk × Access)} (h : Kept s t) : Kept s (t.touchAll un p ls) := by
  unfold State.touchAll
  refine h.foldl fun _ _ hu => ?_
  split
  · exact hu.touch
  · exact hu

theorem Kept.advance {core strand len : Nat} (h : Kept s t) : Kept s (t.advance core strand len) :=
  .ite h.kernelFault h.setStrand

theorem Kept.jumpTo {core strand opc : Nat} {target : Int} {k : Strand → Strand} (h : Kept s t) : Kept s (t.jumpTo core strand opc target k) :=
  .ite h.kernelFault h.modStrand

theorem Kept.dropShadows {core strand : Nat} (h : Kept s t) : Kept s (t.dropShadows core strand) :=
  h.modCore

theorem Kept.recordAt {p dva : Nat} {a : Access} {data : Option (Nat × List Byte)} (h : Kept s t) : Kept s (t.recordAt p dva a data) := by
  rw [State.recordAt]
  split
  · exact h
  · exact .ite h h.recordFault

theorem Kept.deniedRead {p : Nat} {dvas : List Nat} (h : Kept s t) : ∀ u ∈ t.deniedRead p dvas, Kept s u := by
  intro u e
  obtain ⟨d, -, rfl⟩ := Option.map_eq_some_iff.1 e
  exact h.recordAt

theorem Kept.zeroCs {p a n : Nat} (h : Kept s t) : Kept s (t.zeroCs p a n) := by
  unfold State.zeroCs
  exact .modBeds h (fun hm => Mem.wf_foldl hm _ (fun _ _ hm => Mem.wf_clear hm _ _) _) id

theorem Kept.modPool {i : Nat} {f : Pool → Pool} (h : Kept s t) : Kept s (t.modPool i f) :=
  h.update rfl

theorem Kept.modHolding {i id : Nat} {f : Holding → Holding} (h : Kept s t) : Kept s (t.modHolding i id f) :=
  h.modPool

theorem Kept.deniedPages {i : Nat} {pages : List Nat} (h : Kept s t) : ∀ u ∈ t.deniedPages i pages, Kept s u :=
  h.deniedRead

theorem Kept.writePool {i page off : Nat} {bs : List Byte} (h : Kept s t) : Kept s (t.writePool i page off bs) := by
  unfold State.writePool
  dsimp only
  refine h.foldl fun _ _ hu => ?_
  split
  · split
    · exact hu
    · split
      · exact hu.killOwner
      · exact hu.writeCs
  · exact .ite hu hu.recordAt

theorem Kept.zeroPoolPage {i page : Nat} (h : Kept s t) : Kept s (t.zeroPoolPage i page) := by
  unfold State.zeroPoolPage
  refine h.foldl fun _ _ hu => ?_
  split
  · exact hu.zeroCs
  · exact hu

theorem Kept.writeLists {i : Nat} {pages ls : List Nat} (h : Kept s t) : Kept s (t.writeLists i pages ls) := by
  induction ls generalizing t pages with
  | nil => exact h
  | cons l ls ih => exact ih h.writePool

theorem Kept.zeroPages {i : Nat} {ps : List Nat} (h : Kept s t) : Kept s (t.zeroPages i ps) :=
  h.foldl (fun _ _ hu => hu.zeroPoolPage)

theorem Kept.takePages {i id n epoch : Nat} (h : Kept s t) : ∀ x ∈ t.takePages i id n epoch, Kept s x.2 := by
  rw [State.takePages]
  split
  · exact Kept.ofNone
  · exact Kept.ofSome h.zeroPages.modPool.writeLists

theorem Kept.takeProt {i id n lists : Nat} (h : Kept s t) : ∀ u ∈ t.takeProt i id n lists, Kept s u := by
  rw [State.takeProt]
  split
  · exact Kept.ofNone
  · exact Kept.ofSome h.zeroPages.modPool

theorem Kept.extendPages {i id n : Nat} (h : Kept s t) : ∀ x ∈ t.extendPages i id n, Kept s x.2 := by
  unfold State.extendPages
  dsimp only
  split
  · exact Kept.ofNone
  · split
    · exact Kept.ofNone
    · exact Kept.ofSome h.zeroPages.modPool.writeLists

theorem Kept.freePages {i id : Nat} (h : Kept s t) : Kept s (t.freePages i id) := by
  rw [State.freePages]
  split
  · exact h
  · exact h.zeroPages.modPool

theorem Kept.trimPages {i id n lists : Nat} (h : Kept s t) : Kept s (t.trimPages i id n lists) := by
  rw [State.trimPages]
  split
  · exact h
  · exact .ite h.zeroPages.modPool.writeLists h.zeroPages.modPool

theorem Kept.markHolding {i id st : Nat} (h : Kept s t) : Kept s (t.markHolding i id st) := by
  unfold State.markHolding
  split
  · exact h
  · exact h.modPool

theorem Kept.markDirty {i id : Nat} {ix : List Nat} (h : Kept s t) : Kept s (t.markDirty i id ix) := by
  rw [State.markDirty]
  split
  · exact h
  · exact h.modPool

end Sys2Proof.Machine
end

section
/-! SUPPORT. What no command may change, through messages, flits, routes and windows. -/

namespace Sys2Proof.Machine

variable {s t : State}

theorem Kept.crosses {p : Option Nat} {src dst : Nat} (h : Kept s t) : Kept s (t.crosses p src dst) :=
  h.foldl (fun _ _ hu => hu.unrepeatable)

theorem Kept.carry {m : BulkMsg} {src dst n : Nat} (h : Kept s t) : Kept s (t.carry m src dst n) :=
  h.crosses.modNet

theorem Kept.exchange {m : BulkMsg} {src n : Nat} (h : Kept s t) : Kept s (t.exchange m src n) :=
  h.carry.carry

theorem Kept.setTraffic {p : Nat} {x' : BulkSource} {wr : Bool} {loc a n : Nat} (h : Kept s t) : Kept s (t.setTraffic p x' wr loc a n) :=
  h.foldl (fun _ _ hu => hu.exchange)

theorem Kept.background {src dst n : Nat} (h : Kept s t) : Kept s (t.background src dst n) :=
  h.exchange

theorem Kept.setPort {p : Nat} {x' : Port} (h : Kept s t) : Kept s (t.setPort p x') :=
  h.update rfl

theorem Kept.sendOut {m : BulkMsg} (h : Kept s t) : Kept s (t.sendOut m) := by
  rw [State.sendOut]
  split
  · exact h.setPort
  · exact h.update rfl

theorem Kept.sendPort {p : Nat} {x' : Port} (h : Kept s t) : Kept s (t.sendPort p x') :=
  h.setPort.update rfl

theorem Kept.syncForward {i : SyncItem} (h : Kept s t) : Kept s (t.syncForward i) := by
  rw [State.syncForward]
  split
  · exact h.sendPort
  · exact h.update rfl

theorem Kept.syncSend {pkg : Nat} {m : SyncMsg} (h : Kept s t) : Kept s (t.syncSend pkg m) :=
  .ite (h.update rfl) (.syncForward (h.update rfl))

theorem Kept.leave {src : Nat} {m : BulkMsg} (h : Kept s t) : Kept s (t.leave src m) := by
  unfold State.leave
  split
  · exact h.carry.sendOut
  · exact h.sendOut

theorem Kept.enter {port : Nat} {m : BulkMsg} (h : Kept s t) : Kept s (t.enter port m) :=
  .ite h.carry h

theorem Kept.answerOut {m a : BulkMsg} (h : Kept s t) : Kept s (t.answerOut m a) :=
  h.leave

theorem Kept.request {q : Sent} (h : Kept s t) : Kept s (t.request q) :=
  .ite h.modNet.leave h.modNet

theorem Kept.sendNext {k : Nat} (h : Kept s t) : Kept s (t.sendNext k) := by
  unfold State.sendNext
  split
  · exact h
  · exact .ite h.modNet.leave h

theorem Kept.renumber {p : Nat} (h : Kept s t) : Kept s (t.renumber p) :=
  h.modNet

theorem Kept.window {w : Nat} (h : Kept s t) : Kept s (t.window w).2 := by
  rw [State.window]
  split
  · exact h
  · split
    · exact h
    · exact h.update rfl

theorem Kept.walkOwner {p : Nat} {a : Access} {pgs : List Nat} (h : Kept s t) : Kept s (t.walkOwner p a pgs).2 := by
  induction pgs generalizing t with
  | nil => exact h
  | cons x rest ih =>
    rw [State.walkOwner]
    dsimp only
    split
    · exact h
    · split
      · exact h.walkPages
      · split
        · split
          · exact h.walkPages
          · split
            · exact ih h.walkPages
            · exact ih h.walkPages
        · exact h.walkPages
      · exact h.walkPages

theorem Kept.windowCheck {w srcPkg tenant : Nat} {pages : List Nat} {last : Nat} {rd wr : Bool} (h : Kept s t) :
    Kept s (t.windowCheck w srcPkg tenant pages last rd wr).2 := by
  unfold State.windowCheck
  dsimp only
  split
  · exact h.window
  · split
    · exact h.window
    · split
      · exact h.window
      · split
        · exact h.window
        · split
          · exact h.window
          · split
            · exact h.window
            · split
              · exact h.window
              · split
                · exact h.window
                · split
                  · exact h.window.walkOwner
                  · exact h.window
                  · exact h.window.walkOwner
                  · exact h.window.walkOwner.bedUncorrectable.startReset
                  · exact h.window.walkOwner

theorem Kept.touchWindow {w page : Nat} {a : Access} (h : Kept s t) : Kept s (t.touchWindow w page a) := by
  rw [State.touchWindow]
  split
  · exact h.walkPages.touchAll
  · exact h

theorem Kept.windowRequest {w srcPkg tenant : Nat} {pages : List Nat} {last : Nat} {rd wr : Bool} (h : Kept s t) :
    Kept s (t.windowRequest w srcPkg tenant pages last rd wr).2 := by
  rw [State.windowRequest]
  split
  · exact h.windowCheck.foldl (fun _ _ hu => hu.touchWindow)
  · exact h.windowCheck

theorem Kept.sendPoolOf {pav : Option Nat} {num pkg : Nat} {m : PoolMsg} {bytes : List Byte} {last : optParam Bool true} (h : Kept s t) :
    Kept s (t.sendPoolOf pav num pkg m bytes last) :=
  h.request

theorem Kept.sendPoolFor {pav : Option Nat} {num pkg : Nat} {m : PoolMsg} {bytes : List Byte} (h : Kept s t) :
    Kept s (t.sendPoolFor pav num pkg m bytes) :=
  .ite (h.foldl (fun _ _ hu => hu.sendPoolOf)) (.ite h.sendPoolOf (h.foldl (fun _ _ hu => hu.sendPoolOf)))

theorem Kept.sendPool {pkg : Nat} {m : PoolMsg} {bytes : List Byte} (h : Kept s t) : Kept s (t.sendPool pkg m bytes) :=
  h.sendPoolFor

theorem Kept.settleTwice (h : Kept s t) : Kept s t.settleTwice :=
  .foldl (h.update rfl) (fun _ _ hu => hu.sendOut)

theorem Kept.poolWrote {i page off : Nat} {bs : List Byte} (h : Kept s t) : Kept s (t.poolWrote i page off bs) := by
  unfold State.poolWrote
  dsimp only
  split
  · exact h
  · split
    · exact h.modPool
    · split
      · split
        · split
          · exact h.modPool.writePool
          · exact h.modPool
        · exact .sendPoolFor (h.modPool.update rfl)
      · exact h.modPool

theorem Kept.writeWindow {w page p cs off : Nat} {bs : List Byte} (h : Kept s t) : Kept s (t.writeWindow w page p cs off bs) := by
  rw [State.writeWindow]
  split
  · exact h.writeCs
  · exact h.writeCs.poolWrote

end Sys2Proof.Machine
end

section
/-! SUPPORT. What no command may change, through issue and the scalar instructions. -/

namespace Sys2Proof.Machine

variable {s t : State}

theorem Kept.opWrite {p core : Nat} {m : Tab PageLoc} {d : Desc} {o : Nat} {bs : List Byte} (h : Kept s t) :
    Kept s (t.opWrite p core m d o bs) := by
  unfold State.opWrite
  dsimp only
  split
  · exact h.writeLs
  · split
    · exact h
    · split
      · exact h.writeLs
      · exact h
  · refine h.foldl fun _ _ hu => ?_
    split
    · exact hu.writeCs
    · exact hu.writeWindow
    · exact hu
  · refine h.foldl fun _ _ hu => ?_
    split
    · exact hu.writeCs
    · exact hu.writeWindow
    · exact hu
  · exact h

theorem Kept.writeRow {p core : Nat} {m : Tab PageLoc} {d : Desc} {r : Nat} {bs : List Byte} (h : Kept s t) :
    Kept s (t.writeRow p core m d r bs) :=
  h.foldlFst (fun _ _ hu => hu.opWrite)

theorem Kept.resolve {un p : Nat} {pages : Tab Access} (h : Kept s t) : Kept s (t.resolve un p pages).2 := by
  unfold State.resolve
  dsimp only
  split
  · exact h.walkPages
  · exact h.walkPages
  · refine h.walkPages.touchAll.foldlSnd fun _ _ hu => ?_
    split
    · split <;> exact hu.windowCheck
    · exact hu

theorem Kept.addCount {p cls n : Nat} (h : Kept s t) : Kept s (t.addCount p cls n) :=
  h.modPav

theorem Kept.count {p cls n : Nat} (h : Kept s t) : Kept s (t.count p cls n) :=
  .ite h h.addCount

theorem Kept.useSlices {p : Nat} {ds : List Desc} (h : Kept s t) : Kept s (t.useSlices p ds) :=
  .ite h h.modPav

theorem Kept.modFlight {core strand num : Nat} {g : Flight → Flight} (h : Kept s t) : Kept s (t.modFlight core strand num g) :=
  h.modStrand

theorem Kept.putSlot {core engine slot : Nat} {x' : Option Slot} (h : Kept s t) : Kept s (t.putSlot core engine slot x') :=
  h.modCore

/-- An instruction's strand waits, or its body runs. -/
theorem Answers.issue {core strand len : Nat} {k : Nat → Nat → Strand → State} (hk : ∀ p i t, Kept s (k p i t)) :
    Answers (isCore core && isStrand strand) s (issue core strand len s k) := by
  refine .guard (by simp) fun _ => ?_
  split
  · exact .ok .refl
  · exact .ite (.ok .refl) (.ite (.ok (.waitFor .refl)) (.ok (hk _ _ _)))

theorem Answers.scalar {core strand opc : Nat} {k : ScalarShape} {f : ScalarFields} {body : Nat → Nat → Strand → State}
    (hb : ∀ p i t, Kept s (body p i t)) : Answers (isCore core && isStrand strand) s (scalar core strand opc k f s body) :=
  .issue fun p i t => .ite (.kernelFault .refl) (hb p i t)

theorem Kept.scalarDone {core strand : Nat} {t' : Strand} (h : Kept s t) : Kept s (t.scalarDone core strand t') :=
  h.setStrand.advance

theorem alu_answers {core strand opc : Nat} {f : ScalarFields} : Answers (isCore core && isStrand strand) s (alu core strand opc f s) :=
  .scalar fun _ _ _ => .scalarDone .refl

theorem setDst_answers {core strand opc : Nat} {k : ScalarShape} {f : ScalarFields} {v : Strand → Word64} :
    Answers (isCore core && isStrand strand) s (setDst core strand opc k f v s) :=
  .scalar fun _ _ _ => .scalarDone .refl

theorem Kept.countOcc {core strand : Nat} (h : Kept s t) : Kept s (t.countOcc core strand) :=
  h.modStrand

theorem Kept.predict {core strand : Nat} {v : Word64} (h : Kept s t) : Kept s (t.predict core strand v) :=
  h.modCore.countOcc

theorem Kept.waitValue {core strand : Nat} {nums : List Nat} (h : Kept s t) : Kept s (t.waitValue core strand nums) :=
  h.waitFor.modStrand

theorem Kept.statusRead {core strand : Nat} {ns : List Nat} {v : Word64} {body : State → State} (h : Kept s t) (hb : ∀ u, Kept s u → Kept s (body u)) :
    Kept s (t.statusRead core strand ns v body) := by
  unfold State.statusRead
  exact .ite h.waitValue (hb _ (.ite h.predict h.countOcc))

theorem Kept.scratchAccess {core strand opc p : Nat} {x : Strand} {a : Word64} {w : Nat} {isLoad : Bool} {body : State} (h : Kept s t) (hb : Kept s body) :
    Kept s (scratchAccess core strand opc p x a w isLoad t body) := by
  unfold Machine.scratchAccess
  split
  · exact h.kernelFault
  · exact .ite (.ite h.waitValue h.waitFor) (.ite h.killSram.waitFor hb)

theorem execNop_answers {core strand : Nat} {f : ScalarFields} : Answers (isCore core && isStrand strand) s (execNop core strand f s) :=
  Answers.scalar (fun _ _ _ => Kept.refl.scalarDone)

theorem execAdd_answers {core strand : Nat} {f : ScalarFields} : Answers (isCore core && isStrand strand) s (execAdd core strand f s) :=
  alu_answers

theorem execSub_answers {core strand : Nat} {f : ScalarFields} : Answers (isCore core && isStrand strand) s (execSub core strand f s) :=
  alu_answers

theorem execMul_answers {core strand : Nat} {f : ScalarFields} : Answers (isCore core && isStrand strand) s (execMul core strand f s) :=
  alu_answers

theorem execAnd_answers {core strand : Nat} {f : ScalarFields} : Answers (isCore core && isStrand strand) s (execAnd core strand f s) :=
  alu_answers

theorem execOr_answers {core strand : Nat} {f : ScalarFields} : Answers (isCore core && isStrand strand) s (execOr core strand f s) :=
  alu_answers

theorem execXor_answers {core strand : Nat} {f : ScalarFields} : Answers (isCore core && isStrand strand) s (execXor core strand f s) :=
  alu_answers

theorem execShl_answers {core strand : Nat} {f : ScalarFields} : Answers (isCore core && isStrand strand) s (execShl core strand f s) :=
  alu_answers

theorem execShr_answers {core strand : Nat} {f : ScalarFields} : Answers (isCore core && isStrand strand) s (execShr core strand f s) :=
  alu_answers

theorem execSar_answers {core strand : Nat} {f : ScalarFields} : Answers (isCore core && isStrand strand) s (execSar core strand f s) :=
  alu_answers

theorem execMin_answers {core strand : Nat} {f : ScalarFields} : Answers (isCore core && isStrand strand) s (execMin core strand f s) :=
  alu_answers

theorem execMax_answers {core strand : Nat} {f : ScalarFields} : Answers (isCore core && isStrand strand) s (execMax core strand f s) :=
  alu_answers

theorem execCmp_answers {core strand : Nat} {f : ScalarFields} : Answers (isCore core && isStrand strand) s (execCmp core strand f s) :=
  Answers.scalar (fun _ _ _ => Kept.refl.scalarDone)

theorem execMovi_answers {core strand : Nat} {f : ScalarFields} : Answers (isCore core && isStrand strand) s (execMovi core strand f s) :=
  setDst_answers

theorem execMovhi_answers {core strand : Nat} {f : ScalarFields} : Answers (isCore core && isStrand strand) s (execMovhi core strand f s) :=
  setDst_answers

theorem Kept.lsCorrected {core a : Nat} (h : Kept s t) : Kept s (t.lsCorrected core a) := by
  unfold State.lsCorrected
  exact .modCore (h.modBeds id id)

theorem Kept.sramError {core a : Nat} {err : SramErr} (h : Kept s t) : Kept s (t.sramError core a err) := by
  unfold State.sramError
  split
  · exact h
  · exact h.lsCorrected
  · exact h.lsCorrected
  · exact h.modBeds id id
  · exact h.modBeds id id
  · exact h.modBeds id id
  · exact .modCore (h.modBeds id id)
  · exact h.modCore
  · exact h.modCore
  · exact h

theorem execLds_answers {core strand : Nat} {f : ScalarFields} {err : SramErr} :
    Answers (isCore core && isStrand strand) s (execLds core strand f err s) :=
  Answers.scalar (fun _ _ _ => .ite Kept.refl.killSram.waitFor
    (.scratchAccess (.ite Kept.refl.sramError .refl) (.advance (.modStrand (.predict (.ite Kept.refl.sramError .refl))))))

theorem execSts_answers {core strand : Nat} {f : ScalarFields} : Answers (isCore core && isStrand strand) s (execSts core strand f s) :=
  Answers.scalar (fun _ _ _ => Kept.refl.scratchAccess Kept.refl.writeLs.advance)

theorem execSetd_answers {core strand : Nat} {f : ScalarFields} : Answers (isCore core && isStrand strand) s (execSetd core strand f s) :=
  Answers.scalar (fun _ _ _ => Kept.refl.scalarDone)

theorem execGetd_answers {core strand : Nat} {f : ScalarFields} : Answers (isCore core && isStrand strand) s (execGetd core strand f s) :=
  setDst_answers

theorem execLdd_answers {core strand : Nat} {f : ScalarFields} : Answers (isCore core && isStrand strand) s (execLdd core strand f s) :=
  Answers.scalar (fun _ _ _ => Kept.refl.scratchAccess Kept.refl.predict.modStrand.advance)

theorem execStd_answers {core strand : Nat} {f : ScalarFields} : Answers (isCore core && isStrand strand) s (execStd core strand f s) :=
  Answers.scalar (fun _ _ _ => Kept.refl.scratchAccess Kept.refl.writeLs.advance)

theorem execRdas_answers {core strand : Nat} {f : ScalarFields} : Answers (isCore core && isStrand strand) s (execRdas core strand f s) :=
  Answers.scalar (fun _ _ _ => Kept.refl.statusRead (fun _ hu => hu.scalarDone))

theorem execClas_answers {core strand : Nat} {f : ScalarFields} : Answers (isCore core && isStrand strand) s (execClas core strand f s) :=
  Answers.scalar (fun _ _ _ => Kept.refl.statusRead (fun _ hu => hu.scalarDone))

theorem execSetsrc_answers {core strand : Nat} {f : ScalarFields} : Answers (isCore core && isStrand strand) s (execSetsrc core strand f s) :=
  Answers.scalar (fun _ _ _ => .ite Kept.refl.waitFor Kept.refl.scalarDone)

theorem execRdsrc_answers {core strand : Nat} {f : ScalarFields} : Answers (isCore core && isStrand strand) s (execRdsrc core strand f s) :=
  Answers.scalar (fun _ _ _ => Kept.refl.statusRead (fun _ hu => hu.scalarDone))

theorem execRdtime_answers {core strand : Nat} {f : ScalarFields} : Answers (isCore core && isStrand strand) s (execRdtime core strand f s) :=
  setDst_answers

theorem execBr_answers {core strand : Nat} {f : ScalarFields} : Answers (isCore core && isStrand strand) s (execBr core strand f s) :=
  Answers.scalar (fun _ _ _ => .ite Kept.refl.jumpTo Kept.refl.advance)

theorem execJmp_answers {core strand : Nat} {f : ScalarFields} : Answers (isCore core && isStrand strand) s (execJmp core strand f s) :=
  Answers.scalar (fun _ _ _ => Kept.refl.jumpTo)

theorem execJmpr_answers {core strand : Nat} {f : ScalarFields} : Answers (isCore core && isStrand strand) s (execJmpr core strand f s) :=
  Answers.scalar (fun _ _ _ => .ite Kept.refl.kernelFault Kept.refl.jumpTo)

theorem execCall_answers {core strand : Nat} {f : ScalarFields} : Answers (isCore core && isStrand strand) s (execCall core strand f s) :=
  Answers.scalar (fun _ _ _ => Kept.refl.jumpTo)

theorem execSpawn_answers {core strand : Nat} {f : ScalarFields} :
    Answers (isCore core && isStrand strand) s (execSpawn core strand f s) := by
  unfold Machine.execSpawn
  refine Answers.scalar fun _ _ _ => ?_
  dsimp only
  split
  · exact Kept.refl.kernelFault
  · split
    · exact Kept.refl.dropShadows.waitFor
    · exact Kept.refl.setStrand.makeReady.dropShadows.advance

theorem execYield_answers {core strand : Nat} {f : ScalarFields} : Answers (isCore core && isStrand strand) s (execYield core strand f s) :=
  Answers.scalar (fun _ _ _ => .ite Kept.refl.dropShadows.advance.makeReady Kept.refl.dropShadows.advance)

theorem execExit_answers {core strand : Nat} {f : ScalarFields} : Answers (isCore core && isStrand strand) s (execExit core strand f s) :=
  Answers.scalar (fun _ _ _ => .ite Kept.refl.dropShadows.setStrand Kept.refl.dropShadows.waitFor)

theorem Kept.fenceSpan {p fn : Nat} (h : Kept s t) : Kept s (t.fenceSpan p fn) :=
  .ite h (h.foldl (fun _ _ hu => hu.syncSend))

theorem execFence_answers {core strand : Nat} {f : ScalarFields} : Answers (isCore core && isStrand strand) s (execFence core strand f s) :=
  Answers.scalar (fun _ _ _ => .ite Kept.refl.dropShadows.fenceSpan.advance Kept.refl.dropShadows.fenceSpan.waitFor)

end Sys2Proof.Machine
end

section
/-! SUPPORT. What no command may change, through tile instructions and how strands go on. -/

namespace Sys2Proof.Machine

variable {s t : State}

theorem Kept.writeDva {p dva : Nat} {bs : List Byte} (h : Kept s t) : Kept s (t.writeDva p dva bs) := by
  unfold State.writeDva
  refine h.foldl fun _ _ hu => ?_
  split
  · exact hu.writeCs
  · exact hu.recordAt

theorem Kept.deniedRing (h : Kept s t) : ∀ u ∈ t.deniedRing, Kept s u := h.deniedRead

theorem Kept.modRec {f : Recorder → Recorder} (h : Kept s t) : Kept s (t.modRec f) :=
  h.update rfl

theorem Kept.ringHeader {st endCode : Nat} (h : Kept s t) : Kept s (t.ringHeader st endCode) :=
  h.writeDva.writeDva

theorem Kept.ringPut {r : RingRec} (h : Kept s t) : Kept s (t.ringPut r) := by
  unfold State.ringPut
  exact h.writeDva.modRec

theorem Kept.endReplay {why : Nat} (h : Kept s t) : Kept s (t.endReplay why) :=
  .ite h (.ite h.modRec h.ringPut.ringHeader.modRec)

theorem Kept.endReplayOf {p why : Nat} (h : Kept s t) : Kept s (t.endReplayOf p why) :=
  .ite h.endReplay h

theorem Kept.appendRec {r : RingRec} (h : Kept s t) : Kept s (t.appendRec r) :=
  .ite h.endReplay.raisePf0 h.ringPut

theorem Kept.takeOrdinal {kind stream : Nat} (h : Kept s t) : Kept s (t.takeOrdinal kind stream).2 := by
  unfold State.takeOrdinal
  dsimp only
  exact h.modRec

theorem Kept.recordInput {p kind srcPkg stream addr : Nat} {data : List Byte} (h : Kept s t) :
    Kept s (t.recordInput p kind srcPkg stream addr data) :=
  .ite h h.takeOrdinal.appendRec

theorem Kept.diverge {why kind stream seq : Nat} (h : Kept s t) : Kept s (t.diverge why kind stream seq) :=
  h.modRec.raisePf0

theorem Kept.checkEnd (h : Kept s t) : Kept s t.checkEnd :=
  .ite h h.endReplay.modRec.raisePf0

theorem Kept.replayInput {p kind stream addr len : Nat} (h : Kept s t) : Kept s (t.replayInput p kind stream addr len).2 := by
  unfold State.replayInput
  dsimp only
  split
  · exact h
  · split
    · rename_i u e
      have hu : Kept s u := h.deniedRing _ e
      exact hu
    · split
      · exact h.takeOrdinal.diverge
      · split
        · exact h.takeOrdinal.diverge
        · exact h.takeOrdinal.modRec.checkEnd

theorem Kept.noteWrite {p addr : Nat} {bs : List Byte} (h : Kept s t) : Kept s (t.noteWrite p addr bs) :=
  .ite h.modRec h

theorem Kept.replayCommit {p : Nat} {n : Word64} {held : List Held} (h : Kept s t) : Kept s (t.replayCommit p n held) := by
  rw [State.replayCommit]
  split
  · exact h.appendRec.modRec
  · split
    · split
      · rename_i u e
        have hu : Kept s u := h.deniedRing _ e
        exact hu.modRec
      · split
        · exact h.diverge.modRec
        · exact .ite h.diverge.modRec h.modRec.modRec.checkEnd
    · exact h

theorem Kept.unstall {core strand : Nat} (h : Kept s t) : Kept s (t.unstall core strand) :=
  .ite h.makeReady h

theorem Kept.tileKernelFault {core strand : Nat} {x' : Flight} {code detail : Nat} (h : Kept s t) :
    Kept s (t.tileKernelFault core strand x' code detail) :=
  h.kernelFaultAt

theorem Kept.stall {core strand : Nat} {w : Wait} (h : Kept s t) : Kept s (t.stall core strand w) :=
  h.modStrand

theorem Kept.killLs {p core o : Nat} (h : Kept s t) : Kept s (t.killLs p core o) :=
  h.killSram

theorem Kept.feed {p core kind : Nat} {bs : List (Nat × Nat)} (h : Kept s t) : Kept s (t.feed p core kind bs).2 := by
  rw [State.feed]
  split
  · exact h
  · exact h.replayInput

theorem Kept.recordSource {p core : Nat} {d : Desc} {m : Tab PageLoc} {io : Supply} {rows : List Nat} (h : Kept s t) :
    Kept s (t.recordSource p core d m io rows) :=
  .ite h (.ite (.ite h h.recordInput) (.recordInput (.ite h h.recordInput)))

theorem Kept.touchWindows {m : Tab PageLoc} {pages : Tab Access} (h : Kept s t) : Kept s (t.touchWindows m pages) := by
  unfold State.touchWindows
  refine h.foldl fun _ _ hu => ?_
  split
  · exact hu.touchWindow
  · exact hu

theorem Kept.moveTile {p core strand : Nat} {x' : Flight} {m : Tab PageLoc} {io : Supply} {rows : List (Nat × Nat)} (h : Kept s t) :
    Kept s (t.moveTile p core strand x' m io rows) :=
  .ite (.modStrand (.count (.modPav (.foldl (.useSlices (.recordSource (h.touchWindows.foldl (fun _ _ hu => hu.writeRow))))
    (fun _ _ hu => hu.noteWrite))))) (.modFlight (.modStrand (.count
    (.modPav (.foldl (.useSlices (.recordSource (h.touchWindows.foldl (fun _ _ hu => hu.writeRow)))) (fun _ _ hu => hu.noteWrite))))))

theorem Kept.computeTile {p core strand : Nat} {x' : Flight} {m : Tab PageLoc} (h : Kept s t) :
    Kept s (t.computeTile p core strand x' m) := by
  rw [State.computeTile]
  split
  · exact h.tileKernelFault
  · refine .modStrand (.count ?_)
    refine .useSlices ?_
    split
    · exact .putSlot (h.foldl (fun _ _ hu => hu.writeRow))
    · exact h.foldl (fun _ _ hu => hu.writeRow)

theorem Kept.tileTraffic {p core : Nat} {m : Tab PageLoc} {x' : Flight} {srcRows dstRows : List Nat} (h : Kept s t) :
    Kept s (t.tileTraffic p core m x' srcRows dstRows) :=
  .foldl (h.foldl (fun _ _ hu => hu.exchange)) (fun _ _ hu => hu.exchange)

theorem Kept.askRemote {p core strand : Nat} {x : Flight} {m : Tab PageLoc} {io : Supply} {rows : List (Nat × Nat)} {ask : FarAsk}
    (h : Kept s t) : ∀ u, t.askRemote p core strand x m io rows ask = .sent u → Kept s u := by
  intro u e
  unfold State.askRemote at e
  dsimp only at e
  split at e
  · cases e
  · cases e
    exact .foldl h fun _ _ hu => hu.request

theorem Kept.awaitRemote {p core strand : Nat} {x' : Flight} {m : Tab PageLoc} {io : Supply} {rows : List (Nat × Nat)} {ask : FarAsk}
    (h : Kept s t) : Kept s (t.awaitRemote p core strand x' m io rows ask).state := by
  unfold State.awaitRemote
  split
  · next u e => exact (h.askRemote u e).modFlight
  · exact h.tileKernelFault

theorem Kept.dropPiece {p : Nat} {x' : Nat × Nat × Piece × Nat} (h : Kept s t) : Kept s (t.dropPiece p x') := by
  unfold State.dropPiece
  exact .modPav (.logMem (h.modBeds id id))

theorem Kept.dropHurt {p : Nat} {ds : List (Desc × List Nat)} (h : Kept s t) : Kept s (t.dropHurt p ds) :=
  h.foldl (fun _ _ hu => hu.dropPiece)

theorem Kept.attemptIte {c : Prop} [Decidable c] {a b : Attempt} (ha : Kept s a.state) (hb : Kept s b.state) :
    Kept s (if c then a else b).state := by
  split
  · exact ha
  · exact hb

theorem Kept.attemptTile {p core strand : Nat} {x : Flight} {io : Supply} (h : Kept s t) :
    Kept s (t.attemptTile p core strand x io).state := by
  unfold State.attemptTile
  refine .attemptIte h.modFlight ?_
  split
  · exact h.tileKernelFault
  · extract_lets s1 v un rows pages r srcRows dstRows
    have hr : Kept s r.2 := by
      unfold r
      split
      · exact h.dropHurt
      · exact h.dropHurt.resolve
    clear_value r
    split
    · exact hr.recordFault.modFlight.stall
    · exact hr.tileKernelFault
    · exact hr.bedUncorrectable.startReset.stall
    · refine .attemptIte hr.modFlight ?_
      extract_lets anyHost srcHost farSrc farDst writeBytes fedHost fedWin toWin io' u iova bad tooMany done
      have hf : Kept s fedWin.2 := hr.feed.feed
      have hu : Kept s u := .tileTraffic (.ite hf.unrepeatable hf)
      have hdone : Kept s done := hu.computeTile
      clear_value u bad done
      refine .attemptIte hu.modFlight.stall (.attemptIte hu.modFlight (.attemptIte hu.awaitRemote ?_))
      split
      · exact hu.killOwner.tileKernelFault
      · refine .attemptIte hu.awaitRemote (.attemptIte hu.tileKernelFault ?_)
        split
        · exact hu.killLs.stall
        · refine .attemptIte hu.killSram.stall ?_
          split
          · exact hu.killOwner.stall
          · refine .attemptIte hu.awaitRemote (.attemptIte ?_ hdone)
            dsimp only
            exact hu.moveTile

theorem Kept.tileMoved {core strand : Nat} {x' : Flight} (h : Kept s t) : Kept s (t.tileMoved core strand x') :=
  .ite h.modFlight.putSlot h.modFlight

theorem Kept.runTiles {p core strand num : Nat} {io : Supply} {fuel : Nat} (h : Kept s t) : Kept s (t.runTiles p core strand num io fuel) := by
  induction fuel generalizing t io with
  | zero => exact h
  | succ fuel ih =>
    rw [State.runTiles]
    split
    · exact h
    · exact .ite h.attemptTile (.ite h.attemptTile.modFlight.tileMoved (ih h.attemptTile.modFlight))

theorem Kept.driveTiles {p core strand num : Nat} {io : Supply} (h : Kept s t) : Kept s (t.driveTiles p core strand num io) := by
  unfold State.driveTiles
  split
  · exact h.runTiles.unstall
  · exact h

theorem Kept.dropShadow {core buf : Nat} (h : Kept s t) : Kept s (t.dropShadow core buf) :=
  h.modCore

theorem Kept.launch {core strand : Nat} {x' : Flight} (h : Kept s t) : Kept s (t.launch core strand x') := by
  unfold State.launch
  exact .modCore (.setStrand (h.update rfl))

theorem Kept.adoptShape {core engine slot : Nat} {shape : Option (Nat × Nat)} (h : Kept s t) : Kept s (t.adoptShape core engine slot shape) := by
  unfold State.adoptShape
  split
  · exact .ite h.putSlot h
  · exact h

theorem Answers.tile {core strand op : Nat} {f : TileFields} {body : Nat → Nat → Flight → State → State}
    (hb : ∀ p i x u, Kept s u → Kept s (body p i x u)) : Answers (isCore core && isStrand strand) s (tile core strand op f s body) := by
  refine .issue fun p i t => .ite (.kernelFault .refl) (.ite (.waitFor .refl) ?_)
  dsimp only
  refine .ite (.waitFor .refl) ?_
  split
  · exact .kernelFault (.adoptShape .refl)
  · exact hb _ _ _ _ (.adoptShape .refl)

theorem Kept.launched {core strand : Nat} {x' : Flight} (h : Kept s t) : Kept s (t.launched core strand x') :=
  h.launch.advance

theorem Kept.launchRun {core strand p i : Nat} {x' : Flight} (h : Kept s t) : Kept s (launchRun core strand p i x' t) := by
  rw [Machine.launchRun]
  split
  · exact .ite h.modCore.launched (.ite h.dropShadow.launched h.dropShadow.launched.driveTiles)
  · exact .ite h.launched h.launched.driveTiles

theorem Kept.startQueued {p core e : Nat} (h : Kept s t) : Kept s (t.startQueued p core e) := by
  rw [State.startQueued]
  split
  · exact h
  · exact h.modFlight.driveTiles

theorem Kept.launchPosted {core strand : Nat} {x' : Flight} (h : Kept s t) : Kept s (launchPosted core strand x' t) :=
  h.launch.advance

theorem Kept.finishFlight {core strand num : Nat} (h : Kept s t) : Kept s (t.finishFlight core strand num) :=
  h.modStrand

theorem Kept.sendFar {p core strand : Nat} {x' : Flight} {key : MsgKey} (h : Kept s t) : Kept s (t.sendFar p core strand x' key) := by
  rw [State.sendFar]
  generalize (if x'.f.opt0 = true then none else t.badLs p core x'.sources) = hurt
  refine .ite h.killLs (.ite h.killSram ?_)
  split
  · exact h
  · exact h.modPav.modNet.foldl fun _ _ hu => hu.leave

theorem execTsend_answers {core strand : Nat} {f : TileFields} : Answers (isCore core && isStrand strand) s (execTsend core strand f s) :=
  Answers.tile (fun _ _ _ _ hu => .ite hu.dropShadows.kernelFault
    (.ite hu.dropShadows.launchPosted.modPav.sendFar hu.dropShadows.launchPosted.modPav))

theorem execTrecv_answers {core strand : Nat} {f : TileFields} : Answers (isCore core && isStrand strand) s (execTrecv core strand f s) :=
  Answers.tile (fun _ _ _ _ hu => .ite hu.dropShadows.kernelFault
    (.ite hu.dropShadows.launchPosted.modPav.waitFor hu.dropShadows.launchPosted.modPav))

theorem execTput_answers {core strand : Nat} {f : TileFields} : Answers (isCore core && isStrand strand) s (execTput core strand f s) :=
  Answers.tile (fun _ _ _ _ hu => hu.dropShadows.launchRun)

theorem execTget_answers {core strand : Nat} {f : TileFields} : Answers (isCore core && isStrand strand) s (execTget core strand f s) :=
  Answers.tile (fun _ _ _ _ hu => hu.launchRun)

theorem Kept.deliver {p : Nat} {r : Post} {y : Flight} {d : Fmt × Nat × Nat × List (List Byte)} (h : Kept s t) :
    Kept s (t.deliver p r y d).1 := by
  unfold State.deliver
  dsimp only
  split
  · split
    · exact h.adoptShape.tileKernelFault
    · split
      · exact h.adoptShape.tileKernelFault
      · split
        · exact h.adoptShape.tileKernelFault
        · exact h.adoptShape.putSlot
  · split
    · exact h.tileKernelFault
    · exact h.foldl (fun _ _ hu => hu.writeRow)

theorem execMessageMatch_answers {pav : Nat} {key : MsgKey} : Answers (isPav pav) s (execMessageMatch pav key s) := by
  unfold Machine.execMessageMatch
  refine .guard (by simp) fun _ => ?_
  dsimp only
  split
  · exact .ok .refl
  · split
    · exact .ok .refl
    · split
      · split
        · exact .ok .refl
        · split
          · exact .ok Kept.refl.killLs
          · split
            · exact .ok Kept.refl.killSram
            · split
              · exact .ok (.ite Kept.refl.adoptShape .refl)
              · exact .ite (.ok (.deliver (.ite Kept.refl.adoptShape .refl)))
                  (.ok (.finishFlight (.finishFlight (.count (.modPav (.deliver (.ite Kept.refl.adoptShape .refl)))))))
      · split
        · exact .ok .refl
        · split
          · exact .ok .refl
          · exact .ite (.ok Kept.refl.deliver) (.ok Kept.refl.deliver.modPav.count.finishFlight.sendOut)

theorem execTbar_answers {core strand : Nat} {f : TileFields} : Answers (isCore core && isStrand strand) s (execTbar core strand f s) := by
  unfold Machine.execTbar
  refine Answers.tile fun _ _ _ _ hu => ?_
  dsimp only
  split
  · exact hu.dropShadows.kernelFault
  · exact hu.dropShadows.modPav.waitFor

theorem execTwait_answers {core strand : Nat} {f : TileFields} : Answers (isCore core && isStrand strand) s (execTwait core strand f s) :=
  Answers.tile (fun _ _ _ _ hu => .ite (.ite hu.dropShadows.waitFor hu.dropShadows.advance)
    (.ite hu.dropShadows.killLs.waitFor (.ite hu.dropShadows.advance hu.dropShadows.waitFor)))

theorem execTcommit_answers {core strand : Nat} {f : TileFields} :
    Answers (isCore core && isStrand strand) s (execTcommit core strand f s) := by
  unfold Machine.execTcommit
  refine Answers.tile fun _ _ _ _ hu => ?_
  dsimp only
  split
  · exact hu.dropShadows.kernelFault
  · exact .ite hu.dropShadows.kernelFault hu.dropShadows.waitFor

theorem Kept.fetch {p core strand len line : Nat} (h : Kept s t) : Kept s (t.fetch p core strand len line) := by
  rw [State.fetch]
  split
  · exact h.walk.bedUncorrectable.startReset.waitFor
  · split
    · refine .waitFor (.recordFault ?_)
      split
      · exact h.walk.dropPage
      · exact h.walk
    · split
      · exact .ite h.walk.bedUncorrectable.startReset.waitFor h.walk.modCore.makeReady
      · exact h.walk.modCore.makeReady

theorem execIcacheFill_answers {core strand : Nat} : Answers (isCore core && isStrand strand) s (execIcacheFill core strand s) := by
  unfold Machine.execIcacheFill
  refine .guard (by simp) fun _ => ?_
  split
  · exact .ok .refl
  · split
    · split
      · exact .ok Kept.refl.makeReady
      · exact .ite (.ok Kept.refl.modCore.makeReady) (.ok Kept.refl.fetch)
    · exact .ok .refl

theorem execStrandWake_answers {core strand : Nat} : Answers (isCore core && isStrand strand) s (execStrandWake core strand s) :=
  .guard (by simp) fun _ => .ite (.ok .refl) (.ite (.ok Kept.refl.setStrand) (.ok Kept.refl.makeReady))

theorem execTileInstructionComplete_answers {core strand pos : Nat} :
    Answers (isCore core && isStrand strand) s (execTileInstructionComplete core strand pos s) := by
  unfold Machine.execTileInstructionComplete
  refine .guard (by simp) fun _ => ?_
  dsimp only
  split
  · exact .ok .refl
  · split
    · exact .ok .refl
    · split
      · exact .ok (.ite Kept.refl.finishFlight.startQueued Kept.refl.finishFlight)
      · exact .ok Kept.refl.finishFlight

theorem execTileTranslate_answers {core strand pos : Nat} :
    Answers (isCore core && isStrand strand) s (execTileTranslate core strand pos s) := by
  unfold Machine.execTileTranslate
  refine .guard (by simp) fun _ => ?_
  split
  · exact .ite (.ok Kept.refl.driveTiles) (.ok .refl)
  · exact .ok .refl

theorem Kept.walkDown {un p dva target level page : Nat} (h : Kept s t) : Kept s (t.walkDown un p dva target level page).1 := by
  induction level generalizing t page with
  | zero =>
    rw [State.walkDown]
    split
    · exact h.readEntry
    · split <;> exact h.readEntry
  | succ level ih =>
    rw [State.walkDown]
    split
    · exact h.readEntry
    · split
      · exact h.readEntry
      · exact ih h.readEntry

theorem execPageWalkRead_answers {unit pav : Nat} {dva : Word64} {level : Nat} :
    Answers (isTUnit unit && isPav pav && decide (level ≤ 2)) s (execPageWalkRead unit pav dva level s) := by
  unfold Machine.execPageWalkRead
  refine .guard (by simp) fun _ => ?_
  split
  · exact .ok .refl
  · dsimp only
    split
    · exact .ok Kept.refl.walkDown
    · exact .ok Kept.refl.walkDown.bedUncorrectable.startReset

theorem execUndefinedEncoding_answers {core strand : Nat} {w0 w1 : Word64} :
    Answers (isCore core && isStrand strand) s (execUndefinedEncoding core strand w0 w1 s) := by
  unfold Machine.execUndefinedEncoding
  exact Answers.issue (fun _ _ _ => .ite Kept.refl.kernelFault .refl)

end Sys2Proof.Machine
end

section
/-! SUPPORT. What no command may change, through mailbox posts, barriers and step commits. -/

namespace Sys2Proof.Machine

variable {s t : State}

/-- A post marks or fills its slot, which keeps its reset count, and starts its command or keeps it for later (R410, R413). -/
theorem Answers.post {fn slot : Nat} {sel : (Nat → Nat) → Bool} {start : Nat → State → State} (hs : ∀ k u, Kept s u → Kept s (start k u)) :
    Answers (isFn fn && isSlot slot) s (post fn slot sel start s) := by
  refine .guard (by simp) fun hw => ?_
  obtain ⟨hf, hs4⟩ : fn < 512 ∧ slot < 4 := by simpa using hw
  extract_lets m k s1
  have hk : ∀ m' : MbSlot, m'.gen = m.gen → Kept s (s.setMb k m') :=
    fun m' hm => .setMb .refl (by rw [postFn_postOf hf hs4, slot_postOf hs4, hm])
  have hm : Kept s (s.setMb k { m with postErr := true }) := hk _ rfl
  have h1 : Kept s s1 := hk _ rfl
  exact .ite (.ok .refl) (.ite (.ok hm) (.ite (.ok (hs _ _ h1)) (.ok (h1.update rfl))))

/-- The common checks of a command complete it, or its body runs, recorded or not (R415, R569, R572). -/
theorem Kept.start {k : Nat} {f : CmdForm} {body : Nat → State → State} (h : Kept s t) (hb : ∀ p u, Kept s u → Kept s (body p u)) :
    Kept s (t.start k f body) := by
  rw [State.start]
  split
  · exact h.complete
  · exact .ite h.complete (.ite (hb _ _ h.recordInput) (hb _ _ h))

theorem Kept.startIdentify {k : Nat} (h : Kept s t) : Kept s (startIdentify k t) :=
  h.start (fun _ _ hu => hu.complete)

theorem execIdentify_answers {fn slot : Nat} : Answers (isFn fn && isSlot slot) s (execIdentify fn slot s) :=
  Answers.post (fun _ _ hu => hu.startIdentify)

theorem Kept.startUnknown {k : Nat} (h : Kept s t) : Kept s (startUnknown k t) :=
  h.complete

theorem execMbUnknown_answers {fn slot : Nat} : Answers (isFn fn && isSlot slot) s (execMbUnknown fn slot s) :=
  Answers.post (fun _ _ hu => hu.startUnknown)

theorem Kept.mismatch {p opc expected offered : Nat} (h : Kept s t) : Kept s (t.mismatch p opc expected offered) :=
  h.kernelFault

theorem execSyncArrivalForward_answers {pav node : Nat} {use : SyncUse} :
    Answers (isPav pav && decide (node ≤ 75)) s (execSyncArrivalForward pav node use s) := by
  unfold Machine.execSyncArrivalForward
  refine .guard (by simp) fun _ => ?_
  dsimp only
  split
  · exact .ok .refl
  · split
    · split
      · exact .ok .refl
      · exact .ite (.ok .refl) (.ok Kept.refl.modPav)
    · exact .ite (.ok .refl) (.ite (.ok .refl) (.ite (.ok Kept.refl.mismatch) (.ok Kept.refl.modPav)))
    · exact .ite (.ok .refl) (.ite (.ok .refl) (.ok Kept.refl.modPav))

theorem Kept.syncAll {p : Nat} {m : SyncMsg} (h : Kept s t) : Kept s (t.syncAll p m) :=
  h.foldl (fun _ _ hu => .ite hu hu.syncSend)

theorem Kept.syncRank0 {p : Nat} {m : SyncMsg} (h : Kept s t) : Kept s (t.syncRank0 p m) :=
  h.syncSend

theorem Kept.putBarrier {p i : Nat} {b : Option Barrier} (h : Kept s t) : Kept s (t.putBarrier p i b) :=
  h.modPav

theorem Kept.resume {core strand : Nat} (h : Kept s t) : Kept s (t.resume core strand) :=
  h.makeReady.advance

theorem Kept.voidStart {p : Nat} (h : Kept s t) : Kept s (t.voidStart p) :=
  .ite h.modPav.syncRank0 h.modPav

theorem Kept.voidStarts (h : Kept s t) : Kept s t.voidStarts :=
  h.update rfl

theorem execReleaseDecide_answers {pav : Nat} {use : SyncUse} : Answers (isPav pav) s (execReleaseDecide pav use s) := by
  unfold Machine.execReleaseDecide
  refine .guard (by simp) fun _ => ?_
  dsimp only
  split
  · exact .ok .refl
  · split
    · split
      · exact .ok .refl
      · exact .ite (.ok .refl) (.ite (.ite (.ok .refl) (.ok (.ite Kept.refl.putBarrier.syncAll Kept.refl.putBarrier)))
          (.ite (.ok .refl) (.ok Kept.refl.putBarrier.syncRank0)))
    · exact .ite (.ok .refl) (.ite (.ite (.ok .refl) (.ok (.ite Kept.refl.modPav.syncAll Kept.refl.modPav)))
        (.ite (.ok .refl) (.ok Kept.refl.modPav.syncRank0)))
    · exact .ite (.ok .refl) (.ite (.ite (.ok .refl) (.ok (.ite Kept.refl.modPav.syncAll Kept.refl.modPav)))
        (.ite (.ok .refl) (.ok Kept.refl.modPav.syncRank0)))

theorem Kept.memberArrives {p rank : Nat} {use : SyncUse} {count : Nat} {n : Word64} (h : Kept s t) :
    Kept s (t.memberArrives p rank use count n) := by
  unfold State.memberArrives
  dsimp only
  split
  · exact .ite h.putBarrier (.ite h.mismatch h.putBarrier)
  · exact .ite h.modPav (.ite h.mismatch h.modPav)
  · exact h.modPav

theorem Kept.takeAhead {p : Nat} (h : Kept s t) : Kept s (t.takeAhead p) :=
  h.modPav.foldl (fun _ _ hu => hu.memberArrives)

theorem execBarrierRelease_answers {pav barrier : Nat} :
    Answers (isPav pav && decide (barrier ≤ 15)) s (execBarrierRelease pav barrier s) := by
  unfold Machine.execBarrierRelease
  refine .guard (by simp) fun _ => ?_
  dsimp only
  split
  · exact .ok .refl
  · exact .ite (.ok .refl) (.ok (.foldl (Kept.refl.putBarrier.foldl (fun _ _ hu => .ite hu.resume hu)) (fun _ _ hu => hu.memberArrives)))

theorem Kept.queueMirror {p : Nat} {n : Word64} (h : Kept s t) : Kept s (t.queueMirror p n) :=
  .ite h (h.update rfl)

theorem execStepCommitRelease_answers {pav : Nat} : Answers (isPav pav) s (execStepCommitRelease pav s) := by
  unfold Machine.execStepCommitRelease
  refine .guard (by simp) fun _ => ?_
  dsimp only
  split
  · exact .ok .refl
  · split
    · exact .ok .refl
    · refine .ok ?_
      split
      · refine .queueMirror ?_
        refine .foldl ?_ (fun _ _ hu => hu.memberArrives)
        refine Kept.refl.replayCommit.modPav.foldl fun _ _ hu => ?_
        split
        · exact hu.resume
        · exact hu
      · refine .raisePav (.queueMirror ?_)
        refine .foldl ?_ (fun _ _ hu => hu.memberArrives)
        refine Kept.refl.replayCommit.modPav.foldl fun _ _ hu => ?_
        split
        · exact hu.resume
        · exact hu

theorem Kept.peerReset {p : Nat} (h : Kept s t) : Kept s (t.peerReset p) := by
  rw [State.peerReset]
  refine .modPav (h.foldl fun _ _ hu => ?_)
  split
  · exact hu.waitFor
  · exact hu.waitFor
  · exact hu

theorem Kept.holdReads {p : Nat} (h : Kept s t) : Kept s (t.holdReads p) :=
  h.foldl (fun _ _ hu => .ite hu.setStrand.stall hu)

theorem Kept.endTransfers {p : Nat} (h : Kept s t) : Kept s (t.endTransfers p) :=
  .ite (.update (.foldl (h.foldl (fun _ _ hu => hu.complete)) (fun _ _ hu => hu.complete)) rfl)
    (.update (.modPav (.foldl (h.foldl (fun _ _ hu => hu.complete)) (fun _ _ hu => hu.complete))) rfl)

theorem Kept.haltChannel {p cause dva : Nat} (h : Kept s t) : Kept s (t.haltChannel p cause dva) :=
  .ite h h.modPav.raisePav.holdReads.endTransfers

theorem Kept.nextKeySeq {p : Nat} {k : HostKey} (h : Kept s t) : Kept s (t.nextKeySeq p k) :=
  h.modPav

theorem Kept.shuffle {α : Type} {l : List α} {fuel : Nat} (h : Kept s t) : Kept s (t.shuffle l fuel).2 := by
  induction fuel generalizing t l with
  | zero => exact h
  | succ fuel ih =>
    cases l with
    | nil => exact h
    | cons x l => exact ih h.draw

theorem Kept.deliverStep {p : Nat} {hs : List Held} (h : Kept s t) : Kept s (t.deliverStep p hs) := by
  unfold State.deliverStep
  refine .addCount (.foldl (.shuffle (.foldl h fun _ _ hu => hu.host fun hm => Mem.wf_writeN hm _ _)) fun u _ hu => ?_)
  dsimp only
  split
  · exact hu.nextKeySeq.host fun hm => Mem.wf_writeN hm _ _
  · exact hu

theorem Kept.deliverNext {pav : Nat} (h : Kept s t) : Kept s (t.deliverNext pav) := by
  unfold State.deliverNext
  dsimp only
  split
  · exact h
  · split
    · exact h
    · split
      · exact h.haltChannel
      · exact h.deliverStep.modPav.raisePav

theorem execSpanDeliveryStart_answers {pav : Nat} : Answers (isPav pav) s (execSpanDeliveryStart pav s) := by
  unfold Machine.execSpanDeliveryStart
  refine .guard (by simp) fun _ => ?_
  dsimp only
  split
  · exact .ok .refl
  · exact .ite (.ok .refl) (.ok Kept.refl.modPav.raisePav)

end Sys2Proof.Machine
end

section
/-! SUPPORT. What no command may change, through the orangery, programs and regulation. -/

namespace Sys2Proof.Machine

variable {s t : State}

theorem Kept.modSlice {p h' : Nat} {f : Slice → Slice} (h : Kept s t) : Kept s (t.modSlice p h' f) :=
  h.modPav

theorem Kept.evictSlice {p h' : Nat} (h : Kept s t) : Kept s (t.evictSlice p h') :=
  h.modSlice

theorem Kept.placeOne {p h' i : Nat} {cs : List Nat} (h : Kept s t) : ∀ u ∈ t.placeOne p h' i cs, Kept s u := by
  intro u e
  obtain ⟨_, -, rfl⟩ := Option.map_eq_some_iff.1 e
  exact h.modSlice

theorem Kept.reserve {p h' i fuel : Nat} (h : Kept s t) : Kept s (t.reserve p h' i fuel) := by
  induction fuel generalizing t with
  | zero => exact h
  | succ fuel ih =>
    rw [State.reserve]
    split
    · exact h
    · refine .ite h ?_
      dsimp only
      split
      · exact h.modSlice
      · split
        · next u e => exact h.modSlice.placeOne u e
        · split
          · exact ih h.modSlice.evictSlice
          · exact h

theorem Kept.reserveNext {p h' : Nat} (h : Kept s t) : Kept s (t.reserveNext p h') := by
  unfold State.reserveNext
  split
  · exact h.reserve
  · exact h

theorem Kept.beginFill {p h' : Nat} {k : Option Nat} (h : Kept s t) : Kept s (t.beginFill p h' k) :=
  h.modSlice.reserveNext

theorem Kept.writePiece {p h' i : Nat} (h : Kept s t) : Kept s (t.writePiece p h' i) := by
  rw [State.writePiece]
  split
  · exact h
  · split
    · extract_lets v
      split
      · exact h.killOwner
      · exact h.setTraffic.writeLs.modSlice
    · exact h

theorem execPieceOverwrite_answers {core segment : Nat} :
    Answers (isCore core && isSegment segment) s (execPieceOverwrite core segment s) := by
  unfold Machine.execPieceOverwrite
  refine .guard (by simp) fun _ => ?_
  dsimp only
  split
  · exact .ok .refl
  · split
    · exact .ite (.ok Kept.refl.writePiece) (.ok .refl)
    · exact .ok .refl

theorem execPieceResident_answers {pav handle : Nat} : Answers (isPav pav) s (execPieceResident pav handle s) := by
  unfold Machine.execPieceResident
  refine .guard (by simp) fun _ => ?_
  dsimp only
  split
  · exact .ok .refl
  · split
    · exact .ok .refl
    · split
      · exact .ok Kept.refl.reserveNext
      · exact .ite (.ok (.ite Kept.refl.reserveNext Kept.refl.reserveNext.writePiece))
          (.ok (.reserveNext (.count (.modSlice (.ite Kept.refl.reserveNext Kept.refl.reserveNext.writePiece)))))

theorem Kept.settleShared {p k : Nat} (h : Kept s t) : Kept s (t.settleShared p k) := by
  rw [State.settleShared]
  split
  · exact .complete (.modPav (.ite h h.modPav.syncAll))
  · exact h

theorem Kept.finish {p k status : Nat} {rsp : List Nat} (h : Kept s t) : Kept s (t.finish p k status rsp) := by
  rw [State.finish]
  split
  · exact h.syncRank0
  · split
    · exact h.complete
    · exact h.modPav.settleShared

theorem Kept.share {p k h' : Nat} {words : List Nat} (h : Kept s t) : Kept s (t.share p k h' words) :=
  .ite h h.modPav.syncAll

theorem Kept.memberDone {p rank k status : Nat} (h : Kept s t) : Kept s (t.memberDone p rank k status) := by
  unfold State.memberDone
  split
  · exact h
  · exact h.modPav.settleShared

theorem Kept.endFill {p h' : Nat} (h : Kept s t) : Kept s (t.endFill p h') := by
  rw [State.endFill]
  split
  · exact h
  · exact h.modPav.foldl (fun _ _ hu => hu.finish)

theorem execSliceFillComplete_answers {pav handle : Nat} : Answers (isPav pav) s (execSliceFillComplete pav handle s) :=
  .guard (by simp) fun _ => .ite (.ok Kept.refl.endFill) (.ok .refl)

theorem Kept.pinSlice {p k h' : Nat} (h : Kept s t) : Kept s (t.pinSlice p k h') := by
  rw [State.pinSlice]
  split
  · exact h.finish
  · exact .ite h.finish (.ite h.share.modSlice.finish h.share.modSlice.beginFill)

theorem Kept.startModelPin {k : Nat} (h : Kept s t) : Kept s (startModelPin k t) :=
  h.start (fun _ _ hu => hu.pinSlice)

theorem execModelPin_answers {fn slot : Nat} : Answers (isFn fn && isSlot slot) s (execModelPin fn slot s) :=
  Answers.post (fun _ _ hu => hu.startModelPin)

theorem Kept.unpinSlice {p k h' : Nat} (h : Kept s t) : Kept s (t.unpinSlice p k h') := by
  unfold State.unpinSlice
  split
  · exact h.finish
  · exact h.share.modSlice.finish

theorem Kept.startModelUnpin {k : Nat} (h : Kept s t) : Kept s (startModelUnpin k t) :=
  h.start (fun _ _ hu => hu.unpinSlice)

theorem execModelUnpin_answers {fn slot : Nat} : Answers (isFn fn && isSlot slot) s (execModelUnpin fn slot s) :=
  Answers.post (fun _ _ hu => hu.startModelUnpin)

theorem Kept.zeroHome {p h' : Nat} (h : Kept s t) : Kept s (t.zeroHome p h') := by
  unfold State.zeroHome
  split
  · exact h
  · split
    · exact h
    · refine h.foldl fun _ _ hu => ?_
      split
      · exact hu.zeroCs
      · exact hu

theorem Kept.evictNow {p k h' : Nat} {release : Bool} (h : Kept s t) : Kept s (t.evictNow p k h' release) :=
  .ite h.finish (.ite h.finish (.finish (.ite h.share.evictSlice.endFill.zeroHome.modPav h.share.evictSlice.endFill)))

theorem Kept.startModelEvict {k : Nat} (h : Kept s t) : Kept s (startModelEvict k t) :=
  h.start (fun _ _ hu => hu.evictNow)

theorem execModelEvict_answers {fn slot : Nat} : Answers (isFn fn && isSlot slot) s (execModelEvict fn slot s) :=
  Answers.post (fun _ _ hu => hu.startModelEvict)

theorem Kept.tableWindow {tenant w page : Nat} (h : Kept s t) : Kept s (t.tableWindow tenant w page).2 :=
  h.windowRequest

theorem Kept.tableHurt {tenant w page lo n : Nat} (h : Kept s t) : Kept s (t.tableHurt tenant w page lo n) := by
  unfold State.tableHurt
  dsimp only
  split
  · exact h.tableWindow
  · split
    · exact h.killOwner
    · exact h

theorem Kept.windowUsed {p lo n : Nat} (h : Kept s t) : Kept s (t.windowUsed p lo n) := by
  rw [State.windowUsed]
  split
  · split
    · dsimp only
      split
      · exact .ite h.window h.tableWindow
      · exact h.window
    · exact h
  · exact h

/-- A check of a run's table keeps what no command may change. -/
def TableKept {α : Type} (m : TableM α) : Prop := ∀ {s t}, Kept s t → Kept s (m.run.run t).2

namespace TableKept

variable {α β : Type}

theorem pure {a : α} : TableKept (Pure.pure a) := id

theorem throw {e : TableStop} : TableKept (MonadExcept.throw e : TableM α) := id

theorem needs {b : Bool} {e : TableStop} : TableKept (Machine.needs b e) := by
  unfold Machine.needs
  split
  · exact pure
  · exact throw

theorem bind {m : TableM α} {f : α → TableM β} (hm : TableKept m) (hf : ∀ a, TableKept (f a)) : TableKept (m >>= f) := by
  intro s t h
  rcases hr : m.run.run t with ⟨r, u⟩
  have hu : Kept s u := .snd hr (hm h)
  simp only [ExceptT.run_bind, StateT.run_bind, hr]
  cases r with
  | ok a => exact hf a hu
  | error e => exact hu

/-- A step that reads the state goes on as the state's value says. -/
theorem get {f : State → TableM β} (hf : ∀ s, TableKept (f s)) : TableKept (MonadStateOf.get >>= f) := fun h => hf _ h

theorem foldlM {f : β → α → TableM β} (hf : ∀ b a, TableKept (f b a)) {l : List α} {b : β} : TableKept (l.foldlM f b) := by
  induction l generalizing b with
  | nil => exact pure
  | cons a l ih =>
    rw [List.foldlM_cons]
    exact bind (hf b a) fun _ => ih

theorem tableRead {p : Nat} {a : Accept} {why : TableStop} {dva n : Nat} : TableKept (tableRead p a why dva n) := by
  unfold Machine.tableRead
  split
  · exact throw
  · refine bind (foldlM fun bs x s t h => ?_) fun _ => pure
    change Kept s ((match t.tablePiece p a why x.1 x.2 with
      | .ok cs => Pure.pure (bs ++ cs)
      | .error e => (MonadExcept.throw e : TableM _)).run.run (t.windowUsed p x.1 x.2)).2
    split
    · exact h.windowUsed
    · exact h.windowUsed

theorem checkHead {p : Nat} {a : Accept} {dva first last repeats : Nat} : TableKept (checkHead p a dva first last repeats) :=
  get fun _ => bind needs fun _ => bind needs fun _ => bind tableRead fun _ => bind needs fun _ => bind needs fun _ =>
    bind needs fun _ => bind needs fun _ => bind needs fun _ => pure

theorem checkLayer {p : Nat} {a : Accept} {h : TableHead} {j : Nat} : TableKept (checkLayer p a h j) :=
  bind tableRead fun _ => bind needs fun _ => bind needs fun _ => pure

theorem checkKernel {p : Nat} {a : Accept} {h : TableHead} {k : Nat} : TableKept (checkKernel p a h k) :=
  bind tableRead fun _ => bind needs fun _ => bind needs fun _ => bind needs fun _ => pure

theorem checkSlice {p : Nat} {a : Accept} {h : TableHead} {i : Nat} : TableKept (checkSlice p a h i) :=
  bind tableRead fun _ => get fun _ => bind needs fun _ => bind needs fun _ => pure

theorem checkAll {f : Nat → TableM Nat} (hf : ∀ i, TableKept (f i)) {l : List Nat} : TableKept (checkAll f l) := by
  induction l with
  | nil => exact pure
  | cons i l ih => exact bind (hf i) fun _ => bind ih fun _ => pure

theorem checkTable {p : Nat} {a : Accept} {slot : Option Nat} {dva first last repeats : Nat} :
    TableKept (checkTable p a slot dva first last repeats) :=
  bind checkHead fun _ => bind (checkAll fun _ => checkLayer) fun _ => bind (checkAll fun _ => checkKernel) fun _ =>
    bind (checkAll fun _ => checkSlice) fun _ => pure

end TableKept

theorem Kept.readTable {p : Nat} {a : Accept} {slot : Option Nat} {dva first last repeats : Nat} (h : Kept s t) :
    Kept s (t.readTable p a slot dva first last repeats).2 :=
  TableKept.checkTable h

theorem Kept.dropAccept {p : Nat} {a : Accept} (h : Kept s t) : Kept s (t.dropAccept p a) :=
  h.modPav

theorem Kept.runEnds {p : Nat} {r : Run} {code : Nat} (h : Kept s t) : Kept s (t.runEnds p r code) := by
  rw [State.runEnds]
  split
  · exact h.complete
  · exact .ite h h.raisePav

theorem Kept.endRuns {p code : Nat} (h : Kept s t) : Kept s (t.endRuns p code) :=
  h.modPav.foldl (fun _ _ hu => hu.runEnds)

theorem Kept.refuseRestored {p no : Nat} (h : Kept s t) : Kept s (t.refuseRestored p no) :=
  h.modPav.foldl (fun _ _ hu => hu.runEnds)

theorem Kept.refuseRun {p : Nat} {a : Accept} {entry : Nat} (h : Kept s t) : Kept s (t.refuseRun p a entry) := by
  rw [State.refuseRun]
  split
  · exact h.dropAccept.syncRank0
  · split
    · exact h.dropAccept.refuseRestored
    · exact h.dropAccept.complete

theorem Kept.modRun {p : Nat} {f : Run → Run} (h : Kept s t) : Kept s (t.modRun p f) :=
  h.modPav

theorem Kept.layerFills {p : Nat} (h : Kept s t) : Kept s (t.layerFills p) := by
  rw [State.layerFills]
  split
  · exact h
  · exact h.modRun.foldl (fun _ _ hu => hu.beginFill)

theorem Kept.takeRestored {p no : Nat} {r : Run} (h : Kept s t) : Kept s (t.takeRestored p no r) :=
  .ite h.modPav.layerFills h.modPav

theorem Kept.takeRun {p : Nat} {a : Accept} {r : Run} (h : Kept s t) : Kept s (t.takeRun p a r) := by
  rw [State.takeRun]
  split
  · exact h.dropAccept.modPav.syncRank0
  · split
    · exact h.dropAccept.takeRestored
    · exact .ite h.dropAccept.complete (.ite h.dropAccept.modPav h.dropAccept.modPav.syncAll)

theorem Kept.askTable {p : Nat} {a : Accept} {pg e : Nat} (h : Kept s t) : Kept s (t.askTable p a pg e) :=
  h.foldl (fun _ _ hu => hu.request)

theorem Kept.acceptOn {p fuel : Nat} {a : Accept} (h : Kept s t) : Kept s (t.acceptOn p fuel a) := by
  induction fuel generalizing t a with
  | zero => exact h
  | succ fuel ih =>
    rw [State.acceptOn]
    dsimp only
    split
    · exact h.readTable.takeRun
    · exact h.readTable.refuseRun
    · exact h.readTable.tableHurt.refuseRun
    · exact h.readTable.dropAccept.killOwner.complete
    · split
      · exact .ite h.readTable.dropAccept.modPav (.ite (ih h.readTable) h.readTable.dropAccept.modPav.askTable)
      · exact h.readTable.dropAccept.modPav

theorem Kept.acceptRun {p : Nat} {a : Accept} (h : Kept s t) : Kept s (t.acceptRun p a) :=
  h.acceptOn

theorem Kept.readRestored {p : Nat} (h : Kept s t) : Kept s (t.readRestored p) :=
  h.foldl (fun _ _ hu => hu.acceptRun)

theorem Kept.startRun {k : Nat} (h : Kept s t) : Kept s (startRun k t) :=
  h.start (fun _ _ hu => .ite hu.complete hu.acceptRun)

theorem execRun_answers {fn slot : Nat} : Answers (isFn fn && isSlot slot) s (execRun fn slot s) :=
  Answers.post (fun _ _ hu => hu.startRun)

theorem Kept.freezeNow {p : Nat} (h : Kept s t) : Kept s (t.freezeNow p) := by
  rw [State.freezeNow]
  split
  · refine .modRec ?_
    refine .foldl ?_ (fun _ _ hu => hu.complete)
    refine .voidStart (.modPav ?_)
    refine h.foldl fun _ _ hu => ?_
    split
    · exact hu.complete
    · exact hu
  · refine .foldl ?_ (fun _ _ hu => hu.complete)
    refine .voidStart (.modPav ?_)
    refine h.foldl fun _ _ hu => ?_
    split
    · exact hu.complete
    · exact hu

theorem Kept.freezeWaiting {p : Nat} (h : Kept s t) : Kept s (t.freezeWaiting p) :=
  .ite h.freezeNow h

theorem Kept.beginCycle {p : Nat} (h : Kept s t) : Kept s (t.beginCycle p) :=
  .ite h (.modPav (.update (h.foldl (fun _ _ hu => hu.modCore)) rfl))

theorem Kept.beginRun {p : Nat} (h : Kept s t) : Kept s (t.beginRun p) :=
  .ite h h.modRun.modPav.beginCycle.layerFills

theorem Kept.startKernel {p : Nat} (h : Kept s t) : Kept s (t.startKernel p) := by
  rw [State.startKernel]
  split
  · exact h
  · exact .takeAhead (.ite (.modRec (h.modRun.modPav.foldl (fun _ _ hu => .setStrand (hu.modCore.update rfl))))
      (h.modRun.modPav.foldl (fun _ _ hu => .setStrand (hu.modCore.update rfl))))

theorem execKernelCompleteCore_answers {core : Nat} : Answers (isCore core) s (execKernelCompleteCore core s) :=
  .guard (by simp) fun _ => .ite (.ok .refl) (.ok Kept.refl.modCore)

theorem execKernelCompletePavilion_answers {pav : Nat} : Answers (isPav pav) s (execKernelCompletePavilion pav s) := by
  unfold Machine.execKernelCompletePavilion
  refine .guard (by simp) fun _ => ?_
  dsimp only
  split
  · exact .ok .refl
  · split
    · exact .ok .refl
    · split
      · exact .ok (.ite Kept.refl.modRun.modPav.layerFills Kept.refl.modRun.modPav)
      · exact .ite (.ok .refl) (.ok (.ite Kept.refl.modPav.runEnds.syncRank0 Kept.refl.modPav.runEnds))

theorem execWatchdogExpire_answers {pav : Nat} : Answers (isPav pav) s (execWatchdogExpire pav s) :=
  .guard (by simp) fun _ => .ite (.ok .refl) (.ok Kept.refl.modPav.startReset)

theorem Kept.setStream {p i : Nat} {x' : Stream} (h : Kept s t) : Kept s (t.setStream p i x') :=
  h.update rfl

theorem Kept.shortfall {p : Nat} (h : Kept s t) : Kept s (t.shortfall p) :=
  .ite h.modPav (.raisePav (.modPav (h.modPav.setFn rfl)))

theorem Kept.putScale {q n : Nat} (h : Kept s t) : Kept s (t.putScale q n) :=
  h.setChannel.foldl (fun _ _ hu => hu.shortfall)

theorem Kept.rescale {qs : List Nat} (h : Kept s t) : Kept s (t.rescale qs) :=
  .foldl (h.foldl (fun _ _ hu => .ite hu hu.setChannel)) (fun _ _ hu => hu.shortfall)

theorem execRegScaleChange_answers {channel : Nat} : Answers (isChannel channel) s (execRegScaleChange channel s) :=
  .guard (by simp) fun _ => .ok (.ite .refl Kept.refl.putScale)

theorem execRegScaleRestore_answers {channel : Nat} : Answers (isChannel channel) s (execRegScaleRestore channel s) :=
  .guard (by simp) fun _ => .ok (.ite Kept.refl.putScale .refl)

theorem Kept.endWindow {p k q age : Nat} {throughout judged : Bool} (h : Kept s t) : Kept s (t.endWindow p k q age throughout judged) := by
  unfold State.endWindow
  exact h.modPav

theorem execRegWindowEnd_answers {waiting : List McWait} {stalled : List Nat} : Answers true s (execRegWindowEnd waiting stalled s) :=
  Steps.answers (.ite (.ok .refl) (.ok (.modBeds (Kept.refl.foldl
    (fun _ _ hu => .ite (.shortfall (.ite (.raisePav (.setFn (.modPav (hu.foldl (fun _ _ hu => hu.endWindow))) rfl))
    (.modPav (hu.foldl (fun _ _ hu => hu.endWindow))))) (.ite (.raisePav (.setFn (.modPav (hu.foldl (fun _ _ hu => hu.endWindow))) rfl))
    (.modPav (hu.foldl (fun _ _ hu => hu.endWindow)))))) id id)))

theorem execStreamUrgencyChange_answers {pav stream num den : Nat} :
    Answers (isPav pav && isStream stream) s (execStreamUrgencyChange pav stream num den s) :=
  .guard (by simp) fun _ => .ok Kept.refl.setStream

theorem execRgPavStatRead_answers {fn : Nat} : Answers (isFn fn) s (execRgPavStatRead fn s) := by
  unfold Machine.execRgPavStatRead
  refine .guard (by simp) fun _ => ?_
  split
  · exact .ok Kept.refl.answered
  · split
    · exact .ok .refl
    · dsimp only
      split
      · exact .ok Kept.refl.answered
      · exact .ok Kept.refl.modPav.answered

end Sys2Proof.Machine
end

section
/-! SUPPORT. What no command may change, through sessions and their directory. -/

namespace Sys2Proof.Machine

variable {s t : State}

theorem Kept.modDir {f : Dir → Dir} (h : Kept s t) : Kept s (t.modDir f) :=
  h.update rfl

theorem Kept.modSession {id : Nat} {f : Session → Session} (h : Kept s t) : Kept s (t.modSession id f) :=
  h.modDir

theorem Kept.sendRecord {id : Nat} {new : Option Session} (h : Kept s t) : Kept s (t.sendRecord id new) :=
  h.sendPool

theorem Kept.change {id : Nat} {why : Change} {new : Option Session} {asker : Option Nat} (h : Kept s t) : Kept s (t.change id why new asker) :=
  .ite h.modDir.sendRecord h.modDir

theorem Kept.sendChange {id : Nat} (h : Kept s t) : Kept s (t.sendChange id) := by
  rw [State.sendChange]
  split
  · exact h
  · exact h.modDir.sendRecord

theorem Kept.tellPool {m : PoolMsg} {bytes : List Byte} (h : Kept s t) : Kept s (t.tellPool m bytes) :=
  .ite h h.sendPool

theorem Kept.releasePool {name id : Nat} (h : Kept s t) : Kept s (t.releasePool name id) :=
  .ite h.freePages h.sendPool

theorem Kept.useWindows {names : List Nat} (h : Kept s t) : Kept s (t.useWindows names) :=
  h.foldl (fun _ _ hu => .ite hu.window hu)

theorem Kept.sessionDone {k status : Nat} {rsp : List Nat} (h : Kept s t) : Kept s (t.sessionDone k status rsp) := by
  unfold State.sessionDone
  split
  · exact h.complete
  · split
    · exact h
    · exact h.modDir.sendOut

theorem Kept.countMoved {id cls n : Nat} (h : Kept s t) : Kept s (t.countMoved id cls n) := by
  unfold State.countMoved
  split
  · exact .ite h.count h
  · exact h

theorem Kept.tellUser {r : Session} {code : Nat} {ws : List Nat} (h : Kept s t) : Kept s (t.tellUser r code ws) :=
  .ite h.raisePav h.sendPool

theorem Kept.takeHere {m : PoolMsg} (h : Kept s t) : ∀ x ∈ t.takeHere m, Kept s x.2 := by
  rw [State.takeHere]
  split
  · exact h.takePages
  · exact h.extendPages
  · intro x e
    obtain ⟨u, he, rfl⟩ := Option.map_eq_some_iff.1 e
    exact h.takeProt u he
  · exact Kept.ofNone

theorem Kept.askPools {ms : List PoolMsg} (h : Kept s t) : Kept s (t.askPools ms).1 := by
  induction ms generalizing t with
  | nil => exact h
  | cons m rest ih =>
    rw [State.askPools]
    split
    · split
      · exact h
      · next root u e => exact ih (h.takeHere _ e)
    · exact ih h.sendPool

theorem Kept.unextend {id : Nat} {r : Session} (h : Kept s t) : Kept s (t.unextend id r) :=
  .foldl (.ite h.trimPages h.sendPool) (fun _ _ hu => .ite hu (.ite hu.trimPages hu.sendPool))

theorem Kept.endJob {j : Job} (h : Kept s t) : Kept s (t.endJob j) := by
  rw [State.endJob]
  split
  · split
    · exact h
    · exact .ite h (.ite h.modSession.tellPool h.sessionDone.modSession.change)
  · exact h.sessionDone
  · exact h.sessionDone
  · exact .ite h.change h.modSession
  · split
    · exact h.change
    · split
      · exact h.unextend.sessionDone
      · exact h.sessionDone
  · exact .ite h.change (.sessionDone (h.foldl (fun _ _ hu => hu.releasePool.releasePool)))

theorem Kept.startJob {j : Job} {ms : List PoolMsg} (h : Kept s t) : Kept s (t.startJob j ms) :=
  .ite h.askPools.endJob h.askPools.modDir

theorem Kept.jobAnswer {id status root : Nat} {first grown : Bool} (h : Kept s t) : Kept s (t.jobAnswer id status root first grown) := by
  rw [State.jobAnswer]
  split
  · exact h
  · exact .ite h.modDir.endJob h.modDir

theorem Kept.askUser {k id : Nat} {r : Session} (h : Kept s t) : Kept s (t.askUser k id r) :=
  .ite h.sessionDone h.sendPoolOf

theorem Kept.createSession {k : Nat} {u' : Poster} {w : Nat → Nat} (h : Kept s t) : Kept s (t.createSession k u' w) := by
  rw [State.createSession]
  split
  · exact h.sessionDone
  · exact .ite h.sessionDone (.ite h.useWindows.sessionDone (.ite h.useWindows.sessionDone
      (.ite h.useWindows.sessionDone (.ite h.useWindows.sessionDone h.useWindows.modDir.startJob))))

theorem Kept.extendSession {k : Nat} {u' : Poster} {w : Nat → Nat} (h : Kept s t) : Kept s (t.extendSession k u' w) := by
  rw [State.extendSession]
  split
  · exact h.sessionDone
  · exact .ite h.sessionDone (.ite h.sessionDone (.ite h.askUser
      (.ite h.useWindows.sessionDone (.ite h.useWindows.sessionDone
      (.ite h.useWindows.sessionDone (.ite h.useWindows.sessionDone h.useWindows.startJob))))))

theorem Kept.moveSession {k : Nat} {u' : Poster} {w : Nat → Nat} (h : Kept s t) : Kept s (t.moveSession k u' w) := by
  rw [State.moveSession]
  split
  · exact h.sessionDone
  · exact .ite h.sessionDone (.ite h.sessionDone (.ite h.askUser
      (.ite h.useWindows.sessionDone (.ite h.useWindows.sessionDone
      (.ite h.useWindows.sessionDone (.ite h.useWindows.sessionDone h.useWindows.change))))))

theorem Kept.takeTarget {id k : Nat} {u' : Poster} {r : Session} (h : Kept s t) : Kept s (t.takeTarget id k u' r) :=
  h.startJob

theorem Kept.abortMove {k : Nat} {u' : Poster} {w : Nat → Nat} (h : Kept s t) : Kept s (t.abortMove k u' w) := by
  rw [State.abortMove]
  split
  · exact h.sessionDone
  · exact .ite h.sessionDone (.ite h.sessionDone h.modDir.change)

theorem Kept.commitSession {k : Nat} {u' : Poster} {w : Nat → Nat} (h : Kept s t) : Kept s (t.commitSession k u' w) := by
  rw [State.commitSession]
  split
  · exact h.sessionDone
  · exact .ite h.sessionDone (.ite h.sessionDone (.ite h.sessionDone (.ite h.sessionDone h.change)))

theorem Kept.closeSession {k : Nat} {u' : Poster} {w : Nat → Nat} (h : Kept s t) : Kept s (t.closeSession k u' w) := by
  rw [State.closeSession]
  split
  · exact h.sessionDone
  · exact .ite h.sessionDone h.change

theorem Kept.sessionCommand {k : Nat} {u' : Poster} {w : Nat → Nat} (h : Kept s t) : Kept s (t.sessionCommand k u' w) := by
  unfold State.sessionCommand
  split
  · exact h.sessionDone
  · split
    · exact .ite h.extendSession h.createSession
    · exact .ite h.abortMove h.moveSession
    · exact h.commitSession
    · exact h.closeSession

theorem Kept.userKnown {k tenant : Nat} {mirror : Bool} (h : Kept s t) : Kept s (t.userKnown k tenant mirror) :=
  h.sessionCommand

theorem Kept.routeSession {k : Nat} (h : Kept s t) : Kept s (t.routeSession k) :=
  .ite h.sessionCommand (.ite h.complete h.sendPoolOf)

theorem Kept.startSessionCreate {k : Nat} (h : Kept s t) : Kept s (startSessionCreate k t) :=
  h.start (fun _ _ hu => hu.routeSession)

theorem Kept.startSessionMove {k : Nat} (h : Kept s t) : Kept s (startSessionMove k t) :=
  h.start (fun _ _ hu => hu.routeSession)

theorem Kept.startSessionMoveAbort {k : Nat} (h : Kept s t) : Kept s (startSessionMoveAbort k t) :=
  h.start (fun _ _ hu => hu.routeSession)

theorem Kept.startSessionCommit {k : Nat} (h : Kept s t) : Kept s (startSessionCommit k t) :=
  h.start (fun _ _ hu => hu.routeSession)

theorem Kept.startSessionClose {k : Nat} (h : Kept s t) : Kept s (startSessionClose k t) :=
  h.start (fun _ _ hu => hu.routeSession)

theorem execSessionCreate_answers {fn slot : Nat} : Answers (isFn fn && isSlot slot) s (execSessionCreate fn slot s) :=
  Answers.post (fun _ _ hu => hu.startSessionCreate)

theorem execSessionMove_answers {fn slot : Nat} : Answers (isFn fn && isSlot slot) s (execSessionMove fn slot s) :=
  Answers.post (fun _ _ hu => hu.startSessionMove)

theorem execSessionMoveAbort_answers {fn slot : Nat} : Answers (isFn fn && isSlot slot) s (execSessionMoveAbort fn slot s) :=
  Answers.post (fun _ _ hu => hu.startSessionMoveAbort)

theorem execSessionCommit_answers {fn slot : Nat} : Answers (isFn fn && isSlot slot) s (execSessionCommit fn slot s) :=
  Answers.post (fun _ _ hu => hu.startSessionCommit)

theorem execSessionClose_answers {fn slot : Nat} : Answers (isFn fn && isSlot slot) s (execSessionClose fn slot s) :=
  Answers.post (fun _ _ hu => hu.startSessionClose)

theorem Kept.copySession {i id target : Nat} (h : Kept s t) : Kept s (t.copySession i id target) := by
  unfold State.copySession
  split
  · exact h
  · extract_lets read s1
    have hread : ∀ {u page} (put), Kept s u → (∀ bs, Kept s (put u bs)) → Kept s (read u page put) := fun put hu hp => by
      unfold read
      split
      · exact hu.killOwner
      · split
        · next e => exact hu.deniedPages _ e
        · exact hp _
    clear_value read
    have h1 : Kept s s1 := by
      unfold s1
      split
      · split
        · exact h.foldl fun _ _ hu => hread _ hu fun _ => hu.writePool.countMoved
        · exact h
      · exact h.foldl fun _ _ hu => hread _ hu fun _ => hu.sendPool.countMoved
    exact h1.modHolding

theorem Kept.deniedSession {i id : Nat} (h : Kept s t) : ∀ u ∈ t.deniedSession i id, Kept s u := by
  intro u e
  obtain ⟨g, -, e⟩ := Option.bind_eq_some_iff.1 e
  exact h.deniedPages u e

theorem Kept.tryServe {i id : Nat} (h : Kept s t) : Kept s (t.tryServe i id) := by
  rw [State.tryServe]
  split
  · exact h
  · exact .ite h (.ite h.markHolding h.markHolding.sendPool)

theorem Kept.allDirty {i id : Nat} (h : Kept s t) : Kept s (t.allDirty i id) :=
  h.markDirty

theorem Kept.adoptMirror {i id epoch : Nat} (h : Kept s t) : Kept s (t.adoptMirror i id epoch) := by
  rw [State.adoptMirror]
  split
  · exact h
  · exact h.modPool.writeLists

theorem Kept.ownPool {i id epoch : Nat} {fetch whole : Bool} (h : Kept s t) : Kept s (t.ownPool i id epoch fetch whole) := by
  unfold State.ownPool
  split
  · exact h.modHolding
  · exact h.modHolding.tryServe
  · exact h.markHolding.modHolding
  · exact h.modHolding
  · exact .ite h h.adoptMirror

theorem Kept.dropAck {name key : Nat} (h : Kept s t) : Kept s (t.dropAck name key) := by
  unfold State.dropAck
  split
  · exact h.releasePool
  · exact .ite (.ite h h.releasePool) (.ite h.modSession (.ite h h.releasePool))

theorem Kept.dropPool {i id target : Nat} (h : Kept s t) : Kept s (t.dropPool i id target) :=
  .ite h.markHolding.modHolding.tellPool.dropAck h.markHolding.modHolding.tellPool.sendPool

theorem Kept.dropOther {i key : Nat} (h : Kept s t) : Kept s (t.dropOther i key) :=
  .ite h.modHolding.dropAck h.modHolding.sendPool

theorem Kept.sealPool {i id : Nat} {dirty : List Nat} (h : Kept s t) : Kept s (t.sealPool i id dirty) :=
  h.markDirty.modHolding.tryServe

theorem execSessionDropReceive_answers {pool session target : Nat} :
    Answers (isPool pool) s (execSessionDropReceive pool session target s) := by
  unfold Machine.execSessionDropReceive
  refine .guard (by simp) fun _ => ?_
  split
  · exact .ok .refl
  · split
    · exact .ok Kept.refl.dropPool
    · split
      · exact .ok Kept.refl.freePages
      · exact .ite (.ok .refl) (.ite (.ok Kept.refl.dropPool) (.ok Kept.refl.freePages))

theorem execSessionOwnReceive_answers {pool session epoch : Nat} {fetch : Bool} :
    Answers (isPool pool) s (execSessionOwnReceive pool session epoch fetch s) := by
  unfold Machine.execSessionOwnReceive
  refine .guard (by simp) fun _ => ?_
  split
  · exact .ok Kept.refl.ownPool
  · split
    · exact .ok .refl
    · exact .ite (.ok Kept.refl.ownPool) (.ok .refl)

theorem execSessionSealReceive_answers {pool session : Nat} : Answers (isPool pool) s (execSessionSealReceive pool session s) := by
  unfold Machine.execSessionSealReceive
  refine .guard (by simp) fun _ => ?_
  dsimp only
  split
  · exact .ok .refl
  · split
    · exact .ok Kept.refl.sealPool
    · exact .ok Kept.refl.allDirty.sealPool

theorem Kept.grantPool {name id epoch : Nat} {fetch marks : Bool} (h : Kept s t) : Kept s (t.grantPool name id epoch fetch marks) :=
  .ite (.ite (.allDirty (.ite h.markHolding.modHolding h.ownPool)) (.ite h.markHolding.modHolding h.ownPool)) h.sendPool

theorem Kept.growPool {i id epoch : Nat} (h : Kept s t) : Kept s (t.growPool i id epoch) :=
  h.markHolding.modHolding

theorem Kept.releaseSession {id : Nat} {r : Session} (h : Kept s t) : Kept s (t.releaseSession id r) :=
  .foldl (h.foldl (fun _ _ hu => hu.releasePool)) (fun _ _ hu => hu.releasePool)

theorem Kept.newProtection {i id : Nat} (h : Kept s t) : Kept s (t.newProtection i id) :=
  h.allDirty.modHolding

theorem Kept.endFills {target id : Nat} (h : Kept s t) : Kept s (t.endFills target id) :=
  .settleTwice (h.update rfl)

theorem Kept.afterChange {c : Pending} {old : Option Session} (h : Kept s t) : Kept s (t.afterChange c old) := by
  unfold State.afterChange
  dsimp only
  split
  · split
    · exact h.grantPool.sessionDone
    · exact h.grantPool
  · split
    · split
      · exact h.growPool.sessionDone
      · exact h.growPool
    · split
      · exact h.sendPool.modDir
      · exact h.sendPool
  · split
    · exact h.takeTarget
    · exact h
  · split
    · exact h.modSession.sessionDone
    · exact h.modSession
  · split
    · refine .sessionDone ?_
      split
      · exact .sessionDone (.modSession (.ite (.modHolding (h.releasePool.endFills.foldl (fun _ _ hu => hu.releasePool)))
          (.sendPool (h.releasePool.endFills.foldl (fun _ _ hu => hu.releasePool)))))
      · exact .modSession (.ite (.modHolding (h.releasePool.endFills.foldl (fun _ _ hu => hu.releasePool)))
          (.sendPool (h.releasePool.endFills.foldl (fun _ _ hu => hu.releasePool))))
    · split
      · exact .sessionDone (.modSession (.ite (.modHolding (h.releasePool.endFills.foldl (fun _ _ hu => hu.releasePool)))
          (.sendPool (h.releasePool.endFills.foldl (fun _ _ hu => hu.releasePool)))))
      · exact .modSession (.ite (.modHolding (h.releasePool.endFills.foldl (fun _ _ hu => hu.releasePool)))
          (.sendPool (h.releasePool.endFills.foldl (fun _ _ hu => hu.releasePool))))
  · exact .tellPool (.ite h.modSession.tellPool.newProtection h.modSession.tellPool)
  · split
    · exact h.modSession.sessionDone
    · exact h.modSession
  · exact h.modSession.grantPool
  · refine .tellUser (.modSession ?_)
    refine .releaseSession (.releaseSession ?_)
    split
    · refine .sessionDone ?_
      split
      · exact h.sessionDone
      · exact h
    · split
      · exact h.sessionDone
      · exact h
  · split
    · split
      · exact h.sessionDone
      · exact h
    · split
      · split
        · refine .sessionDone ?_
          split
          · refine .sessionDone ?_
            split
            · refine .sessionDone (.modDir ?_)
              refine .releaseSession (h.foldl fun _ _ hu => ?_)
              split
              · exact hu.sessionDone
              · exact hu
            · refine .modDir (.releaseSession ?_)
              refine h.foldl fun _ _ hu => ?_
              split
              · exact hu.sessionDone
              · exact hu
          · split
            · refine .sessionDone (.modDir ?_)
              refine .releaseSession (h.foldl fun _ _ hu => ?_)
              split
              · exact hu.sessionDone
              · exact hu
            · refine .modDir (.releaseSession ?_)
              refine h.foldl fun _ _ hu => ?_
              split
              · exact hu.sessionDone
              · exact hu
        · refine .modDir ?_
          split
          · refine .sessionDone ?_
            split
            · refine .sessionDone (.modDir ?_)
              refine .releaseSession (h.foldl fun _ _ hu => ?_)
              split
              · exact hu.sessionDone
              · exact hu
            · refine .modDir (.releaseSession ?_)
              refine h.foldl fun _ _ hu => ?_
              split
              · exact hu.sessionDone
              · exact hu
          · split
            · refine .sessionDone (.modDir ?_)
              refine .releaseSession (h.foldl fun _ _ hu => ?_)
              split
              · exact hu.sessionDone
              · exact hu
            · refine .modDir (.releaseSession ?_)
              refine h.foldl fun _ _ hu => ?_
              split
              · exact hu.sessionDone
              · exact hu
      · split
        · refine .sessionDone ?_
          split
          · refine .sessionDone (.modDir ?_)
            refine .releaseSession (h.foldl fun _ _ hu => ?_)
            split
            · exact hu.sessionDone
            · exact hu
          · refine .modDir (.releaseSession ?_)
            refine h.foldl fun _ _ hu => ?_
            split
            · exact hu.sessionDone
            · exact hu
        · split
          · refine .sessionDone (.modDir ?_)
            refine .releaseSession (h.foldl fun _ _ hu => ?_)
            split
            · exact hu.sessionDone
            · exact hu
          · refine .modDir (.releaseSession ?_)
            refine h.foldl fun _ _ hu => ?_
            split
            · exact hu.sessionDone
            · exact hu
  · exact h

theorem execSessionCopyComplete_answers {session : Nat} : Answers true s (execSessionCopyComplete session s) := by
  unfold execSessionCopyComplete
  refine Steps.answers ?_
  split
  · exact .ok .refl
  · refine .ite (.ok .refl) ?_
    split
    · next u e => exact .ok (Kept.ofIte Kept.refl.deniedSession u e)
    · exact .ok (.change (.ite (.copySession .refl) .refl))

theorem Kept.served {id : Nat} {fetched : Bool} (h : Kept s t) : Kept s (t.served id fetched) := by
  unfold State.served
  dsimp only
  split
  · exact h
  · split
    · exact h
    · split
      · refine .tellUser ?_
        split
        · refine .tellUser ?_
          split
          · exact .sessionDone (.modSession (.foldl (h.foldl (fun _ _ hu => hu.releasePool)) (fun _ _ hu => hu.releasePool)))
          · exact .modSession (.foldl (h.foldl (fun _ _ hu => hu.releasePool)) (fun _ _ hu => hu.releasePool))
        · split
          · exact .sessionDone (.modSession (.foldl (h.foldl (fun _ _ hu => hu.releasePool)) (fun _ _ hu => hu.releasePool)))
          · exact .modSession (.foldl (h.foldl (fun _ _ hu => hu.releasePool)) (fun _ _ hu => hu.releasePool))
      · split
        · refine .tellUser ?_
          split
          · exact .sessionDone (.modSession (.foldl (h.foldl (fun _ _ hu => hu.releasePool)) (fun _ _ hu => hu.releasePool)))
          · exact .modSession (.foldl (h.foldl (fun _ _ hu => hu.releasePool)) (fun _ _ hu => hu.releasePool))
        · split
          · exact .sessionDone (.modSession (.foldl (h.foldl (fun _ _ hu => hu.releasePool)) (fun _ _ hu => hu.releasePool)))
          · exact .modSession (.foldl (h.foldl (fun _ _ hu => hu.releasePool)) (fun _ _ hu => hu.releasePool))

theorem execSessionServeReport_answers {session : Nat} : Answers true s (execSessionServeReport session s) := by
  unfold Machine.execSessionServeReport
  refine Steps.answers ?_
  dsimp only
  split
  · exact .ok .refl
  · exact .ite (.ok Kept.refl.served) (.ok .refl)

theorem execCommitPendingTimeout_answers {session : Nat} : Answers true s (execCommitPendingTimeout session s) := by
  unfold Machine.execCommitPendingTimeout
  refine Steps.answers ?_
  split
  · exact .ok .refl
  · split
    · exact .ite (.ok .refl) (.ok Kept.refl.modSession.sessionDone)
    · exact .ok .refl

theorem Kept.cleanPages {i id : Nat} (h : Kept s t) : Kept s (t.cleanPages i id) := by
  rw [State.cleanPages]
  split
  · exact h
  · exact h.modHolding.modPool

theorem Kept.restoreFrom {i id : Nat} {data : List (Nat × List Byte)} (h : Kept s t) : Kept s (t.restoreFrom i id data) := by
  unfold State.restoreFrom
  split
  · exact h
  · dsimp only
    split
    · exact h.modHolding
    · exact .modHolding (.cleanPages (h.foldl (fun _ _ hu => hu.writePool.countMoved)))

theorem execSessionFetch_answers {pool session : Nat} {data : List (Nat × List Byte)} :
    Answers (isPool pool) s (execSessionFetch pool session data s) := by
  unfold execSessionFetch
  refine .guard (by simp) fun _ => ?_
  split
  · exact .ok .refl
  · refine .ite (.ok (.restoreFrom .refl)) (.ite (.ok .refl) ?_)
    extract_lets r src ready page
    refine .ite (.ok .refl) ?_
    split
    · next u e =>
      obtain ⟨x, -, e⟩ := Option.bind_eq_some_iff.1 e
      exact .ok (Kept.refl.deniedPages u e)
    · split
      · exact .ok (.killOwner .refl)
      · rename_i w w' w2 _ _ _ _
        have hw : Kept s w := .foldl .refl fun u x hu => by
          split
          · exact hu.writePool.countMoved
          · exact hu
        clear_value w
        have hw' : Kept s w' := by
          unfold w'
          clear_value src
          split
          · exact hw.markDirty
          · exact .ite hw.allDirty hw
        exact .ok (.ite hw'.modHolding.tryServe.tellUser hw'.modHolding.tryServe)

theorem Kept.answerHolding {i id : Nat} (h : Kept s t) : Kept s (t.answerHolding i id) := by
  rw [State.answerHolding]
  split
  · exact h.dropOther
  · exact .ite (.ite h.ownPool h.dropOther) (.ite (.ite h.freePages (.ite h (.ite h.modSession.ownPool h.ownPool)))
      (.ite (.ite h.dropPool h.dropOther) h.dropOther))

theorem Kept.disown {i dir : Nat} (h : Kept s t) : Kept s (t.disown i dir) :=
  h.foldl (fun _ _ hu => hu.modHolding)

theorem Kept.takeRenewal {sender dir i : Nat} {tick : Word64} (h : Kept s t) : Kept s (t.takeRenewal sender dir i tick) :=
  .ite (.modPool (.ite h.disown h)) (.ite (.foldl (.modPool (.ite h.disown h)) (fun _ _ hu => hu.answerHolding))
    (.sendPool (.modPool (.ite h.disown h))))

theorem execRenewalSend_answers : Answers true s (execRenewalSend s) :=
  Steps.answers (.ok (Kept.refl.foldl (fun _ _ hu => .ite hu.modDir.takeRenewal (.ite hu.modDir.syncSend hu.modDir))))

theorem execRenewalReceive_answers {directory pool : Nat} {renewal : Renewal} :
    Answers (isPool pool && isPkg directory && isPkg renewal.sender) s (execRenewalReceive directory pool renewal s) :=
  .guard (by simp) fun _ => .ite (.ok .refl) (.ok Kept.refl.takeRenewal)

theorem execLeaseLapse_answers {directory pool : Nat} : Answers (isPool pool && isPkg directory) s (execLeaseLapse directory pool s) := by
  unfold Machine.execLeaseLapse
  refine .guard (by simp) fun _ => ?_
  split
  · exact .ok .refl
  · exact .ite (.ok .refl) (.ok Kept.refl.disown)

theorem Kept.ownerLost {id : Nat} {r : Session} (h : Kept s t) : Kept s (t.ownerLost id r) :=
  .ite (.change (.ite (.endFills (.releasePool (h.foldl (fun _ _ hu => hu.releasePool)))) (h.foldl (fun _ _ hu => hu.releasePool))))
    (.change (.ite (.endFills (.releasePool (h.foldl (fun _ _ hu => hu.releasePool)))) (h.foldl (fun _ _ hu => hu.releasePool))))

theorem Kept.sessionLoses {name id : Nat} {r : Session} (h : Kept s t) : Kept s (t.sessionLoses name id r) :=
  .ite h (.ite (.ite h h.ownerLost) (.ite h.change (.ite (.ite h.modSession
    (.ite h.modSession.modSession.grantPool (.ite h.modSession.change h.modSession.grantPool))) (.ite h.modSession h))))

theorem Kept.closeAnswer {name : Nat} {session : Option Nat} (h : Kept s t) : Kept s (t.closeAnswer name session) :=
  h.modDir.foldl (fun _ _ hu => hu.endJob)

theorem Kept.losePool {name : Nat} (h : Kept s t) : Kept s (t.losePool name) := by
  rw [State.losePool]
  refine .foldl (.ite (.foldl (.ite (.raisePf0 (.ite h.zeroPages.modPool h.closeAnswer)) (.ite h.zeroPages.modPool h.closeAnswer))
    (fun _ _ hu => hu.sendPool)) (.ite (.raisePf0 (.ite h.zeroPages.modPool h.closeAnswer)) (.ite h.zeroPages.modPool h.closeAnswer)))
    fun _ _ hu => ?_
  split
  · exact hu.sessionLoses
  · exact hu

theorem Kept.losePoolsOf {p : Nat → Bool} (h : Kept s t) : Kept s (t.losePoolsOf p) :=
  h.foldl (fun _ _ hu => hu.losePool)

theorem Kept.changeRefused {id : Nat} (h : Kept s t) : Kept s (t.changeRefused id) := by
  unfold State.changeRefused
  dsimp only
  split
  · exact h
  · split
    · refine .sessionDone ?_
      split
      · exact h.modDir.releaseSession
      · split
        · exact h.modDir.unextend
        · exact h.modDir
      · exact h.modDir
    · split
      · exact h.modDir.releaseSession
      · split
        · exact h.modDir.unextend
        · exact h.modDir
      · exact h.modDir

theorem Kept.tellRecord {id : Nat} {old new : Option Session} (h : Kept s t) : Kept s (t.tellRecord id old new) := by
  unfold State.tellRecord
  extract_lets tell left
  have htell : ∀ {u pkg w}, Kept s u → Kept s (tell u pkg w) := fun hu => .ite hu hu.sendPool
  have hleft : ∀ {u}, Kept s u → Kept s (left u) := fun hu => by
    unfold left
    split
    · exact .ite hu (htell hu)
    · exact hu
  split
  · exact htell (hleft h)
  · exact hleft h

theorem execDirectoryRecordWrite_answers {session : Nat} : Answers true s (execDirectoryRecordWrite session s) := by
  unfold Machine.execDirectoryRecordWrite
  refine Steps.answers ?_
  dsimp only
  split
  · exact .ok .refl
  · split
    · exact .ok (.ite Kept.refl.changeRefused .refl)
    · split
      · exact .ok Kept.refl.sendChange
      · split
        · exact .ok Kept.refl.changeRefused
        · split
          · exact .ok (.sessionLoses (.tellRecord (.afterChange (Kept.refl.update rfl))))
          · exact .ok (.tellRecord (.afterChange (Kept.refl.update rfl)))

theorem execPoolLoss_answers {pool : Nat} : Answers (decide (pool < 65536)) s (execPoolLoss pool s) :=
  .guard (by simp) fun _ => .ok Kept.refl.losePool

theorem execPoolUnreachableTimeout_answers {pool : Nat} : Answers (decide (pool < 65536)) s (execPoolUnreachableTimeout pool s) := by
  unfold Machine.execPoolUnreachableTimeout
  refine .guard (by simp) fun _ => ?_
  split
  · exact .ok .refl
  · exact .ite (.ok .refl) (.ok Kept.refl.modDir.losePool)

theorem execOwnershipTakeover_answers {session : Nat} : Answers true s (execOwnershipTakeover session s) := by
  unfold Machine.execOwnershipTakeover
  refine Steps.answers ?_
  dsimp only
  split
  · exact .ok .refl
  · split
    · exact .ok .refl
    · split
      · exact .ok Kept.refl.change
      · exact .ok (.ite (.tellUser (.ite Kept.refl.change Kept.refl.startJob)) (.ite Kept.refl.change Kept.refl.startJob))

theorem Kept.protectPage {r : Session} {id j : Nat} {page : List Byte} (h : Kept s t) : Kept s (t.protectPage r id j page) := by
  unfold State.protectPage
  dsimp only
  refine h.foldl fun _ _ hu => ?_
  split
  · split
    · exact hu.modDir.writePool.countMoved
    · exact hu.modDir
  · exact hu.modDir.sendPoolFor.countMoved

theorem execMirrorUpdateComplete_answers {session : Nat} {data : List (Nat × List Byte)} :
    Answers true s (execMirrorUpdateComplete session data s) := by
  unfold execMirrorUpdateComplete
  refine Steps.answers ?_
  split
  · extract_lets here
    split
    · next u e => exact .ok (Kept.ofIte Kept.refl.deniedPages u e)
    · split
      · exact .ok (.modDir (.killOwner .refl))
      · rename_i ps s1 s2 _ _ _ _
        have h1 : Kept s s1 := .foldl .refl fun _ _ hu => hu.protectPage
        have h2 : Kept s s2 := .modDir (.ite h1.cleanPages h1.tellPool)
        exact .ok (.ite h2.change h2.sendPool)
  · exact .ok (.modDir .refl)
  · exact .ok .refl

theorem Kept.restoreProtected {p : Nat} {step : Word64} (h : Kept s t) : Kept s (t.restoreProtected p step) :=
  h.foldl (fun _ _ hu => .ite hu.restoreFrom hu.tellPool)

theorem Kept.recreate {x' : Restored} (h : Kept s t) : Kept s (t.recreate x') := by
  rw [State.recreate]
  split
  · exact h.raisePav
  · next i root u e =>
    obtain ⟨j, -, e⟩ := Option.bind_eq_some_iff.1 e
    obtain ⟨y, hy, e⟩ := Option.map_eq_some_iff.1 e
    cases e
    exact .raisePav (.change (.modDir (.foldl (h.takePages _ hy) fun _ _ hu => hu.writePool)))

theorem Kept.repoint {id epoch pkg p : Nat} (h : Kept s t) : ∀ u ∈ t.repoint id epoch pkg p, Kept s u := by
  unfold State.repoint
  split
  · exact Kept.ofNone
  · split
    · exact Kept.ofNone
    · exact Kept.ofSome h.change

theorem Kept.restoreSession {x' : Restored} {epoch : Nat} (h : Kept s t) : Kept s (t.restoreSession x' epoch) := by
  unfold State.restoreSession
  split
  · split
    · rename_i u e
      have hu : Kept s u := h.repoint _ e
      exact hu
    · exact h.recreate
  · exact .ite h.recreate h.modDir.sendPool

theorem Kept.userAnswer {id p status : Nat} (h : Kept s t) : Kept s (t.userAnswer id p status) := by
  rw [State.userAnswer]
  split
  · exact h
  · exact .ite h.modDir h.modDir.recreate

theorem Kept.sendRecords (h : Kept s t) : Kept s t.sendRecords :=
  h.sendPool.foldl (fun _ _ hu => hu.sendPool)

theorem execPvDirCtlWrite_answers {value : Word32} : Answers true s (execPvDirCtlWrite value s) :=
  Steps.answers (.ite (.ok .refl) (.ok (.ite Kept.refl.modDir.sendRecords Kept.refl.modDir)))

theorem execDirectoryResyncComplete_answers {records : List (BitVec 512)} : Answers true s (execDirectoryResyncComplete records s) :=
  Steps.answers (.ite (.ok .refl) (.ok Kept.refl.modDir))

theorem Kept.copied {id : Nat} (h : Kept s t) : Kept s (t.copied id) :=
  h.modDir

theorem Kept.answerReport {name w : Nat} (h : Kept s t) : Kept s (t.answerReport name w) :=
  h.sendPool

theorem Kept.missing {name : Nat} {ids : List Nat} (h : Kept s t) : Kept s (t.missing name ids) := by
  unfold State.missing
  refine h.foldl fun _ _ hu => ?_
  split
  · exact hu.sessionLoses
  · exact hu

theorem Kept.userGone {id pkg p : Nat} (h : Kept s t) : Kept s (t.userGone id pkg p) := by
  unfold State.userGone
  split
  · exact .ite h.change h
  · exact h

theorem Kept.poolAnswer {m : BulkMsg} {ws : List Nat} (h : Kept s t) : Kept s (t.poolAnswer m ws) :=
  h.sendOut

theorem Kept.poolIn {m : BulkMsg} (h : Kept s t) : Kept s (t.poolIn m) := by
  unfold State.poolIn
  dsimp only
  split
  · exact h
  · split
    · split
      · exact h.useWindows.poolAnswer
      · split
        · rename_i x u1 e2
          have hu : Kept s u1 := h.useWindows.takeHere _ e2
          exact hu.poolAnswer
        · exact h.useWindows.poolAnswer
    · split
      · exact h.useWindows.poolAnswer
      · split
        · rename_i x5 u6 e7
          have hu : Kept s u6 := h.useWindows.takeHere _ e7
          exact hu.poolAnswer
        · exact h.useWindows.poolAnswer
    · split
      · exact h.useWindows.poolAnswer
      · split
        · rename_i x10 u11 e12
          have hu : Kept s u11 := h.useWindows.takeHere _ e12
          exact hu.poolAnswer
        · exact h.useWindows.poolAnswer
    · exact .poolAnswer (.ite h.trimPages h.freePages)
    · exact .poolAnswer (.ite h.modHolding h.copySession)
    · split
      · exact h.writePool.poolAnswer
      · exact h.poolAnswer
    · exact .poolAnswer (.ite h.dropAck (.ite h.dropOther h.dropPool))
    · exact .poolAnswer (.ite (.newProtection (.ite h.growPool h.ownPool))
        (.ite (.allDirty (.ite h.growPool h.ownPool)) (.ite h.growPool h.ownPool)))
    · exact h.cleanPages.poolAnswer
    · exact .poolAnswer (.restoreFrom (.ite h h.modDir))
    · exact h.sealPool.poolAnswer
    · exact h.served.poolAnswer
    · exact h.losePool.poolAnswer
    · exact .ite h.poolAnswer (.poolAnswer (.ite h.modDir h.modDir.copied))
    · exact h.modDir.sessionCommand
    · exact h.raisePav.poolAnswer
    · exact h.poolAnswer
    · exact .ite h.poolAnswer (.poolAnswer (.ite (.copied (h.update rfl)) h.modDir))
    · exact .poolAnswer (.foldl (.ite h.missing h) (fun _ _ hu => hu.answerReport))
    · split
      · exact h.userGone.poolAnswer
      · split
        · rename_i u18 e19
          have hu : Kept s u18 := h.repoint _ e19
          exact hu.poolAnswer
        · exact h.poolAnswer
    · refine .poolAnswer ?_
      split
      · exact h.change
      · exact h

theorem Kept.poolReply {q : Sent} {m : BulkMsg} (h : Kept s t) : Kept s (t.poolReply q m) := by
  rw [State.poolReply]
  split
  · exact .ite h.modDir h
  · split
    · exact .complete (.ite h.modDir h)
    · split
      · exact .jobAnswer (.ite h.modDir h)
      · split
        · exact .ite h.modDir h
        · exact .ite (.ite (.change (.ite h.modDir h)) (.ite h.modDir h)) (.ite (.ite h.modDir h) (.change (.ite h.modDir h)))
    · exact .ite (.changeRefused (.ite h.modDir h)) (.ite h.modDir h)
    · exact .jobAnswer (.ite h.modDir h)
    · exact .jobAnswer (.ite h.modDir h)
    · exact .ite (.ite h.modDir h) (.userAnswer (.ite h.modDir h))
    · exact .userKnown (.ite h.modDir h)
    · exact .jobAnswer (.ite h.modDir h)
    · exact .ite (.ite h.modDir h) (.settleTwice (.ite h.modDir h))
    · exact .ite (.ite h.modDir h) (.closeAnswer (.ite h.modDir h))
    · exact .ite h.modDir h

end Sys2Proof.Machine
end

section
/-! SUPPORT. What no command may change, through beds, the bulk network, TIME and links. -/

namespace Sys2Proof.Machine

variable {s t : State}

theorem Kept.setRefresh {channel : Nat} {celsius : Int} (h : Kept s t) : Kept s (t.setRefresh channel celsius) :=
  .ite (h.setChannel.logMem.foldl (fun _ _ hu => .ite hu.unrepeatable hu)) h.setChannel

theorem execRefresh_answers {channel : Nat} : Answers (isChannel channel) s (execRefresh channel s) :=
  .guard (by simp) fun _ => .ite (.ok .refl) (.ok Kept.refl.setRefresh.setChannel)

theorem execDramTemperatureReport_answers {channel : Nat} {celsius : Int} :
    Answers (isChannel channel) s (execDramTemperatureReport channel celsius s) :=
  .guard (by simp) fun _ => .ite (.ok .refl) (.ok Kept.refl.setRefresh)

theorem execPatrolScrubRead_answers {channel : Nat} {errs : SymbolErrors} :
    Answers (isChannel channel) s (execPatrolScrubRead channel errs s) := by
  unfold execPatrolScrubRead
  refine .guard (by simp) fun _ => ?_
  extract_lets c key s1 err s2
  have h1 : Kept s s1 := .setChannel (.background .refl)
  have h2 : Kept s s2 := h1.modBeds (fun hm => by split <;> exact hm) fun hl => by split <;> exact hl
  exact .ite (.ok .refl) (.ite (.ok h2.bedUncorrectable.retireFrame) (.ite (.ok h1.bedCorrected) (.ok h1)))

theorem execSpareChannelStart_answers {channel : Nat} {wear : Bool} : Answers (isChannel channel) s (execSpareChannelStart channel wear s) :=
  .guard (by simp) fun _ => .ite (.ok .refl) (.ok Kept.refl.setChannel.logMem)

theorem Kept.failChannel {q : Nat} (h : Kept s t) : Kept s (t.failChannel q) := by
  unfold State.failChannel
  extract_lets c taken loc s1 s2 s3
  have h1 : Kept s s1 := .losePoolsOf (.logMem (h.modBeds (fun hm => Mem.wf_clear hm _ _) id))
  have h2 : Kept s s2 := h1.foldl fun _ _ hu => .ite hu.startReset.unrepeatable hu.startReset
  exact .ite h2.setChannel.modRegs.raisePf0 h2.setChannel.logMem

theorem execChannelFailure_answers {channel : Nat} : Answers (isChannel channel) s (execChannelFailure channel s) :=
  .guard (by simp) fun _ => .ite (.ok .refl) (.ok Kept.refl.failChannel)

theorem Kept.sharedOn {q : Nat} {k : McKind} (h : Kept s t) : Kept s (t.sharedOn q k) :=
  .ite h (h.foldl (fun _ _ hu => hu.unrepeatable))

theorem Kept.enterLine {q key : Nat} (h : Kept s t) : Kept s (t.enterLine q key) :=
  .ite (.failChannel (h.modBeds id id)) (h.modBeds id id)

theorem Kept.lineError {q : Nat} {a : McAccess} (h : Kept s t) : Kept s (t.lineError q a) := by
  rw [State.lineError]
  split
  · exact h
  · split
    · exact .ite h.enterLine h
    · split
      · exact h
      · exact h.bedCorrected
      · split
        · exact .startReset (.bedUncorrectable (h.modBeds id id))
        · exact .startReset (.bedUncorrectable (h.modBeds id id))
        · exact .startReset (.bedUncorrectable (h.modBeds id id))
        · exact .retireFrame (.bedUncorrectable (h.modBeds id id))
        · exact .enterLine (h.modBeds id id)
        · exact h.modBeds id id

theorem execMcServeAccess_answers {channel : Nat} {waiting : List McAccess} :
    Answers (isChannel channel) s (execMcServeAccess channel waiting s) := by
  unfold Machine.execMcServeAccess
  refine .guard (by simp) fun _ => ?_
  split
  · exact .ok .refl
  · dsimp only
    split
    · exact .ok Kept.refl.setChannel
    · refine .ok (.answered ?_)
      refine .lineError ?_
      split
      · exact .modPav (.ite Kept.refl.setChannel.sharedOn.background Kept.refl.setChannel.sharedOn)
      · exact .ite Kept.refl.setChannel.sharedOn.background Kept.refl.setChannel.sharedOn

theorem execSpareCopyComplete_answers {channel : Nat} : Answers (isChannel channel) s (execSpareCopyComplete channel s) :=
  .guard (by simp) fun _ => .ite (.ok .refl) (.ok (.logMem (.setChannel (Kept.refl.modBeds id id))))

theorem execLsRowRepair_answers {core bank segment : Nat} :
    Answers (isCore core && decide (bank < 64) && isSegment segment) s (execLsRowRepair core bank segment s) :=
  .guard (by simp) fun _ => .ite (.ok .refl) (.ok Kept.refl.modCore.logMem)

theorem execLsZeroComplete_answers {core : Nat} : Answers (isCore core) s (execLsZeroComplete core s) :=
  .guard (by simp) fun _ => .ite (.ok .refl) (.ok Kept.refl.background.zeroLs.modCore)

theorem execGranuleZeroComplete_answers {channel granule : Nat} :
    Answers (isChannel channel && decide (granule < granulesPerChannel)) s (execGranuleZeroComplete channel granule s) := by
  unfold execGranuleZeroComplete
  exact .guard (by simp) fun _ => .ite (.ok .refl) (.ok (.modBeds (.background .refl) (fun hm => Mem.wf_clear hm _ _) id))

theorem Kept.windingCheck {m : BulkMsg} (h : Kept s t) : ∀ u ∈ t.windingCheck m, Kept s u := by
  unfold State.windingCheck
  dsimp only
  split
  · exact Kept.ofSome h
  · split
    · split
      · exact Kept.ofSome h
      · exact Kept.ofNone
    · split
      · split
        · exact Kept.ofNone
        · split
          · exact Kept.ofSome h
          · exact Kept.ofSome h.modNet
      · exact Kept.ofSome h.modNet

theorem Kept.serveWindow {m : BulkMsg} (h : Kept s t) : Kept s (t.serveWindow m) := by
  unfold State.serveWindow
  dsimp only
  split
  · exact h.answerOut
  · split
    · exact h.windowCheck.answerOut
    · split
      · exact h.windowCheck.killOwner.answerOut
      · exact .ite h.windowCheck.answerOut (.ite (.ite (.answerOut
          (.foldl (h.windowCheck.foldl (fun _ _ hu => hu.touchWindow)) (fun _ _ hu => hu.writeWindow)))
          (.update (.foldl (h.windowCheck.foldl (fun _ _ hu => hu.touchWindow)) (fun _ _ hu => hu.writeWindow)) rfl))
          (.answerOut (h.windowCheck.foldl (fun _ _ hu => hu.touchWindow))))

theorem Kept.servePeer {m : BulkMsg} (h : Kept s t) : Kept s (t.servePeer m) := by
  rw [State.servePeer]
  split
  · exact h
  · exact .ite h.killLs (.ite (.answerOut (h.foldl (fun _ _ hu => hu.writeLs))) h.answerOut)

theorem Kept.serveSend {m : BulkMsg} (h : Kept s t) : Kept s (t.serveSend m) := by
  rw [State.serveSend]
  split
  · exact h.modPav
  · exact h

theorem Kept.serve {m : BulkMsg} (h : Kept s t) : Kept s (t.serve m) :=
  .ite h.poolIn (.ite h.serveWindow (.ite h.servePeer h))

theorem Kept.applyRequest {m : BulkMsg} (h : Kept s t) : Kept s (t.applyRequest m) :=
  .ite h.serve (.ite h.modNet.answerOut h.modNet.serve)

theorem Kept.drainPair {k fuel : Nat} (h : Kept s t) : Kept s (t.drainPair k fuel) := by
  induction fuel generalizing t with
  | zero => exact h
  | succ fuel ih =>
    rw [State.drainPair]
    split
    · exact h
    · exact ih h.modNet.applyRequest

theorem Kept.sequence {m : BulkMsg} (h : Kept s t) : Kept s (t.sequence m) :=
  .ite h h.modNet.drainPair

theorem Kept.dropSent {core strand num : Nat} (h : Kept s t) : Kept s (t.dropSent core strand num) :=
  h.modNet

theorem Kept.tileAnswered {core strand num : Nat} (h : Kept s t) : Kept s (t.tileAnswered core strand num) := by
  rw [State.tileAnswered]
  split
  · exact h
  · split
    · exact h.dropSent
    · exact .ite h.modFlight.driveTiles h.modFlight.driveTiles.modNet

theorem Kept.matchReply {m : BulkMsg} (h : Kept s t) : Kept s (t.matchReply m) := by
  rw [State.matchReply]
  split
  · exact h
  · split
    · exact h.modNet.poolReply
    · split
      · exact h
      · split
        · split
          · exact h.modNet
          · exact .ite h.modNet.acceptRun (.ite h.modNet.modPav h.modNet.acceptRun)
        · split
          · exact h.modNet.finishFlight.modPav.count
          · split
            · split
              · exact h.dropSent
              · exact h.dropSent.tileKernelFault
            · exact h.modNet.tileAnswered

theorem Kept.replyIn {m : BulkMsg} (h : Kept s t) : Kept s (t.replyIn m) := by
  unfold State.replyIn
  split
  · exact h
  · exact h.matchReply.sendNext

theorem Kept.bulkIn {m : BulkMsg} (h : Kept s t) : Kept s (t.bulkIn m) := by
  unfold State.bulkIn
  split
  · exact h.sendOut
  · split
    · exact h
    · split
      · exact h.replyIn
      · split
        · exact h
        · rename_i u e
          have hu : Kept s u := h.windingCheck _ e
          exact .ite hu.serveSend hu.sequence

theorem execBulkMessageArrive_answers {m : BulkMsg} : Answers true s (execBulkMessageArrive m s) :=
  Steps.answers (.ok Kept.refl.bulkIn)

theorem execReplyArrive_answers {m : BulkMsg} : Answers true s (execReplyArrive m s) :=
  Steps.answers (.ok (.ite Kept.refl.replyIn .refl))

theorem execWindowRequestReceive_answers {m : BulkMsg} : Answers true s (execWindowRequestReceive m s) := by
  unfold Machine.execWindowRequestReceive
  refine Steps.answers ?_
  split
  · exact .ok .refl
  · split
    · rename_i u e
      have hu : Kept s u := Kept.refl.windingCheck _ e
      exact .ok hu.sequence
    · exact .ok .refl

theorem Kept.spareLane {loc lane : Nat} (h : Kept s t) : Kept s (t.spareLane loc lane) :=
  .ite (.raisePf0 (.modNet (h.foldl (fun _ _ hu => hu.unrepeatable))))
    (.foldl (.modNet (h.foldl (fun _ _ hu => hu.unrepeatable))) (fun _ _ hu => hu.startReset))

theorem execOnpkgFlitError_answers {loc lane : Nat} : Answers (isLink loc && decide (lane < 65536)) s (execOnpkgFlitError loc lane s) :=
  .guard (by simp) fun _ => .ok (.ite Kept.refl.modNet Kept.refl.spareLane)

theorem execOnpkgLaneSpare_answers {loc lane : Nat} : Answers (isLink loc && decide (lane < 65536)) s (execOnpkgLaneSpare loc lane s) :=
  .guard (by simp) fun _ => .ok Kept.refl.spareLane

theorem execBridgeLaneRepair_answers {edge module lane : Nat} :
    Answers (decide (edge < 4) && decide (module < 40) && decide (lane < 64)) s (execBridgeLaneRepair edge module lane s) :=
  .guard (by simp) fun _ => .ok (Kept.refl.modNet.foldl (fun _ _ hu => hu.unrepeatable))

theorem Kept.countTicks {n : Nat} (h : Kept s t) : Kept s (t.countTicks n) :=
  h.update rfl

theorem Kept.tickOn (h : Kept s t) : Kept s t.tickOn :=
  h.countTicks.update rfl

theorem execTimeBroadcast_answers : Answers true s (execTimeBroadcast s) :=
  Steps.answers (.ite (.ok .refl) (.ok (Kept.refl.update rfl)))

theorem execTimeNowLowRead_answers : Answers true s (execTimeNowLowRead s) :=
  Steps.answers (.ite (.ok Kept.refl.answered) (.ok Kept.refl.modRegs.answered))

theorem Kept.sayReady {p r : Nat} (h : Kept s t) : Kept s (t.sayReady p r) :=
  .ite h h.modPav.syncSend

theorem Kept.sayDown {p : Nat} (h : Kept s t) : Kept s (t.sayDown p) :=
  h.modPav.foldl (fun _ _ hu => hu.syncSend)

theorem Kept.tryReady {p : Nat} (h : Kept s t) : Kept s (t.tryReady p) :=
  .ite h h.modPav.renumber.raisePav

theorem Kept.dropSpanTraffic {p : Nat} (h : Kept s t) : Kept s (t.dropSpanTraffic p) :=
  h.modNet.update rfl

theorem Kept.faultSpan {p rank : Nat} (h : Kept s t) : Kept s (t.faultSpan p rank) :=
  .ite h h.modPav.dropSpanTraffic.peerReset.raisePav.startReset

theorem Kept.reviewSpan {p : Nat} (h : Kept s t) : Kept s (t.reviewSpan p) := by
  unfold State.reviewSpan
  dsimp only
  split
  · exact h
  · split
    · exact .ite (.faultSpan (.ite h h.sayDown)) (.foldl (.ite h h.sayDown) (fun _ _ hu => .ite hu hu.sayReady))
    · exact .ite (.ite h h.sayDown) (.tryReady (.foldl (.ite h h.sayDown) (fun _ _ hu => .ite hu hu.sayReady)))

theorem Kept.reviewSpans (h : Kept s t) : Kept s t.reviewSpans :=
  h.foldl (fun _ _ hu => hu.reviewSpan)

theorem Kept.probe {p : Nat} (h : Kept s t) : Kept s (t.probe p) :=
  .ite h (h.foldl (fun _ _ hu => hu.syncSend))

theorem Kept.rerouted (h : Kept s t) : Kept s t.rerouted :=
  h.reviewSpans.foldl (fun _ _ hu => hu.probe)

theorem Kept.modPort {p : Nat} {f : Port → Port} (h : Kept s t) : Kept s (t.modPort p f) :=
  h.setPort

theorem Kept.leaveUp {p st : Nat} {orderly resend : Bool} (h : Kept s t) : Kept s (t.leaveUp p st orderly resend) :=
  .ite h.setPort (.rerouted (.raisePf0 (.ite (.foldl (h.setPort.foldl (fun _ _ hu => hu.syncForward))
    (fun _ _ hu => hu.sendOut)) h.setPort)))

theorem execDlPortEnable_answers {port : Nat} {on : Bool} : Answers (isPort port) s (execDlPortEnable port on s) :=
  .guard (by simp) fun _ => .ite (.ok .refl) (.ite (.ok .refl)
    (.ite (.ok (.setPort (Kept.refl.update rfl))) (.ok Kept.refl.leaveUp.modPort)))

theorem execPortTrainComplete_answers {port lanes peerPkg peerPort : Nat} :
    Answers (isPort port && isPort peerPort && decide (lanes ≤ 9)) s (execPortTrainComplete port lanes peerPkg peerPort s) :=
  .guard (by simp) fun _ => .ite (.ok .refl) (.ite (.ok Kept.refl.setPort) (.ok Kept.refl.setPort.raisePf0.rerouted))

theorem Kept.bringSpare {p lane : Nat} (h : Kept s t) : Kept s (t.bringSpare p lane) :=
  .ite h h.setPort

theorem execDlLaneSpare_answers {port lane : Nat} : Answers (isPort port && decide (lane ≤ 8)) s (execDlLaneSpare port lane s) :=
  .guard (by simp) fun _ => .ok Kept.refl.bringSpare

theorem execDlSpareNow_answers {port lane : Nat} : Answers (isPort port && decide (lane ≤ 15)) s (execDlSpareNow port lane s) :=
  .guard (by simp) fun _ => .ite (.ok .refl) (.ite (.ok .refl) (.ok (.ite Kept.refl.modPort Kept.refl.modPort.bringSpare)))

theorem execPortRetrainNarrow_answers {port lanes : Nat} :
    Answers (isPort port && decide (lanes ≤ 9)) s (execPortRetrainNarrow port lanes s) :=
  .guard (by simp) fun _ => .ite (.ok .refl) (.ite (.ok Kept.refl.leaveUp.modPort) (.ok Kept.refl.setPort.raisePf0))

theorem Kept.flitIn {port typ : Nat} {f : FlitBits} (h : Kept s t) : Kept s (t.flitIn port typ f).2 := by
  rw [State.flitIn]
  split
  · exact h.setPort
  · split <;> exact h.sendPort

theorem Kept.arrive {port : Nat} {m : BulkMsg} (h : Kept s t) : Kept s (t.arrive port m) :=
  .ite h.leave h.enter.bulkIn

theorem execDataFlitReceive_answers {port : Nat} {flit : DataFlit} : Answers (isPort port) s (execDataFlitReceive port flit s) :=
  .guard (by simp) fun _ => .ite (.ok .refl) (.ok (.ite (Kept.refl.flitIn.foldl (fun _ _ hu => hu.arrive)) Kept.refl.flitIn))

theorem execFlitReplay_answers {port fseq : Nat} : Answers (isPort port && decide (fseq < 65536)) s (execFlitReplay port fseq s) :=
  .guard (by simp) fun _ => .ite (.ok .refl) (.ok Kept.refl.modPort)

theorem Kept.linkMsg {port : Nat} {m : LinkMsg} (h : Kept s t) : Kept s (t.linkMsg port m) := by
  unfold State.linkMsg
  dsimp only
  split
  · exact h.leaveUp
  · exact h.sendPort
  · exact h.sendPort
  · exact h.setPort
  · exact .ite h.setPort.leaveUp h.setPort

theorem execLinkFlitReceive_answers {port : Nat} {m : LinkFlit} : Answers (isPort port) s (execLinkFlitReceive port m s) :=
  .guard (by simp) fun _ => .ite (.ok .refl) (.ok (.ite Kept.refl.flitIn.linkMsg Kept.refl.flitIn))

theorem execPortLeaveUp_answers {port : Nat} : Answers (isPort port) s (execPortLeaveUp port s) :=
  .guard (by simp) fun _ => .ite (.ok .refl) (.ok Kept.refl.leaveUp)

theorem execDlQuiesce_answers {port : Nat} : Answers (isPort port) s (execDlQuiesce port s) :=
  .guard (by simp) fun _ => .ite (.ok .refl) (.ite (.ok .refl) (.ok (.ite Kept.refl.modPort.leaveUp Kept.refl.modPort)))

theorem execDlPkgIdWrite_answers {value : Word32} : Answers true s (execDlPkgIdWrite value s) :=
  Steps.answers (.ite (.ok .refl) (.ite (.ok .refl) (.ok (.rerouted
    (.foldl (Kept.refl.modRegs.foldl (fun _ _ hu => hu.sendPort)) (fun _ _ hu => hu.leaveUp))))))

theorem execDlRtDataWrite_answers {value : Word32} : Answers true s (execDlRtDataWrite value s) :=
  Steps.answers (.ite (.ok .refl) (.ok (.rerouted (Kept.refl.update rfl))))

theorem execDlSpanBaseWrite_answers {value : Word64} : Answers true s (execDlSpanBaseWrite value s) :=
  Steps.answers (.ite (.ok .refl) (.ite (.ok .refl) (.ok (Kept.refl.update rfl))))

theorem Kept.track {t' : TimeStamp} (h : Kept s t) : Kept s (t.track t') :=
  .ite (.ite (.raisePf0 (h.update rfl)) (h.update rfl)) (.rerouted (.ite (.raisePf0 (h.update rfl)) (h.update rfl)))

theorem Kept.lead (h : Kept s t) : Kept s t.lead :=
  .ite (h.update rfl) (.rerouted (h.update rfl))

theorem Kept.elect (h : Kept s t) : Kept s t.elect :=
  .ite h.lead h

theorem execTimestampExchange_answers {port : Nat} {t' : TimeStamp} : Answers (isPort port) s (execTimestampExchange port t' s) :=
  .guard (by simp) fun _ => .ite (.ok .refl) (.ite (.ok Kept.refl.flitIn)
    (.ok (.ite Kept.refl.flitIn.sendPort.elect (.ite Kept.refl.flitIn.sendPort.track Kept.refl.flitIn.sendPort))))

end Sys2Proof.Machine
end

section
/-! SUPPORT. What no command may change, through the pavilion table and snapshots. -/

namespace Sys2Proof.Machine

variable {s t : State}

theorem Kept.tableError {mask : Nat} {f : Finding} (h : Kept s t) : Kept s (t.tableError mask f) := by
  unfold State.tableError
  split
  · exact h.bedUncorrectable
  · exact h

theorem Kept.setReason {f : Option Finding} {st : BitVec 2} (h : Kept s t) : Kept s (t.setReason f st) :=
  h.modRegs

theorem Kept.wakeTables {addr : Nat} (h : Kept s t) : Kept s (t.wakeTables addr) := by
  unfold State.wakeTables
  split
  · exact .ite h.wakePkg h
  · exact h.wakePkg.foldl (fun _ _ hu => hu.wakePkg)

theorem Kept.startPvCheck {k : Nat} (h : Kept s t) : Kept s (startPvCheck k t) := by
  unfold Machine.startPvCheck
  refine h.start fun _ _ hu => ?_
  dsimp only
  split
  · exact hu.complete
  · split
    · exact .complete (hu.wakeTables.tableError.setReason.update rfl)
    · exact .complete (.modRegs (.setReason (hu.wakeTables.update rfl)))

theorem execPvCheck_answers {fn slot : Nat} {answers : List SpanAnswer} :
    Answers (isFn fn && isSlot slot) s (execPvCheck fn slot answers s) :=
  .trans (Kept.refl.update rfl) (.post fun _ _ hu => hu.startPvCheck)

theorem Kept.endApply {f : Finding} (h : Kept s t) : Kept s (t.endApply f) :=
  .foldl (.complete (.update (.setReason (.foldl (h.foldl (fun _ _ hu => hu.syncAll)) (fun _ _ hu => .ite hu.modPav hu))) rfl))
    (fun _ _ hu => hu.freezeWaiting)

theorem Kept.acceptApply {k : Nat} {early : Bool} {tick : Nat} {g : Staged} (h : Kept s t) : Kept s (t.acceptApply k early tick g) := by
  unfold State.acceptApply
  exact .modRegs (.setReason (.update (h.foldl (fun _ _ hu => hu.modCore)) rfl))

theorem Kept.startPvApply {k : Nat} (h : Kept s t) : Kept s (startPvApply k t) := by
  unfold Machine.startPvApply
  refine h.start fun _ _ hu => ?_
  dsimp only
  split
  · exact .ite hu.wakeTables.complete hu.wakeTables.tableError.setReason.complete
  · split
    · exact hu.wakeTables.tableError.setReason.complete
    · split
      · exact .complete (.setReason (.tableError (hu.wakeTables.update rfl)))
      · exact hu.wakeTables.acceptApply

theorem execPvApply_answers {fn slot : Nat} {answers : List SpanAnswer} :
    Answers (isFn fn && isSlot slot) s (execPvApply fn slot answers s) :=
  .trans (Kept.refl.update rfl) (.post fun _ _ hu => hu.startPvApply)

theorem Kept.fillMove {p h' i scr : Nat} {kept : List Nat} {fuel : Nat} (h : Kept s t) : Kept s (t.fillMove p h' i scr kept fuel) := by
  induction fuel generalizing t with
  | zero => exact h
  | succ fuel ih =>
    unfold State.fillMove
    dsimp only
    split
    · split
      · exact h
      · split
        · exact h.killOwner
        · exact h.writeLs.count.update rfl
    · split
      · exact ih h.evictSlice
      · exact h

theorem Kept.fillMoves {p : Nat} (h : Kept s t) : Kept s (t.fillMoves p) :=
  h.foldl (fun _ _ hu => hu.fillMove)

theorem execApplyPrepareDone_answers : Answers true s (execApplyPrepareDone s) :=
  Steps.answers (.ite (.ok .refl) (.ok (.update (Kept.refl.foldl (fun _ _ hu => hu.fillMoves)) rfl)))

theorem execApplyHold_answers {pav : Nat} : Answers (isPav pav) s (execApplyHold pav s) :=
  .guard (by simp) fun _ => .ite (.ok .refl) (.ok (Kept.refl.modPav.voidStart.update rfl))

theorem Kept.nameTick {t' : Word64} (h : Kept s t) : Kept s (t.nameTick t') :=
  .update (h.foldl (fun _ _ hu => hu.syncAll)) rfl

theorem Kept.nameSpanTick (h : Kept s t) : Kept s t.nameSpanTick := by
  rw [State.nameSpanTick]
  split
  · exact h
  · split
    · exact h.endApply
    · exact .ite h (.ite h.nameTick (.ite h (.update (h.foldl (fun _ _ hu => hu.syncRank0)) rfl)))

theorem execApplyCopyDone_answers : Answers true s (execApplyCopyDone s) :=
  Steps.answers (.ite (.ok .refl) (.ite (.ok (.nameSpanTick (Kept.refl.update rfl)))
    (.ite (.ok Kept.refl.endApply) (.ok (Kept.refl.update rfl)))))

theorem execApplyDrainTimeout_answers {pav : Nat} : Answers (isPav pav) s (execApplyDrainTimeout pav s) :=
  .guard (by simp) fun _ => .ite (.ok .refl) (.ok Kept.refl.endApply)

theorem Kept.zeroRange {p home pieces : Nat} (h : Kept s t) : Kept s (t.zeroRange p home pieces) := by
  unfold State.zeroRange
  refine h.foldl fun _ _ hu => ?_
  split
  · exact hu.zeroCs
  · exact hu

theorem Kept.abortUnseals {which : Unsealing → Bool} (h : Kept s t) : Kept s (t.abortUnseals which) :=
  h.foldl (fun _ _ hu => .complete (hu.zeroRange.update rfl))

theorem Kept.abortPosts {p : Nat} (h : Kept s t) : Kept s (t.abortPosts p) := by
  unfold State.abortPosts
  extract_lets v ks s1
  have h1 : Kept s s1 := .modPav (h.abortUnseals.foldl fun _ _ hu => hu.complete)
  clear_value s1
  exact h1.update rfl

theorem Kept.clearCore {c : Nat} (h : Kept s t) : Kept s (t.clearCore c) :=
  h.modCore.update rfl

theorem Kept.putScratch {c : Nat} {m : Mem} (h : Kept s t) : Kept s (t.putScratch c m) := by
  unfold State.putScratch
  exact h.modBeds id fun hl => Mem.wf_foldl hl _ (fun _ _ hm => Mem.wf_write hm _ _) _

theorem Kept.flipCores (h : Kept s t) : Kept s t.flipCores := by
  unfold State.flipCores
  extract_lets a new moved copies hurt taken gone changed all s1 s1' s2 early s3 s4
  have h1 : Kept s s1 := h.foldl fun _ _ hu => hu.clearCore
  have h1' : Kept s s1' := h1.foldl fun u c hu => by
    split
    · exact hu.background
    · exact hu
  have h2 : Kept s s2 := h1'.foldl fun _ _ hu => hu.modCore
  have h3 : Kept s s3 := h2.foldl fun _ _ hu => hu.zeroLsRange.putScratch
  have h4 : Kept s s4 := h3.foldl fun _ _ hu => .ite hu.killSram hu
  clear_value s4
  exact h4.update rfl

theorem Kept.flipSlices {p : Nat} (h : Kept s t) : Kept s (t.flipSlices p) :=
  h.modPav.foldl (fun _ _ hu => .ite hu hu.modSlice)

theorem Kept.loseStreams {p n : Nat} (h : Kept s t) : Kept s (t.loseStreams p n) :=
  h.modPav.update rfl

theorem Kept.trimEngines {set : Tab Pav} {p : Nat} (h : Kept s t) : Kept s (t.trimEngines set p) := by
  unfold State.trimEngines
  exact h.modPav

theorem Kept.gainEngines {set : Tab Pav} {p : Nat} (h : Kept s t) : Kept s (t.gainEngines set p) := by
  unfold State.gainEngines
  exact h.modPav.modPav

theorem Kept.grantEngines {set : Tab Pav} (h : Kept s t) : Kept s (t.grantEngines set) :=
  .foldl (h.foldl (fun _ _ hu => hu.trimEngines)) (fun _ _ hu => hu.gainEngines)

theorem Kept.disablePav {p : Nat} {epoch : Word32} (h : Kept s t) : Kept s (t.disablePav p epoch) :=
  .setPav (.update (.ite (.foldl (.abortPosts (.endRuns (h.foldl (fun _ _ hu => .ite hu.change hu.modDir.sendPool))))
    (fun _ _ hu => hu.complete)) (.deliverStep (.foldl (.abortPosts
    (.endRuns (h.foldl (fun _ _ hu => .ite hu.change hu.modDir.sendPool)))) (fun _ _ hu => hu.complete)))) rfl)

theorem Kept.flipPav {p : Nat} {epoch : Word32} (h : Kept s t) : Kept s (t.flipPav p epoch) :=
  .ite h.disablePav (.ite h.setPav.renumber (.foldl (h.modPav.flipSlices.update rfl) (fun _ _ hu => .zeroLsRange (.ite hu hu.modCore))))

theorem Kept.flipPools {set : Tab Pav} (h : Kept s t) : Kept s (t.flipPools set) :=
  h.foldl (fun _ _ hu => .ite (.update (.zeroPages (.modPool (.ite hu.losePool hu))) rfl)
    (.ite (.modPool (.ite hu.losePool hu)) (.ite hu.losePool hu)))

theorem Kept.closeApply (h : Kept s t) : Kept s t.closeApply :=
  .update (.modRegs (.ite h h.complete)) rfl

theorem Kept.flip (h : Kept s t) : Kept s t.flip :=
  .ite (.closeApply (.foldl (.foldl (.rescale (.ite (.complete
    (.update (.foldl (.modRegs (.modBeds (.flipPools (.grantEngines
    (.foldl (.foldl (.flipCores (h.foldl (fun _ _ hu => hu.endReplayOf))) (fun _ _ hu => hu.loseStreams))
    (fun _ _ hu => hu.flipPav)))) id id)) (fun _ _ hu => hu.raise)) rfl))
    (.update (.foldl (.modRegs (.modBeds (.flipPools (.grantEngines
    (.foldl (.foldl (.flipCores (h.foldl (fun _ _ hu => hu.endReplayOf))) (fun _ _ hu => hu.loseStreams))
    (fun _ _ hu => hu.flipPav)))) id id)) (fun _ _ hu => hu.raise)) rfl))) (fun _ _ hu => .ite hu.modPav hu))
    (fun _ _ hu => hu.reviewSpan))) (.foldl (.foldl (.rescale
    (.ite (.complete (.update (.foldl (.modRegs (.modBeds (.flipPools
    (.grantEngines (.foldl (.foldl (.flipCores (h.foldl (fun _ _ hu => hu.endReplayOf))) (fun _ _ hu => hu.loseStreams))
    (fun _ _ hu => hu.flipPav)))) id id)) (fun _ _ hu => hu.raise)) rfl))
    (.update (.foldl (.modRegs (.modBeds (.flipPools (.grantEngines
    (.foldl (.foldl (.flipCores (h.foldl (fun _ _ hu => hu.endReplayOf))) (fun _ _ hu => hu.loseStreams))
    (fun _ _ hu => hu.flipPav)))) id id)) (fun _ _ hu => hu.raise)) rfl))) (fun _ _ hu => .ite hu.modPav hu)) (fun _ _ hu => hu.reviewSpan))

theorem execEpochFlip_answers : Answers true s (execEpochFlip s) :=
  Steps.answers (.ite (.ok .refl) (.ok Kept.refl.flip))

theorem Kept.settleFlip (h : Kept s t) : Kept s t.settleFlip :=
  .ite h.flip h

theorem execApplyPavilionResume_answers {pav : Nat} : Answers (isPav pav) s (execApplyPavilionResume pav s) :=
  .guard (by simp) fun _ => .ite (.ok .refl) (.ok (.ite (.closeApply
    (.update (.freezeWaiting (.modPav (Kept.refl.foldl (fun _ _ hu => hu.putScratch)))) rfl))
    (.update (.freezeWaiting (.modPav (Kept.refl.foldl (fun _ _ hu => hu.putScratch)))) rfl)))

theorem Kept.setHalf {h' : Nat} {x' : Half} (h : Kept s t) : Kept s (t.setHalf h' x') :=
  h.update rfl

theorem Kept.modHalf {h' : Nat} {f : Half → Half} (h : Kept s t) : Kept s (t.modHalf h' f) :=
  h.setHalf

theorem Kept.startSnapshot {k : Nat} (h : Kept s t) : Kept s (startSnapshot k t) := by
  unfold Machine.startSnapshot
  dsimp only
  refine h.start fun _ _ hu => ?_
  split
  · exact hu.complete
  · split
    · exact hu.complete
    · exact hu.update rfl

theorem execSnapshot_answers {fn slot : Nat} : Answers (isFn fn && isSlot slot) s (execSnapshot fn slot s) :=
  Answers.post (fun _ _ hu => hu.startSnapshot)

theorem execSnapshotTick_answers {set : Nat} : Answers (decide (set < 4)) s (execSnapshotTick set s) :=
  .guard (by simp) fun _ => .ite (.ok .refl) (.ok (.complete (Kept.refl.update rfl)))

theorem execSnapFreeWrite_answers {value : Word32} : Answers true s (execSnapFreeWrite value s) :=
  Steps.answers (.ite (.ok .refl) (.ok (Kept.refl.foldl (fun _ _ hu => .ite hu (.update (.ite hu.complete hu) rfl)))))

theorem Kept.startFingerprint {k : Nat} (h : Kept s t) : Kept s (startFingerprint k t) :=
  h.start (fun _ _ hu => hu.complete)

theorem execFingerprint_answers {fn slot : Nat} : Answers (isFn fn && isSlot slot) s (execFingerprint fn slot s) :=
  Answers.post (fun _ _ hu => hu.startFingerprint)

theorem Kept.spanDiverged {p group peer : Nat} (h : Kept s t) : Kept s (t.spanDiverged p group peer) :=
  h.raisePf0

theorem execFingerprintTick_answers {units : List Nat} : Answers true s (execFingerprintTick units s) := by
  unfold Machine.execFingerprintTick
  refine Steps.answers ?_
  split
  · exact .ok .refl
  · dsimp only
    refine .ok ?_
    refine .foldl ?_ (fun _ _ hu => hu.syncRank0)
    split
    · exact .ite (Kept.refl.update rfl) (.raisePf0 (Kept.refl.update rfl))
    · exact Kept.refl.update rfl

theorem Kept.compareRollup {p rank : Nat} {flipTick rollup : Word64} {groups : List Word64} (h : Kept s t) :
    Kept s (t.compareRollup p rank flipTick rollup groups) :=
  .ite h h.spanDiverged.syncSend

theorem execSpanRollupCompare_answers {pav rank : Nat} {flipTick rollup : Word64} {groups : List Word64} :
    Answers (isPav pav) s (execSpanRollupCompare pav rank flipTick rollup groups s) :=
  .guard (by simp) fun _ => .ok Kept.refl.compareRollup

end Sys2Proof.Machine
end

section
/-! SUPPORT. What no command may change, through the gatehouse, spans and firmware slots. -/

namespace Sys2Proof.Machine

variable {s t : State}

theorem Kept.modGate {f : Gate → Gate} (h : Kept s t) : Kept s (t.modGate f) :=
  h.update rfl

theorem Kept.modSpdm {via : Nat} {f : SpdmLink → SpdmLink} (h : Kept s t) : Kept s (t.modSpdm via f) :=
  h.modGate

theorem Kept.reply {via : Nat} {a : SpdmAnswer} (h : Kept s t) : Kept s (t.reply via a) :=
  h.modSpdm

theorem Kept.modSpdmSession {via id : Nat} {f : SpdmSession → SpdmSession} (h : Kept s t) : Kept s (t.modSpdmSession via id f) :=
  h.modGate

theorem Kept.inSession {via session : Nat} (h : Kept s t) : ∀ u ∈ t.inSession via session, Kept s u := by
  unfold State.inSession
  split
  · exact Kept.ofSome h
  · split
    · split
      · exact Kept.ofSome h.modSpdmSession
      · exact Kept.ofNone
    · exact Kept.ofNone

theorem Answers.spdm {via session stage : Nat} {f : State → State} (hf : ∀ u, Kept s u → Kept s (f u)) :
    Answers (isVia via) s (spdm via session stage s f) := by
  refine .guard (by simp) fun _ => .ite (.ok .refl) (.ite (.ok (.reply .refl)) ?_)
  split
  · exact .ok (.reply .refl)
  · next u e => exact .ok (hf u (Kept.refl.inSession u e))

theorem execGetVersion_answers {via : Nat} : Answers (isVia via) s (execGetVersion via s) :=
  Answers.spdm (fun _ hu => hu.modSpdm.reply)

theorem execGetCapabilities_answers {via transfer : Nat} : Answers (isVia via) s (execGetCapabilities via transfer s) :=
  Answers.spdm (fun _ hu => hu.modSpdm.reply)

theorem execNegotiateAlgorithms_answers {via : Nat} {algs : SpdmAlgs} : Answers (isVia via) s (execNegotiateAlgorithms via algs s) :=
  Answers.spdm (fun _ hu => .ite hu.modSpdm.reply hu.reply)

theorem execGetDigests_answers {via session : Nat} : Answers (isVia via) s (execGetDigests via session s) :=
  Answers.spdm (fun _ hu => hu.reply)

theorem execGetCertificate_answers {via session slot offset len : Nat} :
    Answers (isVia via) s (execGetCertificate via session slot offset len s) :=
  Answers.spdm (fun _ hu => .ite hu.reply hu.reply)

theorem execChallenge_answers {via session slot : Nat} {nonce : List Byte} : Answers (isVia via) s (execChallenge via session slot nonce s) :=
  Answers.spdm (fun _ hu => .ite hu.reply hu.draw.reply)

theorem execGetMeasurements_answers {via session index : Nat} {signed : Bool} {nonce : List Byte} :
    Answers (isVia via) s (execGetMeasurements via session index signed nonce s) :=
  Answers.spdm (fun _ hu => .ite hu.reply hu.draw.reply)

theorem execKeyExchange_answers {via slot : Nat} {key : List Byte} : Answers (isVia via) s (execKeyExchange via slot key s) :=
  Answers.spdm (fun _ hu => .ite hu.reply (.ite hu.reply hu.draw.modGate.reply))

theorem execFinish_answers {via session : Nat} : Answers (isVia via) s (execFinish via session s) := by
  unfold Machine.execFinish
  refine Answers.spdm fun _ hu => ?_
  split
  · exact .ite hu.reply hu.modSpdmSession.reply
  · exact hu.reply

theorem Answers.inOne {via session : Nat} {f : State → State} (hf : ∀ u, Kept s u → Kept s (f u)) :
    Answers (isVia via) s (inOne via session s f) :=
  .spdm fun u hu => .ite hu.reply (hf u hu)

theorem execHeartbeat_answers {via session : Nat} : Answers (isVia via) s (execHeartbeat via session s) :=
  Answers.inOne (fun _ hu => hu.reply)

theorem execKeyUpdate_answers {via session : Nat} : Answers (isVia via) s (execKeyUpdate via session s) :=
  Answers.inOne (fun _ hu => hu.reply)

theorem execEndSession_answers {via session : Nat} : Answers (isVia via) s (execEndSession via session s) :=
  Answers.inOne (fun _ hu => hu.modGate.reply)

theorem execChunkSend_answers {via : Nat} {chunk : List Byte} {last : Bool} : Answers (isVia via) s (execChunkSend via chunk last s) :=
  Answers.spdm (fun _ hu => .ite hu.reply hu.modSpdm.reply)

theorem execChunkGet_answers {via number : Nat} : Answers (isVia via) s (execChunkGet via number s) :=
  Answers.spdm (fun _ hu => .ite hu.reply hu.modSpdm)

theorem execSpdmUnsupportedRequest_answers {via : Nat} : Answers (isVia via) s (execSpdmUnsupportedRequest via s) :=
  Answers.spdm (fun _ hu => hu.reply)

theorem Answers.vendor {via session : Nat} {m : VendorHead} {f : State → State × Nat} (hf : ∀ u, Kept s u → Kept s (f u).1) :
    Answers (isVia via) s (vendor via session m s f) :=
  .spdm fun u hu => .ite hu.reply (hf u hu).reply

theorem execGetKemCert_answers {via : Nat} {ask : KemAsk} : Answers (isVia via) s (execGetKemCert via ask s) :=
  Answers.spdm (fun _ hu => hu.reply)

theorem execInstallHostKey_answers {via session : Nat} {m : KeyMsg} : Answers (isVia via) s (execInstallHostKey via session m s) := by
  unfold Machine.execInstallHostKey
  refine Answers.vendor fun _ hu => ?_
  dsimp only
  split
  · dsimp only
    exact hu
  · dsimp only
    exact hu.modPav

theorem execRemoveHostKey_answers {via session : Nat} {m : KeyMsg} : Answers (isVia via) s (execRemoveHostKey via session m s) := by
  unfold Machine.execRemoveHostKey
  refine Answers.vendor fun _ hu => ?_
  dsimp only
  split
  · dsimp only
    exact hu
  · dsimp only
    exact hu.modPav

theorem execReleaseModel_answers {via session : Nat} {m : ReleaseMsg} : Answers (isVia via) s (execReleaseModel via session m s) := by
  unfold Machine.execReleaseModel
  refine Answers.vendor fun _ hu => ?_
  dsimp only
  split
  · dsimp only
    exact hu
  · dsimp only
    exact hu.modGate

theorem execRevokeModel_answers {via session : Nat} {m : ReleaseMsg} : Answers (isVia via) s (execRevokeModel via session m s) := by
  unfold Machine.execRevokeModel
  refine Answers.vendor fun _ hu => ?_
  dsimp only
  split
  · dsimp only
    exact hu
  · dsimp only
    exact hu.modGate

theorem execInstallImageKey_answers {via session : Nat} {m : KeyMsg} : Answers (isVia via) s (execInstallImageKey via session m s) := by
  unfold Machine.execInstallImageKey
  refine Answers.vendor fun _ hu => ?_
  dsimp only
  split
  · dsimp only
    exact hu
  · dsimp only
    exact hu.modGate

theorem execRemoveImageKey_answers {via session : Nat} {m : KeyMsg} : Answers (isVia via) s (execRemoveImageKey via session m s) := by
  unfold Machine.execRemoveImageKey
  refine Answers.vendor fun _ hu => ?_
  dsimp only
  split
  · split
    · dsimp only
      exact hu
    · dsimp only
      exact hu.modGate
  · split
    · dsimp only
      exact hu
    · dsimp only
      exact hu.modGate

theorem Kept.endSpdm {via : Nat} (h : Kept s t) : Kept s (t.endSpdm via) :=
  h.modGate

set_option smartUnfolding false in
/-- The recursion's equations are too deep to be derived, so its recursor is unfolded. -/
theorem Kept.decryptPieces {p home len model tags : Nat} {key : BitVec 256} {l : List Nat} (h : Kept s t) :
    Kept s (t.decryptPieces p home len model tags key l).1 := by
  induction l generalizing t with
  | nil => exact h
  | cons i rest ih =>
    delta State.decryptPieces State.decryptPieces._f
    dsimp only [List.brecOn, List.brecOn.go]
    split
    · exact h
    · split
      · exact h
      · split
        · exact h
        · split
          · exact h
          · split
            · exact h
            · exact ih h.writeCs

theorem Kept.sealFailed {p pieces home : Nat} {f : SealFail} (h : Kept s t) : Kept s (t.sealFailed p pieces home f) := by
  rw [State.sealFailed]
  refine .modGate ?_
  split
  · refine .zeroRange ?_
    split
    · exact h.killOwner
    · exact h
  · split
    · exact h.killOwner
    · exact h

theorem Kept.unseal {p home len wrap : Nat} (h : Kept s t) : Kept s (t.unseal p home len wrap).1 := by
  unfold State.unseal
  dsimp only
  split
  · exact h.sealFailed
  · split
    · exact h.decryptPieces.sealFailed
    · exact h.decryptPieces

theorem Kept.addSlice {p : Nat} {sl : Slice} (h : Kept s t) : Kept s (t.addSlice p sl).2 := by
  unfold State.addSlice
  dsimp only
  exact h.draw.modPav

theorem Kept.loadSlice {k p handle : Nat} {fill : Bool} {sl : Slice} (h : Kept s t) : Kept s (t.loadSlice k p handle fill sl) := by
  rw [State.loadSlice]
  split
  · refine .beginFill (.share ?_)
    split
    · exact h.addSlice
    · dsimp only
      exact h.modPav
  · refine .finish (.share ?_)
    split
    · exact h.addSlice
    · dsimp only
      exact h.modPav

theorem Kept.loadModel {k p handle home len o wrap : Nat} (h : Kept s t) : Kept s (t.loadModel k p handle home len o wrap) := by
  rw [State.loadModel]
  split
  · exact h.finish
  · split
    · exact h.finish
    · split
      · exact h.loadSlice
      · split
        · exact h.sealFailed.finish
        · exact h.update rfl

theorem Kept.startModelLoad {k : Nat} (h : Kept s t) : Kept s (startModelLoad k t) :=
  h.start (fun _ _ hu => hu.loadModel)

theorem Kept.memberSlice {p post h' : Nat} {ws : List Nat} (h : Kept s t) : Kept s (t.memberSlice p post h' ws) := by
  rw [State.memberSlice]
  split
  · exact h.loadModel
  · exact .ite h.pinSlice h.unpinSlice
  · exact h.evictNow

theorem execModelLoad_answers {fn slot : Nat} : Answers (isFn fn && isSlot slot) s (execModelLoad fn slot s) :=
  Answers.post (fun _ _ hu => hu.startModelLoad)

theorem Kept.unsealOn {u' : Unsealing} (h : Kept s t) : Kept s (t.unsealOn u') := by
  unfold State.unsealOn
  dsimp only
  split
  · exact h
  · split
    · exact .finish (.sealFailed (h.decryptPieces.update rfl))
    · exact .ite (h.decryptPieces.update rfl) (.loadSlice (h.decryptPieces.update rfl))

theorem Kept.electAlone (h : Kept s t) : Kept s t.electAlone :=
  .ite h.elect h

theorem execTimeTick_answers : Answers true s (execTimeTick s) :=
  Steps.answers (.ite (.ok .refl) (.ok (Kept.refl.tickOn.electAlone.foldl (fun _ _ hu => hu.unsealOn))))

theorem execWindingAbortReceive_answers {spanId winding rank : Nat} : Answers true s (execWindingAbortReceive spanId winding rank s) := by
  unfold Machine.execWindingAbortReceive
  refine Steps.answers ?_
  split
  · exact .ok .refl
  · exact .ite (.ok Kept.refl.faultSpan) (.ok .refl)

theorem execPeerLossDetect_answers {pav rank : Nat} : Answers (isPav pav) s (execPeerLossDetect pav rank s) :=
  .guard (by simp) fun _ => .ite (.ok .refl) (.ok Kept.refl.faultSpan)

theorem Kept.unhold {p : Nat} (h : Kept s t) : Kept s (t.unhold p) :=
  .ite (h.modPav.update rfl) h

theorem Kept.memberRelease {p : Nat} {use : SyncUse} {n tick : Word64} (h : Kept s t) : Kept s (t.memberRelease p use n tick) := by
  unfold State.memberRelease
  dsimp only
  split
  · split
    · exact h.putBarrier
    · exact h
  · exact h.modPav
  · exact h.unhold.modPav

theorem Kept.memberRun {p no : Nat} {table : Word64} {first last repeats : Nat} (h : Kept s t) :
    Kept s (t.memberRun p no table first last repeats) :=
  .ite h.modPav h.acceptRun

theorem Kept.runGoes {p no : Nat} (h : Kept s t) : Kept s (t.runGoes p no) :=
  h.modPav

theorem Kept.runAnswered {p rank no : Nat} {refused : Option Nat} (h : Kept s t) : Kept s (t.runAnswered p rank no refused) := by
  rw [State.runAnswered]
  split
  · exact h
  · split
    · exact .ite h.modPav.syncAll h.modPav
    · split
      · exact h.modPav.syncAll.complete
      · exact h.modPav.syncAll

theorem Kept.memberReady {p rank : Nat} {up : Bool} {winding : Word16} {q : Nat} {entry : SpanAnswer} {delay : Nat} (h : Kept s t) :
    Kept s (t.memberReady p rank up winding q entry delay) :=
  .ite h (.ite (.ite h.modPav.faultSpan h.modPav) (.tryReady (.ite (.syncRank0 (.ite h.modPav h.modPav.sayReady))
    (.ite h.modPav h.modPav.sayReady))))

theorem Kept.memberDelay {p rank ns : Nat} (h : Kept s t) : Kept s (t.memberDelay p rank ns) :=
  h.modPav.tryReady

theorem Kept.memberArrival {p rank : Nat} {use : SyncUse} {count : Nat} {n : Word64} {kernel : Nat} (h : Kept s t) :
    Kept s (t.memberArrival p rank use count n kernel) :=
  .ite h.memberArrives (.ite h h.modPav)

theorem Kept.spanMsg {p : Nat} {m : SyncMsg} {delay : Nat} (h : Kept s t) : Kept s (t.spanMsg p m delay) := by
  unfold State.spanMsg
  extract_lets v current ready
  refine .ite h ?_
  cases m with
  | arrival => exact .ite h.memberArrival h
  | release => exact .ite h.memberRelease h
  | flip => exact .ite h.nameTick h
  | fence => exact h
  | ready => exact h.memberReady
  | probe => exact h.syncRank0
  | delay => exact .ite h.memberDelay h
  | abort => exact .ite h.faultSpan h
  | commitLost => exact h.raisePav
  | rollup => exact h.compareRollup
  | diverged => exact h.spanDiverged
  | run => exact .ite h.memberRun h
  | runAnswer => exact .ite h.runAnswered h
  | runGo => exact .ite h.runGoes h
  | slice => exact .ite h.memberSlice h
  | sliceDone => exact .ite h.memberDone h
  | firmware => exact h.modPav
  | applyReady => exact h.modPav.nameSpanTick
  | applyEnd => exact .ite h.endApply h.modPav
  | renewal => exact h

theorem Kept.syncMsg {m : SyncMsg} {delay : Nat} (h : Kept s t) : Kept s (t.syncMsg m delay) := by
  unfold State.syncMsg
  split
  · exact .ite h.takeRenewal h
  · split
    · exact h.spanMsg
    · exact h

theorem Kept.syncIn {i : SyncItem} (h : Kept s t) : Kept s (t.syncIn i) := by
  unfold State.syncIn
  split
  · exact h.syncForward
  · dsimp only
    split
    · exact h
    · exact .syncMsg (h.update rfl)

theorem execSyncFlitReceive_answers {port : Nat} {m : SyncFlit} : Answers (isPort port) s (execSyncFlitReceive port m s) :=
  .guard (by simp) fun _ => .ite (.ok .refl) (.ok (.ite (Kept.refl.flitIn.foldl (fun _ _ hu => hu.syncIn)) Kept.refl.flitIn))

theorem Kept.beginStage {k : Nat} (h : Kept s t) : Kept s (t.beginStage k) :=
  .ite h.complete (.update (h.modFw (Nat.le_refl _) id) rfl)

theorem Kept.beginActivate {k : Nat} (h : Kept s t) : Kept s (t.beginActivate k) :=
  .ite h.complete (.ite h.complete (h.modFw (Nat.le_refl _) id))

theorem Kept.beginFw {k : Nat} (h : Kept s t) : Kept s (t.beginFw k) :=
  .ite h.beginStage h.beginActivate

theorem Kept.queueFw {k : Nat} (h : Kept s t) : Kept s (t.queueFw k) :=
  .ite (h.modFw (Nat.le_refl _) id) h.beginFw

theorem Kept.fwNext {a : Nat} (h : Kept s t) : Kept s (State.fwNext a t) := by
  induction a generalizing t with
  | zero => exact h
  | succ fuel ih =>
    rw [State.fwNext]
    split
    · exact h
    · exact .ite h (ih (.beginFw (h.modFw (Nat.le_refl _) id)))

theorem Kept.fwDone {k : Nat} (h : Kept s t) : Kept s (t.fwDone k) :=
  .ite (.fwNext (h.modFw (Nat.le_refl _) id)) h

theorem Kept.stageAborted {k : Nat} (h : Kept s t) : Kept s (t.stageAborted k) := by
  unfold State.stageAborted
  exact .ite h.setSlot.fwDone h

theorem Kept.stageError (h : Kept s t) : Kept s t.stageError := by
  rw [State.stageError]
  split
  · exact h
  · exact .fwDone (h.complete.update rfl)

end Sys2Proof.Machine
end

section
/-! SUPPORT. What no command may change, through the host port, FREEZE, SAVE, RESTORE and streams. -/

namespace Sys2Proof.Machine

variable {s t : State}

theorem execEvtTailWrite_answers {fn : Nat} {value : Word32} : Answers (isFn fn) s (execEvtTailWrite fn value s) :=
  .guard (by simp) fun _ => .ite (.ok .refl) (.ite (.ok .refl) (.ok (.ite (.sendVector (Kept.refl.setFn rfl)) (Kept.refl.setFn rfl))))

theorem execEvtOverflowClear_answers {fn : Nat} : Answers (isFn fn) s (execEvtOverflowClear fn s) :=
  .guard (by simp) fun _ => .ite (.ok .refl) (.ok (Kept.refl.setFn rfl))

theorem execMmuFltSelWrite_answers {fn : Nat} {value : Word32} : Answers (isFn fn) s (execMmuFltSelWrite fn value s) :=
  .guard (by simp) fun _ => .ite (.ok .refl) (.ite (.ok .refl) (.ok (Kept.refl.setFn rfl)))

theorem execMmuFltData0Read_answers {fn : Nat} : Answers (isFn fn) s (execMmuFltData0Read fn s) := by
  unfold Machine.execMmuFltData0Read
  refine .guard (by simp) fun _ => ?_
  split
  · exact .ok Kept.refl.answered
  · dsimp only
    split
    · exact .ok Kept.refl.answered
    · exact .ok (.answered (Kept.refl.setFn rfl))

theorem execPvTableBaseWrite_answers {value : Word64} : Answers true s (execPvTableBaseWrite value s) :=
  Steps.answers (.ite (.ok .refl) (.ok Kept.refl.modRegs))

theorem execMmuWinBaseWrite_answers {value : Word64} : Answers true s (execMmuWinBaseWrite value s) :=
  Steps.answers (.ite (.ok .refl) (.ok Kept.refl.modRegs))

theorem execPvPoolBaseWrite_answers {value : Word64} : Answers true s (execPvPoolBaseWrite value s) :=
  Steps.answers (.ite (.ok .refl) (.ok Kept.refl.modRegs))

theorem Kept.tileData? {p core strand : Nat} {x' : Flight} {data : List HostData} (h : Kept s t) :
    Kept s (t.tileData? p core strand x' data) := by
  unfold State.tileData?
  dsimp only
  split
  · exact h
  · split
    · exact h
    · split
      · exact h
      · exact h.haltChannel
      · exact h.modFlight.driveTiles

theorem Kept.runData {p : Nat} {a : Accept} {data : List HostData} (h : Kept s t) : Kept s (t.runData p a data) := by
  rw [State.runData]
  split
  · exact h
  · split
    · split
      · exact h.acceptRun
      · exact h
    · split
      · exact h
      · exact h.haltChannel
      · exact h.acceptRun

theorem execHostChannelError_answers {pav cause : Nat} {dva : Word64} :
    Answers (decide (pav ≤ 512) && cause != 0 && decide (cause ≤ 6)) s (execHostChannelError pav cause dva s) :=
  .guard (by simp) fun _ => .ite (.ok Kept.refl.stageError) (.ite (.ok .refl) (.ok Kept.refl.haltChannel))

theorem execPcieCompletionTimeout_answers {target : HostTarget} : Answers target.wf s (execPcieCompletionTimeout target s) := by
  unfold Machine.execPcieCompletionTimeout
  dsimp only
  split
  · refine .guard (by simp) fun _ => ?_
    split
    · split
      · exact .ok Kept.refl.haltChannel
      · exact .ok .refl
    · exact .ok .refl
  · refine .guard (by simp) fun _ => ?_
    split
    · exact .ok (.fwDone (.update (.complete (.ite Kept.refl.haltChannel .refl)) rfl))
    · split
      · exact .ok Kept.refl.haltChannel
      · exact .ok .refl
    · exact .ok .refl

theorem execMbHchResume_answers {fn : Nat} : Answers (isFn fn) s (execMbHchResume fn s) := by
  unfold Machine.execMbHchResume
  refine .guard (by simp) fun _ => ?_
  split
  · exact .ok .refl
  · dsimp only
    split
    · exact .ok .refl
    · exact .ite (.ok .refl) (.ok (Kept.refl.modPav.foldl (fun _ _ hu => hu.foldl (fun _ _ hu => hu.modFlight.driveTiles))))

theorem Kept.takeSeqs {p : Nat} {k : HostKey} {n : Nat} (h : Kept s t) : Kept s (t.takeSeqs p k n) :=
  h.modPav

theorem Kept.copyOut {k p iova addr len : Nat} (h : Kept s t) : Kept s (t.copyOut k p iova addr len) := by
  rw [State.copyOut]
  split
  · exact h.killOwner.complete
  · refine .ite h.complete (.ite (.complete (.count (h.host fun hm => Mem.wf_writeN hm _ _))) ?_)
    split
    · exact h.haltChannel.complete
    · exact .complete (.count (.takeSeqs (h.host fun hm => Mem.wf_foldl hm _ (fun _ _ hm => Mem.wf_writeN hm _ _) _)))

theorem Kept.copiedIn {t' : Transfer} {bs : List Byte} (h : Kept s t) : Kept s (t.copiedIn t' bs) := by
  unfold State.copiedIn
  exact h.writeCs.count.recordInput.complete.update rfl

theorem Kept.copyData {t' : Transfer} {data : List HostData} (h : Kept s t) : Kept s (t.copyData t' data) := by
  unfold State.copyData
  dsimp only
  split
  · split
    · exact h.copiedIn
    · exact h
  · split
    · exact h
    · split
      · exact h.haltChannel
      · exact h.copiedIn

theorem Kept.startMemCopy {k : Nat} (h : Kept s t) : Kept s (startMemCopy k t) :=
  h.start (fun _ _ hu => .ite hu.complete (.ite hu.complete (.ite hu.copyOut (.ite hu.complete (hu.update rfl)))))

theorem execMemCopy_answers {fn slot : Nat} : Answers (isFn fn && isSlot slot) s (execMemCopy fn slot s) :=
  Answers.post (fun _ _ hu => hu.startMemCopy)

theorem Kept.wakeBar {o n : Nat} (h : Kept s t) : Kept s (t.wakeBar o n) :=
  .ite h.wakePkg h

theorem execBar2Read_answers {offset len : Nat} : Answers true s (execBar2Read offset len s) := by
  unfold Machine.execBar2Read
  refine Steps.answers ?_
  split
  · exact .ok (Kept.refl.update rfl)
  · dsimp only
    split
    · exact .ok (Kept.refl.wakeBar.bedUncorrectable.update rfl)
    · exact .ok (Kept.refl.wakeBar.update rfl)

theorem Kept.barPut {o : Nat} {b : Byte} (h : Kept s t) : Kept s (t.barPut o b) := by
  unfold State.barPut
  split
  · exact h.modBeds (fun hm => Mem.wf_write hm _ _) id
  · exact h

theorem Kept.recordBar {o : Nat} {bs : List Byte} (h : Kept s t) : Kept s (t.recordBar o bs) := by
  rw [State.recordBar]
  split
  · exact .ite h h.recordInput
  · exact h

theorem execBar2Write_answers {offset : Nat} {bytes : List Byte} : Answers true s (execBar2Write offset bytes s) := by
  unfold Machine.execBar2Write
  refine Steps.answers ?_
  split
  · exact .ok .refl
  · dsimp only
    split
    · exact .ok Kept.refl.wakeBar.bedUncorrectable
    · exact .ok (.recordBar (.modBeds (Kept.refl.wakeBar.foldl (fun _ _ hu => hu.barPut)) id id))

theorem Kept.startFreeze {k : Nat} (h : Kept s t) : Kept s (startFreeze k t) :=
  h.start (fun _ _ hu => .ite hu.complete (.ite hu.modPav.freezeNow hu.modPav))

theorem execFreeze_answers {fn slot : Nat} : Answers (isFn fn && isSlot slot) s (execFreeze fn slot s) :=
  Answers.post (fun _ _ hu => hu.startFreeze)

theorem execFreezeTakeHold_answers {pav : Nat} : Answers (isPav pav) s (execFreezeTakeHold pav s) :=
  .guard (by simp) fun _ => .ite (.ok .refl) (.ok Kept.refl.freezeWaiting)

theorem execFreezeTimeout_answers {pav : Nat} : Answers (isPav pav) s (execFreezeTimeout pav s) :=
  .guard (by simp) fun _ => .ok (.modPav (Kept.refl.foldl (fun _ _ hu => hu.complete)))

theorem Kept.thawReplay {p : Nat} (h : Kept s t) : Kept s (t.thawReplay p) :=
  .ite h (.modRec (.ite h.writeDva h))

theorem Kept.startThaw {k : Nat} (h : Kept s t) : Kept s (startThaw k t) :=
  h.start (fun _ _ hu => .complete (.thawReplay (.readRestored (.ite hu.modPav.layerFills hu.modPav))))

theorem execThaw_answers {fn slot : Nat} : Answers (isFn fn && isSlot slot) s (execThaw fn slot s) :=
  Answers.post (fun _ _ hu => hu.startThaw)

theorem Kept.saveKilled {p : Nat} (h : Kept s t) : ∀ u ∈ t.saveKilled p, Kept s u := by
  rw [State.saveKilled]
  split
  · exact Kept.ofSome h.killOwner
  · split
    · exact Kept.ofSome h.killSram
    · split
      · exact Kept.ofSome h.killSram
      · intro u e
        obtain ⟨n, -, rfl⟩ := Option.map_eq_some_iff.1 e
        exact h.killOwner

theorem Kept.saveNow {p k iova limit : Nat} {opt : Bool} {id : Nat} (h : Kept s t) : Kept s (t.saveNow p k iova limit opt id) := by
  rw [State.saveNow]
  split
  · exact h.modPav.complete
  · refine .ite h.modPav.complete ?_
    split
    · next u e =>
      obtain ⟨x, -, e⟩ := List.exists_of_findSome?_eq_some e
      split at e
      · cases e
      · obtain ⟨g, -, e⟩ := Option.bind_eq_some_iff.1 e
        exact h.deniedPages u e
    · split
      · next u e => exact (h.modPav.saveKilled u e).complete
      · exact .complete (.modGate (h.modPav.host fun hm => Mem.wf_foldl hm _ (fun _ _ hm => Mem.wf_writeN hm _ _) _))

theorem Kept.startSave {k : Nat} (h : Kept s t) : Kept s (startSave k t) :=
  h.start (fun _ _ hu => .ite hu.complete (.ite hu.complete (.ite hu.complete (.ite hu.modPav.saveNow hu.modPav))))

theorem execSave_answers {fn slot : Nat} : Answers (isFn fn && isSlot slot) s (execSave fn slot s) :=
  Answers.post (fun _ _ hu => hu.startSave)

theorem Kept.saveWaiting {p : Nat} (h : Kept s t) : Kept s (t.saveWaiting p) :=
  .ite h (h.foldl (fun _ _ hu => hu.saveNow))

theorem execHostDeliveryComplete_answers {pav : Nat} : Answers (isPav pav) s (execHostDeliveryComplete pav s) :=
  .guard (by simp) fun _ => .ok Kept.refl.deliverNext.saveWaiting

theorem Kept.putCores {p : Nat} {scratch slots : List Byte} (h : Kept s t) : Kept s (t.putCores p scratch slots) :=
  h.foldl (fun _ _ hu => hu.writeLs.modCore)

theorem Kept.restoreFails {p k status : Nat} (h : Kept s t) : Kept s (t.restoreFails p k status) :=
  .complete (.modPav (h.foldl (fun _ _ hu => hu.zeroLsRange.modCore)))

theorem Kept.putFrames {p : Nat} {cs : List Chunk} (h : Kept s t) : Kept s (t.putFrames p cs) :=
  .update (h.foldl (fun _ _ hu => hu.writeCs)) rfl

theorem Kept.putSlices {p : Nat} {l : List (Nat × Slice)} (h : Kept s t) : Kept s (t.putSlices p l).1 := by
  induction l generalizing t with
  | nil => exact h
  | cons x rest ih =>
    rw [State.putSlices]
    dsimp only
    split
    · exact ih h.modPav
    · split
      · exact h.unseal.zeroRange.sealFailed
      · exact ih h.unseal.modPav

theorem Kept.putPiece {p h' i : Nat} (h : Kept s t) : Kept s (t.putPiece p h' i) :=
  h.reserve.writePiece.modSlice

theorem Kept.restoreNow {p k id : Nat} {bs : List Byte} (h : Kept s t) : Kept s (t.restoreNow p k id bs) := by
  rw [State.restoreNow]
  split
  · exact h.modPav.complete
  · exact .ite h.modPav.complete (.ite h.modPav.complete (.ite h.putFrames.putCores.restoreFails
      (.ite h.putFrames.putCores.putSlices.restoreFails (.complete
      (.foldl (.modPav (h.putFrames.putCores.putSlices.foldl (fun _ _ hu => hu.putPiece))) (fun _ _ hu => hu.restoreSession))))))

theorem Kept.startRestore {k : Nat} (h : Kept s t) : Kept s (startRestore k t) :=
  h.start (fun _ _ hu => .ite hu.complete (.ite hu.complete (.ite hu.complete (hu.modPav.update rfl))))

theorem execRestore_answers {fn slot : Nat} : Answers (isFn fn && isSlot slot) s (execRestore fn slot s) :=
  Answers.post (fun _ _ hu => hu.startRestore)

theorem Kept.restoreData {t' : Transfer} {data : List HostData} (h : Kept s t) : Kept s (t.restoreData t' data) := by
  unfold State.restoreData
  split
  · exact h
  · exact .restoreNow (h.update rfl)

theorem Kept.modStream {p i : Nat} {f : Stream → Stream} (h : Kept s t) : Kept s (t.modStream p i f) :=
  h.setStream

theorem Kept.enableStream {p i : Nat} (h : Kept s t) : Kept s (t.enableStream p i) :=
  h.modStream

theorem Kept.disableStream {p i : Nat} (h : Kept s t) : Kept s (t.disableStream p i) :=
  h.modStream

theorem Kept.resetStreams {p : Nat} (h : Kept s t) : Kept s (t.resetStreams p) :=
  h.foldl (fun _ _ hu => hu.modStream)

theorem execStreamEnable_answers {pav stream : Nat} : Answers (isPav pav && isStream stream) s (execStreamEnable pav stream s) :=
  .guard (by simp) fun _ => .ite (.ok .refl) (.ite (.ok .refl) (.ok Kept.refl.enableStream))

theorem execStreamDisable_answers {pav stream : Nat} : Answers (isPav pav && isStream stream) s (execStreamDisable pav stream s) :=
  .guard (by simp) fun _ => .ite (.ok .refl) (.ite (.ok .refl) (.ok Kept.refl.disableStream))

theorem Kept.mapSlot {p i dva n : Nat} {host wr : Bool} (h : Kept s t) : Kept s (t.mapSlot p i dva n host wr).2 := by
  unfold State.mapSlot
  dsimp only
  split
  · exact h.walkPages.killOwner
  · split
    · exact h.walkPages
    · exact h.walkPages.modStream.recordFault
  · split
    · exact h.walkPages
    · exact h.walkPages.touchAll

theorem Kept.missFrame {p i kind n : Nat} (h : Kept s t) : Kept s (t.missFrame p i kind n) :=
  .ite h.setStream h.setStream.raisePav

theorem Kept.movedFrame {p n : Nat} (h : Kept s t) : Kept s (t.movedFrame p n) :=
  .ite h.count.unrepeatable h.count

theorem Kept.takeFrame {p i n : Nat} {payload : Option (List Byte)} {kind : Nat} (h : Kept s t) : Kept s (t.takeFrame p i n payload kind) :=
  .ite h.modStream h.modStream.missFrame

theorem execStreamInFrame_answers {pav stream : Nat} {data : HostBytes} :
    Answers (isPav pav && isStream stream) s (execStreamInFrame pav stream data s) := by
  unfold Machine.execStreamInFrame
  refine .guard (by simp) fun _ => ?_
  dsimp only
  split
  · exact .ok .refl
  · split
    · exact .ok Kept.refl.takeFrame
    · split
      · exact .ok Kept.refl.takeFrame
      · split
        · exact .ok Kept.refl.mapSlot.takeFrame
        · exact .ok Kept.refl.mapSlot.takeFrame
        · split
          · exact .ok .refl
          · exact .ok Kept.refl.mapSlot.takeFrame
          · exact .ite (.ok Kept.refl.mapSlot.takeFrame) (.ok Kept.refl.mapSlot.takeFrame)

theorem Kept.slotTraffic {p i : Nat} {wr : Bool} {parts : List SlotPart} (h : Kept s t) : Kept s (t.slotTraffic p i wr parts) :=
  h.foldl (fun _ _ hu => hu.setTraffic)

theorem Kept.writeParts {p : Nat} {parts : List SlotPart} {dva : Nat} {bs : List Byte} (h : Kept s t) : Kept s (t.writeParts p parts dva bs) :=
  h.foldl (fun _ _ hu => .ite hu.writeCs hu)

theorem Kept.replayFrame {p i dva most : Nat} (h : Kept s t) : Kept s (t.replayFrame p i dva most).2 := by
  unfold State.replayFrame
  dsimp only
  split
  · exact h
  · split
    · rename_i u e
      have hu : Kept s u := h.deniedRing _ e
      exact hu
    · split
      · exact h.takeOrdinal.diverge
      · split
        · exact h.takeOrdinal.diverge
        · exact h.takeOrdinal.modRec.checkEnd

theorem execStreamInDeviceWrite_answers {pav stream : Nat} :
    Answers (isPav pav && isStream stream) s (execStreamInDeviceWrite pav stream s) := by
  unfold Machine.execStreamInDeviceWrite
  refine .guard (by simp) fun _ => ?_
  dsimp only
  split
  · exact .ok .refl
  · split
    · exact .ok .refl
    · split
      · exact .ok Kept.refl.mapSlot
      · exact .ok Kept.refl.mapSlot.modStream
      · split
        · split
          · rename_i u e1
            have hu : Kept s u := .snd e1 Kept.refl.mapSlot.slotTraffic.replayFrame
            exact .ok hu.modStream
          · rename_i x3 u4 e5
            have hu : Kept s u4 := .snd e5 Kept.refl.mapSlot.slotTraffic.replayFrame
            exact .ok hu.writeParts.writeParts.modStream
        · exact .ok Kept.refl.mapSlot.slotTraffic.writeParts.writeParts.movedFrame.recordInput.modStream

theorem Kept.looked {p i n : Nat} (h : Kept s t) : Kept s (t.looked p i n) :=
  h.modStream

theorem execStreamOutPoll_answers {pav stream frame : Nat} :
    Answers (isPav pav && isStream stream) s (execStreamOutPoll pav stream frame s) := by
  unfold Machine.execStreamOutPoll
  refine .guard (by simp) fun _ => ?_
  dsimp only
  split
  · exact .ok .refl
  · split
    · exact .ok Kept.refl.mapSlot
    · exact .ok Kept.refl.mapSlot.looked
    · split
      · exact .ok Kept.refl.mapSlot.slotTraffic.looked.killOwner
      · exact .ite (.ok Kept.refl.mapSlot.slotTraffic.looked) (.ok Kept.refl.mapSlot.slotTraffic.looked.modStream)

theorem Kept.hostParts {p : Nat} {parts : List SlotPart} {dva : Nat} {bs : List Byte} (h : Kept s t) : Kept s (t.hostParts p parts dva bs) := by
  unfold State.hostParts
  refine .foldl h fun u _ hu => ?_
  dsimp only
  split
  · exact hu
  · refine .ite (hu.host fun hm => Mem.wf_writeN hm _ _) ?_
    split
    · exact hu
    · exact hu.nextKeySeq.host fun hm => Mem.wf_writeN hm _ _

theorem execStreamOutFrame_answers {pav stream : Nat} : Answers (isPav pav && isStream stream) s (execStreamOutFrame pav stream s) := by
  unfold Machine.execStreamOutFrame
  refine .guard (by simp) fun _ => ?_
  dsimp only
  split
  · exact .ok .refl
  · split
    · exact .ok (.noteWrite (.modStream (.ite .refl Kept.refl.draw.missFrame)))
    · split
      · exact .ok (.modStream (.ite (.missFrame (.mapSlot (.ite .refl Kept.refl.draw.missFrame)))
          (.mapSlot (.ite .refl Kept.refl.draw.missFrame))))
      · exact .ok (.modStream (.ite (.missFrame (.mapSlot (.ite .refl Kept.refl.draw.missFrame)))
          (.mapSlot (.ite .refl Kept.refl.draw.missFrame))))
      · split
        · exact .ok (.modStream (.haltChannel (.ite (.missFrame (.mapSlot (.ite .refl Kept.refl.draw.missFrame)))
            (.mapSlot (.ite .refl Kept.refl.draw.missFrame)))))
        · exact .ok (.noteWrite (.movedFrame (.modStream (.hostParts (.mapSlot (.ite .refl Kept.refl.draw.missFrame))))))

end Sys2Proof.Machine
end

section
/-! SUPPORT. What no command may change, through resets and spares. -/

namespace Sys2Proof.Machine

variable {s t : State}

theorem Kept.abortSpan {p : Nat} (h : Kept s t) : Kept s (t.abortSpan p) :=
  .ite h (.ite h.sayDown h.syncAll.modPav.raisePav)

theorem Kept.abortSpans {which : Nat → Bool} (h : Kept s t) : Kept s (t.abortSpans which) :=
  h.foldl (fun _ _ hu => hu.abortSpan)

/-- Functions change, and their slots keep their reset counts. -/
theorem Kept.mapFns {f : Nat → Fn → Fn} (h : Kept s t) (hf : ∀ g x, (f g x).slots = x.slots) :
    Kept s { t with fns := Tab.mapVals f t.fns } := by
  refine h.trans ⟨rfl, rfl, Nat.le_refl _, id, postsWf_of_gens ?_ fun _ => id⟩
  funext g
  rcases fn_mapVals f t g with e | e
  · simp only [State.gens, e]
  · simp only [State.gens, e, hf]

theorem Kept.resetNow {p : Nat} {r : Resetting} (h : Kept s t) : Kept s (t.resetNow p r) := by
  unfold State.resetNow
  extract_lets v counts s1 s2 s3 s4
  have h1 : Kept s s1 := .ite h.endApply h
  have h2 : Kept s s2 := h1.endReplayOf.abortSpan.restoreProtected.endRuns.abortPosts
  have h3 : Kept s s3 := h2.resetStreams.dropSpanTraffic.renumber.modPav
  have h4 : Kept s s4 := h3.mapFns fun _ _ => by split <;> rfl
  exact h4.foldl fun _ _ hu => hu.clearCore.modCore

theorem execResetTick_answers {pav : Nat} : Answers (isPav pav) s (execResetTick pav s) := by
  unfold Machine.execResetTick
  refine .guard (by simp) fun _ => ?_
  split
  · exact .ok .refl
  · exact .ite (.ok .refl) (.ok Kept.refl.resetNow)

theorem Kept.reportKill {p : Nat} {r : Resetting} (h : Kept s t) : Kept s (t.reportKill p r) := by
  rw [State.reportKill]
  split
  · exact h
  · exact .ite h.raise h.raise.raisePf0

theorem execPavResetReady_answers {pav : Nat} : Answers (isPav pav) s (execPavResetReady pav s) := by
  unfold Machine.execPavResetReady
  refine .guard (by simp) fun _ => ?_
  dsimp only
  split
  · exact .ok .refl
  · exact .ite (.ok .refl) (.ok (.reviewSpan (.foldl (Kept.refl.modPav.reportKill.foldl (fun _ _ hu => hu.complete))
      (fun _ _ hu => hu.beginFill))))

theorem Kept.startPavReset {k : Nat} (h : Kept s t) : Kept s (startPavReset k t) :=
  h.start (fun _ _ hu => hu.startReset)

theorem execPavReset_answers {fn slot : Nat} : Answers (isFn fn && isSlot slot) s (execPavReset fn slot s) :=
  Answers.post (fun _ _ hu => hu.startPavReset)

theorem mem_foldl_put {α β : Type} {f : β → Nat} {g : β → α} {l : List β} {m : Tab α} {x : Nat × α}
    (h : x ∈ l.foldl (fun m y => Tab.put (f y) (g y) m) m) : (∃ y ∈ l, x.1 = f y) ∨ x ∈ m := by
  induction l generalizing m with
  | nil => exact .inr h
  | cons y l ih =>
    rcases ih h with ⟨z, hz, e⟩ | h
    · exact .inl ⟨z, List.mem_cons_of_mem _ hz, e⟩
    · rcases Tab.mem_put h with rfl | h
      · exact .inl ⟨y, List.mem_cons_self, rfl⟩
      · exact .inr h

/-- A function-level reset raises the count of each slot of its function. -/
theorem nthD_gens_flr {x : Fn} {i : Nat} (hi : i < x.slots.length) :
    nthD (x.flr.slots.map MbSlot.gen) i 0 = nthD (x.slots.map MbSlot.gen) i 0 + 1 := by
  simp [nthD, Fn.flr, hi]

/-- Commands that slots of a function hold join those that function resets have met. -/
def State.orphaned (s : State) (fn : Nat) (l : List (MbSlot × Nat)) : State :=
  { s with orphans := l.foldl (fun m x => Tab.put (postOf fn x.2 x.1.gen) x.1 m) s.orphans }

/-- A function-level reset: the commands that its slots hold are orphans from then on, of counts before the slots' new ones (R401). -/
theorem Kept.flrSlots {fn : Nat} {l : List (MbSlot × Nat)} (h : Kept s t) (hf : fn < 512) (hl : l ⊆ (t.fn fn).slots.zipIdx) :
    Kept s ((t.orphaned fn l).setFn fn (t.fn fn).flr) := by
  refine h.trans ⟨rfl, rfl, Nat.le_refl _, id, fun hw => ?_⟩
  rw [postsWf_iff] at hw ⊢
  obtain ⟨hlen, horph⟩ := hw
  generalize hu : (t.orphaned fn l).setFn fn (t.fn fn).flr = u
  have hslots : (t.fn fn).slots.length = 4 := by simpa [State.gens] using hlen fn
  have heq : u.gens fn = (t.fn fn).flr.slots.map MbSlot.gen := by simp [← hu, State.gens]
  have hne : ∀ g, g ≠ fn → u.gens g = t.gens g := fun g hg => by
    rw [← hu, State.gens, State.fn_setFn_ne _ _ _ _ hg]; rfl
  have hup : ∀ i, i < 4 → nthD (u.gens fn) i 0 = nthD (t.gens fn) i 0 + 1 := fun i hi => by
    rw [heq, nthD_gens_flr (hslots ▸ hi)]; rfl
  refine ⟨fun g => ?_, fun x hx => ?_⟩
  · by_cases hg : g = fn
    · subst hg
      rw [heq, List.length_map, Fn.flr, List.length_map, hslots]
    · rw [hne g hg, hlen g]
  · have hx : x ∈ (t.orphaned fn l).orphans := by rw [← hu] at hx; exact hx
    rcases mem_foldl_put hx with ⟨y, hy, e⟩ | hx
    · have hy : (t.fn fn).slots[y.2]? = some y.1 := List.mem_zipIdx_iff_getElem?.1 (hl hy)
      have hi : y.2 < 4 := hslots ▸ (List.getElem?_eq_some_iff.1 hy).1
      have hgen : nthD (t.gens fn) y.2 0 = y.1.gen := by simp [State.gens, nthD, hy]
      rw [e, gen_postOf hf hi, postFn_postOf hf hi, slot_postOf hi, hup _ hi, hgen]
      exact Nat.lt_succ_self _
    · have hlt := horph x hx
      by_cases hg : postFn x.1 = fn
      · rw [hg] at hlt ⊢
        rw [hup _ (Nat.mod_lt _ (by decide))]
        exact hlt.trans (Nat.lt_succ_self _)
      · rwa [hne _ hg]

theorem Kept.flr {fn : Nat} (h : Kept s t) (hf : fn < 512) : Kept s (t.flr fn) := by
  unfold State.flr
  extract_lets alive s0 s1
  have h1 : Kept s s1 := (h.flrSlots hf (List.filter_subset_self _)).endSpdm
  split
  · exact h1
  · exact h1.modPav.startReset

theorem execVfFlr_answers {fn : Nat} : Answers (fn != 0 && isFn fn) s (execVfFlr fn s) := by
  unfold execVfFlr
  refine .guard (by simp) fun hw => .ite (.ok .refl) (.ok (Kept.refl.flr ?_))
  simp at hw
  exact hw.2

theorem execPf0Flr_answers : Answers true s (execPf0Flr s) :=
  Steps.answers (.ok (Kept.refl.flr (by decide)))

theorem execVfEnableClear_answers : Answers true s (execVfEnableClear s) :=
  Steps.answers (.ok (.modRegs (Kept.refl.foldl (fun _ _ hu => hu.startReset.modPav.haltChannel))))

theorem execVfEnableSet_answers {count : Nat} : Answers (decide (count ≤ 511)) s (execVfEnableSet count s) :=
  .guard (by simp) fun _ => .ite (.ok .refl) (.ok Kept.refl.modRegs)

theorem Kept.abortApply (h : Kept s t) : Kept s t.abortApply :=
  .ite h.settleFlip.endApply h.settleFlip

theorem Kept.startHalf {h' starter : Nat} {posts : List Nat} (h : Kept s t) : Kept s (t.startHalf h' starter posts) :=
  .ite h (.foldl (.foldl (h.abortApply.abortSpans.raisePf0.modHalf.losePoolsOf.foldl (fun _ _ hu => hu.startReset))
    (fun _ _ hu => .ite hu.clearCore.modCore hu.clearCore)) (fun _ _ hu => hu.leaveUp))

theorem execDieHalfResetStart_answers {half : Nat} : Answers (isHalf half) s (execDieHalfResetStart half s) :=
  .guard (by simp) fun _ => .ok Kept.refl.startHalf

theorem execDieHalfReady_answers {half : Nat} : Answers (isHalf half) s (execDieHalfReady half s) := by
  unfold Machine.execDieHalfReady
  refine .guard (by simp) fun _ => ?_
  dsimp only
  split
  · exact .ok .refl
  · exact .ok (.foldl (Kept.refl.modHalf.foldl (fun _ _ hu => hu.complete)) (fun _ _ hu => .ite hu.setPort hu))

/-- A reset of the machine: the commands that function resets had met go, and each function has its slots again. -/
theorem Kept.machineReset {u : State} {f : Nat → Fn → Fn} (h : Kept s t) (hfuse : u.fuse = t.fuse) (hpending : u.pending = t.pending)
    (hfloor : u.fw.svnFloor = t.fw.svnFloor) (hmem : t.memWf = true → u.memWf = true) (hfns : u.fns = Tab.mapVals f t.fns)
    (hf : ∀ g x, (f g x).slots.length = x.slots.length) (horphans : u.orphans = []) : Kept s u := by
  refine h.trans ⟨hfuse, hpending, Nat.le_of_eq (congrArg _ hfloor.symm), hmem, fun ht => ⟨fun g => ?_, fun x hx => ?_⟩⟩
  · have hu : u.fn g = ({ t with fns := Tab.mapVals f t.fns } : State).fn g := by rw [State.fn, hfns]; rfl
    rcases fn_mapVals f t g with e | e
    · rw [hu, e]; exact ht.1 g
    · rw [hu, e, hf]; exact ht.1 g
  · rw [horphans] at hx; cases hx

theorem Kept.warmReset {cause : Nat} (h : Kept s t) : Kept s (t.warmReset cause) := by
  unfold State.warmReset
  extract_lets u s1 s2 s3
  have h2 : Kept s s2 := h.settleFlip.abortSpans.losePoolsOf.abortUnseals
  have h3 : Kept s s3 := .ite h2.setReason h2
  clear_value s3
  refine h3.machineReset (f := fun _ x => x.afterWarm) rfl rfl rfl (fun hw => ?_) rfl (fun _ _ => List.length_map _) rfl
  rw [memWf_iff] at hw ⊢
  obtain ⟨hmem, -, hhost, hrcv⟩ := hw
  exact ⟨hmem, rfl, hhost, hrcv⟩

theorem Kept.loseCommits (h : Kept s t) : Kept s t.loseCommits :=
  h.foldl (fun _ _ hu => .ite hu (hu.foldl (fun _ _ hu => hu.syncAll)))

/-- The function after a cold reset: its slots, each reset once more. -/
def Fn.afterCold (x : Fn) : Fn := { slots := x.slots.map fun m => { gen := m.gen + 1 } }

theorem Kept.coldReset {cause : Nat} {fatal : Bool} (h : Kept s t) : Kept s (t.coldReset cause fatal) := by
  unfold State.coldReset
  extract_lets u s1
  have hu : Kept s u := h.settleFlip
  clear_value u
  refine hu.machineReset (f := fun _ => Fn.afterCold) rfl rfl rfl (fun hw => ?_) rfl (fun _ _ => List.length_map _) rfl
  rw [memWf_iff] at hw ⊢
  obtain ⟨-, -, hhost, -⟩ := hw
  exact ⟨rfl, rfl, hhost, rfl⟩

theorem execWarmReset_answers {cause : Nat} : Answers true s (execWarmReset cause s) :=
  Steps.answers (.ok (.ite Kept.refl.warmReset .refl))

theorem execColdReset_answers {cause : Nat} : Answers true s (execColdReset cause s) :=
  Steps.answers (.ok (.ite Kept.refl.coldReset .refl))

theorem Kept.startPkgReset {k : Nat} (h : Kept s t) : Kept s (startPkgReset k t) :=
  h.start (fun _ _ hu => hu.warmReset)

theorem execPkgReset_answers {fn slot : Nat} : Answers (isFn fn && isSlot slot) s (execPkgReset fn slot s) :=
  Answers.post (fun _ _ hu => hu.startPkgReset)

theorem execPkgFatalClear_answers : Answers true s (execPkgFatalClear s) :=
  Steps.answers (.ite (.ok .refl) (.ok (Kept.refl.update rfl)))

theorem Kept.takeIndex {old new : Nat} (h : Kept s t) : Kept s (t.takeIndex old new) := by
  rw [State.takeIndex]
  split
  · exact h.bringIn.modCore.modCore
  · exact h.bringIn.modCore.modCore.update rfl

theorem Kept.gateOff {c : Nat} (h : Kept s t) : Kept s (t.gateOff c) :=
  h.clearCore.zeroLs.modCore

theorem Kept.coreSpared {old new : Nat} {predicted : Bool} (h : Kept s t) : Kept s (t.coreSpared old new predicted) :=
  .raisePf0 (h.update rfl)

theorem Kept.coreFailed {c : Nat} (h : Kept s t) : Kept s (t.coreFailed c) := by
  rw [State.coreFailed]
  split
  · exact .gateOff (h.update rfl)
  · exact .raisePf0 (.gateOff (.startReset (.modPav (h.update rfl))))

theorem execCoreSpare_answers {core : Nat} {wear : Bool} : Answers (isCore core) s (execCoreSpare core wear s) := by
  unfold Machine.execCoreSpare
  refine .guard (by simp) fun _ => ?_
  dsimp only
  split
  · exact .ok .refl
  · split
    · exact .ok Kept.refl.takeIndex.gateOff.coreSpared
    · exact .ok Kept.refl.coreFailed
    · exact .ite (.ok .refl) (.ok (Kept.refl.modPav.voidStart.update rfl))

theorem execCoreSpareCopyDone_answers {core : Nat} : Answers (isCore core) s (execCoreSpareCopyDone core s) := by
  unfold execCoreSpareCopyDone
  refine .guard (by simp) fun _ => ?_
  split
  · next x p _ _ _ =>
    extract_lets bad m s1 s2 s3 s4
    have h1 : Kept s s1 := Kept.refl.background.zeroLs.putScratch.modCore
    have h2 : Kept s s2 := h1.takeIndex.gateOff.modPav
    have h3 : Kept s s3 := by
      clear_value s2
      exact h2.update rfl
    have h4 : Kept s s4 := .coreSpared (.ite h3.killSram h3)
    exact .ok (.ite h4 h4.modPav.freezeWaiting)
  · exact .ok (Kept.refl.update rfl)
  · exact .ok .refl

theorem Kept.copyLost {core : Nat} (h : Kept s t) : Kept s (t.copyLost core) := by
  unfold State.copyLost
  refine h.foldl fun _ _ hu => ?_
  split
  · exact .ite hu hu.modPav.freezeWaiting
  · exact hu

theorem execCoreDeath_answers {core : Nat} : Answers (isCore core) s (execCoreDeath core s) := by
  unfold Machine.execCoreDeath
  refine .guard (by simp) fun _ => ?_
  split
  · exact .ok .refl
  · dsimp only
    split
    · exact .ok (.gateOff (Kept.refl.copyLost.update rfl))
    · split
      · exact .ok (.coreFailed (Kept.refl.copyLost.update rfl))
      · split
        · exact .ok (.coreSpared (.gateOff (.takeIndex (Kept.refl.copyLost.update rfl))))
        · exact .ok (.coreSpared (.modCore (.gateOff (.takeIndex (.unrepeatable (.startReset (Kept.refl.copyLost.update rfl)))))))

theorem Kept.abortPost {k : Nat} (h : Kept s t) : Kept s (t.abortPost k) :=
  .stageAborted (.update (.ite (.ite h.abortUnseals.abortApply h.abortUnseals)
    (.complete (.ite h.abortUnseals.abortApply h.abortUnseals))) rfl)

theorem Kept.cpFail {core : Nat} {posts : List (Nat × Nat)} (h : Kept s t) : Kept s (t.cpFail core posts) := by
  unfold State.cpFail
  exact .ite (.update (.warmReset (h.voidStarts.update rfl)) rfl)
    (.raisePf0 (.foldl (.ite (.update (.abortApply (.foldl (h.voidStarts.update rfl) (fun _ _ hu => hu.abortPost))) rfl)
    (.abortApply (.foldl (h.voidStarts.update rfl) (fun _ _ hu => hu.abortPost)))) (fun _ _ hu => hu.unrepeatable)))

theorem execCpWatchdogExpire_answers {core : Nat} {posts : SlotList} :
    Answers (decide (core < 5) && List.all posts fun x => isFn x.1 && isSlot x.2) s (execCpWatchdogExpire core posts s) :=
  .guard (by simp) fun _ => .ite (.ok .refl) (.ok Kept.refl.cpFail)

theorem Kept.complicationFault {mirror : Bool} (h : Kept s t) : Kept s (t.complicationFault mirror) := by
  unfold State.complicationFault
  split
  · dsimp only
    split
    · exact h.raisePf0
    · exact h.modDir.raisePf0
  · exact h.modRec.raisePf0

theorem execPkgUnitUncorrectable_answers {unit pav : Nat} :
    Answers (decide (unit ≤ 14) && isPav pav) s (execPkgUnitUncorrectable unit pav s) :=
  .guard (by simp) fun _ => .ite (.ok (.ite .refl Kept.refl.cpFail))
    (.ite (.ok Kept.refl.warmReset) (.ite (.ok (.ite Kept.refl.complicationFault .refl))
    (.ite (.ok (.ite Kept.refl.complicationFault .refl)) (.ite (.ok (.ite Kept.refl.startReset .refl)) (.ok .refl)))))

theorem Kept.startReplay {k : Nat} (h : Kept s t) : Kept s (startReplay k t) :=
  h.start (fun _ _ hu => .ite hu.complete (.ite hu.endReplay.complete
    (.ite (.complete (.writeDva (hu.update rfl))) (.complete (hu.update rfl)))))

theorem execReplayStop_answers {fn slot : Nat} : Answers (isFn fn && isSlot slot) s (execReplayStop fn slot s) :=
  Answers.post (fun _ _ hu => hu.startReplay)

theorem execReplayRecord_answers {fn slot : Nat} : Answers (isFn fn && isSlot slot) s (execReplayRecord fn slot s) :=
  Answers.post (fun _ _ hu => hu.startReplay)

theorem execReplayReplay_answers {fn slot : Nat} : Answers (isFn fn && isSlot slot) s (execReplayReplay fn slot s) :=
  Answers.post (fun _ _ hu => hu.startReplay)

end Sys2Proof.Machine
end

section
/-! SUPPORT. What no command may change, through power, firmware and FAULT_RESOLVE. -/

namespace Sys2Proof.Machine

variable {s t : State}

theorem Kept.settle {h' : Nat} (h : Kept s t) : Kept s (t.settle h') :=
  .ite h (h.update rfl)

theorem Kept.settleAll (h : Kept s t) : Kept s t.settleAll :=
  h.foldl (fun _ _ hu => hu.settle)

theorem Kept.disturbHalf {h' cause : Nat} (h : Kept s t) : Kept s (t.disturbHalf h' cause) :=
  h.foldl (fun _ _ hu => hu.unrepeatable)

theorem Kept.limitDone {h' : Nat} (h : Kept s t) : Kept s (t.limitDone h') := by
  unfold State.limitDone
  exact .update (h.foldl (fun _ _ hu => hu.complete)) rfl

theorem Kept.switchDiv {h' d : Nat} (h : Kept s t) : Kept s (t.switchDiv h' d) :=
  h.setHalf.disturbHalf.settle.limitDone

theorem execDivisorChange_answers {half : Nat} : Answers (isHalf half) s (execDivisorChange half s) := by
  unfold Machine.execDivisorChange
  refine .guard (by simp) fun _ => ?_
  dsimp only
  split
  · exact .ok .refl
  · split
    · exact .ok Kept.refl.switchDiv
    · split
      · exact .ok .refl
      · exact .ite (.ok Kept.refl.switchDiv) (.ok .refl)

theorem execAvsResponse_answers {rail : Nat} {done : Bool} : Answers (isRail rail) s (execAvsResponse rail done s) := by
  unfold Machine.execAvsResponse
  refine .guard (by simp) fun _ => ?_
  dsimp only
  split
  · exact .ok .refl
  · exact .ite (.ok (Kept.refl.update rfl)) (.ite (.ok .refl)
      (.ok (.ite (.settle (.modHalf (Kept.refl.update rfl))) (Kept.refl.update rfl))))

theorem Kept.loseRail {rail : Nat} (h : Kept s t) : Kept s (t.loseRail rail) :=
  .ite (.startHalf (h.update rfl)) (.raisePf0 (h.update rfl))

theorem execAvsTimeout_answers {rail : Nat} : Answers (isRail rail) s (execAvsTimeout rail s) := by
  unfold Machine.execAvsTimeout
  refine .guard (by simp) fun _ => ?_
  dsimp only
  split
  · exact .ite (.ok .refl) (.ok (Kept.refl.update rfl))
  · exact .ite (.ok Kept.refl.loseRail) (.ok (Kept.refl.update rfl))

theorem execTelemetryRead_answers {readings : List (Nat × Nat)} : Answers (readings.all fun x => isRail x.1) s (execTelemetryRead readings s) :=
  .guard (by simp) fun _ => .ok (Kept.refl.update rfl)

theorem execEscapementStep_answers {half load : Nat} : Answers (isHalf half) s (execEscapementStep half load s) :=
  .guard (by simp) fun _ => .ok Kept.refl.setHalf

theorem execDroopDetect_answers {half mv : Nat} : Answers (isHalf half) s (execDroopDetect half mv s) :=
  .guard (by simp) fun _ => .ite (.ok .refl) (.ok Kept.refl.setHalf.disturbHalf)

theorem Kept.warnDroop {h' : Nat} (h : Kept s t) : Kept s (t.warnDroop h') :=
  .ite h h.setHalf.raisePf0

theorem execDroopRecover_answers {half mv : Nat} : Answers (isHalf half) s (execDroopRecover half mv s) :=
  .guard (by simp) fun _ => .ite (.ok .refl) (.ok Kept.refl.setHalf.warnDroop)

theorem execSupplyResetDip_answers {half mv : Nat} : Answers (isHalf half) s (execSupplyResetDip half mv s) :=
  .guard (by simp) fun _ => .ite (.ok .refl) (.ok Kept.refl.startHalf)

theorem execThermalThrottleStep_answers {half celsius : Nat} : Answers (isHalf half) s (execThermalThrottleStep half celsius s) :=
  .guard (by simp) fun _ => .ite (.ok Kept.refl.modHalf) (.ok
    (.ite (.raisePf0 (Kept.refl.modHalf.setHalf.settle.update rfl)) Kept.refl.modHalf.setHalf.settle))

theorem execThermalRelaxStep_answers {half celsius : Nat} : Answers (isHalf half) s (execThermalRelaxStep half celsius s) := by
  unfold Machine.execThermalRelaxStep
  refine .guard (by simp) fun _ => ?_
  dsimp only
  split
  · exact .ok Kept.refl.modHalf
  · split
    · exact .ok Kept.refl.modHalf.setHalf.settle
    · exact .ok Kept.refl.modHalf

theorem execThermalClamp_answers {half celsius : Nat} : Answers (isHalf half) s (execThermalClamp half celsius s) :=
  .guard (by simp) fun _ => .ok Kept.refl.modHalf

theorem execAgeingMeasure_answers {half trim : Nat} : Answers (isHalf half) s (execAgeingMeasure half trim s) :=
  .guard (by simp) fun _ => .ok (.settleAll (Kept.refl.modHalf.update rfl))

theorem execCalibrationWrite_answers : Answers true s (execCalibrationWrite s) :=
  Steps.answers (.ite (.ok .refl) (.ok (Kept.refl.update rfl)))

theorem Kept.turnOff {ds : List Nat} (h : Kept s t) : Kept s (t.turnOff ds) :=
  h.update rfl

theorem execDomainIdleOff_answers {domain : Nat} : Answers (isDomain domain) s (execDomainIdleOff domain s) :=
  .guard (by simp) fun _ => .ite (.ok .refl) (.ok (Kept.refl.turnOff.update rfl))

theorem Kept.quiescePort {p : Nat} (h : Kept s t) : Kept s (t.quiescePort p) :=
  h.leaveUp.modPort

theorem Kept.prepareDoze (h : Kept s t) : Kept s t.prepareDoze := by
  unfold State.prepareDoze
  exact .update (h.foldl (fun _ _ hu => hu.quiescePort)) rfl

theorem Kept.powerAction {k act value dom : Nat} (h : Kept s t) : Kept s (t.powerAction k act value dom) :=
  .ite h.complete (.ite h.complete (.ite (.complete (h.update rfl))
    (.ite (.ite h.complete (.complete (h.turnOff.update rfl)))
    (.ite (.ite h.complete h.prepareDoze.complete) (.ite (.ite h.complete (.complete (h.update rfl)))
    (.ite (.ite h.complete (.ite (.complete (h.turnOff.update rfl)) (.complete (h.update rfl))))
    (.ite (.ite h.complete (.limitDone (h.modHalf.settle.update rfl))) (.ite h.complete h.startHalf))))))))

theorem Kept.startPower {k : Nat} (h : Kept s t) : Kept s (startPower k t) :=
  h.start (fun _ _ hu => hu.powerAction)

theorem powerPost_answers {fn slot : Nat} {sel : Nat → Bool} : Answers (isFn fn && isSlot slot) s (powerPost fn slot sel s) :=
  .post fun _ _ hu => hu.startPower

theorem execPowerQuery_answers {fn slot : Nat} : Answers (isFn fn && isSlot slot) s (execPowerQuery fn slot s) :=
  powerPost_answers

theorem execPowerSetCap_answers {fn slot : Nat} : Answers (isFn fn && isSlot slot) s (execPowerSetCap fn slot s) :=
  powerPost_answers

theorem execPowerNap_answers {fn slot : Nat} : Answers (isFn fn && isSlot slot) s (execPowerNap fn slot s) :=
  powerPost_answers

theorem execPowerDoze_answers {fn slot : Nat} : Answers (isFn fn && isSlot slot) s (execPowerDoze fn slot s) :=
  powerPost_answers

theorem execPowerActive_answers {fn slot : Nat} : Answers (isFn fn && isSlot slot) s (execPowerActive fn slot s) :=
  powerPost_answers

theorem execPowerHold_answers {fn slot : Nat} : Answers (isFn fn && isSlot slot) s (execPowerHold fn slot s) :=
  powerPost_answers

theorem execPowerLimitHalf_answers {fn slot : Nat} : Answers (isFn fn && isSlot slot) s (execPowerLimitHalf fn slot s) :=
  powerPost_answers

theorem execPowerResetHalf_answers {fn slot : Nat} : Answers (isFn fn && isSlot slot) s (execPowerResetHalf fn slot s) :=
  powerPost_answers

theorem execPwrCapWrite_answers {value : Word32} : Answers true s (execPwrCapWrite value s) :=
  Steps.answers (.ite (.ok .refl) (.ok (Kept.refl.update rfl)))

theorem execPwrPadReleaseWrite_answers {value : Word32} : Answers true s (execPwrPadReleaseWrite value s) :=
  Steps.answers (.ite (.ok .refl) (.ok (.foldl (Kept.refl.update rfl) (fun _ _ hu => .ite hu.setPort hu))))

theorem Kept.reconcile {cycles : List (Nat × List Nat)} {overhead : Nat} (h : Kept s t) : Kept s (t.reconcile cycles overhead).2 :=
  .update (.foldl (.ite h.draw h) (fun _ _ hu => hu.modPav)) rfl

theorem Kept.judge {i : Interval} (h : Kept s t) : Kept s (t.judge i) := by
  rw [State.judge]
  split
  · exact .ite (.raisePf0 (.update (.ite (.raisePf0 (h.update rfl)) (h.update rfl)) rfl)) (.ite (.raisePf0 (h.update rfl)) (h.update rfl))
  · exact .ite (.ite (.raisePf0 (.update (.ite (.raisePf0 (h.update rfl)) (h.update rfl)) rfl))
      (.ite (.raisePf0 (h.update rfl)) (h.update rfl))) (.ite
      (.update (.ite (.raisePf0 (.update (.ite (.raisePf0 (h.update rfl)) (h.update rfl)) rfl))
      (.ite (.raisePf0 (h.update rfl)) (h.update rfl))) rfl) (.update
      (.ite (.raisePf0 (.update (.ite (.raisePf0 (h.update rfl)) (h.update rfl)) rfl))
      (.ite (.raisePf0 (h.update rfl)) (h.update rfl))) rfl))

theorem Kept.shareCap (h : Kept s t) : Kept s t.shareCap :=
  .settleAll (h.foldl (fun _ _ hu => hu.modHalf))

theorem Kept.emergencyStep {p : Nat} (h : Kept s t) : Kept s (t.emergencyStep p) :=
  h.update rfl

theorem Kept.endInterval {cycles : List (Nat × List Nat)} {overhead : Nat} (h : Kept s t) : Kept s (t.endInterval cycles overhead) := by
  unfold State.endInterval
  extract_lets r i s1 p s2 p3 s3 p4 s4 s5 p5
  have h2 : Kept s s2 := h.reconcile.judge.emergencyStep
  clear_value s2
  have h3 : Kept s s3 := h2.update rfl
  clear_value s3
  have h4 : Kept s s4 := .ite h3 (h3.update rfl)
  have h5 : Kept s s5 := h4.shareCap
  clear_value s5
  exact .foldl (h5.update rfl) fun _ _ hu => hu.warnDroop

theorem execEnergyInterval_answers {cycles : List (Nat × List Nat)} {overhead : Nat} :
    Answers (cycles.all fun x => isPav x.1) s (execEnergyInterval cycles overhead s) :=
  .guard (by simp) fun _ => .ite (.ok .refl) (.ok Kept.refl.endInterval)

theorem Kept.startFwStage {k : Nat} (h : Kept s t) : Kept s (startFwStage k t) :=
  h.start (fun _ _ hu => hu.queueFw)

theorem execFwStage_answers {fn slot : Nat} : Answers (isFn fn && isSlot slot) s (execFwStage fn slot s) :=
  Answers.post (fun _ _ hu => hu.startFwStage)

theorem Kept.stageData {t' : Transfer} {data : List HostData} (h : Kept s t) : Kept s (t.stageData t' data) := by
  unfold State.stageData
  split
  · exact h
  · dsimp only
    split
    · exact .fwDone (.complete (.setSlot (h.update rfl)))
    · exact .setSlot (h.update rfl)

theorem execFwSlotWritten_answers : Answers true s (execFwSlotWritten s) := by
  unfold execFwSlotWritten
  refine Steps.answers ?_
  split
  · exact .ok .refl
  · exact .ite (.ok .refl) (.ok (.fwDone (.complete (.setSlot .refl))))

theorem Kept.startFwActivate {k : Nat} (h : Kept s t) : Kept s (startFwActivate k t) :=
  h.start (fun _ _ hu => hu.queueFw)

theorem execFwActivate_answers {fn slot : Nat} : Answers (isFn fn && isSlot slot) s (execFwActivate fn slot s) :=
  Answers.post (fun _ _ hu => hu.startFwActivate)

theorem execFwActivatePause_answers {verified : Bool} : Answers true s (execFwActivatePause verified s) := by
  have hs : ∀ {u : State} {a : Option Activation}, Kept s u → Kept s (u.modFw fun f => { f with activation := a }) :=
    fun hu => hu.modFw (Nat.le_refl _) id
  unfold execFwActivatePause
  refine Steps.answers ?_
  split
  · exact .ok .refl
  · refine .ite (.ok .refl) (.ite (.ok (.fwNext (.complete ?_))) (.ite (.ok .refl) (.ok (.ite (hs .refl) (hs .refl).voidStarts))))
    exact hs (Kept.refl.setSlot (b := fun f => !f.active) (x := fun _ => { st := 1 }))

theorem Kept.tellVersions (h : Kept s t) : Kept s t.tellVersions :=
  h.foldl (fun _ _ hu => hu.syncRank0)

theorem Kept.activated {a : Activation} (h : Kept s t) : Kept s (t.activated a) :=
  .fwNext (.endReplay (.raisePf0 (.complete (.tellVersions (h.modFw (Nat.le_refl _) id)))))

theorem execFwActivateTimeout_answers : Answers true s (execFwActivateTimeout s) := by
  unfold Machine.execFwActivateTimeout
  refine Steps.answers ?_
  split
  · exact .ok .refl
  · exact .ite (.ok .refl) (.ok (.warmReset (Kept.refl.modFw (Nat.le_refl _) id)))

theorem Kept.factory (h : Kept s t) : Kept s t.factory :=
  .settleAll (.update (h.foldl (fun _ _ hu => hu.modHalf)) rfl)

theorem Kept.startRestoreFactory {k : Nat} (h : Kept s t) : Kept s (startRestoreFactory k t) :=
  h.start (fun _ _ hu => .ite hu.complete hu.factory.complete)

theorem execRestoreFactory_answers {fn slot : Nat} : Answers (isFn fn && isSlot slot) s (execRestoreFactory fn slot s) :=
  Answers.post (fun _ _ hu => hu.startRestoreFactory)

theorem Kept.startRecovery {k : Nat} (h : Kept s t) : Kept s (startRecovery k t) :=
  h.start (fun _ _ hu => .ite hu.complete (.complete (hu.modFw (Nat.le_refl _) id)))

theorem execRecoveryArm_answers {fn slot : Nat} : Answers (isFn fn && isSlot slot) s (execRecoveryArm fn slot s) :=
  Answers.post (fun _ _ hu => hu.startRecovery)

theorem execRecoveryDisarm_answers {fn slot : Nat} : Answers (isFn fn && isSlot slot) s (execRecoveryDisarm fn slot s) :=
  Answers.post (fun _ _ hu => hu.startRecovery)

theorem Kept.recover (h : Kept s t) : Kept s t.recover := by
  rw [State.recover]
  split
  · exact h
  · split
    · exact h.modFw (Nat.le_refl _) id
    · split <;> exact h.modFw (Nat.le_refl _) id

theorem execFwRcvGo_answers : Answers true s (execFwRcvGo s) :=
  Steps.answers (.ok Kept.refl.recover)

theorem execRecoveryImageWritten_answers {written : Bool} : Answers true s (execRecoveryImageWritten written s) :=
  Steps.answers (.ite (.ok .refl) (.ite (.ok (Kept.refl.modFw (Nat.le_refl _) id)) (.ok (.warmReset (Kept.refl.modFw (Nat.le_refl _) id)))))

theorem Kept.bootFails (h : Kept s t) : Kept s t.bootFails :=
  .ite (h.update rfl) (h.update rfl)

/-- A boot raises the floor to the slot's where that is higher (R590). -/
theorem Kept.boots (h : Kept s t) : Kept s t.boots := by
  unfold State.boots
  extract_lets b x other s1 b2 g2 s2
  have h1 : Kept s s1 := by
    refine h.modFw ?_ ?_
    · dsimp only
      split
      · next hc =>
        simp only [Bool.and_eq_true, decide_eq_true_eq] at hc
        exact hc.2.le
      · exact Nat.le_refl _
    · dsimp only
      split
      · unfold Fw.setSlot
        split <;> exact id
      · exact id
  clear_value s1
  have h2 : Kept s s2 := h1.update rfl
  exact .ite h2.raisePf0 h2

theorem Kept.tryBoot {good : Bool} (h : Kept s t) : Kept s (t.tryBoot good) :=
  .ite h (.ite h.boots h.bootFails)

theorem execBootReadyTimeout_answers : Answers true s (execBootReadyTimeout s) :=
  Steps.answers (.ok Kept.refl.tryBoot)

theorem Kept.startInvalidate {k : Nat} (h : Kept s t) : Kept s (startInvalidate k t) :=
  h.start (fun _ _ hu => hu.update rfl)

theorem execInvalidate_answers {fn slot : Nat} : Answers (isFn fn && isSlot slot) s (execInvalidate fn slot s) :=
  Answers.post (fun _ _ hu => hu.startInvalidate)

theorem Kept.dropTarget {un : Nat} {v : Inval} (h : Kept s t) : Kept s (t.dropTarget un v) :=
  .ite (h.update rfl) (.foldl (h.update rfl) (fun _ _ hu => .ite hu.modCore hu))

theorem execInvalidateReceive_answers {unit fn slot : Nat} :
    Answers (isTUnit unit && isFn fn && isSlot slot) s (execInvalidateReceive unit fn slot s) := by
  unfold Machine.execInvalidateReceive
  refine .guard (by simp) fun _ => ?_
  dsimp only
  split
  · exact .ok .refl
  · exact .ok (.dropTarget (Kept.refl.update rfl))

theorem Kept.dropAllShadows {p : Nat} (h : Kept s t) : Kept s (t.dropAllShadows p) :=
  h.foldl (fun _ _ hu => hu.modCore)

theorem execInvalidateDrainComplete_answers {fn slot : Nat} : Answers (isFn fn && isSlot slot) s (execInvalidateDrainComplete fn slot s) := by
  unfold Machine.execInvalidateDrainComplete
  refine .guard (by simp) fun _ => ?_
  dsimp only
  split
  · exact .ok .refl
  · exact .ite (.ok .refl) (.ok (.complete (Kept.refl.dropAllShadows.update rfl)))

theorem Kept.retranslate {p : Nat} {w : Waiter} (h : Kept s t) : Kept s (t.retranslate p w).1 := by
  unfold State.retranslate
  dsimp only
  split
  · split
    · exact h.dropWalk
    · exact .driveTiles (.modFlight (h.dropWalk.foldl (fun _ _ hu => hu.dropWalk)))
  · split
    · split
      · exact h.dropWalk.makeReady
      · exact h.dropWalk.fetch
    · exact h.dropWalk
  · split
    · split
      · exact h.dropWalk.walkPages
      · split
        · exact h.dropWalk.walkPages.killOwner
        · exact h.dropWalk.walkPages.writeCs
    · exact h.dropWalk.walkPages.recordFault
    · exact h.dropWalk.walkPages.bedUncorrectable.startReset

theorem Kept.retryRecord {p id : Nat} {r : FaultRec} (h : Kept s t) : Kept s (t.retryRecord p id r).1 := by
  rw [State.retryRecord]
  refine .admitWaiters (.modPav ?_)
  refine .foldlFst ?_ fun _ _ hu => ?_
  · dsimp only
    exact h.modPav
  · dsimp only
    exact hu.retranslate

theorem Kept.startResolveRetry {k : Nat} (h : Kept s t) : Kept s (startResolveRetry k t) := by
  unfold Machine.startResolveRetry
  refine h.start fun _ _ hu => ?_
  dsimp only
  split
  · exact hu.complete
  · exact .ite hu.complete hu.retryRecord.complete

theorem execFaultResolveRetry_answers {fn slot : Nat} : Answers (isFn fn && isSlot slot) s (execFaultResolveRetry fn slot s) :=
  Answers.post (fun _ _ hu => hu.startResolveRetry)

theorem Kept.startResolveKill {k : Nat} (h : Kept s t) : Kept s (startResolveKill k t) := by
  unfold Machine.startResolveKill
  refine h.start fun _ _ hu => ?_
  dsimp only
  split
  · exact hu.complete
  · exact hu.modPav.startReset.complete

theorem execFaultResolveKill_answers {fn slot : Nat} : Answers (isFn fn && isSlot slot) s (execFaultResolveKill fn slot s) :=
  Answers.post (fun _ _ hu => hu.startResolveKill)

end Sys2Proof.Machine
end

section
/-! SUPPORT. What no command may change, through pins, mailbox service and register writes. -/

namespace Sys2Proof.Machine

variable {s t : State}

theorem execPmeTurnOff_answers : Answers true s (execPmeTurnOff s) :=
  Steps.answers (.ite (.ok .refl) (.ok (Kept.refl.update rfl)))

theorem Kept.wakeUp (h : Kept s t) : Kept s t.wakeUp :=
  .settleAll (.update (.ite h.coldReset h.warmReset) rfl)

theorem execSmbusWakeMatch_answers {address : Nat} : Answers true s (execSmbusWakeMatch address s) := by
  unfold execSmbusWakeMatch
  refine Steps.answers (.ite (.ok .refl) (.ok ?_))
  have hw : Kept s s.wakeUp := .wakeUp .refl
  generalize s.wakeUp = u at hw
  exact hw.update rfl

theorem execRefclkStop_answers : Answers true s (execRefclkStop s) :=
  Steps.answers (.ite (.ok (Kept.refl.update rfl)) (.ite (.ok (Kept.refl.update rfl)) (.ok (Kept.refl.update rfl))))

theorem execRefclkReturn_answers : Answers true s (execRefclkReturn s) :=
  Steps.answers (.ite (.ok .refl) (.ok (.ite (.coldReset (Kept.refl.update rfl)) (Kept.refl.update rfl))))

theorem execRefclkValid_answers {straps : Nat} : Answers (decide (straps ≤ 7)) s (execRefclkValid straps s) :=
  .guard (by simp) fun _ => .ite (.ok .refl) (.ok (Kept.refl.update rfl))

theorem execPwrgdInAssert_answers {silent : List Nat} : Answers (silent.all isRail) s (execPwrgdInAssert silent s) :=
  .guard (by simp) fun _ => .ite (.ok (Kept.refl.update rfl))
    (.ok (.foldl (.update (.coldReset (Kept.refl.update rfl)) rfl) (fun _ _ hu => hu.loseRail)))

theorem Kept.loseSupply (h : Kept s t) : Kept s t.loseSupply :=
  .update (.coldReset (h.update rfl)) rfl

theorem execPowerLoss_answers : Answers true s (execPowerLoss s) :=
  Steps.answers (.ite (.ok (Kept.refl.update rfl)) (.ok Kept.refl.loseSupply))

theorem execThermtrip_answers {half celsius : Nat} : Answers (isHalf half) s (execThermtrip half celsius s) :=
  .guard (by simp) fun _ => .ite (.ok .refl) (.ok (.modHalf (Kept.refl.coldReset.update rfl)))

theorem execThermtripClear_answers : Answers true s (execThermtripClear s) :=
  Steps.answers (.ite (.ok .refl) (.ite (.ok (Kept.refl.update rfl)) (.ok Kept.refl.coldReset)))

theorem execPerstNAssert_answers : Answers true s (execPerstNAssert s) := by
  unfold Machine.execPerstNAssert
  exact Steps.answers (.ite (.ok (Kept.refl.update rfl)) (.ok (.update (.warmReset (Kept.refl.update rfl)) rfl)))

theorem execPerstNRelease_answers : Answers true s (execPerstNRelease s) :=
  Steps.answers (.ite (.ok .refl) (.ok (.ite (.wakeUp (Kept.refl.update rfl)) (Kept.refl.update rfl))))

theorem execPcieLinkUp_answers : Answers true s (execPcieLinkUp s) :=
  Steps.answers (.ite (.ok .refl) (.ok (Kept.refl.update rfl)))

theorem execPcieLinkDown_answers : Answers true s (execPcieLinkDown s) :=
  Steps.answers (.ite (.ok .refl) (.ok (.stageError (.foldl (Kept.refl.update rfl) (fun _ _ hu => hu.haltChannel)))))

theorem execSmbusWarmReset_answers {pec : Bool} : Answers true s (execSmbusWarmReset pec s) :=
  Steps.answers (.ite (.ok .refl) (.ok Kept.refl.warmReset))

theorem execSmbusColdReset_answers {pec : Bool} : Answers true s (execSmbusColdReset pec s) :=
  Steps.answers (.ite (.ok .refl) (.ok Kept.refl.coldReset))

theorem execSmbusStatusRead_answers : Answers true s (execSmbusStatusRead s) :=
  Steps.answers (.ite (.ok .refl) (.ok (.answered (Kept.refl.update rfl))))

theorem execSmbusAlertResponse_answers : Answers true s (execSmbusAlertResponse s) :=
  Steps.answers (.ite (.ok .refl) (.ok (.answered (Kept.refl.update rfl))))

theorem execSmbusMctp_answers {pec : Bool} {request : SpdmRequest} : Answers true s (execSmbusMctp pec request s) := by
  have hv : ∀ {o}, Answers (isVia 512) s o → Steps s o := fun ho => ho.1 rfl
  unfold execSmbusMctp
  refine Steps.answers (.ite (.ok .refl) ?_)
  cases request with
  | getVersion => exact hv execGetVersion_answers
  | getCapabilities => exact hv execGetCapabilities_answers
  | negotiateAlgorithms => exact hv execNegotiateAlgorithms_answers
  | getDigests => exact hv execGetDigests_answers
  | getCertificate => exact hv execGetCertificate_answers
  | challenge => exact hv execChallenge_answers
  | getMeasurements => exact hv execGetMeasurements_answers
  | keyExchange => exact hv execKeyExchange_answers
  | finish => exact hv execFinish_answers
  | heartbeat => exact hv execHeartbeat_answers
  | keyUpdate => exact hv execKeyUpdate_answers
  | endSession => exact hv execEndSession_answers
  | chunkSend => exact hv execChunkSend_answers
  | chunkGet => exact hv execChunkGet_answers
  | getKemCert => exact hv execGetKemCert_answers
  | installHostKey => exact hv execInstallHostKey_answers
  | removeHostKey => exact hv execRemoveHostKey_answers
  | releaseModel => exact hv execReleaseModel_answers
  | revokeModel => exact hv execRevokeModel_answers
  | installImageKey => exact hv execInstallImageKey_answers
  | removeImageKey => exact hv execRemoveImageKey_answers
  | other => exact hv execSpdmUnsupportedRequest_answers

theorem Steps.recoveryOp {pec : Bool} {f : State → State} (hf : Kept s (f s)) : Steps s (recoveryOp pec s f) :=
  .ite (.ok .refl) (.ok hf)

theorem execSmbusRcvOffset_answers {pec : Bool} {offset : Word32} : Answers true s (execSmbusRcvOffset pec offset s) :=
  Steps.answers (Steps.recoveryOp (Kept.refl.modFw (Nat.le_refl _) id))

theorem execSmbusRcvWrite_answers {pec : Bool} {bytes : List Byte} : Answers true s (execSmbusRcvWrite pec bytes s) := by
  unfold execSmbusRcvWrite
  exact Steps.answers (.ite (.ok .refl) (.recoveryOp (Kept.refl.modFw (Nat.le_refl _) fun hr => Mem.wf_writeN hr _ _)))

theorem execSmbusRcvStart_answers {pec : Bool} {length : Word32} : Answers true s (execSmbusRcvStart pec length s) :=
  Steps.answers (Steps.recoveryOp (.recover (Kept.refl.modFw (Nat.le_refl _) id)))

theorem execSmbusRcvStatus_answers {pec : Bool} : Answers true s (execSmbusRcvStatus pec s) :=
  Steps.answers (.ite (.ok .refl) (.ok Kept.refl.answered))

theorem Kept.startCommand {k : Nat} (h : Kept s t) : Kept s (startCommand k t) := by
  rw [Machine.startCommand]
  split
  · exact h.startIdentify
  · exact h.startPvCheck
  · exact h.startPvApply
  · exact h.startInvalidate
  · exact .ite h.startResolveKill h.startResolveRetry
  · exact h.startModelLoad
  · exact .ite h.startModelUnpin h.startModelPin
  · exact h.startModelEvict
  · exact h.startMemCopy
  · exact h.startRun
  · exact h.startSessionCreate
  · exact .ite h.startSessionMoveAbort h.startSessionMove
  · exact h.startSessionCommit
  · exact h.startSessionClose
  · exact .ite h.startThaw h.startFreeze
  · exact h.startSave
  · exact h.startRestore
  · exact h.startPavReset
  · exact h.startPkgReset
  · exact h.startSnapshot
  · exact h.startFingerprint
  · exact h.startReplay
  · exact h.startPower
  · exact h.startFwStage
  · exact h.startFwActivate
  · exact h.startRestoreFactory
  · exact h.startRecovery
  · exact h.startUnknown

theorem Kept.resumeN {n : Nat} (h : Kept s t) : Kept s (State.resumeN n t) := by
  induction n generalizing t with
  | zero => exact h
  | succ n ih =>
    rw [State.resumeN]
    split
    · exact h
    · exact .ite h (ih (.ite (.startCommand (h.update rfl)) (h.update rfl)))

theorem Kept.resumeService (h : Kept s t) : Kept s t.resumeService :=
  h.resumeN

theorem execCpRecoveryDone_answers : Answers true s (execCpRecoveryDone s) :=
  Steps.answers (.ite (.ok .refl) (.ok (.resumeService (Kept.refl.update rfl))))

theorem execFwImageReady_answers : Answers true s (execFwImageReady s) := by
  unfold Machine.execFwImageReady
  refine Steps.answers ?_
  split
  · exact .ok .refl
  · exact .ite (.ok .refl) (.ok Kept.refl.activated.resumeService)

theorem execFwBootComplete_answers {good : Bool} : Answers true s (execFwBootComplete good s) :=
  Steps.answers (.ok Kept.refl.tryBoot.resumeService)

theorem Kept.takeInput {r : RingRec} (h : Kept s t) : Kept s (t.takeInput r) := by
  unfold State.takeInput
  dsimp only
  split
  · split
    · exact h.bedUncorrectable
    · exact h.writeCs
  · exact h.modRec.startCommand

theorem Kept.takeInputs {p n : Nat} (h : Kept s t) : Kept s (State.takeInputs p n t) := by
  induction n generalizing t with
  | zero => exact h
  | succ n ih =>
    rw [State.takeInputs]
    refine .ite h ?_
    split
    · next u e => exact h.deniedRing u e
    · split
      · exact h
      · exact .ite h (ih h.modRec.takeInput.checkEnd)

theorem Kept.dueInputs {p : Nat} (h : Kept s t) : Kept s (t.dueInputs p) :=
  .ite h.takeInputs h

theorem execRunBegin_answers {pav : Nat} : Answers (isPav pav) s (execRunBegin pav s) :=
  .guard (by simp) fun _ => .ok Kept.refl.dueInputs.beginRun

theorem execKernelStart_answers {pav : Nat} : Answers (isPav pav) s (execKernelStart pav s) :=
  .guard (by simp) fun _ => .ok (.ite Kept.refl.dueInputs.startKernel Kept.refl.dueInputs)

theorem execPcieCompletionReceive_answers {target : HostTarget} {data : List HostData} :
    Answers target.wf s (execPcieCompletionReceive target data s) := by
  unfold Machine.execPcieCompletionReceive
  split
  · refine .guard (by simp) fun _ => ?_
    split
    · split
      · exact .ok (.ite .refl Kept.refl.tileData?)
      · exact .ok .refl
    · exact .ok .refl
  · refine .guard (by simp) fun _ => ?_
    split
    · exact .ok (.ite Kept.refl.copyData (.ite Kept.refl.restoreData Kept.refl.stageData))
    · exact .ok (.ite .refl Kept.refl.runData)
    · exact .ok .refl

theorem Kept.modSlot {fn slot : Nat} {f : MbSlot → MbSlot} (h : Kept s t) (hf : ∀ m, (f m).gen = m.gen) : Kept s (t.modSlot fn slot f) :=
  h.setFn (gens_setNth (hf _))

theorem Kept.withPav {fn : Nat} {f : Nat → State} (h : Kept s t) (hf : ∀ p, Kept s (f p)) : Kept s (t.withPav fn f) := by
  unfold State.withPav
  split
  · exact hf _
  · exact h

theorem Kept.writeStream {fn i : Nat} {f : Stream → Stream} (h : Kept s t) : Kept s (t.writeStream fn i f) :=
  h.withPav (fun _ => .ite h.modStream h)

theorem Kept.writeMsix {fn i : Nat} {v : Word32} (h : Kept s t) : Kept s (t.writeMsix fn i v) := by
  unfold State.writeMsix
  extract_lets x n s1
  have h1 : Kept s s1 := h.setFn rfl
  clear_value s1
  refine .ite (.update ?_ rfl) h1
  exact h1.setFn rfl

theorem Kept.writeDlCtl {p : Nat} {v : Word32} (h : Kept s t) : Kept s (t.writeDlCtl p v) :=
  .ite h (.ite (.ite (.ite (.after (.ite (h.modPort.after execDlSpareNow_answers) h.modPort) execDlPortEnable_answers)
    (.ite (h.modPort.after execDlSpareNow_answers) h.modPort))
    (.after (.ite (.after (.ite (h.modPort.after execDlSpareNow_answers) h.modPort) execDlPortEnable_answers)
    (.ite (h.modPort.after execDlSpareNow_answers) h.modPort)) execDlQuiesce_answers))
    (.modPort (.ite (.after (.ite (h.modPort.after execDlSpareNow_answers) h.modPort) execDlPortEnable_answers)
    (.ite (h.modPort.after execDlSpareNow_answers) h.modPort))))

theorem Kept.write32 {fn : Nat} {r : Reg32} {v : Word32} (h : Kept s t) : Kept s (t.write32 fn r v) := by
  unfold State.write32
  extract_lets n
  cases r with
  | scrubCfg => exact h.modRegs
  | logSel => exact h.modRegs
  | fltSel => exact h.after execMmuFltSelWrite_answers
  | pvSel => exact h.modRegs
  | dirCtl => exact h.after execPvDirCtlWrite_answers
  | rtSel => exact h.update rfl
  | rtData => exact h.after execDlRtDataWrite_answers
  | pkgId => exact h.after execDlPkgIdWrite_answers
  | rgSel => exact .ite (h.setFn rfl) (h.withPav fun _ => h.setFn rfl)
  | mbVec => exact h.setFn rfl
  | mbView => exact h.modRegs
  | evtTail => exact h.after execEvtTailWrite_answers
  | evtStatus => exact .ite (h.after execEvtOverflowClear_answers) h
  | resetCause => exact .ite (h.after execPkgFatalClear_answers) h
  | pwrCap => exact h.after execPwrCapWrite_answers
  | escCfg => exact h.update rfl
  | padRelease => exact h.after execPwrPadReleaseWrite_answers
  | halfSel => exact h.update rfl
  | snapSel => exact h.update rfl
  | snapFree => exact h.after execSnapFreeWrite_answers
  | fwPolicy => exact h.modFw (Nat.le_refl _) id
  | rcvLen => exact .ite (h.modFw (Nat.le_refl _) id) h
  | rcvCtl => exact .ite (h.after execFwRcvGo_answers) h
  | dlCtl => exact h.writeDlCtl
  | mbReq => exact h.modSlot fun _ => rfl
  | mbPost => exact .ite (h.after (.post fun _ _ hu => hu.startCommand)) h
  | mbState => exact .ite (h.modSlot fun _ => rfl) h
  | mbTag => exact h.modSlot fun _ => rfl
  | strCfg => exact h.withPav fun _ => .ite h (.ite h.writeStream.enableStream h.writeStream.disableStream)
  | strPeriod => exact h.writeStream
  | engineCfg =>
    refine .ite h ?_
    split
    · exact h.disableStream
    · exact h
  | msix => exact h.writeMsix
  | rcvBuf => exact .ite (h.modFw (Nat.le_refl _) fun hr => Mem.wf_writeLe hr _ _ _) h

theorem Kept.write64 {fn : Nat} {r : Reg64} {v : Word64} {whole : Bool} (h : Kept s t) : Kept s (t.write64 fn r v whole) := by
  unfold State.write64
  dsimp only
  split
  · exact .ite (h.after execMmuWinBaseWrite_answers) h
  · exact .ite (h.after execPvTableBaseWrite_answers) h
  · exact .ite (h.after execPvPoolBaseWrite_answers) h
  · exact .ite (h.after execDlSpanBaseWrite_answers) h
  · exact h.update rfl
  · exact .ite (h.after execMbHchResume_answers) h
  · exact h.modRegs
  · exact .ite h.writeStream h
  · exact .ite h.writeStream h
  · exact .ite h.writeStream h

theorem Kept.writeWord {fn o : Nat} {v : Word32} (h : Kept s t) : Kept s (t.writeWord fn o v) := by
  unfold State.writeWord
  split
  · exact h.write32
  · exact h.write64
  · exact h

theorem Kept.writeDouble {fn o : Nat} {v : Word64} (h : Kept s t) : Kept s (t.writeDouble fn o v) := by
  unfold State.writeDouble
  split
  · exact h.write64
  · exact h.writeWord.writeWord

theorem execRegisterWrite_answers {fn offset size : Nat} {value : Word64} : Answers (isFn fn) s (execRegisterWrite fn offset size value s) :=
  .guard (by simp) fun _ => .ite (.ok .refl) (.ite (.ok Kept.refl.writeWord) (.ite (.ok Kept.refl.writeDouble) (.ok .refl)))

end Sys2Proof.Machine
end

section
/-! SUPPORT. What no command may change, through run-ahead. -/

namespace Sys2Proof.Machine

variable {s t : State}

/-- One page of a speculative load's walks: it ends them, or `next` walks on. -/
def State.specPage (s : State) (un p pg : Nat) (next : State → Option (Tab PageLoc) × State) : Option (Tab PageLoc) × State :=
  let r := s.walk un p (pg * 65536)
  match r.1 with
  | .leaf l =>
    if Pte.typ l.entry == 2 && Pte.rd l.entry && !Pte.wr l.entry then
      let q := next r.2
      (q.1.map (Tab.put pg (.bed p (Pte.addr l.entry + (if l.level == 1 then pg * 65536 % 2 ^ 29 else 0)))), q.2)
    else (none, r.2)
  | _ => (none, r.2)

set_option smartUnfolding false in
theorem specPages_cons {un p pg : Nat} {rest : List Nat} :
    t.specPages un p (pg :: rest) = t.specPage un p pg fun u => u.specPages un p rest := rfl

theorem Kept.specPage {un p pg : Nat} {next : State → Option (Tab PageLoc) × State} (h : Kept s t)
    (hn : ∀ u, Kept s u → Kept s (next u).2) : Kept s (t.specPage un p pg next).2 := by
  rw [State.specPage]
  split
  · split
    · exact hn _ h.walk
    · exact h.walk
  · exact h.walk

theorem Kept.specPages {un p : Nat} {l : List Nat} (h : Kept s t) : Kept s (t.specPages un p l).2 := by
  induction l generalizing t with
  | nil => exact h
  | cons pg rest ih =>
    rw [specPages_cons]
    exact h.specPage fun _ hu => ih hu

theorem Kept.eligible {p core : Nat} {l : SpecLoad} (h : Kept s t) : Kept s (t.eligible p core l).2 := by
  rw [State.eligible]
  split
  · exact h
  · split
    · exact h
    · split
      · exact h.specPages
      · exact h

theorem Kept.speculate {p core strand : Nat} {l : SpecLoad} (h : Kept s t) : Kept s (t.speculate p core strand l) := by
  unfold State.speculate
  dsimp only
  split
  · exact h
  · split
    · exact h.eligible
    · exact h.eligible.modCore

theorem Kept.walkTile {p core strand : Nat} {w : Walker} {op : Nat} {f : TileFields} (h : Kept s t) :
    Kept s (t.walkTile p core strand w op f).1 := by
  rw [State.walkTile]
  split
  · exact h
  · dsimp only
    split
    · exact .ite h.speculate h
    · exact h

theorem Kept.walkAhead {p core strand : Nat} {w : Walker} {l : List (Word64 × Word64)} (h : Kept s t) :
    Kept s (t.walkAhead p core strand w l).1 := by
  induction l generalizing t w with
  | nil => exact h
  | cons x rest ih =>
    rw [State.walkAhead]
    dsimp only
    split
    · exact h
    · split
      · split
        · exact ih h
        · exact h
      · split
        · split
          · exact h.walkTile
          · exact ih h.walkTile
        · exact h.walkTile

theorem execEpisodeOpen_answers {core strand : Nat} {walk : WalkWords} :
    Answers (isCore core && isStrand strand) s (execEpisodeOpen core strand walk s) := by
  unfold Machine.execEpisodeOpen
  refine .guard (by simp) fun _ => ?_
  dsimp only
  split
  · exact .ok .refl
  · exact .ite (.ok .refl) (.ok Kept.refl.modStrand.walkAhead.modCore)

theorem execShadowLoadComplete_answers {core buf : Nat} :
    Answers (isCore core && decide (buf < 8)) s (execShadowLoadComplete core buf s) := by
  unfold Machine.execShadowLoadComplete
  refine .guard (by simp) fun _ => ?_
  dsimp only
  split
  · split
    · exact .ok Kept.refl.dropHurt.dropShadow
    · split
      · exact .ok Kept.refl.specPages.dropShadow
      · split
        · exact .ok Kept.refl.specPages.bedUncorrectable.dropShadow
        · exact .ok Kept.refl.specPages.modCore
  · exact .ok .refl

theorem execPredicateResolve_answers {core strand : Nat} : Answers (isCore core && isStrand strand) s (execPredicateResolve core strand s) :=
  .guard (by simp) fun _ => .ite (.ok .refl) (.ok Kept.refl.modCore.makeReady)

theorem Kept.promote {p core strand buf : Nat} {x' : Flight} (h : Kept s t) : Kept s (t.promote p core strand buf x') := by
  rw [State.promote]
  split
  · exact .ite h.dropShadow.modFlight.driveTiles.modCore h.dropShadow.modFlight.driveTiles
  · exact h.dropShadow.modFlight.driveTiles

theorem execShadowPromote_answers {core strand buf : Nat} :
    Answers (isCore core && isStrand strand && decide (buf < 8)) s (execShadowPromote core strand buf s) := by
  unfold Machine.execShadowPromote
  refine .guard (by simp) fun _ => ?_
  split
  · exact .ite (.ok .refl) (.ite (.ok (.driveTiles (.dropShadow (.logMem (Kept.refl.modBeds id id))))) (.ok Kept.refl.promote))
  · exact .ok .refl

theorem execTmm_answers {core strand : Nat} {f : TileFields} : Answers (isCore core && isStrand strand) s (execTmm core strand f s) :=
  Answers.tile (fun _ _ _ _ hu => hu.launchRun)

theorem execTvop_answers {core strand : Nat} {f : TileFields} : Answers (isCore core && isStrand strand) s (execTvop core strand f s) :=
  Answers.tile (fun _ _ _ _ hu => hu.launchRun)

theorem execTred_answers {core strand : Nat} {f : TileFields} : Answers (isCore core && isStrand strand) s (execTred core strand f s) :=
  Answers.tile (fun _ _ _ _ hu => hu.launchRun)

theorem execTcvt_answers {core strand : Nat} {f : TileFields} : Answers (isCore core && isStrand strand) s (execTcvt core strand f s) :=
  Answers.tile (fun _ _ _ _ hu => hu.launchRun)

theorem execTdec_answers {core strand : Nat} {f : TileFields} : Answers (isCore core && isStrand strand) s (execTdec core strand f s) :=
  Answers.tile (fun _ _ _ _ hu => hu.launchRun)

theorem execTld_answers {core strand : Nat} {f : TileFields} : Answers (isCore core && isStrand strand) s (execTld core strand f s) :=
  Answers.tile (fun _ _ _ _ hu => hu.launchRun)

theorem execTst_answers {core strand : Nat} {f : TileFields} : Answers (isCore core && isStrand strand) s (execTst core strand f s) :=
  Answers.tile (fun _ _ _ _ hu => hu.launchRun)

theorem execTcp_answers {core strand : Nat} {f : TileFields} : Answers (isCore core && isStrand strand) s (execTcp core strand f s) :=
  Answers.tile (fun _ _ _ _ hu => hu.launchRun)

theorem execTgather_answers {core strand : Nat} {f : TileFields} : Answers (isCore core && isStrand strand) s (execTgather core strand f s) :=
  Answers.tile (fun _ _ _ _ hu => hu.launchRun)

theorem execTscatter_answers {core strand : Nat} {f : TileFields} :
    Answers (isCore core && isStrand strand) s (execTscatter core strand f s) :=
  Answers.tile (fun _ _ _ _ hu => hu.launchRun)

end Sys2Proof.Machine
end

section
/-! SUPPORT. What no command may change, through every command and every step. -/

namespace Sys2Proof.Machine

/-! ## Every command, and every step -/

/-- Each command answers a next state to which everything is kept, or, where a unit that it names is missing, the fault for that. -/
theorem exec_answers (c : Instr) (s : State) : Answers c.wf s (exec c s) := by
  cases c with
  | nop => exact execNop_answers
  | add => exact execAdd_answers
  | sub => exact execSub_answers
  | mul => exact execMul_answers
  | and => exact execAnd_answers
  | or => exact execOr_answers
  | xor => exact execXor_answers
  | shl => exact execShl_answers
  | shr => exact execShr_answers
  | sar => exact execSar_answers
  | min => exact execMin_answers
  | max => exact execMax_answers
  | cmp => exact execCmp_answers
  | movi => exact execMovi_answers
  | movhi => exact execMovhi_answers
  | lds => exact execLds_answers
  | sts => exact execSts_answers
  | setd => exact execSetd_answers
  | getd => exact execGetd_answers
  | ldd => exact execLdd_answers
  | std => exact execStd_answers
  | rdas => exact execRdas_answers
  | clas => exact execClas_answers
  | setsrc => exact execSetsrc_answers
  | rdsrc => exact execRdsrc_answers
  | rdtime => exact execRdtime_answers
  | br => exact execBr_answers
  | jmp => exact execJmp_answers
  | jmpr => exact execJmpr_answers
  | call => exact execCall_answers
  | spawn => exact execSpawn_answers
  | yield => exact execYield_answers
  | exit => exact execExit_answers
  | fence => exact execFence_answers
  | tld => exact execTld_answers
  | tst => exact execTst_answers
  | tcp => exact execTcp_answers
  | tgather => exact execTgather_answers
  | tscatter => exact execTscatter_answers
  | tmm => exact execTmm_answers
  | tvop => exact execTvop_answers
  | tred => exact execTred_answers
  | tcvt => exact execTcvt_answers
  | tdec => exact execTdec_answers
  | tsend => exact execTsend_answers
  | trecv => exact execTrecv_answers
  | tput => exact execTput_answers
  | tget => exact execTget_answers
  | tbar => exact execTbar_answers
  | twait => exact execTwait_answers
  | tcommit => exact execTcommit_answers
  | icacheFill => exact execIcacheFill_answers
  | strandWake => exact execStrandWake_answers
  | tileInstructionComplete => exact execTileInstructionComplete_answers
  | messageMatch => exact execMessageMatch_answers
  | episodeOpen => exact execEpisodeOpen_answers
  | shadowLoadComplete => exact execShadowLoadComplete_answers
  | predicateResolve => exact execPredicateResolve_answers
  | shadowPromote => exact execShadowPromote_answers
  | tileTranslate => exact execTileTranslate_answers
  | pageWalkRead => exact execPageWalkRead_answers
  | syncArrivalForward => exact execSyncArrivalForward_answers
  | releaseDecide => exact execReleaseDecide_answers
  | barrierRelease => exact execBarrierRelease_answers
  | stepCommitRelease => exact execStepCommitRelease_answers
  | kernelCompleteCore => exact execKernelCompleteCore_answers
  | kernelCompletePavilion => exact execKernelCompletePavilion_answers
  | kernelStart => exact execKernelStart_answers
  | runBegin => exact execRunBegin_answers
  | watchdogExpire => exact execWatchdogExpire_answers
  | pieceResident => exact execPieceResident_answers
  | sliceFillComplete => exact execSliceFillComplete_answers
  | pieceOverwrite => exact execPieceOverwrite_answers
  | mcServeAccess => exact execMcServeAccess_answers
  | refresh => exact execRefresh_answers
  | dramTemperatureReport => exact execDramTemperatureReport_answers
  | patrolScrubRead => exact execPatrolScrubRead_answers
  | lsRowRepair => exact execLsRowRepair_answers
  | spareChannelStart => exact execSpareChannelStart_answers
  | spareCopyComplete => exact execSpareCopyComplete_answers
  | channelFailure => exact execChannelFailure_answers
  | lsZeroComplete => exact execLsZeroComplete_answers
  | granuleZeroComplete => exact execGranuleZeroComplete_answers
  | bulkMessageArrive => exact execBulkMessageArrive_answers
  | replyArrive => exact execReplyArrive_answers
  | onpkgFlitError => exact execOnpkgFlitError_answers
  | onpkgLaneSpare => exact execOnpkgLaneSpare_answers
  | timeTick => exact execTimeTick_answers
  | timeBroadcast => exact execTimeBroadcast_answers
  | dlPortEnable => exact execDlPortEnable_answers
  | portTrainComplete => exact execPortTrainComplete_answers
  | dlLaneSpare => exact execDlLaneSpare_answers
  | dlSpareNow => exact execDlSpareNow_answers
  | portRetrainNarrow => exact execPortRetrainNarrow_answers
  | dataFlitReceive => exact execDataFlitReceive_answers
  | flitReplay => exact execFlitReplay_answers
  | syncFlitReceive => exact execSyncFlitReceive_answers
  | linkFlitReceive => exact execLinkFlitReceive_answers
  | portLeaveUp => exact execPortLeaveUp_answers
  | timestampExchange => exact execTimestampExchange_answers
  | dlPkgIdWrite => exact execDlPkgIdWrite_answers
  | dlRtDataWrite => exact execDlRtDataWrite_answers
  | dlQuiesce => exact execDlQuiesce_answers
  | dlSpanBaseWrite => exact execDlSpanBaseWrite_answers
  | windingAbortReceive => exact execWindingAbortReceive_answers
  | peerLossDetect => exact execPeerLossDetect_answers
  | spanDeliveryStart => exact execSpanDeliveryStart_answers
  | spanRollupCompare => exact execSpanRollupCompare_answers
  | regWindowEnd => exact execRegWindowEnd_answers
  | regScaleChange => exact execRegScaleChange_answers
  | regScaleRestore => exact execRegScaleRestore_answers
  | streamUrgencyChange => exact execStreamUrgencyChange_answers
  | identify => exact execIdentify_answers
  | pvCheck => exact execPvCheck_answers
  | pvApply => exact execPvApply_answers
  | applyPrepareDone => exact execApplyPrepareDone_answers
  | applyHold => exact execApplyHold_answers
  | applyCopyDone => exact execApplyCopyDone_answers
  | applyDrainTimeout => exact execApplyDrainTimeout_answers
  | epochFlip => exact execEpochFlip_answers
  | applyPavilionResume => exact execApplyPavilionResume_answers
  | invalidate => exact execInvalidate_answers
  | invalidateReceive => exact execInvalidateReceive_answers
  | invalidateDrainComplete => exact execInvalidateDrainComplete_answers
  | faultResolveRetry => exact execFaultResolveRetry_answers
  | faultResolveKill => exact execFaultResolveKill_answers
  | modelLoad => exact execModelLoad_answers
  | modelPin => exact execModelPin_answers
  | modelUnpin => exact execModelUnpin_answers
  | modelEvict => exact execModelEvict_answers
  | memCopy => exact execMemCopy_answers
  | run => exact execRun_answers
  | sessionCreate => exact execSessionCreate_answers
  | sessionMove => exact execSessionMove_answers
  | sessionMoveAbort => exact execSessionMoveAbort_answers
  | sessionCopyComplete => exact execSessionCopyComplete_answers
  | sessionCommit => exact execSessionCommit_answers
  | sessionClose => exact execSessionClose_answers
  | directoryRecordWrite => exact execDirectoryRecordWrite_answers
  | sessionDropReceive => exact execSessionDropReceive_answers
  | sessionOwnReceive => exact execSessionOwnReceive_answers
  | sessionSealReceive => exact execSessionSealReceive_answers
  | sessionServeReport => exact execSessionServeReport_answers
  | commitPendingTimeout => exact execCommitPendingTimeout_answers
  | sessionFetch => exact execSessionFetch_answers
  | renewalSend => exact execRenewalSend_answers
  | renewalReceive => exact execRenewalReceive_answers
  | leaseLapse => exact execLeaseLapse_answers
  | ownershipTakeover => exact execOwnershipTakeover_answers
  | poolLoss => exact execPoolLoss_answers
  | poolUnreachableTimeout => exact execPoolUnreachableTimeout_answers
  | mirrorUpdateComplete => exact execMirrorUpdateComplete_answers
  | directoryResyncComplete => exact execDirectoryResyncComplete_answers
  | pvDirCtlWrite => exact execPvDirCtlWrite_answers
  | windowRequestReceive => exact execWindowRequestReceive_answers
  | freeze => exact execFreeze_answers
  | freezeTakeHold => exact execFreezeTakeHold_answers
  | freezeTimeout => exact execFreezeTimeout_answers
  | thaw => exact execThaw_answers
  | save => exact execSave_answers
  | restore => exact execRestore_answers
  | pavReset => exact execPavReset_answers
  | resetTick => exact execResetTick_answers
  | pavResetReady => exact execPavResetReady_answers
  | pkgReset => exact execPkgReset_answers
  | warmReset => exact execWarmReset_answers
  | coldReset => exact execColdReset_answers
  | snapshot => exact execSnapshot_answers
  | snapshotTick => exact execSnapshotTick_answers
  | fingerprint => exact execFingerprint_answers
  | fingerprintTick => exact execFingerprintTick_answers
  | replayStop => exact execReplayStop_answers
  | replayRecord => exact execReplayRecord_answers
  | replayReplay => exact execReplayReplay_answers
  | powerQuery => exact execPowerQuery_answers
  | powerSetCap => exact execPowerSetCap_answers
  | powerNap => exact execPowerNap_answers
  | powerDoze => exact execPowerDoze_answers
  | powerActive => exact execPowerActive_answers
  | powerHold => exact execPowerHold_answers
  | powerLimitHalf => exact execPowerLimitHalf_answers
  | powerResetHalf => exact execPowerResetHalf_answers
  | fwStage => exact execFwStage_answers
  | fwActivate => exact execFwActivate_answers
  | fwActivatePause => exact execFwActivatePause_answers
  | fwImageReady => exact execFwImageReady_answers
  | fwActivateTimeout => exact execFwActivateTimeout_answers
  | restoreFactory => exact execRestoreFactory_answers
  | recoveryArm => exact execRecoveryArm_answers
  | recoveryDisarm => exact execRecoveryDisarm_answers
  | fwRcvGo => exact execFwRcvGo_answers
  | recoveryImageWritten => exact execRecoveryImageWritten_answers
  | fwBootComplete => exact execFwBootComplete_answers
  | bootReadyTimeout => exact execBootReadyTimeout_answers
  | mbHchResume => exact execMbHchResume_answers
  | hostChannelError => exact execHostChannelError_answers
  | pcieCompletionTimeout => exact execPcieCompletionTimeout_answers
  | hostDeliveryComplete => exact execHostDeliveryComplete_answers
  | evtTailWrite => exact execEvtTailWrite_answers
  | evtOverflowClear => exact execEvtOverflowClear_answers
  | mmuFltData0Read => exact execMmuFltData0Read_answers
  | mmuFltSelWrite => exact execMmuFltSelWrite_answers
  | timeNowLowRead => exact execTimeNowLowRead_answers
  | rgPavStatRead => exact execRgPavStatRead_answers
  | pvTableBaseWrite => exact execPvTableBaseWrite_answers
  | mmuWinBaseWrite => exact execMmuWinBaseWrite_answers
  | pvPoolBaseWrite => exact execPvPoolBaseWrite_answers
  | streamEnable => exact execStreamEnable_answers
  | streamDisable => exact execStreamDisable_answers
  | streamInFrame => exact execStreamInFrame_answers
  | streamInDeviceWrite => exact execStreamInDeviceWrite_answers
  | streamOutPoll => exact execStreamOutPoll_answers
  | streamOutFrame => exact execStreamOutFrame_answers
  | pwrPadReleaseWrite => exact execPwrPadReleaseWrite_answers
  | pwrCapWrite => exact execPwrCapWrite_answers
  | snapFreeWrite => exact execSnapFreeWrite_answers
  | pkgFatalClear => exact execPkgFatalClear_answers
  | bar2Read => exact execBar2Read_answers
  | bar2Write => exact execBar2Write_answers
  | registerWrite => exact execRegisterWrite_answers
  | energyInterval => exact execEnergyInterval_answers
  | telemetryRead => exact execTelemetryRead_answers
  | avsResponse => exact execAvsResponse_answers
  | avsTimeout => exact execAvsTimeout_answers
  | divisorChange => exact execDivisorChange_answers
  | escapementStep => exact execEscapementStep_answers
  | droopDetect => exact execDroopDetect_answers
  | droopRecover => exact execDroopRecover_answers
  | supplyResetDip => exact execSupplyResetDip_answers
  | thermalThrottleStep => exact execThermalThrottleStep_answers
  | thermalRelaxStep => exact execThermalRelaxStep_answers
  | thermalClamp => exact execThermalClamp_answers
  | thermtrip => exact execThermtrip_answers
  | thermtripClear => exact execThermtripClear_answers
  | ageingMeasure => exact execAgeingMeasure_answers
  | domainIdleOff => exact execDomainIdleOff_answers
  | calibrationWrite => exact execCalibrationWrite_answers
  | pmeTurnOff => exact execPmeTurnOff_answers
  | smbusWakeMatch => exact execSmbusWakeMatch_answers
  | refclkStop => exact execRefclkStop_answers
  | refclkValid => exact execRefclkValid_answers
  | pwrgdInAssert => exact execPwrgdInAssert_answers
  | powerLoss => exact execPowerLoss_answers
  | perstNAssert => exact execPerstNAssert_answers
  | perstNRelease => exact execPerstNRelease_answers
  | pcieLinkDown => exact execPcieLinkDown_answers
  | vfFlr => exact execVfFlr_answers
  | pf0Flr => exact execPf0Flr_answers
  | vfEnableClear => exact execVfEnableClear_answers
  | dieHalfResetStart => exact execDieHalfResetStart_answers
  | dieHalfReady => exact execDieHalfReady_answers
  | cpWatchdogExpire => exact execCpWatchdogExpire_answers
  | cpRecoveryDone => exact execCpRecoveryDone_answers
  | pkgUnitUncorrectable => exact execPkgUnitUncorrectable_answers
  | coreSpare => exact execCoreSpare_answers
  | coreSpareCopyDone => exact execCoreSpareCopyDone_answers
  | coreDeath => exact execCoreDeath_answers
  | smbusMctp => exact execSmbusMctp_answers
  | smbusWarmReset => exact execSmbusWarmReset_answers
  | smbusColdReset => exact execSmbusColdReset_answers
  | smbusStatusRead => exact execSmbusStatusRead_answers
  | smbusAlertResponse => exact execSmbusAlertResponse_answers
  | smbusRcvOffset => exact execSmbusRcvOffset_answers
  | smbusRcvWrite => exact execSmbusRcvWrite_answers
  | smbusRcvStart => exact execSmbusRcvStart_answers
  | smbusRcvStatus => exact execSmbusRcvStatus_answers
  | getVersion => exact execGetVersion_answers
  | getCapabilities => exact execGetCapabilities_answers
  | negotiateAlgorithms => exact execNegotiateAlgorithms_answers
  | getDigests => exact execGetDigests_answers
  | getCertificate => exact execGetCertificate_answers
  | challenge => exact execChallenge_answers
  | getMeasurements => exact execGetMeasurements_answers
  | keyExchange => exact execKeyExchange_answers
  | finish => exact execFinish_answers
  | heartbeat => exact execHeartbeat_answers
  | keyUpdate => exact execKeyUpdate_answers
  | endSession => exact execEndSession_answers
  | chunkSend => exact execChunkSend_answers
  | chunkGet => exact execChunkGet_answers
  | spdmUnsupportedRequest => exact execSpdmUnsupportedRequest_answers
  | getKemCert => exact execGetKemCert_answers
  | installHostKey => exact execInstallHostKey_answers
  | removeHostKey => exact execRemoveHostKey_answers
  | releaseModel => exact execReleaseModel_answers
  | revokeModel => exact execRevokeModel_answers
  | installImageKey => exact execInstallImageKey_answers
  | removeImageKey => exact execRemoveImageKey_answers
  | undefinedEncoding => exact execUndefinedEncoding_answers
  | mbUnknown => exact execMbUnknown_answers
  | pcieCompletionReceive => exact execPcieCompletionReceive_answers
  | pcieLinkUp => exact execPcieLinkUp_answers
  | vfEnableSet => exact execVfEnableSet_answers
  | refclkReturn => exact execRefclkReturn_answers
  | bridgeLaneRepair => exact execBridgeLaneRepair_answers
  | fwSlotWritten => exact execFwSlotWritten_answers

/-- Settles O59: what each command answers is one lemma, `exec_answers`. -/
theorem everyCommandAnswersANextState : Obligations.EveryCommandAnswersANextState := by
  unfold Obligations.EveryCommandAnswersANextState
  intro c s
  obtain ⟨hgoes, hfault⟩ := exec_answers c s
  exact ⟨fun hw => let ⟨t, e, _⟩ := hgoes hw; ⟨t, e⟩, hfault⟩

theorem Answers.kept {s t : State} {wf : Bool} {o : Host.Outcome State Fault Refusal} (h : Answers wf s o) (e : o = .next t) : Kept s t := by
  cases wf
  · rw [h.2 rfl] at e; cases e
  · obtain ⟨u, e', hu⟩ := h.1 rfl
    rw [e'] at e; cases e; exact hu

/-- What the hub serves next waits at it. -/
theorem Hub.next_mem {h : Hub} : ∀ x ∈ h.next, x ∈ h.requests := by
  unfold Hub.next
  refine List.foldlRecOn (motive := fun b => ∀ y ∈ b, y ∈ h.requests) h.requests _ Kept.ofNone fun b hb a ha => ?_
  cases b with
  | none => exact Kept.ofSome ha
  | some w =>
    dsimp only
    split
    · exact Kept.ofSome ha
    · exact hb

/-- The hub's turn puts at most one of the requests that wait at it in the queue, and keeps the rest. -/
theorem hubServe_kept (s : State) :
    (s.hubServe.pending = s.pending ∨ ∃ x ∈ s.net.hub.requests, s.hubServe.pending = s.pending ++ [x.2]) ∧
      Kept { s with pending := s.hubServe.pending } s.hubServe := by
  unfold State.hubServe
  dsimp only
  split
  · exact ⟨.inl rfl, Kept.refl.update rfl⟩
  · split
    · exact ⟨.inl rfl, .refl⟩
    · next x e => exact ⟨.inr ⟨x, Hub.next_mem x e, rfl⟩, Kept.refl.update rfl⟩

/-- A step keeps everything but the queue, which it takes the front off, or fills from the hub. -/
theorem step_kept {s t : State} (e : step s = .next t) :
    ∃ q, (q = s.pending.tail ∨ (s.pending = [] ∧ ∃ x ∈ s.net.hub.requests, q = [x.2])) ∧ Kept { s with pending := q } t := by
  unfold step at e
  split at e
  · next hp =>
    cases e
    obtain ⟨hq, hk⟩ := hubServe_kept s
    rw [hp] at hq ⊢
    exact ⟨_, hq.imp id fun hx => ⟨rfl, hx⟩, hk⟩
  · next c rest hp =>
    rw [hp]
    exact ⟨rest, .inl rfl, (exec_answers c _).kept e⟩

/-- Settles O60: every operation over the state extends the relation `Kept`, so every command and every step does. -/
theorem everyStepKeepsWhatNoCommandMayChange : Obligations.EveryStepKeepsWhatNoCommandMayChange := by
  unfold Obligations.EveryStepKeepsWhatNoCommandMayChange
  intro s t e
  obtain ⟨q, hq, hk⟩ := step_kept e
  exact ⟨hk.fuse, hk.pending ▸ hq, hk.floor, hk.mem, hk.posts⟩

end Sys2Proof.Machine
end

section
/-! SUPPORT. The state right after a cold reset, against the values that the registers' tables give. -/

namespace Sys2Proof.Machine

/-- An entry of zeros binds no pavilion (R261). -/
theorem not_bound_default : ({} : Pav).bound = false :=
  congrArg (fun n => bits n 0 0 == 1) BitVec.toNat_zero

/-- Settles O57, by evaluating each register at the state after a cold reset. -/
theorem resetLeavesTheRegisterValues : Obligations.ResetLeavesTheRegisterValues := by
  refine ⟨rfl, ⟨fun _ => rfl, nofun⟩, rfl, rfl, fun _ => ⟨not_bound_default, rfl⟩, fun _ => rfl, rfl, ?_⟩
  decide

end Sys2Proof.Machine
end

section
/-! SUPPORT. A write through BAR2 that runs from a page table into the frame that the table's entry seals. -/

namespace Sys2Proof.Machine

/-- The own channel set of pavilion 0 stands behind BAR2. Its page 0 is the page table of every level: entry 0 leads back to the page, and
entry 8,191, the last, maps the page of a sealed slice to the frame that follows the table. -/
def sealedBehindTable : State :=
  { regs := { bar2Win := 512 }
    pavs := [(0, { entry := BitVec.ofNat 2048 (2 ^ 352 + 2 ^ 384), slices := [(0, { home := 8191 * 65536, pieces := 1, key := some 0 })] })]
    beds := { mem := [(0, 1), (65528, 2), (65530, 1)] } }

/-- The write clears entry 8,191 and stores one more byte. -/
def acrossTable : Instr := .bar2Write (hostArea + 65528) [0, 0, 0, 0, 0, 0, 0, 0, 7]

/-- Before the write the frame is sealed, so BAR2 gives its first byte, at key 65,536, no place. -/
theorem barKey_sealedBehindTable : ∀ i, i < 9 → sealedBehindTable.barKey (hostArea + 65528 + i) ≠ some 65536 := by decide +kernel

/-- When the last byte comes the entry is clear, and the frame is no longer sealed. -/
theorem read_acrossTable : Mem.read (after (exec acrossTable sealedBehindTable) sealedBehindTable).beds.mem 65536 = 7 := by decide +kernel

/-- Refutes O50: the write's bytes are placed one after the other, each in the state that those before it left, so a write that clears the
page-table entry of a sealed slice changes a byte of the frame that was sealed, outside the range that BAR2 gave it. -/
theorem not_registersAndBarsAnswer : ¬ Obligations.RegistersAndBarsAnswer := by
  unfold Obligations.RegistersAndBarsAnswer
  intro h
  obtain ⟨-, -, -, -, -, hwrite⟩ := h sealedBehindTable (by decide)
  obtain ⟨t, ht, -, -, -, hframe, -⟩ := hwrite (hostArea + 65528) [0, 0, 0, 0, 0, 0, 0, 0, 7] (by decide) (by decide +kernel)
  have hread : Mem.read t.beds.mem 65536 = 7 := by
    have h7 := read_acrossTable
    rwa [show exec acrossTable sealedBehindTable = .next t from ht] at h7
  exact absurd (hread.symm.trans (hframe 65536 barKey_sealedBehindTable)) (by decide)

end Sys2Proof.Machine
end

section
/-! SUPPORT. What stands while messages go out, pools are lost and pavilions are marked: cores, bindable sets, copies to spares, local
stores, power, and every pavilion's entry and reset. -/

namespace Sys2Proof.Machine

variable {s t u : State}

/-! ## Folds -/

/-- What each step of a fold leaves alone, the fold leaves alone. -/
theorem foldl_unchanged {α β : Type} (g : State → α) {f : State → β → State} (hf : ∀ u x, g (f u x) = g u) (l : List β) (s : State) :
    g (l.foldl f s) = g s := by
  induction l generalizing s with
  | nil => rfl
  | cons x l ih => exact (ih (f s x)).trans (hf s x)

/-- What a step brings about for its own element, and no step undoes, holds of every element after the fold. -/
theorem foldl_reaches {β : Type} {P : β → State → Prop} {f : State → β → State} (hit : ∀ u x, P x (f u x))
    (stay : ∀ u x y, P x u → P x (f u y)) {l : List β} {x : β} (hx : x ∈ l) (s : State) : P x (l.foldl f s) := by
  have kept : ∀ (l : List β) (u : State), P x u → P x (l.foldl f u) := fun l => by
    induction l with
    | nil => exact fun _ h => h
    | cons y l ih => exact fun u h => ih _ (stay u x y h)
  induction l generalizing s with
  | nil => cases hx
  | cons y l ih =>
    rcases List.mem_cons.1 hx with rfl | hx
    · exact kept l _ (hit s x)
    · exact ih hx (f s y)

/-! ## What functions and links are told -/

/-- The state `s` with what `u` holds of functions, interrupts and links. -/
def State.telling (s u : State) : State :=
  { s with fns := u.fns, orphans := u.orphans, irqs := u.irqs, ports := u.ports, links := u.links }

/-- From `s` to `t` functions and links alone are told something: nothing else changes. -/
structure Told (s t : State) : Prop where
  eq : t = s.telling t

namespace Told

theorem refl : Told s s := ⟨rfl⟩

/-- An update of what functions and links hold. -/
theorem update (h : Told s t) (e : u = t.telling u) : Told s u := by
  obtain ⟨h⟩ := h
  rw [h] at e
  exact ⟨e⟩

theorem ite {c : Prop} [Decidable c] {a b : State} (ha : Told s a) (hb : Told s b) : Told s (if c then a else b) := by
  split
  · exact ha
  · exact hb

theorem foldl {α : Type} {f : State → α → State} {l : List α} (h : Told s t) (hf : ∀ u x, Told s u → Told s (f u x)) :
    Told s (l.foldl f t) := by
  induction l generalizing t with
  | nil => exact h
  | cons x l ih => exact ih (hf _ _ h)

theorem net (h : Told s t) : t.net = s.net := (congrArg State.net h.eq).trans rfl
theorem beds (h : Told s t) : t.beds = s.beds := (congrArg State.beds h.eq).trans rfl
theorem pavs (h : Told s t) : t.pavs = s.pavs := (congrArg State.pavs h.eq).trans rfl
theorem pav (h : Told s t) (p : Nat) : t.pav p = s.pav p := (congrArg (State.pav · p) h.eq).trans rfl
theorem core (h : Told s t) (c : Nat) : t.core c = s.core c := (congrArg (State.core · c) h.eq).trans rfl
theorem cores (h : Told s t) : t.cores = s.cores := (congrArg State.cores h.eq).trans rfl
theorem strands (h : Told s t) : t.strands = s.strands := (congrArg State.strands h.eq).trans rfl
theorem bindSet (h : Told s t) (k : Nat) : t.bindSet k = s.bindSet k := (congrArg (State.bindSet · k) h.eq).trans rfl
theorem half (h : Told s t) (d : Nat) : t.half d = s.half d := (congrArg (State.half · d) h.eq).trans rfl
theorem cause (h : Told s t) : t.cause = s.cause := (congrArg State.cause h.eq).trans rfl
theorem boot (h : Told s t) : t.boot = s.boot := (congrArg State.boot h.eq).trans rfl
theorem cp (h : Told s t) : t.cp = s.cp := (congrArg State.cp h.eq).trans rfl

theorem setFn {f : Nat} {x : Fn} (h : Told s t) : Told s (t.setFn f x) := h.update rfl

theorem setPort {p : Nat} {x : Port} (h : Told s t) : Told s (t.setPort p x) := h.update rfl

theorem sendVector {f v : Nat} (h : Told s t) : Told s (t.sendVector f v) := .ite h.setFn (h.update rfl)

theorem raise {f code pav detail : Nat} (h : Told s t) : Told s (t.raise f code pav detail) :=
  .ite h.setFn (.ite h.setFn.sendVector h.setFn)

theorem raisePf0 {code pav detail : Nat} (h : Told s t) : Told s (t.raisePf0 code pav detail) := h.raise

theorem raisePav {p code detail : Nat} (h : Told s t) : Told s (t.raisePav p code detail) := h.raise

theorem complete {k status : Nat} {rsp : List Nat} (h : Told s t) : Told s (t.complete k status rsp) :=
  .ite h (.ite (h.update rfl) (.ite h.setFn.sendVector h.setFn))

theorem sendOut {m : BulkMsg} (h : Told s t) : Told s (t.sendOut m) := by
  rw [State.sendOut]
  split
  · exact h.setPort
  · exact h.update rfl

theorem syncForward {i : SyncItem} (h : Told s t) : Told s (t.syncForward i) := by
  rw [State.syncForward]
  split <;> exact h.update rfl

theorem syncSend {pkg : Nat} {m : SyncMsg} (h : Told s t) : Told s (t.syncSend pkg m) :=
  .ite (h.update rfl) (.syncForward (h.update rfl))

theorem syncAll {p : Nat} {m : SyncMsg} (h : Told s t) : Told s (t.syncAll p m) :=
  h.foldl fun _ _ hu => .ite hu hu.syncSend

end Told

/-! ## What stands -/

/-- The state `u` with what `t` holds of fuses, cores, bindable sets, copies to spares, the reset cause, power, local stores and pavilions. -/
def State.standing (t u : State) : State :=
  { u with
    fuse := t.fuse, cores := t.cores, bindSets := t.bindSets, sparing := t.sparing, cause := t.cause, power := t.power, pavs := t.pavs
    beds := { u.beds with ls := t.beds.ls } }

/-- From `s` to `t` fuses, cores, bindable sets, copies to spares, the reset cause, power and local stores are as before, every pavilion has the
entry it had, and none that resets has ceased to. -/
structure Stands (s t : State) : Prop where
  fuse : t.fuse = s.fuse
  cores : t.cores = s.cores
  bindSets : t.bindSets = s.bindSets
  sparing : t.sparing = s.sparing
  cause : t.cause = s.cause
  power : t.power = s.power
  ls : t.beds.ls = s.beds.ls
  entry : ∀ p, (t.pav p).entry = (s.pav p).entry
  resetting : ∀ p, (s.pav p).resetting.isSome = true → (t.pav p).resetting.isSome = true

namespace Stands

theorem refl : Stands s s := ⟨rfl, rfl, rfl, rfl, rfl, rfl, rfl, fun _ => rfl, fun _ => id⟩

theorem trans (h : Stands s t) (h' : Stands t u) : Stands s u where
  fuse := h'.fuse.trans h.fuse
  cores := h'.cores.trans h.cores
  bindSets := h'.bindSets.trans h.bindSets
  sparing := h'.sparing.trans h.sparing
  cause := h'.cause.trans h.cause
  power := h'.power.trans h.power
  ls := h'.ls.trans h.ls
  entry p := (h'.entry p).trans (h.entry p)
  resetting p := h'.resetting p ∘ h.resetting p

/-- An update of any other part of the state. -/
theorem update (h : Stands s t) (e : u = t.standing u) : Stands s u := by
  rw [e]
  exact h.trans ⟨rfl, rfl, rfl, rfl, rfl, rfl, rfl, fun _ => rfl, fun _ => id⟩

theorem told (h : Stands s t) (h' : Told t u) : Stands s u := by
  rw [h'.eq]
  exact h.update rfl

theorem ite {c : Prop} [Decidable c] {a b : State} (ha : Stands s a) (hb : Stands s b) : Stands s (if c then a else b) := by
  split
  · exact ha
  · exact hb

theorem foldl {α : Type} {f : State → α → State} {l : List α} (h : Stands s t) (hf : ∀ u x, Stands s u → Stands s (f u x)) :
    Stands s (l.foldl f t) := by
  induction l generalizing t with
  | nil => exact h
  | cons x l ih => exact ih (hf _ _ h)

theorem core (h : Stands s t) (c : Nat) : t.core c = s.core c := by simp only [State.core, h.cores]

theorem bindSet (h : Stands s t) (k : Nat) : t.bindSet k = s.bindSet k := by simp only [State.bindSet, h.fuse, h.bindSets]

theorem bound (h : Stands s t) (p : Nat) : (t.pav p).bound = (s.pav p).bound := by simp only [Pav.bound, Pav.fld, h.entry]

theorem ownChannels (h : Stands s t) (p : Nat) : (t.pav p).ownChannels = (s.pav p).ownChannels := by
  unfold Pav.ownChannels Pav.channels Pav.chOwn Pav.chMask Pav.fld
  rw [h.entry]

/-- Where a pavilion's cores and channels lie follows from the cores and its entry (R506). -/
theorem inHalf (h : Stands s t) (p d : Nat) : t.inHalf p d = s.inHalf p d := by
  unfold State.inHalf State.coresOf
  rw [h.cores, h.ownChannels]

/-! ### What functions and links are told -/

theorem setPort {p : Nat} {x : Port} (h : Stands s t) : Stands s (t.setPort p x) := h.update rfl
theorem raisePf0 {code pav detail : Nat} (h : Stands s t) : Stands s (t.raisePf0 code pav detail) := h.told Told.refl.raisePf0
theorem raisePav {p code detail : Nat} (h : Stands s t) : Stands s (t.raisePav p code detail) := h.told Told.refl.raisePav
theorem complete {k status : Nat} {rsp : List Nat} (h : Stands s t) : Stands s (t.complete k status rsp) := h.told Told.refl.complete
theorem sendOut {m : BulkMsg} (h : Stands s t) : Stands s (t.sendOut m) := h.told Told.refl.sendOut
theorem syncForward {i : SyncItem} (h : Stands s t) : Stands s (t.syncForward i) := h.told Told.refl.syncForward
theorem syncSend {pkg : Nat} {m : SyncMsg} (h : Stands s t) : Stands s (t.syncSend pkg m) := h.told Told.refl.syncSend
theorem syncAll {p : Nat} {m : SyncMsg} (h : Stands s t) : Stands s (t.syncAll p m) := h.told Told.refl.syncAll

/-! ### Pavilions -/

/-- A pavilion changes but for its entry, and does not cease to reset. -/
theorem modPav {p : Nat} {f : Pav → Pav} (h : Stands s t) (he : (f (t.pav p)).entry = (t.pav p).entry)
    (hr : (t.pav p).resetting.isSome = true → (f (t.pav p)).resetting.isSome = true) : Stands s (t.modPav p f) := by
  have hp : ∀ q, ((t.modPav p f).pav q).entry = (t.pav q).entry ∧
      ((t.pav q).resetting.isSome = true → ((t.modPav p f).pav q).resetting.isSome = true) := fun q => by
    by_cases hq : q = p
    · subst hq
      simpa only [State.modPav, State.pav_setPav_self] using ⟨he, hr⟩
    · simp only [State.modPav, State.pav_setPav_ne _ _ _ _ hq, true_and]
      exact id
  exact h.trans ⟨rfl, rfl, rfl, rfl, rfl, rfl, rfl, fun q => (hp q).1, fun q => (hp q).2⟩

theorem startReset {p cause loc : Nat} {slots : List Nat} (h : Stands s t) : Stands s (t.startReset p cause loc slots) := by
  refine h.modPav ?_ fun _ => ?_ <;> split <;> rfl

theorem unrepeatable {p cause : Nat} (h : Stands s t) : Stands s (t.unrepeatable p cause) :=
  .ite h (h.modPav rfl id)

theorem voidStart {p : Nat} (h : Stands s t) : Stands s (t.voidStart p) :=
  .ite (h.modPav rfl id).syncSend (h.modPav rfl id)

theorem freezeNow {p : Nat} (h : Stands s t) : Stands s (t.freezeNow p) := by
  unfold State.freezeNow
  extract_lets v c s1 s2 s3
  have suspended : Stands s s1 := h.foldl fun u r hu => by
    split
    · exact hu.complete
    · exact hu
  clear_value s1
  have frozen : Stands s s3 := (suspended.modPav rfl id).voidStart.foldl fun _ _ hu => hu.complete
  exact .ite (frozen.update rfl) frozen

theorem freezeWaiting {p : Nat} (h : Stands s t) : Stands s (t.freezeWaiting p) := .ite h.freezeNow h

/-! ### Beds -/

/-- The beds change but for local stores. -/
theorem modBeds {f : Beds → Beds} (h : Stands s t) (hf : (f t.beds).ls = t.beds.ls) : Stands s (t.modBeds f) :=
  h.trans ⟨rfl, rfl, rfl, rfl, rfl, rfl, hf, fun _ => rfl, fun _ => id⟩

theorem zeroCs {p a n : Nat} (h : Stands s t) : Stands s (t.zeroCs p a n) := by
  unfold State.zeroCs
  exact h.modBeds rfl

theorem writeCs {p a : Nat} {bs : List Byte} (h : Stands s t) : Stands s (t.writeCs p a bs) := by
  unfold State.writeCs
  exact h.modBeds rfl

theorem logMem {kind loc whereAt : Nat} (h : Stands s t) : Stands s (t.logMem kind loc whereAt) :=
  .ite (h.modBeds rfl).raisePf0 (h.modBeds rfl)

theorem killSram {p core row : Nat} (h : Stands s t) : Stands s (t.killSram p core row) :=
  (h.modBeds rfl).logMem.startReset

theorem killOwner {q key : Nat} (h : Stands s t) : Stands s (t.killOwner q key) :=
  (h.modBeds rfl).logMem.startReset

/-! ### Messages within the package and to others -/

theorem carry {m : BulkMsg} {src dst n : Nat} (h : Stands s t) : Stands s (t.carry m src dst n) :=
  (h.foldl fun _ _ hu => hu.unrepeatable).update rfl

theorem background {src dst n : Nat} (h : Stands s t) : Stands s (t.background src dst n) := h.carry.carry

theorem modNet {f : Net → Net} (h : Stands s t) : Stands s (t.modNet f) := h.update rfl

theorem leave {src : Nat} {m : BulkMsg} (h : Stands s t) : Stands s (t.leave src m) := by
  unfold State.leave
  split
  · exact h.carry.sendOut
  · exact h.sendOut

theorem request {q : Sent} (h : Stands s t) : Stands s (t.request q) := .ite h.modNet.leave h.modNet

theorem sendPoolOf {pav : Option Nat} {num pkg : Nat} {m : PoolMsg} {bytes : List Byte} {last : Bool} (h : Stands s t) :
    Stands s (t.sendPoolOf pav num pkg m bytes last) := h.request

theorem sendPool {pkg : Nat} {m : PoolMsg} {bytes : List Byte} (h : Stands s t) : Stands s (t.sendPool pkg m bytes) :=
  .ite (h.foldl fun _ _ hu => hu.sendPoolOf) (.ite h.sendPoolOf (h.foldl fun _ _ hu => hu.sendPoolOf))

/-! ### Pools and their pages -/

theorem modPool {i : Nat} {f : Pool → Pool} (h : Stands s t) : Stands s (t.modPool i f) := h.update rfl

theorem modHolding {i id : Nat} {f : Holding → Holding} (h : Stands s t) : Stands s (t.modHolding i id f) := h.modPool

theorem mmuFault {p id : Nat} {page : Word64} (h : Stands s t) : Stands s (t.mmuFault p id page) := h.raisePav

theorem recordFault {p : Nat} {w : Waiter} (h : Stands s t) : Stands s (t.recordFault p w) := by
  rw [State.recordFault]
  split
  · exact .ite (h.modPav rfl id).mmuFault (h.modPav rfl id)
  · split
    · exact h.modPav rfl id
    · exact (h.modPav rfl id).mmuFault

theorem recordAt {p dva : Nat} {a : Access} {data : Option (Nat × List Byte)} (h : Stands s t) : Stands s (t.recordAt p dva a data) := by
  rw [State.recordAt]
  split
  · exact h
  · exact .ite h h.recordFault

theorem writePool {i page off : Nat} {bs : List Byte} (h : Stands s t) : Stands s (t.writePool i page off bs) := by
  unfold State.writePool
  refine h.foldl fun _ _ hu => ?_
  dsimp only
  split
  · refine .ite hu ?_
    split
    · exact hu.killOwner
    · exact hu.writeCs
  · exact .ite hu hu.recordAt

theorem writeLists {i : Nat} {pages ls : List Nat} (h : Stands s t) : Stands s (t.writeLists i pages ls) := by
  induction ls generalizing t pages with
  | nil => exact h
  | cons l ls ih => exact ih h.writePool

theorem zeroPages {i : Nat} {ps : List Nat} (h : Stands s t) : Stands s (t.zeroPages i ps) :=
  h.foldl fun _ _ hu => hu.foldl fun _ a hv => by
    cases a with
    | none => exact hv
    | some a => exact hv.zeroCs

theorem freePages {i id : Nat} (h : Stands s t) : Stands s (t.freePages i id) := by
  rw [State.freePages]
  split
  · exact h
  · exact h.zeroPages.modPool

theorem trimPages {i id n lists : Nat} (h : Stands s t) : Stands s (t.trimPages i id n lists) := by
  rw [State.trimPages]
  split
  · exact h
  · exact .ite h.zeroPages.modPool.writeLists h.zeroPages.modPool

theorem markHolding {i id st : Nat} (h : Stands s t) : Stands s (t.markHolding i id st) := by
  rw [State.markHolding]
  split
  · exact h
  · exact h.modPool

theorem allDirty {i id : Nat} (h : Stands s t) : Stands s (t.allDirty i id) := by
  rw [State.allDirty, State.markDirty]
  split
  · exact h
  · exact h.modPool

/-! ### The session directory -/

theorem modDir {f : Dir → Dir} (h : Stands s t) : Stands s (t.modDir f) := h.update rfl

theorem modSession {id : Nat} {f : Session → Session} (h : Stands s t) : Stands s (t.modSession id f) := h.modDir

theorem change {id : Nat} {why : Change} {new : Option Session} {asker : Option Nat} (h : Stands s t) : Stands s (t.change id why new asker) :=
  .ite h.modDir.sendPool h.modDir

theorem releasePool {name id : Nat} (h : Stands s t) : Stands s (t.releasePool name id) := .ite h.freePages h.sendPool

theorem sessionDone {k status : Nat} {rsp : List Nat} (h : Stands s t) : Stands s (t.sessionDone k status rsp) := by
  refine .ite h.complete ?_
  split
  · exact h
  · exact h.modDir.sendOut

theorem unextend {id : Nat} {r : Session} (h : Stands s t) : Stands s (t.unextend id r) :=
  .foldl (.ite h.trimPages h.sendPool) fun _ _ hu => .ite hu (.ite hu.trimPages hu.sendPool)

theorem endJob {j : Job} (h : Stands s t) : Stands s (t.endJob j) := by
  rw [State.endJob]
  split
  · split
    · exact h
    · exact .ite h (.ite (.ite h.modSession h.modSession.sendPool) h.sessionDone.modSession.change)
  · exact h.sessionDone
  · exact h.sessionDone
  · exact .ite h.change h.modSession
  · refine .ite h.change ?_
    split
    · exact h.unextend.sessionDone
    · exact h.sessionDone
  · exact .ite h.change (h.foldl fun _ _ hu => hu.releasePool.releasePool).sessionDone

theorem closeAnswer {name : Nat} {session : Option Nat} (h : Stands s t) : Stands s (t.closeAnswer name session) :=
  h.modDir.foldl fun _ _ hu => hu.endJob

theorem tryServe {i id : Nat} (h : Stands s t) : Stands s (t.tryServe i id) := by
  rw [State.tryServe]
  split
  · exact h
  · exact .ite h (.ite h.markHolding h.markHolding.sendPool)

theorem adoptMirror {i id epoch : Nat} (h : Stands s t) : Stands s (t.adoptMirror i id epoch) := by
  rw [State.adoptMirror]
  split
  · exact h
  · exact h.modPool.writeLists

theorem ownPool {i id epoch : Nat} {fetch whole : Bool} (h : Stands s t) : Stands s (t.ownPool i id epoch fetch whole) := by
  rw [State.ownPool]
  split
  · exact h.modHolding
  · exact h.modHolding.tryServe
  · exact h.markHolding.modHolding
  · exact h.modHolding
  · exact .ite h h.adoptMirror

theorem grantPool {name id epoch : Nat} {fetch marks : Bool} (h : Stands s t) : Stands s (t.grantPool name id epoch fetch marks) :=
  have granted := Stands.ite h.markHolding.modHolding h.ownPool
  .ite (.ite granted.allDirty granted) h.sendPool

theorem endFills {target id : Nat} (h : Stands s t) : Stands s (t.endFills target id) :=
  .foldl (h.update rfl) fun _ _ hu => hu.sendOut

theorem ownerLost {id : Nat} {r : Session} (h : Stands s t) : Stands s (t.ownerLost id r) :=
  have released := h.foldl fun _ _ hu => hu.releasePool
  .ite (Stands.ite released.releasePool.endFills released).change (Stands.ite released.releasePool.endFills released).change

theorem sessionLoses {name id : Nat} {r : Session} (h : Stands s t) : Stands s (t.sessionLoses name id r) :=
  .ite h (.ite (.ite h h.ownerLost) (.ite h.change (.ite (.ite h.modSession
    (.ite h.modSession.modSession.grantPool (.ite h.modSession.change h.modSession.grantPool))) (.ite h.modSession h))))

theorem losePool {name : Nat} (h : Stands s t) : Stands s (t.losePool name) := by
  unfold State.losePool
  extract_lets i mine s1 ours s3 s4
  have gone : Stands s s1 := .ite h.zeroPages.modPool h.closeAnswer
  have raised : Stands s s3 := .ite gone.raisePf0 gone
  have sent : Stands s s4 := .ite (raised.foldl fun _ _ hu => hu.sendPool) raised
  refine sent.foldl fun u x hu => ?_
  split
  · exact hu.sessionLoses
  · exact hu

theorem losePoolsOf {p : Nat → Bool} (h : Stands s t) : Stands s (t.losePoolsOf p) := h.foldl fun _ _ hu => hu.losePool

/-! ### Spans and ports -/

theorem sayDown {p : Nat} (h : Stands s t) : Stands s (t.sayDown p) := (h.modPav rfl id).foldl fun _ _ hu => hu.syncSend

theorem abortSpan {p : Nat} (h : Stands s t) : Stands s (t.abortSpan p) := by
  unfold State.abortSpan
  extract_lets v s1
  have said : Stands s s1 := h.syncAll
  clear_value s1
  exact .ite h (.ite h.sayDown (said.modPav rfl id).raisePav)

theorem abortSpans {which : Nat → Bool} (h : Stands s t) : Stands s (t.abortSpans which) := h.foldl fun _ _ hu => hu.abortSpan

theorem sayReady {p r : Nat} (h : Stands s t) : Stands s (t.sayReady p r) := .ite h (h.modPav rfl id).syncSend

theorem tryReady {p : Nat} (h : Stands s t) : Stands s (t.tryReady p) := .ite h (h.modPav rfl id).modNet.raisePav

theorem peerReset {p : Nat} (h : Stands s t) : Stands s (t.peerReset p) := by
  unfold State.peerReset
  extract_lets s1
  have waits : Stands s s1 := h.foldl fun u x hu => by
    split
    · exact hu.update rfl
    · exact hu.update rfl
    · exact hu
  exact waits.modPav rfl id

theorem dropSpanTraffic {p : Nat} (h : Stands s t) : Stands s (t.dropSpanTraffic p) := h.update rfl

theorem faultSpan {p rank : Nat} (h : Stands s t) : Stands s (t.faultSpan p rank) :=
  .ite h (h.modPav rfl id).dropSpanTraffic.peerReset.raisePav.startReset

theorem reviewSpan {p : Nat} (h : Stands s t) : Stands s (t.reviewSpan p) := by
  unfold State.reviewSpan
  extract_lets v s1
  have down : Stands s s1 := .ite h h.sayDown
  have said : Stands s (v.others.foldl (fun s r => if v.span.said.contains r then s else s.sayReady p r) s1) :=
    down.foldl fun _ _ hu => .ite hu hu.sayReady
  refine .ite h ?_
  split
  · exact .ite down.faultSpan said
  · exact .ite down said.tryReady

theorem rerouted (h : Stands s t) : Stands s t.rerouted :=
  (h.foldl fun _ _ hu => hu.reviewSpan).foldl fun _ _ hu => .ite hu (hu.foldl fun _ _ hv => hv.syncSend)

theorem leaveUp {p st : Nat} {orderly resend : Bool} (h : Stands s t) : Stands s (t.leaveUp p st orderly resend) :=
  .ite h.setPort (Stands.ite ((h.setPort.foldl fun _ _ hu => hu.syncForward).foldl fun _ _ hu => hu.sendOut) h.setPort).raisePf0.rerouted

end Stands

end Sys2Proof.Machine
end

section
/-! SUPPORT. Flit errors and lanes of on-package links (R511, R516), and lanes of bridge modules (R18). -/

namespace Sys2Proof.Machine

variable {s : State} {loc lane p d : Nat}

/-! ## What each command answers -/

theorem exec_onpkgLaneSpare (hloc : locOfLink loc = true) (hlane : lane < 65536) :
    exec (.onpkgLaneSpare loc lane) s = .next (s.spareLane loc lane) :=
  if_neg (by rw [hloc]; simp [hlane])

theorem exec_onpkgFlitError (hloc : locOfLink loc = true) (hlane : lane < 65536) :
    exec (.onpkgFlitError loc lane) s = .next (if Tab.getD s.net.hopFails loc 0 + 1 < 3
      then s.modNet fun x => { x with hopFails := Tab.put loc (Tab.getD s.net.hopFails loc 0 + 1) x.hopFails } else s.spareLane loc lane) :=
  if_neg (by rw [hloc]; simp [hlane])

/-- The state after a lane of a bridge module has been repaired: the lane is counted. -/
def State.countBridgeLane (s : State) (k : Nat) : State :=
  s.modNet fun x => { x with bridgeLanes := Tab.put k (Tab.getD x.bridgeLanes k 0 + 1) x.bridgeLanes }

theorem exec_bridgeLaneRepair {edge module l : Nat} (he : edge < 4) (hm : module < 40) (hl : l < 64) :
    exec (.bridgeLaneRepair edge module l) s = .next (((s.pavs.map Prod.fst).filter fun p => s.usesEdge p edge).foldl
      (fun s p => s.unrepeatable p 2) (s.countBridgeLane (edge * 64 + module))) :=
  if_neg (by simp [he, hm, hl])

/-! ## Runs that are no longer repeatable (R564) -/

theorem rest_unrepeatable (s : State) (p cause : Nat) : { s.unrepeatable p cause with pavs := [] } = { s with pavs := [] } := by
  unfold State.unrepeatable
  split <;> rfl

/-- Where runs are no longer repeatable, nothing but the pavilions changes. -/
theorem rest_foldl_unrepeatable (ps : List Nat) (cause : Nat) (s : State) :
    { ps.foldl (fun s p => s.unrepeatable p cause) s with pavs := [] } = { s with pavs := [] } :=
  foldl_unchanged (fun s : State => { s with pavs := [] }) (fun u p => rest_unrepeatable u p cause) ps s

theorem net_foldl_unrepeatable (ps : List Nat) (cause : Nat) (s : State) : (ps.foldl (fun s p => s.unrepeatable p cause) s).net = s.net :=
  (congrArg State.net (rest_foldl_unrepeatable ps cause s) :)

theorem beds_foldl_unrepeatable (ps : List Nat) (cause : Nat) (s : State) : (ps.foldl (fun s p => s.unrepeatable p cause) s).beds = s.beds :=
  (congrArg State.beds (rest_foldl_unrepeatable ps cause s) :)

theorem repeatable_unrepeatable_self (s : State) (p cause : Nat) : ((s.unrepeatable p cause).pav p).obs.repeatable = false := by
  unfold State.unrepeatable
  split
  · next h => simpa using h
  · simp [State.modPav]

theorem repeatable_unrepeatable (s : State) (p q cause : Nat) (h : (s.pav p).obs.repeatable = false) :
    ((s.unrepeatable q cause).pav p).obs.repeatable = false := by
  by_cases hq : p = q
  · subst hq
    exact repeatable_unrepeatable_self s p cause
  · unfold State.unrepeatable
    split
    · exact h
    · rwa [State.modPav, State.pav_setPav_ne _ _ _ _ hq]

/-! ## Pavilions that start to reset -/

theorem net_startReset (s : State) (p cause loc : Nat) (slots : List Nat) : (s.startReset p cause loc slots).net = s.net := rfl

theorem beds_startReset (s : State) (p cause loc : Nat) (slots : List Nat) : (s.startReset p cause loc slots).beds = s.beds := rfl

theorem resetting_startReset_self (s : State) (p cause loc : Nat) (slots : List Nat) :
    ((s.startReset p cause loc slots).pav p).resetting.isSome = true := by
  rw [State.startReset, State.modPav, State.pav_setPav_self]
  split <;> rfl

theorem resetting_killSram_self (s : State) (p core row : Nat) : ((s.killSram p core row).pav p).resetting.isSome = true := by
  unfold State.killSram
  exact resetting_startReset_self ..

/-- Every pavilion of a list starts to reset, or resets already. -/
theorem resetting_foldl_startReset {cause loc : Nat} {slots ps : List Nat} (hp : p ∈ ps) (s : State) :
    ((ps.foldl (fun s q => s.startReset q cause loc slots) s).pav p).resetting.isSome = true :=
  foldl_reaches (P := fun p u => (u.pav p).resetting.isSome = true) (fun u q => resetting_startReset_self u q cause loc slots)
    (fun _ q _ h => Stands.refl.startReset.resetting q h) hp s

/-! ## Pavilions of the table -/

theorem Tab.mem_of_find {α : Type} {k : Nat} {a : α} {t : Tab α} (h : Tab.find k t = some a) : (k, a) ∈ t := by
  induction t with
  | nil => cases h
  | cons c t ih =>
    simp only [Tab.find] at h
    split at h
    · next hk =>
      obtain rfl : c.1 = k := by simpa using hk
      cases h
      exact List.mem_cons_self
    · exact List.mem_cons_of_mem _ (ih h)

/-- A pavilion that is bound stands in the table. -/
theorem mem_pavs_of_bound (h : (s.pav p).bound = true) : (p, s.pav p) ∈ s.pavs := by
  unfold State.pav Tab.getD at h ⊢
  cases hf : Tab.find p s.pavs with
  | none =>
    rw [hf, Option.getD_none, not_bound_default] at h
    cases h
  | some v => exact Tab.mem_of_find hf

theorem bound_of_onDie (h : s.onDie p d = true) : (s.pav p).bound = true := by
  simp only [State.onDie, Bool.and_eq_true] at h
  exact h.1

theorem mem_pavs_of_onDie (h : s.onDie p d = true) : p ∈ s.pavs.map Prod.fst :=
  List.mem_map_of_mem (mem_pavs_of_bound (bound_of_onDie h))

theorem mem_pavsOnDie (h : s.onDie p d = true) : p ∈ s.pavsOnDie d := List.mem_filter.2 ⟨mem_pavs_of_onDie h, h⟩

/-- A pavilion whose traffic may take an edge has something on a die. -/
theorem mem_pavs_of_usesEdge {e : Nat} (h : s.usesEdge p e = true) : p ∈ s.pavs.map Prod.fst := by
  simp only [State.usesEdge, List.any_eq_true, Bool.and_eq_true] at h
  obtain ⟨_, -, _, -, ⟨ha, -⟩, -⟩ := h
  exact mem_pavs_of_onDie ha

/-! ## Lanes -/

/-- A lane that has a spare is replaced: it is counted, and the event goes to PF0. -/
theorem spareLane_of_spare (h : Tab.getD s.net.lanes (loc * 65536 + lane / 64) 0 < 2) :
    (s.spareLane loc lane).net.lanes = Tab.put (loc * 65536 + lane / 64) (Tab.getD s.net.lanes (loc * 65536 + lane / 64) 0 + 1) s.net.lanes ∧
      (s.spareLane loc lane).net.dieDegraded = s.net.dieDegraded ∧ (s.spareLane loc lane).beds = s.beds := by
  unfold State.spareLane
  extract_lets d k n s0
  have hnet : s0.net = s.net := net_foldl_unrepeatable ..
  have hbeds : s0.beds = s.beds := beds_foldl_unrepeatable ..
  rw [if_pos h, Told.refl.raisePf0.net, Told.refl.raisePf0.beds]
  exact ⟨(congrArg (fun x : Net => Tab.put k (n + 1) x.lanes) hnet :), (congrArg Net.dieDegraded hnet :), hbeds⟩

/-- With no spare left the die is degraded, and the pavilions with something on it are reset. -/
theorem spareLane_of_none (h : 2 ≤ Tab.getD s.net.lanes (loc * 65536 + lane / 64) 0) :
    (s.spareLane loc lane).net.dieDegraded = s.net.dieDegraded ||| BitVec.ofNat 4 (2 ^ (loc / 1024 % 4)) ∧
      (s.spareLane loc lane).net.lanes = s.net.lanes ∧ (s.spareLane loc lane).beds = s.beds ∧
      ∀ p, s.onDie p (loc / 1024 % 4) = true → ((s.spareLane loc lane).pav p).resetting.isSome = true := by
  unfold State.spareLane
  extract_lets d k n s0 s1
  have hnet : s0.net = s.net := net_foldl_unrepeatable ..
  have hbeds : s0.beds = s.beds := beds_foldl_unrepeatable ..
  rw [if_neg (Nat.not_lt.2 h)]
  have hnet' : ∀ ps : List Nat, (ps.foldl (fun s p => s.startReset p 0x0B loc []) s1).net = s1.net :=
    fun _ => foldl_unchanged State.net (fun u p => net_startReset u p 0x0B loc []) _ _
  have hbeds' : ∀ ps : List Nat, (ps.foldl (fun s p => s.startReset p 0x0B loc []) s1).beds = s1.beds :=
    fun _ => foldl_unchanged State.beds (fun u p => beds_startReset u p 0x0B loc []) _ _
  rw [hnet', hbeds']
  exact ⟨(congrArg (fun x : Net => x.dieDegraded ||| BitVec.ofNat 4 (2 ^ d)) hnet :), (congrArg Net.lanes hnet :), hbeds,
    fun p hp => resetting_foldl_startReset (mem_pavsOnDie hp) _⟩

/-- Settles O27: an error is counted or spares its lane, and a lane has a spare or degrades its die. That a bridge module always has a
lane to repair with is the model's choice (assumption 71), and which units have links is assumption 78. -/
theorem onPackageLanes : Obligations.OnPackageLanes := by
  unfold Obligations.OnPackageLanes
  intro s loc lane hloc hlane
  refine ⟨fun hfew => ?_, fun c hc => ?_, fun edge module l he hm hl => ?_⟩
  · rw [exec_onpkgFlitError hloc hlane, if_pos (by omega)]
  · have hexec : exec c s = .next (s.spareLane loc lane) := by
      obtain rfl | ⟨rfl, hmany⟩ := hc
      · exact exec_onpkgLaneSpare hloc hlane
      · rw [exec_onpkgFlitError hloc hlane, if_neg (by omega)]
    exact ⟨fun h => ⟨_, hexec, spareLane_of_spare h⟩, fun h => ⟨_, hexec, spareLane_of_none h⟩⟩
  · refine ⟨_, exec_bridgeLaneRepair he hm hl, ?_⟩
    beta_reduce
    rw [net_foldl_unrepeatable, beds_foldl_unrepeatable]
    exact ⟨rfl, rfl, rfl, fun p hp => foldl_reaches (P := fun p u => (u.pav p).obs.repeatable = false)
      (fun u q => repeatable_unrepeatable_self u q 2) (fun u q r => repeatable_unrepeatable u q r 2)
      (List.mem_filter.2 ⟨mem_pavs_of_usesEdge hp, hp⟩) _⟩

end Sys2Proof.Machine
end

section
/-! SUPPORT. Cores that leave and spares that take their place (R13, R266, R517 to R519). -/

namespace Sys2Proof.Machine

variable {s : State} {c d x old new : Nat}

/-! ## Cores after a change -/

@[simp] theorem core_modCore_self (s : State) (c : Nat) (f : Core → Core) : (s.modCore c f).core c = f (s.core c) :=
  State.core_setCore_self ..

theorem core_modCore_ne (h : d ≠ c) (f : Core → Core) : (s.modCore c f).core d = s.core d := State.core_setCore_ne _ _ _ _ h

theorem core_clearCore_ne (h : d ≠ c) : (s.clearCore c).core d = s.core d :=
  Tab.getD_put_ne h _ _ _

/-! ## A core that is gated off -/

theorem health_gateOff_self (s : State) (c : Nat) : ((s.gateOff c).core c).health = .dead := by
  rw [State.gateOff, core_modCore_self]

theorem owner_gateOff_self (s : State) (c : Nat) : ((s.gateOff c).core c).owner = none := by
  rw [State.gateOff, core_modCore_self]

theorem core_gateOff_ne (h : d ≠ c) : (s.gateOff c).core d = s.core d :=
  (core_modCore_ne (s := (s.clearCore c).zeroLs c) h _).trans (core_clearCore_ne h)

@[simp] theorem pav_gateOff (s : State) (c p : Nat) : (s.gateOff c).pav p = s.pav p := rfl
@[simp] theorem bindSet_gateOff (s : State) (c k : Nat) : (s.gateOff c).bindSet k = s.bindSet k := rfl
@[simp] theorem sparing_gateOff (s : State) (c : Nat) : (s.gateOff c).sparing = s.sparing := rfl
@[simp] theorem cause_gateOff (s : State) (c : Nat) : (s.gateOff c).cause = s.cause := rfl

theorem Mem.read_clear {m : Mem} {lo hi a : Nat} (hlo : lo ≤ a) (hhi : a < hi) : Mem.read (Mem.clear m lo hi) a = 0 := by
  induction m with
  | nil => rfl
  | cons x m ih =>
    rw [Mem.clear, List.filter_cons]
    split
    · next h =>
      have hne : x.1 ≠ a := by
        rw [Bool.or_eq_true, decide_eq_true_iff, decide_eq_true_iff] at h
        omega
      rw [Mem.read, if_neg (by simpa using hne)]
      exact ih
    · exact ih

/-- The local store of a core that has been gated off holds zeros. -/
theorem read_gateOff {o : Nat} (ho : o < 2 ^ 25) : Mem.read (s.gateOff c).beds.ls (lsKey c o) = 0 :=
  Mem.read_clear (m := s.beds.ls) (by unfold lsKey; omega) (by unfold lsKey; omega)

/-! ## A spare that takes a core's index -/

theorem bindSet_bringIn (s : State) (old new : Nat) :
    (s.bringIn old new).bindSet (clusterOf old) = (s.bindSet (clusterOf old)).map fun c => if c == old then new else c := by
  rw [State.bindSet, State.bringIn, Tab.find_put_self, Option.getD_some]

/-- The spare takes the core's place and its owner; beside that only the binding that an apply gives changes. -/
theorem takeIndex_eq (s : State) (old new : Nat) : { s.takeIndex old new with apply := s.apply } =
    ((s.bringIn old new).modCore old fun c => { c with owner := none }).modCore new fun c => { c with owner := (s.core old).owner } := by
  unfold State.takeIndex
  dsimp only
  generalize Tab.find old _ = x
  cases x <;> rfl

theorem bindSet_takeIndex (s : State) (old new : Nat) :
    (s.takeIndex old new).bindSet (clusterOf old) = (s.bindSet (clusterOf old)).map fun c => if c == old then new else c :=
  (congrArg (State.bindSet · (clusterOf old)) (takeIndex_eq s old new)).trans (bindSet_bringIn s old new)

theorem core_takeIndex_new (h : new ≠ old) : (s.takeIndex old new).core new = { s.core new with owner := (s.core old).owner } := by
  have e := congrArg (State.core · new) (takeIndex_eq s old new)
  simp only [core_modCore_self, core_modCore_ne h] at e
  exact e

@[simp] theorem pav_takeIndex (s : State) (old new p : Nat) : (s.takeIndex old new).pav p = s.pav p :=
  (congrArg (State.pav · p) (takeIndex_eq s old new)).trans rfl

@[simp] theorem sparing_takeIndex (s : State) (old new : Nat) : (s.takeIndex old new).sparing = s.sparing :=
  (congrArg State.sparing (takeIndex_eq s old new)).trans rfl

@[simp] theorem cause_takeIndex (s : State) (old new : Nat) : (s.takeIndex old new).cause = s.cause :=
  (congrArg State.cause (takeIndex_eq s old new)).trans rfl

/-- The spare `x` has core `c`'s place in the bindable set and its owner, and core `c` is gated off. -/
structure Replaced (s t : State) (c x : Nat) : Prop where
  bindSet : t.bindSet (clusterOf c) = (s.bindSet (clusterOf c)).map fun d => if d == c then x else d
  spare : t.core x = { s.core x with owner := (s.core c).owner }
  owner : (t.core c).owner = none
  health : (t.core c).health = .dead
  pav : ∀ p, t.pav p = s.pav p
  sparing : t.sparing = s.sparing
  cause : t.cause = s.cause
  zero : ∀ o, o < 2 ^ 25 → Mem.read t.beds.ls (lsKey c o) = 0

theorem replaced_gateOff_takeIndex (h : x ≠ c) : Replaced s ((s.takeIndex c x).gateOff c) c x where
  bindSet := by rw [bindSet_gateOff, bindSet_takeIndex]
  spare := by rw [core_gateOff_ne h, core_takeIndex_new h]
  owner := owner_gateOff_self ..
  health := health_gateOff_self ..
  pav p := by rw [pav_gateOff, pav_takeIndex]
  sparing := by rw [sparing_gateOff, sparing_takeIndex]
  cause := by rw [cause_gateOff, cause_takeIndex]
  zero _ ho := read_gateOff ho

/-- A spare is not of the bindable set (R12). -/
theorem spareFor_not_inBindSet (h : s.spareFor c = some x) (hc : s.inBindSet c = true) : x ≠ c := by
  rintro rfl
  have hx := List.mem_of_find?_eq_some h
  rw [State.workingIn, List.mem_reverse, List.mem_filter, Bool.and_eq_true] at hx
  obtain ⟨-, -, hx⟩ := hx
  rw [State.inBindSet] at hc
  exact absurd hc (by simpa using hx)

end Sys2Proof.Machine
end

section
/-! SUPPORT. A die half that is lost and comes back (R507, R508). -/

namespace Sys2Proof.Machine

variable {s : State} {h : Nat}

theorem exec_dieHalfResetStart (hh : h < 8) : exec (.dieHalfResetStart h) s = .next (s.startHalf h 2 []) := if_neg (Nat.not_le.2 hh)

theorem startHalf_of_resetting {r : Nat × List Nat} {starter : Nat} {posts : List Nat} (hr : (s.half h).resetting = some r) :
    s.startHalf h starter posts = s := if_pos (by rw [hr]; rfl)

theorem abortApply_of_none (ha : s.apply.phase = 0) : s.abortApply = s := by
  simp [State.abortApply, State.settleFlip, ha]

/-- A half's reset begins: the half resets and is not clamped, and every pavilion with cores or channels there resets. -/
theorem startHalf_of_none {starter : Nat} {posts : List Nat} (hr : (s.half h).resetting = none) (ha : s.apply.phase = 0) :
    ((s.startHalf h starter posts).half h).resetting = some (starter, posts) ∧ ((s.startHalf h starter posts).half h).droopClamp = false ∧
      ∀ q, (s.pav q).bound = true → s.inHalf q h = true → ((s.startHalf h starter posts).pav q).resetting.isSome = true := by
  unfold State.startHalf
  rw [if_neg (by rw [hr]; nofun), abortApply_of_none ha]
  extract_lets s0 s1 s2 ps s3 s4 s5
  have h1 : Stands s s1 := Stands.refl.abortSpans.raisePf0
  clear_value s1
  have hhalf2 : s2.half h = { s1.half h with resetting := some (starter, posts), droopClamp := false } := State.half_setHalf_self ..
  have hps : ∀ q, (s.pav q).bound = true → s.inHalf q h = true → q ∈ ps := fun q hb hi => by
    have hb1 := (h1.bound q).trans hb
    exact List.mem_map.2 ⟨(q, s1.pav q), List.mem_filter.2 ⟨mem_pavs_of_bound hb1, Bool.and_eq_true_iff.2 ⟨hb1, (h1.inHalf q h).trans hi⟩⟩, rfl⟩
  clear_value ps
  have h3 : Stands s2 s3 := Stands.refl.losePoolsOf
  clear_value s2 s3
  have h4 : Stands s2 s4 := h3.foldl fun _ _ hu => hu.startReset
  have hreset : ∀ q ∈ ps, (s4.pav q).resetting.isSome = true := fun q hq => resetting_foldl_startReset hq s3
  clear_value s4
  have hpower : s5.power = s4.power := foldl_unchanged State.power (fun u c => by dsimp only; split <;> rfl) _ _
  have hpavs : s5.pavs = s4.pavs := foldl_unchanged State.pavs (fun u c => by dsimp only; split <;> rfl) _ _
  clear_value s5
  have ht : Stands s5 (((List.range 16).filter fun p => halfOfPort p == h).foldl (fun s p => s.leaveUp p 0 false true) s5) :=
    Stands.refl.foldl fun _ _ hu => hu.leaveUp
  generalize ((List.range 16).filter fun p => halfOfPort p == h).foldl (fun s p => s.leaveUp p 0 false true) s5 = t at ht ⊢
  have hhalf : t.half h = { s1.half h with resetting := some (starter, posts), droopClamp := false } := by
    rw [State.half, ht.power, hpower, h4.power]
    exact hhalf2
  rw [hhalf]
  refine ⟨rfl, rfl, fun q hb hi => ht.resetting q ?_⟩
  rw [State.pav, hpavs]
  exact hreset q (hps q hb hi)

/-- The half is ready: its reset ends, its commands complete, and its ports train. -/
theorem dieHalfReady_ends (hh : h < 8) {r : Nat × List Nat} (hr : (s.half h).resetting = some r) :
    Does (.dieHalfReady h) s fun t => Told (s.modHalf h fun x => { x with resetting := none }) t := by
  obtain ⟨starter, posts⟩ := r
  have e : exec (.dieHalfReady h) s = execDieHalfReady h s := rfl
  rw [Does, e, execDieHalfReady, if_neg (Nat.not_le.2 hh), hr]
  exact ⟨_, rfl, .foldl (Told.refl.foldl fun _ _ hu => hu.complete) fun _ _ hu => .ite hu.setPort hu⟩

end Sys2Proof.Machine
end

section
/-! SUPPORT. What a worn core, a core that dies and a failure of the control processor lead to (R513, R514, R517 to R519). -/

namespace Sys2Proof.Machine

variable {s : State} {c x p i : Nat}

/-! ## Copies to spares -/

theorem Tab.find_eq_none {α : Type} {k : Nat} {t : Tab α} (h : k ∉ t.map Prod.fst) : Tab.find k t = none := by
  induction t with
  | nil => rfl
  | cons c t ih =>
    rw [List.map_cons, List.mem_cons, not_or] at h
    rw [Tab.find, if_neg (by simpa using Ne.symm h.1)]
    exact ih h.2

/-- The entry that is taken out of a table with one entry at its key is gone. -/
theorem Tab.find_drop_self {α : Type} {k : Nat} {t : Tab α} (h : (t.map Prod.fst).count k ≤ 1) : Tab.find k (Tab.drop k t) = none := by
  induction t with
  | nil => rfl
  | cons c t ih =>
    rw [Tab.drop]
    by_cases hk : c.1 = k
    · rw [if_pos (by simpa using hk)]
      rw [List.map_cons, hk, List.count_cons_self] at h
      exact Tab.find_eq_none (List.count_eq_zero.1 (by omega))
    · rw [if_neg (by simpa using hk), Tab.find, if_neg (by simpa using hk)]
      rw [List.map_cons, List.count_cons_of_ne hk] at h
      exact ih h

theorem Stands.copyLost (s : State) (c : Nat) : Stands s (s.copyLost c) :=
  Stands.refl.foldl fun u y hu => by
    split
    · exact .ite hu (hu.modPav rfl id).freezeWaiting
    · exact hu

/-- A core that no copy goes to dies: nobody was held for it. -/
theorem copyLost_of_no_copy (h : ∀ y ∈ s.sparing, y.2 ≠ c) : s.copyLost c = s := by
  have hnil : (s.sparing.filter fun y => y.2 == c) = [] := List.filter_eq_nil_iff.2 fun y hy => by simpa using h y hy
  rw [State.copyLost, hnil]
  rfl

theorem filter_drop_sparing (h : ∀ y ∈ s.sparing, y.2 ≠ c) : ((Tab.drop c s.sparing).filter fun y => y.2 != c) = Tab.drop c s.sparing :=
  List.filter_eq_self.2 fun y hy => by simpa using h y (Tab.mem_drop hy)

/-- The state after a move to a spare has been counted. -/
def State.countSpared (s : State) : State := { s with cause := { s.cause with coresSpared := sat16 s.cause.coresSpared } }

theorem core_countSpared (s : State) (c : Nat) : s.countSpared.core c = s.core c := rfl

/-- A move to a spare is counted, and the event goes to PF0. -/
theorem told_coreSpared (s : State) (old new : Nat) (predicted : Bool) : Told s.countSpared (s.coreSpared old new predicted) :=
  Told.refl.raisePf0

theorem Stands.coreSpared {t : State} {old new : Nat} {predicted : Bool} (h : Stands s t) :
    Stands s.countSpared (t.coreSpared old new predicted) :=
  have counted : Stands s.countSpared t.countSpared :=
    { h with cause := congrArg (fun x : ResetCause => { x with coresSpared := sat16 x.coresSpared }) h.cause }
  counted.told (told_coreSpared ..)

/-! ## A worn core (R517) -/

theorem not_ge_numCores (hc : c < 1088) : ¬ c ≥ numCores := Nat.not_le.2 hc

theorem exec_coreSpare_hold (hc : c < 1088) (hw : (s.core c).health = .working) (hcycle : s.cycleMode = false)
    (hs : Tab.find c s.sparing = none) (ho : (s.core c).owner = some (p, i)) (hb : s.inBindSet c = true) (hx : s.spareFor c = some x)
    (hat : s.atBoundary p = true) (hr : (s.pav p).resetting = none) :
    exec (.coreSpare c true) s
      = .next { ((s.modPav p fun v => { v with held? := true }).voidStart p) with sparing := Tab.put c x s.sparing } := by
  have e : exec (.coreSpare c true) s = execCoreSpare c true s := rfl
  rw [e, execCoreSpare, if_neg (not_ge_numCores hc), if_neg (by simp [hw, hcycle, hs, hb, Core.worn]), ho, hx]
  exact if_neg (by simp [hat, hr])

/-- The core's copy is done: the spare has its place, its owner and its slots, and the core is dead and holds zeros. -/
theorem coreSpareCopyDone_moves (hc : c < 1088) (hs : Tab.find c s.sparing = some x) (hx : x ≠ c) (ho : (s.core c).owner = some (p, i))
    (hone : (s.sparing.map Prod.fst).count c ≤ 1) :
    Does (.coreSpareCopyDone c) s fun t => t.bindSet (clusterOf c) = (s.bindSet (clusterOf c)).map (fun d => if d == c then x else d) ∧
      (s.lsHurt c 0 (s.pav p).scratchBytes = true → (t.pav p).resetting.isSome = true) ∧ (t.core x).owner = some (p, i) ∧ (t.core c).owner = none ∧
      (t.core c).health = .dead ∧ (t.core x).slots = (s.core c).slots ∧ Tab.find c t.sparing = none ∧ t.cause.coresSpared = sat16 s.cause.coresSpared ∧
      ∀ o, o < 2 ^ 25 → Mem.read t.beds.ls (lsKey c o) = 0 := by
  have e : exec (.coreSpareCopyDone c) s = execCoreSpareCopyDone c s := rfl
  rw [Does, e, execCoreSpareCopyDone, if_neg (not_ge_numCores hc)]
  simp -zeta only [hs, ho]
  have hcarry : Stands s (s.background (coreLoc c) (coreLoc x) (s.pav p).scratchBytes) := Stands.refl.background
  generalize s.background (coreLoc c) (coreLoc x) (s.pav p).scratchBytes = s0 at hcarry ⊢
  extract_lets +onlyGivenNames bad m s1
  -- the spare holds the core's slots
  have hset1 : s1.bindSet (clusterOf c) = s.bindSet (clusterOf c) := hcarry.bindSet _
  have hcopies1 : s1.sparing = s.sparing := hcarry.sparing
  have hcause1 : s1.cause = s.cause := hcarry.cause
  have hold1 : (s1.core c).owner = some (p, i) := by
    rw [← ho, ← hcarry.core]
    exact congrArg Core.owner (core_modCore_ne (s := (s0.zeroLs x).putScratch x m) (Ne.symm hx) _)
  have hnew1 : (s1.core x).slots = (s.core c).slots := by
    unfold s1
    rw [core_modCore_self]
  clear_value s1
  -- it has the core's place, and the core is gated off
  have hg := replaced_gateOff_takeIndex (s := s1) hx
  generalize (s1.takeIndex c x).gateOff c = g at hg ⊢
  extract_lets s2 s3 s4
  refine ⟨_, rfl, ?_⟩
  -- a scratch that is hurt kills the pavilion; else it goes on
  have hspared : Stands s3.countSpared s4 := .coreSpared (.ite Stands.refl.killSram .refl)
  have hkilled : bad = true → (s4.pav p).resetting.isSome = true := fun hbad => by
    unfold s4
    rw [(told_coreSpared ..).pav, if_pos hbad]
    exact resetting_killSram_self ..
  clear_value s4
  have hgo : Stands s4 (if s4.heldByApply p then s4 else (s4.modPav p fun v => { v with held? := false }).freezeWaiting p) :=
    .ite .refl (Stands.refl.modPav rfl id).freezeWaiting
  generalize (if s4.heldByApply p then s4 else (s4.modPav p fun v => { v with held? := false }).freezeWaiting p) = t at hgo ⊢
  have ht := hspared.trans hgo
  have hcore : ∀ d, t.core d = g.core d := ht.core
  refine ⟨?_, fun hbad => hgo.resetting p (hkilled hbad), ?_, ?_, ?_, ?_, ?_, ?_, fun o hlt => ?_⟩
  · exact (ht.bindSet _).trans (by rw [← hset1]; exact hg.bindSet)
  · rw [hcore, hg.spare, hold1]
  · rw [hcore, hg.owner]
  · rw [hcore, hg.health]
  · rw [hcore, hg.spare, ← hnew1]
  · rw [ht.sparing]
    exact (congrArg (fun l => Tab.find c (Tab.drop c l)) (hg.sparing.trans hcopies1)).trans (Tab.find_drop_self hone)
  · rw [ht.cause]
    exact congrArg (fun x : ResetCause => sat16 x.coresSpared) (hg.cause.trans hcause1)
  · rw [ht.ls]
    exact hg.zero o hlt

/-! ## A core that dies (R517 to R519) -/

/-- A core outside the bindable set dies: it leaves, and no copy goes on to it. -/
theorem coreDeath_of_spare (hc : c < 1088) (hd : (s.core c).health ≠ .dead) (hb : s.inBindSet c = false) :
    Does (.coreDeath c) s fun t => (t.core c).health = .dead ∧ t.bindSets = s.bindSets ∧ (∀ y ∈ t.sparing, y.2 ≠ c) ∧
      t.cause.coresSpared = s.cause.coresSpared ∧ t.cause.coresFailed = s.cause.coresFailed := by
  have e : exec (.coreDeath c) s = execCoreDeath c s := rfl
  rw [Does, e, execCoreDeath, if_neg (not_ge_numCores hc), if_neg (by simpa using hd)]
  have hlost : Stands s (s.copyLost c) := .copyLost s c
  generalize s.copyLost c = u at hlost ⊢
  extract_lets v s0
  have hset : s0.inBindSet c = false := (congrArg (List.contains · c) (hlost.bindSet _)).trans hb
  rw [if_pos (by rw [hset]; rfl)]
  refine ⟨_, rfl, health_gateOff_self .., hlost.bindSets, fun y hy => ?_, congrArg ResetCause.coresSpared hlost.cause,
    congrArg ResetCause.coresFailed hlost.cause⟩
  simpa using (List.mem_filter.1 hy).2

/-- The core of the bindable set that is found dead while no copy goes to it: what its spare, if it has one, makes of it. -/
theorem execCoreDeath_of_inBindSet (hc : c < 1088) (hd : (s.core c).health ≠ .dead) (hb : s.inBindSet c = true)
    (hn : ∀ y ∈ s.sparing, y.2 ≠ c) (ho : (s.core c).owner = some (p, i)) :
    (∀ x, { s with sparing := Tab.drop c s.sparing }.spareFor c = some x →
      let r := ({ s with sparing := Tab.drop c s.sparing }.startReset p 0x05 (coreLoc c) []).unrepeatable p 2
      execCoreDeath c s = .next ((((r.takeIndex c x).gateOff c).modCore x fun d => { d with zeroing := true }).coreSpared c x false)) ∧
    ({ s with sparing := Tab.drop c s.sparing }.spareFor c = none →
      execCoreDeath c s = .next ({ s with sparing := Tab.drop c s.sparing }.coreFailed c)) := by
  have ho0 : ({ s with sparing := Tab.drop c s.sparing } : State).ownerOf c = some p := congrArg (Option.map Prod.fst) ho
  have hb0 : ({ s with sparing := Tab.drop c s.sparing } : State).inBindSet c = true := hb
  rw [execCoreDeath, if_neg (not_ge_numCores hc), if_neg (by simpa using hd), copyLost_of_no_copy hn, filter_drop_sparing hn]
  generalize ({ s with sparing := Tab.drop c s.sparing } : State) = u at ho0 hb0 ⊢
  dsimp only
  rw [if_neg (by rw [hb0]; nofun)]
  refine ⟨fun x hx => ?_, fun hx => ?_⟩
  · rw [hx, ho0]
  · rw [hx]

/-- The pavilion starts to reset with this cause alone. -/
theorem causes_startReset {cause loc : Nat} {slots : List Nat} (h : (s.pav p).resetting = none) :
    ((s.startReset p cause loc slots).pav p).resetting.map Resetting.causes = some [cause] := by
  rw [State.startReset, State.modPav, State.pav_setPav_self, h]
  rfl

theorem resetting_unrepeatable (s : State) (p q cause : Nat) : ((s.unrepeatable p cause).pav q).resetting = (s.pav q).resetting := by
  unfold State.unrepeatable
  split
  · rfl
  · by_cases hq : q = p
    · subst hq
      rw [State.modPav, State.pav_setPav_self]
    · rw [State.modPav, State.pav_setPav_ne _ _ _ _ hq]

/-- With a spare for it, a core of the bindable set that dies gives up its place, its owner and its index, and its owner resets. -/
theorem coreDeath_with_spare (hc : c < 1088) (hd : (s.core c).health ≠ .dead) (hb : s.inBindSet c = true)
    (hn : ∀ y ∈ s.sparing, y.2 ≠ c) (hx : { s with sparing := Tab.drop c s.sparing }.spareFor c = some x) (ho : (s.core c).owner = some (p, i)) :
    Does (.coreDeath c) s fun t => t.bindSet (clusterOf c) = (s.bindSet (clusterOf c)).map (fun d => if d == c then x else d) ∧
      (t.core c).owner = none ∧ (t.core c).health = .dead ∧ (t.core x).owner = some (p, i) ∧ (t.core x).zeroing = true ∧
      (t.pav p).resetting.isSome = true ∧ ((s.pav p).resetting = none → (t.pav p).resetting.map Resetting.causes = some [5]) ∧
      t.cause.coresSpared = sat16 s.cause.coresSpared := by
  have hne : x ≠ c := spareFor_not_inBindSet hx hb
  refine ⟨_, (execCoreDeath_of_inBindSet hc hd hb hn ho).1 x hx, ?_⟩
  have hr : Stands { s with sparing := Tab.drop c s.sparing }
      (({ s with sparing := Tab.drop c s.sparing }.startReset p 0x05 (coreLoc c) []).unrepeatable p 2) := Stands.refl.startReset.unrepeatable
  have hpav := resetting_unrepeatable ({ s with sparing := Tab.drop c s.sparing }.startReset p 0x05 (coreLoc c) []) p p 2
  generalize ({ s with sparing := Tab.drop c s.sparing }.startReset p 0x05 (coreLoc c) []).unrepeatable p 2 = r at hr hpav ⊢
  have hset : r.bindSet (clusterOf c) = s.bindSet (clusterOf c) := hr.bindSet _
  have hown : (r.core c).owner = some (p, i) := (congrArg Core.owner (hr.core c)).trans ho
  have hcause : r.cause = s.cause := hr.cause
  have hg := replaced_gateOff_takeIndex (s := r) hne
  generalize (r.takeIndex c x).gateOff c = g at hg ⊢
  have ht := told_coreSpared (g.modCore x fun d => { d with zeroing := true }) c x false
  generalize (g.modCore x fun d => { d with zeroing := true }).coreSpared c x false = t at ht ⊢
  have hold : t.core c = g.core c := by rw [ht.core, core_countSpared, core_modCore_ne (Ne.symm hne)]
  have hnew : t.core x = { g.core x with zeroing := true } := by rw [ht.core, core_countSpared, core_modCore_self]
  have hpav' := (congrArg Pav.resetting ((ht.pav p).trans (hg.pav p))).trans hpav
  refine ⟨?_, ?_, ?_, ?_, ?_, ?_, fun hnone => ?_, ?_⟩
  · exact (ht.bindSet _).trans (by rw [← hset]; exact hg.bindSet)
  · rw [hold, hg.owner]
  · rw [hold, hg.health]
  · rw [hnew, hg.spare, hown]
  · rw [hnew]
  · rw [hpav']
    exact resetting_startReset_self ..
  · rw [hpav']
    exact causes_startReset hnone
  · rw [ht.cause]
    exact congrArg (fun x : ResetCause => sat16 x.coresSpared) (hg.cause.trans hcause)

/-- A core that must leave and finds no spare leaves its owner reset and FAULTED. -/
theorem coreFailed_of_owner (ho : (s.core c).owner = some (p, i)) :
    ((s.coreFailed c).core c).owner = none ∧ ((s.coreFailed c).core c).health = .dead ∧ ((s.coreFailed c).pav p).faulted = true ∧
      ((s.coreFailed c).pav p).resetting.isSome = true ∧ (s.coreFailed c).cause.coresFailed = sat16 s.cause.coresFailed := by
  have hown : s.ownerOf c = some p := congrArg (Option.map Prod.fst) ho
  unfold State.coreFailed
  simp -zeta only [hown]
  extract_lets r s1 s2
  have hfaulted : (s2.pav p).faulted = true := by
    unfold s2 State.startReset
    rw [State.modPav, State.pav_setPav_self, State.modPav, State.pav_setPav_self]
    split <;> rfl
  have ht := Told.refl.raisePf0 (s := s2.gateOff c) (code := 0x0044) (pav := p) (detail := detailWords [coreLoc c, p])
  rw [ht.core, ht.pav, ht.cause]
  exact ⟨owner_gateOff_self .., health_gateOff_self .., hfaulted, resetting_startReset_self .., rfl⟩

/-- With no spare for it, a core of the bindable set that dies leaves its owner reset and FAULTED. -/
theorem coreDeath_without_spare (hc : c < 1088) (hd : (s.core c).health ≠ .dead) (hb : s.inBindSet c = true)
    (hn : ∀ y ∈ s.sparing, y.2 ≠ c) (hx : { s with sparing := Tab.drop c s.sparing }.spareFor c = none) (ho : (s.core c).owner = some (p, i)) :
    Does (.coreDeath c) s fun t => (t.core c).owner = none ∧ (t.core c).health = .dead ∧ (t.pav p).faulted = true ∧
      (t.pav p).resetting.isSome = true ∧ t.cause.coresFailed = sat16 s.cause.coresFailed :=
  ⟨_, (execCoreDeath_of_inBindSet hc hd hb hn ho).2 hx, coreFailed_of_owner (s := { s with sparing := Tab.drop c s.sparing }) ho⟩

/-! ## The control processor and package units (R513, R514) -/

theorem exec_cpWatchdogExpire (hc : c < 5) (hb : s.boot.stage = .running) : exec (.cpWatchdogExpire c []) s = .next (s.cpFail c []) := by
  have e : exec (.cpWatchdogExpire c []) s = execCpWatchdogExpire c [] s := rfl
  rw [e, execCpWatchdogExpire, if_neg (by simp [hc]), if_neg (by simp [hb])]

/-- Fewer than three control-processor cores are left: the package resets. -/
theorem cpFail_of_few (h : (if s.cp.spareUsed then s.cp.working - 1 else s.cp.working) < 3) :
    (s.cpFail c []).cause.cause = 5 ∧ (s.cpFail c []).cp.recovering = false := by
  unfold State.cpFail
  extract_lets working s1
  rw [if_pos h]
  exact ⟨rfl, rfl⟩

/-- Three or more are left: service is recovered, and the machine goes on. -/
theorem cpFail_of_enough (h : 3 ≤ (if s.cp.spareUsed then s.cp.working - 1 else s.cp.working)) (ha : s.apply.phase = 0) :
    (s.cpFail c []).cp.recovering = true ∧ (s.cpFail c []).cp.spareUsed = true ∧ (s.cpFail c []).beds = s.beds ∧
      (s.cpFail c []).cores = s.cores ∧ (s.cpFail c []).strands = s.strands ∧ (s.cpFail c []).boot = s.boot := by
  unfold State.cpFail
  extract_lets +onlyGivenNames working v s1
  rw [if_neg (Nat.not_lt.2 h)]
  extract_lets ks s2 w s3 late
  have h2 : s2 = s1 := abortApply_of_none (s := s1) ha
  have h3 : ({ s3 with fw := s.fw } : State) = s1 := by
    unfold s3
    rw [h2]
    split <;> rfl
  have hlate : ({ late.foldl (fun s p => s.unrepeatable p 2) s3 with pavs := [], fw := s.fw } : State) = { s1 with pavs := [] } :=
    (congrArg (fun u : State => { u with fw := s.fw }) (rest_foldl_unrepeatable late 2 s3)).trans
      (congrArg (fun u : State => { u with pavs := [] }) h3)
  have ht := Told.refl.raisePf0 (s := late.foldl (fun s p => s.unrepeatable p 2) s3) (code := 0x0046) (pav := 0) (detail := detailWords [c])
  rw [ht.cp, ht.beds, ht.cores, ht.strands, ht.boot]
  exact ⟨(congrArg (fun u : State => u.cp.recovering) hlate :), (congrArg (fun u : State => u.cp.spareUsed) hlate :),
    (congrArg State.beds hlate :), (congrArg State.cores hlate :), (congrArg State.strands hlate :), (congrArg State.boot hlate :)⟩

theorem exec_cpRecoveryDone (h : s.cp.recovering = true) :
    exec .cpRecoveryDone s = .next ({ s with cp := { s.cp with recovering := false } }.resumeService) := if_neg (by rw [h]; nofun)

/-- An error of a host mover resets the pavilion whose record or write it held. -/
theorem exec_pkgUnitUncorrectable_mover {u : Nat} (hp : p < 512) (hlo : 7 ≤ u) (hhi : u ≤ 14) (hb : (s.pav p).bound = true) :
    exec (.pkgUnitUncorrectable u p) s = .next (s.startReset p 0x0B (0x8000 + u) []) := by
  have e : exec (.pkgUnitUncorrectable u p) s = execPkgUnitUncorrectable u p s := rfl
  have hne : ∀ n, n < 7 → (u == n) = false := fun n hn => beq_eq_false_iff_ne.2 (by omega)
  rw [e, execPkgUnitUncorrectable, if_neg (by simp [hp, hhi]), hne 0 (by decide), hne 1 (by decide), hne 4 (by decide), hne 5 (by decide)]
  simp [hlo, hb, unitLoc]

/-- Settles O52, clause by clause from the lemmas above. That an error of units 2, 3 and 6 changes nothing is the model's choice
(assumption 43). -/
theorem sparesAndFailuresAreContained : Obligations.SparesAndFailuresAreContained := by
  unfold Obligations.SparesAndFailuresAreContained
  intro s
  refine ⟨fun h hh hr => ⟨exec_dieHalfResetStart hh, startHalf_of_none hr⟩, fun h r hh hr => ⟨?_, ?_⟩,
    fun _ _ _ _ => exec_coreSpare_hold,
    fun c x p i hc hs hx ho hone => coreSpareCopyDone_moves hc hs hx ho (hone c),
    fun c hc hd hb _ => coreDeath_of_spare hc hd hb,
    fun c hc hd hb hn => ⟨fun _ _ _ => coreDeath_with_spare hc hd hb hn, fun _ _ => coreDeath_without_spare hc hd hb hn⟩,
    fun c hc hb => ⟨fun h => ⟨_, exec_cpWatchdogExpire hc hb, cpFail_of_few h⟩, fun h ha => ⟨_, exec_cpWatchdogExpire hc hb, cpFail_of_enough h ha⟩⟩,
    exec_cpRecoveryDone, fun u p hp => ⟨exec_pkgUnitUncorrectable_mover hp, ?_, ?_⟩⟩
  · rw [exec_dieHalfResetStart hh, startHalf_of_resetting hr]
  · obtain ⟨t, e, ht⟩ := dieHalfReady_ends hh hr
    refine ⟨t, e, ?_, fun g hg => ?_, ht.beds, ht.pavs⟩
    · rw [ht.half, State.modHalf, State.half_setHalf_self]
    · rw [ht.half, State.modHalf, State.half_setHalf_ne _ _ _ _ hg]
  · rintro rfl
    exact if_neg (by simp [hp])
  · rintro (rfl | rfl | rfl) <;> exact if_neg (by simp [hp])

end Sys2Proof.Machine
end

section
/-! SUPPORT. Elements of a fixed anchor: what a list of products adds to one (R44 to R46), in any order, at once or as merged partial sums
(R48, R50). -/

namespace Sys2Proof.Machine

/-! ## What one product adds -/

/-- The product rounded to the grid, before the clamp of R44; a NaN or an infinity adds nothing (R46). -/
def Num.onGrid (anchor : BitVec 10) : Num → Int
  | .fin s m e =>
    let u : Int := ((rne m (e + 96 - anchor.toInt) : Nat) : Int)
    if s then -u else u
  | _ => 0

/-- The clamp to the accumulator's 128 bits (R44). -/
def clamp128 (v : Int) : Int := max (-(2 ^ 127)) (min (2 ^ 127 - 1) v)

/-- The integer q that a product adds to the sum (R44). -/
def Num.gridValue (anchor : BitVec 10) (p : Num) : Int := clamp128 (p.onGrid anchor)

/-- The clamp of R44 changes the product. -/
def Num.clamped (anchor : BitVec 10) (p : Num) : Bool := clamp128 (p.onGrid anchor) != p.onGrid anchor

theorem clamp128_of_gt {v : Int} (h : v > 2 ^ 127 - 1) : clamp128 v = 2 ^ 127 - 1 := by
  unfold clamp128
  omega

theorem clamp128_of_lt {v : Int} (h : v < -(2 ^ 127)) : clamp128 v = -(2 ^ 127) := by
  unfold clamp128
  omega

theorem clamp128_of_fits {v : Int} (hhi : ¬v > 2 ^ 127 - 1) (hlo : ¬v < -(2 ^ 127)) : clamp128 v = v := by
  unfold clamp128
  omega

theorem clamp128_bounds (v : Int) : -(2 ^ 127) ≤ clamp128 v ∧ clamp128 v ≤ 2 ^ 127 := by
  unfold clamp128
  omega

@[simp] theorem rne_zero (e : Int) : rne 0 e = 0 := by
  unfold rne
  simp

namespace Acc

/-- The element with all that a list of products brings on its anchor: their sum, their number and their flags. -/
def withProducts (a : Acc) (ps : List Num) : Acc :=
  { a with
    sum := a.sum + BitVec.ofInt 160 (ps.map (Num.gridValue a.anchor)).sum
    count := a.count + BitVec.ofNat 32 ps.length
    sat := a.sat || ps.any (Num.clamped a.anchor)
    nan := a.nan || ps.any (· == .nan)
    pinf := a.pinf || ps.any (· == .inf false)
    ninf := a.ninf || ps.any (· == .inf true) }

variable {a b : Acc}

theorem open?_of_fixed (h : a.auto = false) : a.open? = false := by simp [open?, h]

theorem choose_of_fixed (h : a.auto = false) (ps : List Num) : a.choose ps = a := by simp [choose, open?_of_fixed h]

theorem raise_self (a : Acc) : a.raise a.anchor.toInt = a := by simp [raise]

/-- A product that an element of a fixed anchor takes brings its own total. -/
theorem addProduct_of_fixed (h : a.auto = false) (p : Num) : a.addProduct p = a.withProducts [p] := by
  have hq : ([p].map (Num.gridValue a.anchor)).sum = clamp128 (p.onGrid a.anchor) := by simp [Num.gridValue]
  have hs : [p].any (Num.clamped a.anchor) = (clamp128 (p.onGrid a.anchor) != p.onGrid a.anchor) := by simp [Num.clamped]
  rw [withProducts, hq, hs]
  unfold addProduct
  simp only [h, Bool.false_and, Bool.false_eq_true, if_false]
  cases p with
  | nan => simp [Num.onGrid, clamp128]
  | inf s => cases s <;> simp [Num.onGrid, clamp128]
  | fin s m e =>
    have hg : (if s then -((rne m (e + 96 - a.anchor.toInt) : Nat) : Int) else ((rne m (e + 96 - a.anchor.toInt) : Nat) : Int))
        = (Num.fin s m e).onGrid a.anchor := rfl
    dsimp only
    rw [hg]
    split_ifs with hm hhi hlo
    · obtain rfl : m = 0 := eq_of_beq hm
      simp [Num.onGrid, clamp128]
    · have hne : (2 ^ 127 - 1 != (Num.fin s m e).onGrid a.anchor) = true := bne_iff_ne.2 (by omega)
      rw [clamp128_of_gt hhi, hne]
      simp
    · have hne : (-(2 ^ 127) != (Num.fin s m e).onGrid a.anchor) = true := bne_iff_ne.2 (by omega)
      rw [clamp128_of_lt hlo, hne]
      simp
    · rw [clamp128_of_fits hhi hlo]
      simp

/-! ## What a list of products adds -/

@[simp] theorem withProducts_nil (a : Acc) : a.withProducts [] = a := by simp [withProducts]

theorem withProducts_append (a : Acc) (ps qs : List Num) : (a.withProducts ps).withProducts qs = a.withProducts (ps ++ qs) := by
  simp [withProducts, BitVec.ofInt_add, BitVec.ofNat_add, BitVec.add_assoc, Bool.or_assoc]

theorem withProducts_perm {ps qs : List Num} (h : ps.Perm qs) (a : Acc) : a.withProducts ps = a.withProducts qs := by
  have hany (f : Num → Bool) : ps.any f = qs.any f := by
    rw [Bool.eq_iff_iff, List.any_eq_true, List.any_eq_true]
    simp only [h.mem_iff]
  simp only [withProducts, (h.map _).sum_eq, h.length_eq, hany]

/-- Products taken one after the other bring their total. -/
theorem foldl_addProduct_of_fixed (h : a.auto = false) (ps : List Num) : ps.foldl addProduct a = a.withProducts ps := by
  induction ps generalizing a with
  | nil => simp
  | cons p ps ih => rw [List.foldl_cons, addProduct_of_fixed h, ih (a := a.withProducts [p]) h, withProducts_append, List.singleton_append]

theorem addAll_of_fixed (h : a.auto = false) (ps : List Num) :
    a.addAll ps = if a.count.toNat + ps.length > 0xFFFFFFFF then none else some (a.withProducts ps) := by
  rw [addAll, choose_of_fixed h, foldl_addProduct_of_fixed h]

theorem addAll_eq_some_of_fixed (h : a.auto = false) {ps : List Num} :
    a.addAll ps = some b ↔ a.count.toNat + ps.length ≤ 0xFFFFFFFF ∧ b = a.withProducts ps := by
  rw [addAll_of_fixed h, Option.ite_none_left_eq_some, Option.some_inj, gt_iff_lt, Nat.not_lt, eq_comm (a := b)]

/-- Within the limit of R45 the count of an element goes up by the number of products. -/
theorem count_withProducts {ps : List Num} (h : a.count.toNat + ps.length ≤ 0xFFFFFFFF) :
    (a.withProducts ps).count.toNat = a.count.toNat + ps.length := by
  simp [withProducts]
  omega

/-! ## Merging partial sums (R48) -/

theorem merge_of_fixed (ha : a.auto = false) (hb : b.auto = false) (h : a.anchor = b.anchor) :
    a.merge b = { sum := a.sum + b.sum, count := a.count + b.count, anchor := a.anchor, sat := a.sat || b.sat, nan := a.nan || b.nan,
                  pinf := a.pinf || b.pinf, ninf := a.ninf || b.ninf } := by
  have hra : a.raise b.anchor.toInt = a := h ▸ raise_self a
  have hrb : b.raise a.anchor.toInt = b := h ▸ raise_self b
  simp [merge, open?_of_fixed ha, open?_of_fixed hb, hra, hrb, ha, hb]

theorem merge_comm_of_fixed (ha : a.auto = false) (hb : b.auto = false) (h : a.anchor = b.anchor) : a.merge b = b.merge a := by
  simp [merge_of_fixed ha hb h, merge_of_fixed hb ha h.symm, h, BitVec.add_comm, Bool.or_comm]

/-- A partial sum that starts from a cleared element and is merged brings what its products bring. -/
theorem merge_fresh_withProducts (h : a.auto = false) (ps : List Num) :
    a.merge ((fresh false a.anchor).withProducts ps) = a.withProducts ps := by
  rw [merge_of_fixed (b := (fresh false a.anchor).withProducts ps) h rfl rfl]
  simp [withProducts, fresh, h]

/-! ## The sum never wraps (R45) -/

theorem sum_gridValue_bounds (anchor : BitVec 10) (ps : List Num) :
    -(ps.length * 2 ^ 127) ≤ (ps.map (Num.gridValue anchor)).sum ∧ (ps.map (Num.gridValue anchor)).sum ≤ ps.length * 2 ^ 127 := by
  induction ps with
  | nil => simp
  | cons p ps ih =>
    have hp := clamp128_bounds (p.onGrid anchor)
    simp only [List.map_cons, List.sum_cons, List.length_cons, Num.gridValue] at ih ⊢
    omega

/-- At most 2^32 − 1 products of at most 2^127 fit in the 160 bits. -/
theorem sum_fresh_withProducts (anchor : BitVec 10) {ps : List Num} (h : ps.length ≤ 0xFFFFFFFF) :
    ((fresh false anchor).withProducts ps).sum.toInt = (ps.map (Num.gridValue anchor)).sum := by
  have hb := sum_gridValue_bounds anchor ps
  have hs : ((fresh false anchor).withProducts ps).sum = BitVec.ofInt 160 (ps.map (Num.gridValue anchor)).sum := by simp [withProducts, fresh]
  rw [hs]
  exact BitVec.toInt_ofInt_eq_self (by decide) (by omega) (by omega)

end Acc

/-! ## The obligations -/

/-- Settles O12: what a list of products brings to an element of a fixed anchor is a sum, a number and flags that do not depend on their order
and that merging adds up. -/
theorem anchoredSumsAreExactAndOrderFree : Obligations.AnchoredSumsAreExactAndOrderFree := by
  unfold Obligations.AnchoredSumsAreExactAndOrderFree
  refine ⟨fun a ps qs ha h => ?_, fun a b c d ps qs ha hb hc hd => ?_⟩
  · rw [Acc.addAll_of_fixed ha, Acc.addAll_of_fixed ha, h.length_eq, Acc.withProducts_perm h]
  · obtain ⟨hps, rfl⟩ := (Acc.addAll_eq_some_of_fixed ha).1 hb
    obtain ⟨hqs, rfl⟩ := (Acc.addAll_eq_some_of_fixed rfl).1 hc
    obtain ⟨hall, rfl⟩ := (Acc.addAll_eq_some_of_fixed ha).1 hd
    have hroom : (a.withProducts ps).count.toNat + qs.length ≤ 0xFFFFFFFF := by
      rw [Acc.count_withProducts hps, Nat.add_assoc, ← List.length_append]
      exact hall
    have hcount : ((Acc.fresh false a.anchor).withProducts qs).count.toNat = qs.length := by
      rw [Acc.count_withProducts hqs]
      exact Nat.zero_add _
    have hmerge : (a.withProducts ps).merge ((Acc.fresh false a.anchor).withProducts qs) = a.withProducts (ps ++ qs) :=
      (Acc.merge_fresh_withProducts (a := a.withProducts ps) ha qs).trans (Acc.withProducts_append a ps qs)
    refine ⟨(Acc.addAll_eq_some_of_fixed (a := a.withProducts ps) ha).2 ⟨hroom, (Acc.withProducts_append a ps qs).symm⟩, ?_, ?_, hmerge, ?_⟩
    · simp [Acc.mismatch, Acc.withProducts, Acc.fresh]
    · rw [Acc.overCount, hcount]
      exact decide_eq_false (Nat.not_lt.2 hroom)
    · rw [← hmerge]
      exact Acc.merge_comm_of_fixed rfl ha rfl

/-- Settles O13: the sum is that of the values on the grid modulo 2^160, and 2^32 − 1 of them cannot leave its range. -/
theorem accSumNeverWraps : Obligations.AccSumNeverWraps := by
  unfold Obligations.AccSumNeverWraps
  intro anchor ps b h
  obtain ⟨hlen, rfl⟩ := (Acc.addAll_eq_some_of_fixed rfl).1 h
  have hlen' : ps.length ≤ 0xFFFFFFFF := (Nat.zero_add _).symm.trans_le hlen
  refine ⟨(Acc.count_withProducts hlen).trans (Nat.zero_add _), (Acc.sum_fresh_withProducts anchor hlen').trans ?_, rfl, rfl⟩
  refine congrArg List.sum (List.map_congr_left fun v _ => ?_)
  cases v <;> rfl

end Sys2Proof.Machine
end

section
/-! SUPPORT. Strands that start, yield, end and fence (R74 to R76, R98, R124). -/

namespace Sys2Proof.Machine

theorem Told.regs {s t : State} (h : Told s t) : t.regs = s.regs := (congrArg State.regs h.eq).trans rfl
theorem Told.strand {s t : State} (h : Told s t) (c k : Nat) : t.strand c k = s.strand c k := (congrArg (State.strand · c k) h.eq).trans rfl

variable {s : State} {core strand p i n : Nat} {f : ScalarFields}

/-! ## Strands and cores after a change -/

@[simp] theorem strand_modStrand_self (s : State) (c t : Nat) (f : Strand → Strand) : (s.modStrand c t f).strand c t = f (s.strand c t) :=
  State.strand_setStrand_self _ _ _ _

theorem find_setStrand_ne {k : Nat} (h : k ≠ core * 2048 + strand) (x : Strand) :
    Tab.find k (s.setStrand core strand x).strands = Tab.find k s.strands := Tab.find_put_ne h _ _

theorem core_dropShadows_ne {c : Nat} (h : c ≠ core) : (s.dropShadows core strand).core c = s.core c := core_modCore_ne h _

/-- No instruction in flight holds the strand: it wakes to READY (R77, R150). -/
theorem wake_of_unstalled {x : Strand} (h : x.flights.findSome? Flight.stall = none) (o : Nat) :
    x.wake o = { x with mode := .ready, wait := .none, readyAt := o } := by
  unfold Strand.wake
  rw [h]

theorem makeReady_of_unstalled (h : (s.strand core strand).flights.findSome? Flight.stall = none) :
    s.makeReady core strand = ({ s with order := s.order + 1 } : State).setStrand core strand
      { s.strand core strand with mode := .ready, wait := .none, readyAt := s.order + 1 } :=
  congrArg (State.setStrand _ core strand) (wake_of_unstalled h _)

@[simp] theorem core_makeReady (s : State) (c n d : Nat) : (s.makeReady c n).core d = s.core d := rfl

/-! ## The lowest FREE strand (R74) -/

/-- A strand that is not FREE stands in the table of strands. -/
theorem mem_strands_of_used (h : (s.strand core strand).mode ≠ .free) :
    (core * 2048 + strand, s.strand core strand) ∈ s.strands := by
  cases hf : Tab.find (core * 2048 + strand) s.strands with
  | none => exact absurd (by simp [State.strand, Tab.getD, hf]) h
  | some x =>
    have hx : s.strand core strand = x := by simp [State.strand, Tab.getD, hf]
    exact hx ▸ Tab.mem_of_find hf

/-- With `n` strands in use below it, the lowest FREE strand is among the first that `freeStrand` tries. -/
theorem used_length_ge (hn : n < 2048) (hused : ∀ m, m < n → (s.strand core m).mode ≠ .free) :
    n ≤ (s.strands.filter fun x => x.1 / 2048 == core && x.2.mode != .free).length := by
  have hsub : (List.range n).map (core * 2048 + ·) ⊆ (s.strands.filter fun x => x.1 / 2048 == core && x.2.mode != .free).map Prod.fst := by
    intro k hk
    obtain ⟨m, hm, rfl⟩ := List.mem_map.1 hk
    have hm := List.mem_range.1 hm
    have hcore : (core * 2048 + m) / 2048 = core := by omega
    exact List.mem_map.2 ⟨_, List.mem_filter.2 ⟨mem_strands_of_used (hused m hm), by simp [hcore, hused m hm]⟩, rfl⟩
  have hnodup : ((List.range n).map (core * 2048 + ·)).Nodup := List.nodup_range.map fun a b h => by simpa using h
  simpa using (hnodup.subperm hsub).length_le

theorem freeStrand_eq (hn : n < 2048) (hfree : (s.strand core n).mode = .free) (hused : ∀ m, m < n → (s.strand core m).mode ≠ .free) :
    s.freeStrand core = some n := by
  have hlen := used_length_ge hn hused
  refine List.find?_range_eq_some.2 ⟨by simp [hn, hfree], List.mem_range.2 (Nat.lt_succ_of_le hlen), fun m hm => ?_⟩
  simp [hused m hm]

/-! ## FENCE's messages (R351) -/

theorem fns_syncForward (s : State) (x : SyncItem) : (s.syncForward x).fns = s.fns := by
  unfold State.syncForward
  split <;> rfl

theorem fns_syncSend (s : State) (pkg : Nat) (m : SyncMsg) : (s.syncSend pkg m).fns = s.fns := by
  unfold State.syncSend
  split
  · rfl
  · exact fns_syncForward _ _


theorem told_fenceSpan (s : State) (p fn : Nat) : Told s (s.fenceSpan p fn) :=
  .ite .refl (Told.refl.foldl fun _ _ hu => hu.syncSend)

theorem fns_fenceSpan (s : State) (p fn : Nat) : (s.fenceSpan p fn).fns = s.fns := by
  unfold State.fenceSpan
  dsimp only
  split
  · rfl
  · exact foldl_unchanged State.fns (fun _ _ => fns_syncSend _ _ _) _ _

theorem fenceSpan_of_no_span (h : (s.pav p).isSpan = false) (fn : Nat) : s.fenceSpan p fn = s := by
  refine if_pos ?_
  rw [h]
  simp

/-! ## What each instruction answers -/

theorem exec_spawn (h : Issues s core strand 8 p i) (hdef : shapeSpawn.undefined f = false) (hlo : 0 ≤ relTarget (s.strand core strand) f.imm)
    (hhi : relTarget (s.strand core strand) f.imm < 2 ^ 32) (hfree : s.freeStrand core = some n) :
    exec (.spawn core strand f) s = .next
      ((((s.setStrand core n (spawned (s.strand core strand) (relTarget (s.strand core strand) f.imm) ((s.strand core strand).reg f.srca)
        (f.fn.truncate 2))).makeReady core n).dropShadows core strand).advance core strand 8) := by
  show execSpawn core strand f s = _
  rw [execSpawn, scalar_of_issues h hdef]
  dsimp only
  rw [if_neg (by simp; omega), hfree]

theorem exec_yield (h : Issues s core strand 8 p i) (hdef : shapeNone.undefined f = false) (hpc : (s.strand core strand).pc.toNat + 8 < 2 ^ 32) :
    exec (.yield core strand f) s = .next (((s.dropShadows core strand).setStrand core strand
      ((s.strand core strand).withPc ((s.strand core strand).pc + 8))).makeReady core strand) := by
  show execYield core strand f s = _
  rw [execYield, scalar_of_issues h hdef]
  have ha : (s.dropShadows core strand).advance core strand 8 = (s.dropShadows core strand).setStrand core strand
      ((s.strand core strand).withPc ((s.strand core strand).pc + 8)) := advance_of_lt (s := s.dropShadows core strand) hpc
  dsimp only
  rw [ha, if_pos]
  simp [Strand.withPc, h.ready]

theorem exec_exit (h : Issues s core strand 8 p i) (hdef : shapeNone.undefined f = false) (hfl : (s.strand core strand).flights = []) :
    exec (.exit core strand f) s = .next ((s.dropShadows core strand).setStrand core strand {}) := by
  show execExit core strand f s = _
  rw [execExit, scalar_of_issues h hdef]
  dsimp only
  rw [if_pos (by simp [hfl])]

theorem exec_fence (h : Issues s core strand 8 p i) (hdef : shapeFence.undefined f = false) (hfl : (s.strand core strand).flights = []) :
    exec (.fence core strand f) s = .next (((s.dropShadows core strand).fenceSpan p f.fn.toNat).advance core strand 8) := by
  show execFence core strand f s = _
  rw [execFence, scalar_of_issues h hdef]
  dsimp only
  rw [if_pos (by simp [hfl])]

/-- The state in which a SPAWN leaves the strand that it starts. -/
theorem makeReady_spawned (s : State) (core n : Nat) (t : Strand) (target : Int) (a : Word64) (c : BitVec 2) :
    (s.setStrand core n (spawned t target a c)).makeReady core n = ({ s with order := s.order + 1 } : State).setStrand core n
      { mode := .ready, cls := c, layer := t.layer, pc := BitVec.ofInt 32 target, s0 := a, descs := t.descs, readyAt := s.order + 1 } := by
  rw [makeReady_of_unstalled (by rw [State.strand_setStrand_self]; rfl), State.strand_setStrand_self]
  exact setStrand_setStrand { s with order := s.order + 1 } core n _ _

/-- Settles O7, instruction by instruction. -/
theorem strandControl : Obligations.StrandControl := by
  unfold Obligations.StrandControl
  intro s core strand p i f h
  extract_lets t rel others
  intro hpc
  refine ⟨fun n hdef hlo hhi hn hfree hused => ?_, fun hdef => ⟨fun hstall => ?_, fun hfl => exec_exit h hdef hfl⟩, fun hdef hfl => ⟨fun hno => ?_, fun hfn hspan => ?_⟩⟩
  · -- SPAWN
    have hne : core * 2048 + strand ≠ core * 2048 + n := fun e => by
      obtain rfl : strand = n := by omega
      exact absurd hfree (by rw [h.ready]; decide)
    let s1 := (s.setStrand core n (spawned t rel (t.reg f.srca) (f.fn.truncate 2))).makeReady core n
    have hs1 : s1 = _ := makeReady_spawned s core n t rel (t.reg f.srca) (f.fn.truncate 2)
    have ht : (s1.dropShadows core strand).strand core strand = t := by
      rw [dropShadows_strand, hs1, State.strand_setStrand_ne _ _ _ _ _ _ hne]
      rfl
    have hgo : (s1.dropShadows core strand).advance core strand 8 = (s1.dropShadows core strand).setStrand core strand (t.withPc (t.pc + 8)) := by
      rw [advance_of_lt (by rw [ht]; exact hpc), ht]
      rfl
    refine ⟨_, (exec_spawn h hdef hlo hhi (freeStrand_eq hn hfree hused)).trans (congrArg Host.Outcome.next hgo), ?_, ?_, ?_, ⟨?_, ?_, ?_, ?_, ?_⟩, ?_⟩
    · rw [hs1]; rfl
    · rw [State.strand_setStrand_ne _ _ _ _ _ _ hne.symm, dropShadows_strand, hs1, State.strand_setStrand_self]
    · exact State.strand_setStrand_self _ _ _ _
    · rw [hs1]; rfl
    · rw [hs1]; rfl
    · rw [hs1]; rfl
    · rw [hs1]; rfl
    · intro c hc
      rw [State.core_setStrand, core_dropShadows_ne hc, hs1]
      rfl
    · intro k hk hkn
      rw [find_setStrand_ne hk]
      show Tab.find k s1.strands = _
      rw [hs1]
      exact find_setStrand_ne hkn _
  · -- YIELD
    refine ⟨_, (exec_yield h hdef hpc).trans (congrArg Host.Outcome.next (makeReady_of_unstalled (by rw [State.strand_setStrand_self]; exact hstall))), rfl, ?_,
      ⟨rfl, rfl, rfl, rfl, fun c hc => core_dropShadows_ne hc⟩, fun k hk => ?_⟩
    · rw [State.strand_setStrand_self, State.strand_setStrand_self]
      simp [Strand.withPc, h.ready, t]
      rfl
    · exact (find_setStrand_ne hk _).trans (find_setStrand_ne hk _)
  · -- FENCE of the core, or outside a span
    have hs : (s.dropShadows core strand).fenceSpan p f.fn.toNat = s.dropShadows core strand := by
      rcases hno with h0 | hspan
      · rw [h0]; rfl
      · exact fenceSpan_of_no_span (s := s.dropShadows core strand) hspan _
    rw [exec_fence h hdef hfl, hs, advance_of_lt (by rw [dropShadows_strand]; exact hpc), dropShadows_strand]
    rfl
  · -- FENCE of a span member
    have told : Told (s.dropShadows core strand) ((s.dropShadows core strand).fenceSpan p f.fn.toNat) := told_fenceSpan _ _ _
    have ht : ((s.dropShadows core strand).fenceSpan p f.fn.toNat).strand core strand = t :=
      (told.strand core strand).trans (dropShadows_strand _ _ _ _ _)
    refine ⟨_, (exec_fence h hdef hfl).trans (congrArg Host.Outcome.next (advance_of_lt (by rw [ht]; exact hpc))), ?_,
      ⟨told.beds, told.pavs, fns_fenceSpan _ _ _, told.regs, fun c hc => (told.core c).trans (core_dropShadows_ne hc)⟩, fun k hk => ?_⟩
    · rw [State.strand_setStrand_self, ht]
      rfl
    · rw [find_setStrand_ne hk, told.strands]
      rfl

end Sys2Proof.Machine
end

section
/-! SUPPORT. What stands while translation units walk tables and a strand walks ahead (R88 to R93, R187, R197). -/

namespace Sys2Proof.Machine

variable {s t u : State}

/-! ## Translation -/

/-- From `s` to `t` the translation caches and the draws of free values alone change. -/
structure Translated (s t : State) : Prop where
  eq : t = { s with draws := t.draws, tcache := t.tcache }

namespace Translated

theorem refl : Translated s s := ⟨rfl⟩

theorem update (h : Translated s t) (e : u = { t with draws := u.draws, tcache := u.tcache }) : Translated s u := by
  obtain ⟨h⟩ := h
  rw [h] at e
  exact ⟨e⟩

theorem cacheEntries {un p level : Nat} {es : List (Nat × Nat)} (h : Translated s t) : Translated s (t.cacheEntries un p level es) := h.update rfl

theorem draw (h : Translated s t) : Translated s t.draw.2 := h.update rfl

theorem readMemEntry {un p page dva level : Nat} (h : Translated s t) : Translated s (t.readMemEntry un p page dva level).2 := by
  unfold State.readMemEntry
  dsimp only
  split
  · exact h
  · split
    · exact h
    · split
      · split
        · exact h
        · split <;> exact h.cacheEntries
      · exact h.cacheEntries

theorem readEntry {un p page dva level : Nat} (h : Translated s t) : Translated s (t.readEntry un p page dva level).2 := by
  unfold State.readEntry
  dsimp only
  split
  · exact h.readMemEntry
  · split
    · exact h
    · split
      · exact h.draw
      · exact h.draw.readMemEntry

theorem walkLevel {un p dva level page : Nat} {next : State → Nat → Walk × State} (h : Translated s t)
    (hn : ∀ u a, Translated s u → Translated s (next u a).2) : Translated s (t.walkLevel un p dva level page next).2 := by
  rw [State.walkLevel]
  split
  · exact h.readEntry
  · split
    · exact h.readEntry
    · split
      · exact h.readEntry
      · split
        · exact hn _ _ h.readEntry
        · exact h.readEntry

theorem walkFrom {un p dva level page : Nat} (h : Translated s t) : Translated s (t.walkFrom un p dva level page).2 := by
  induction level generalizing t page with
  | zero =>
    rw [walkFrom_zero]
    exact h.walkLevel fun _ _ hu => hu
  | succ level ih =>
    rw [walkFrom_succ]
    exact h.walkLevel fun _ _ hu => ih hu

theorem walk {un p dva : Nat} (h : Translated s t) : Translated s (t.walk un p dva).2 := by
  rw [State.walk]
  split
  · exact h
  · split
    · exact h
    · exact h.walkFrom

theorem specPage {un p pg : Nat} {next : State → Option (Tab PageLoc) × State} (h : Translated s t)
    (hn : ∀ u, Translated s u → Translated s (next u).2) : Translated s (t.specPage un p pg next).2 := by
  rw [State.specPage]
  split
  · split
    · exact hn _ h.walk
    · exact h.walk
  · exact h.walk

theorem specPages {un p : Nat} {pgs : List Nat} (h : Translated s t) : Translated s (t.specPages un p pgs).2 := by
  induction pgs generalizing t with
  | nil => exact h
  | cons pg rest ih =>
    rw [specPages_cons]
    exact h.specPage fun _ hu => ih hu

theorem eligible {p core : Nat} {l : SpecLoad} (h : Translated s t) : Translated s (t.eligible p core l).2 := by
  unfold State.eligible
  dsimp only
  split
  · exact h
  · split
    · exact h
    · split
      · exact h.specPages
      · exact h

end Translated

/-! ## The walk of an episode -/

/-- From `s` to `t` the translation caches, the draws and what cores hold alone change. -/
structure Ahead (s t : State) : Prop where
  eq : t = { s with draws := t.draws, tcache := t.tcache, cores := t.cores }

namespace Ahead

theorem refl : Ahead s s := ⟨rfl⟩

theorem update (h : Ahead s t) (e : u = { t with draws := u.draws, tcache := u.tcache, cores := u.cores }) : Ahead s u := by
  obtain ⟨h⟩ := h
  rw [h] at e
  exact ⟨e⟩

theorem beds (h : Ahead s t) : t.beds = s.beds := (congrArg State.beds h.eq).trans rfl
theorem strand (h : Ahead s t) (c n : Nat) : t.strand c n = s.strand c n := (congrArg (State.strand · c n) h.eq).trans rfl

theorem translated (h : Ahead s t) (h' : Translated t u) : Ahead s u := by
  rw [h'.eq]
  exact h.update rfl

theorem modCore {c : Nat} {f : Core → Core} (h : Ahead s t) : Ahead s (t.modCore c f) := h.update rfl

theorem speculate {p core strand : Nat} {l : SpecLoad} (h : Ahead s t) : Ahead s (t.speculate p core strand l) := by
  have q : Ahead s (t.eligible p core l).2 := h.translated Translated.refl.eligible
  unfold State.speculate
  split
  · exact h
  · dsimp only
    split
    · exact q
    · exact q.modCore

theorem walkTile {p core strand op : Nat} {w : Walker} {f : TileFields} (h : Ahead s t) : Ahead s (t.walkTile p core strand w op f).1 := by
  unfold State.walkTile
  split
  · exact h
  · dsimp only
    split
    · split
      · exact h.speculate
      · exact h
    · exact h

theorem walkAhead {p core strand : Nat} {w : Walker} {words : List (Word64 × Word64)} (h : Ahead s t) :
    Ahead s (t.walkAhead p core strand w words).1 := by
  induction words generalizing t w with
  | nil => exact h
  | cons x rest ih =>
    rw [State.walkAhead]
    dsimp only
    split
    · exact h
    · split
      · split
        · exact ih h
        · exact h
      · split
        · split
          · exact h.walkTile
          · exact ih h.walkTile
        · exact h.walkTile

end Ahead

end Sys2Proof.Machine
end

section
/-! SUPPORT. Fills, wakes, completions and run-ahead episodes of strands (R77, R78, R88, R92, R96, R102, R200). -/

namespace Sys2Proof.Machine

variable {s : State} {core strand p i : Nat}

theorem ownerOf_of_owner (h : (s.core core).owner = some (p, i)) : s.ownerOf core = some p := by rw [State.ownerOf, h]; rfl

/-- A strand that exists on a core that exists passes a command's check of its units. -/
theorem not_noStrand (hc : core < 1088) (hn : strand < 2048) : ¬ (core ≥ numCores || strand ≥ numStrands) = true := by simp; omega

section
variable (hc : core < 1088) (hn : strand < 2048)
include hc hn

theorem exec_icacheFill (ho : s.ownerOf core = some p) {len l : Nat} (hw : (s.strand core strand).wait = .icache len)
    (hm : s.missingLine core strand len = some l) (hr : (s.codePiece p l).isSome = true) :
    exec (.icacheFill core strand) s = .next ((s.modCore core fun c => { c with icache := icachePut l c.icache }).makeReady core strand) := by
  refine (if_neg (not_noStrand hc hn)).trans ?_
  simp only [ho, hw, hm, hr, if_true, ok]

theorem exec_strandWake (hmode : (s.strand core strand).mode = .waiting) (hw : (s.strand core strand).wait ≠ .exit)
    (hcl : s.cleared core strand = true) : exec (.strandWake core strand) s = .next (s.makeReady core strand) := by
  refine (if_neg (not_noStrand hc hn)).trans ?_
  simp [hmode, hw, hcl, ok]

theorem exec_strandWake_exit (hmode : (s.strand core strand).mode = .waiting) (hw : (s.strand core strand).wait = .exit)
    (hfl : (s.strand core strand).flights = []) : exec (.strandWake core strand) s = .next (s.setStrand core strand {}) := by
  have hcl : s.cleared core strand = true := by simp [State.cleared, hw, hfl]
  refine (if_neg (not_noStrand hc hn)).trans ?_
  simp [hmode, hw, hcl, ok]

theorem exec_tileInstructionComplete (ho : s.ownerOf core = some p) {pos : Nat} {x : Flight} (hx : (s.strand core strand).flights[pos]? = some x)
    (hmoved : x.prog = .moved) (hfirst : (isMove x.op.toNat && moverBefore (s.strand core strand).flights pos) = false)
    (hfills : s.fillsOpen x.fills.1 x.fills.2 = false) :
    exec (.tileInstructionComplete core strand pos) s = .next (if isCompute x.op.toNat
      then (s.finishFlight core strand x.num).startQueued p core x.engine else s.finishFlight core strand x.num) := by
  refine (if_neg (not_noStrand hc hn)).trans ?_
  simp [hx, hmoved, hfirst, hfills, ho, ok]

theorem exec_tileTranslate (ho : s.ownerOf core = some p) {pos : Nat} {x : Flight} (hx : (s.strand core strand).flights[pos]? = some x)
    (hp : x.prog = .pending) : exec (.tileTranslate core strand pos) s = .next (s.driveTiles p core strand x.num {}) := by
  refine (if_neg (not_noStrand hc hn)).trans ?_
  simp [ho, hx, State.canTranslate, hp, ok]

/-- An episode opens: the strand is in RUN-AHEAD, and walks ahead on its private copy. -/
theorem exec_episodeOpen (ho : s.ownerOf core = some p) (hmode : (s.strand core strand).mode = .waiting)
    (hpred : (s.strand core strand).atPredicate = true) (hfree : (s.core core).freeShadow.isSome = true)
    (hroom : (s.strands.filter fun x => x.1 / 2048 == core && x.2.mode == .runAhead).length < 8) (walk : WalkWords) :
    let s1 := s.modStrand core strand fun t => { t with mode := .runAhead }
    let r := s1.walkAhead p core strand (s1.walker core strand) walk
    exec (.episodeOpen core strand walk) s = .next (r.1.modCore core fun c => { c with predictor := r.2.predictor }) := by
  refine (if_neg (not_noStrand hc hn)).trans ?_
  simp only [ho]
  refine if_neg ?_
  simp [hmode, hpred, Option.isSome_iff_ne_none.1 hfree, hroom]

theorem exec_predicateResolve (hmode : (s.strand core strand).mode = .runAhead) (hcl : s.cleared core strand = true) :
    exec (.predicateResolve core strand) s = .next ((s.modCore core fun c =>
      { c with shadows := Tab.mapVals (fun _ x => if x.strand == strand then { x with openEpisode := false } else x) c.shadows }).makeReady core strand) := by
  refine (if_neg (not_noStrand hc hn)).trans ?_
  simp [hmode, hcl, ok]

theorem exec_shadowPromote (ho : s.ownerOf core = some p) {buf : Nat} {sh : Shadow} {x : Flight} (hb : buf < 8)
    (hsh : Tab.find buf (s.core core).shadows = some sh) (hmine : sh.strand = strand) (hdone : sh.complete = true) (hhurt : sh.hurt = false)
    (hx : (s.strand core strand).flights.find? (fun y => y.prog == .promote buf) = some x) (hfree : s.touchesLs core x.num x.dd.range = false) :
    exec (.shadowPromote core strand buf) s = .next (s.promote p core strand buf x) := by
  refine (if_neg (by simp; omega)).trans ?_
  simp [ho, hsh, hx, hmine, hdone, hhurt, hfree, ok]

end

theorem exec_shadowLoadComplete (hc : core < 1088) (ho : s.ownerOf core = some p) {buf : Nat} {sh : Shadow} (hb : buf < 8)
    (hsh : Tab.find buf (s.core core).shadows = some sh) (hwhole : s.hurtPieces p sh.load.src sh.rows = []) {m : Tab PageLoc} {u : State}
    (hpages : s.specPages (clusterOf core) p (sh.load.src.pagesOf (s.pav p) sh.rows) = (some m, u))
    (hgood : u.badSource p m sh.load.src sh.rows = none) :
    exec (.shadowLoadComplete core buf) s = .next (u.modCore core fun c => { c with shadows := Tab.put buf { sh with complete := true } c.shadows }) := by
  refine (if_neg (by simp; omega)).trans ?_
  simp [ho, hsh, hwhole, hpages, hgood, ok]

/-- Settles O16, event by event. That RDAS, CLAS and RDSRC wait at predicates, and the words of a walk, are the model's choice (notes/assumptions/18.md). -/
theorem coreEventsComplete : Obligations.CoreEventsComplete := by
  unfold Obligations.CoreEventsComplete
  intro s core strand p i hc hn howner
  have ho := ownerOf_of_owner howner
  extract_lets t
  refine ⟨fun len l hw hm hr => exec_icacheFill hc hn ho hw hm hr, fun hmode hw hcl hstall => ?_, fun hmode hw hfl => exec_strandWake_exit hc hn hmode hw hfl,
    fun pos x hx hmoved hfirst hfills => exec_tileInstructionComplete hc hn ho hx hmoved hfirst hfills,
    fun pos x hx hp => exec_tileTranslate hc hn ho hx hp, fun walk hmode hpred hfree hroom => ?_, fun hmode hcl hstall => ?_,
    fun buf sh hb hsh hwhole m u hpages hgood => exec_shadowLoadComplete hc ho hb hsh hwhole hpages hgood,
    fun buf sh x hb hsh hmine hdone hhurt hx hfree => exec_shadowPromote hc hn ho hb hsh hmine hdone hhurt hx hfree⟩
  · -- STRAND_WAKE
    exact ⟨_, (exec_strandWake hc hn hmode hw hcl).trans (congrArg Host.Outcome.next (makeReady_of_unstalled hstall)),
      State.strand_setStrand_self _ _ _ _, rfl, rfl, rfl⟩
  · -- EPISODE_OPEN
    let s1 := s.modStrand core strand fun t => { t with mode := .runAhead }
    have ahead : Ahead s1 (s1.walkAhead p core strand (s1.walker core strand) walk).1 := Ahead.refl.walkAhead
    refine ⟨_, exec_episodeOpen hc hn ho hmode hpred hfree hroom walk, ?_, ahead.beds, fun hw => ?_⟩
    · exact (ahead.modCore.strand core strand).trans (strand_modStrand_self _ _ _ _)
    · subst hw
      rw [core_modCore_self]
      rfl
  · -- PREDICATE_RESOLVE
    refine ⟨_, exec_predicateResolve hc hn hmode hcl, ?_, ?_⟩
    · rw [makeReady_of_unstalled (by rw [modCore_strand]; exact hstall), State.strand_setStrand_self, modCore_strand]
      rfl
    · rw [core_makeReady, core_modCore_self]

end Sys2Proof.Machine
end

section
/-! SUPPORT. Strands that a release resumes (R103, R144, R147, R248). -/

namespace Sys2Proof.Machine

variable {s t u : State} {c n : Nat} {ws : Wait → Bool} {l L : List (Nat × Nat)} {x y : Nat × Nat}

/-! ## One strand resumes -/

/-- A strand past the 16-byte instruction that it waited in, as the `o`-th strand to become READY. -/
def Strand.resumed (t : Strand) (o : Nat) : Strand := (t.wake o).withPc (t.pc + 16)

theorem pc_wake (t : Strand) (o : Nat) : (t.wake o).pc = t.pc := by
  unfold Strand.wake
  split <;> rfl

theorem resume_of_fits (h : (s.strand c n).pc.toNat + 16 < 2 ^ 32) :
    s.resume c n = ({ s with order := s.order + 1 } : State).setStrand c n ((s.strand c n).resumed (s.order + 1)) := by
  have hw : (s.makeReady c n).strand c n = (s.strand c n).wake (s.order + 1) := State.strand_setStrand_self _ _ _ _
  rw [State.resume, advance_of_lt (by rw [hw, pc_wake]; exact h), hw, pc_wake]
  rw [State.makeReady, State.modStrand, setStrand_setStrand, Strand.resumed]
  rfl

theorem stall_eq_some {x : Flight} {w : Wait} (h : x.stall = some w) : w = .transl ∨ w = .host := by
  cases hp : x.prog <;> simp [Flight.stall, hp] at h
  · exact .inl h.symm
  · exact .inr h.symm

/-- What a woken strand waits for: nothing, or what an instruction of it in flight waits for (R77, R150). -/
theorem wait_resumed (t : Strand) (o : Nat) : (t.resumed o).wait = .none ∨ (t.resumed o).wait = .transl ∨ (t.resumed o).wait = .host := by
  change (t.wake o).wait = _ ∨ (t.wake o).wait = _ ∨ (t.wake o).wait = _
  cases hw : t.flights.findSome? Flight.stall with
  | none => exact .inl (congrArg Strand.wait (wake_of_unstalled hw o))
  | some w =>
    obtain ⟨x, -, hx⟩ := List.exists_of_findSome?_eq_some hw
    have hwait : (t.wake o).wait = w := by rw [Strand.wake, hw]
    exact .inr (hwait ▸ stall_eq_some hx)

theorem strand_of_key (s : State) {d m : Nat} (h : c * 2048 + n = d * 2048 + m) : s.strand c n = s.strand d m := by
  simp only [State.strand, h]

/-! ## Strands that wait for the release -/

/-- The strand resumes if its wait is one that the release ends. -/
def State.release (ws : Wait → Bool) (s : State) (x : Nat × Nat) : State := if ws (s.strand x.1 x.2).wait then s.resume x.1 x.2 else s

/-- A release ends no wait that a strand which has resumed may be in. -/
structure EndsOnce (ws : Wait → Bool) : Prop where
  none : ws .none = false
  transl : ws .transl = false
  host : ws .host = false

theorem EndsOnce.resumed (h : EndsOnce ws) (t : Strand) (o : Nat) : ws (t.resumed o).wait = false := by
  rcases wait_resumed t o with e | e | e <;> rw [e]
  · exact h.none
  · exact h.transl
  · exact h.host

/-- Each of the strands that the release resumes can go on past its instruction. -/
def State.fits (s : State) (ws : Wait → Bool) (l : List (Nat × Nat)) : Prop :=
  ∀ x ∈ l, ws (s.strand x.1 x.2).wait = true → (s.strand x.1 x.2).pc.toNat + 16 < 2 ^ 32

theorem release_of_waits (hw : ws (s.strand x.1 x.2).wait = true) (hf : s.fits ws L) (hx : x ∈ L) :
    s.release ws x = ({ s with order := s.order + 1 } : State).setStrand x.1 x.2 ((s.strand x.1 x.2).resumed (s.order + 1)) :=
  (if_pos hw).trans (resume_of_fits (hf x hx hw))

theorem release_of_not (hw : ws (s.strand x.1 x.2).wait = false) : s.release ws x = s := if_neg (by simp [hw])

/-- A release of one strand leaves another as it was, or in no wait that it ends. -/
theorem strand_release (hws : EndsOnce ws) (hf : s.fits ws L) (hx : x ∈ L) (y : Nat × Nat) :
    (s.release ws x).strand y.1 y.2 = s.strand y.1 y.2 ∨ ws ((s.release ws x).strand y.1 y.2).wait = false := by
  cases hw : ws (s.strand x.1 x.2).wait with
  | false => exact .inl (by rw [release_of_not hw])
  | true =>
    rw [release_of_waits hw hf hx]
    by_cases hk : y.1 * 2048 + y.2 = x.1 * 2048 + x.2
    · rw [strand_of_key _ hk, State.strand_setStrand_self]
      exact .inr (hws.resumed _ _)
    · exact .inl (State.strand_setStrand_ne _ _ _ _ _ _ hk)

theorem fits_release (hws : EndsOnce ws) (hf : s.fits ws L) (hx : x ∈ L) : (s.release ws x).fits ws L := by
  intro y hy hw
  rcases strand_release hws hf hx y with e | e
  · rw [e] at hw ⊢
    exact hf y hy hw
  · rw [hw] at e
    cases e

/-! ## All of them -/

/-- From `s` to `t` strands, and the count of those that became READY, alone change. -/
structure OnlyStrands (s t : State) : Prop where
  eq : t = { s with order := t.order, strands := t.strands }

namespace OnlyStrands

theorem refl : OnlyStrands s s := ⟨rfl⟩

theorem trans (h : OnlyStrands s t) (h' : OnlyStrands t u) : OnlyStrands s u := ⟨by rw [h'.eq, h.eq]⟩

theorem beds (h : OnlyStrands s t) : t.beds = s.beds := (congrArg State.beds h.eq).trans rfl
theorem host (h : OnlyStrands s t) : t.host = s.host := (congrArg State.host h.eq).trans rfl
theorem pav (h : OnlyStrands s t) (p : Nat) : t.pav p = s.pav p := (congrArg (State.pav · p) h.eq).trans rfl

theorem release (hf : s.fits ws L) (hx : x ∈ L) : OnlyStrands s (s.release ws x) := by
  cases hw : ws (s.strand x.1 x.2).wait with
  | false => rw [release_of_not hw]; exact refl
  | true => rw [release_of_waits hw hf hx]; exact ⟨rfl⟩

theorem foldl_release (hws : EndsOnce ws) (hf : s.fits ws L) (hl : l ⊆ L) : OnlyStrands s (l.foldl (State.release ws) s) := by
  induction l generalizing s with
  | nil => exact refl
  | cons x l ih =>
    obtain ⟨hx, hl⟩ := List.cons_subset.1 hl
    exact (release hf hx).trans (ih (fits_release hws hf hx) hl)

end OnlyStrands

/-- A strand in no wait that the release ends stays as it is. -/
theorem strand_foldl_release_of_not (hws : EndsOnce ws) (hf : s.fits ws L) (hl : l ⊆ L) (hy : ws (s.strand y.1 y.2).wait = false) :
    (l.foldl (State.release ws) s).strand y.1 y.2 = s.strand y.1 y.2 := by
  induction l generalizing s with
  | nil => rfl
  | cons x l ih =>
    obtain ⟨hx, hl⟩ := List.cons_subset.1 hl
    have same : (s.release ws x).strand y.1 y.2 = s.strand y.1 y.2 := by
      cases hw : ws (s.strand x.1 x.2).wait with
      | false => rw [release_of_not hw]
      | true =>
        have hk : y.1 * 2048 + y.2 ≠ x.1 * 2048 + x.2 := fun e => by rw [strand_of_key s e, hw] at hy; cases hy
        rw [release_of_waits hw hf hx]
        exact State.strand_setStrand_ne _ _ _ _ _ _ hk
    exact (ih (fits_release hws hf hx) hl (by rw [same]; exact hy)).trans same

/-- A strand of the list in a wait that the release ends resumes. -/
theorem strand_foldl_release (hws : EndsOnce ws) (hf : s.fits ws L) (hl : l ⊆ L) (hx : x ∈ l) (hw : ws (s.strand x.1 x.2).wait = true) :
    ∃ o, (l.foldl (State.release ws) s).strand x.1 x.2 = (s.strand x.1 x.2).resumed o := by
  induction l generalizing s with
  | nil => cases hx
  | cons y l ih =>
    obtain ⟨hy, hl⟩ := List.cons_subset.1 hl
    by_cases hk : x.1 * 2048 + x.2 = y.1 * 2048 + y.2
    · have hwy : ws (s.strand y.1 y.2).wait = true := strand_of_key s hk ▸ hw
      have hgo : (s.release ws y).strand x.1 x.2 = (s.strand x.1 x.2).resumed (s.order + 1) := by
        rw [release_of_waits hwy hf hy, strand_of_key _ hk, State.strand_setStrand_self, strand_of_key s hk]
      exact ⟨_, (strand_foldl_release_of_not hws (fits_release hws hf hy) hl (by rw [hgo]; exact hws.resumed _ _)).trans hgo⟩
    · have same : (s.release ws y).strand x.1 x.2 = s.strand x.1 x.2 := by
        cases hwy : ws (s.strand y.1 y.2).wait with
        | false => rw [release_of_not hwy]
        | true =>
          rw [release_of_waits hwy hf hy]
          exact State.strand_setStrand_ne _ _ _ _ _ _ hk
      have hx : x ∈ l := (List.mem_cons.1 hx).resolve_left fun e => hk (e ▸ rfl)
      obtain ⟨o, ho⟩ := ih (fits_release hws hf hy) hl hx (by rw [same]; exact hw)
      exact ⟨o, ho.trans (by rw [same])⟩

end Sys2Proof.Machine
end

section
/-! SUPPORT. Releases of barriers and of step commits, and deliveries of span steps (R103, R144, R147, R248, R250, R371). -/

namespace Sys2Proof.Machine

variable {s : State} {p i : Nat} {b : Barrier} {k : Word64}

theorem Told.host {s t : State} (h : Told s t) : t.host = s.host := (congrArg State.host h.eq).trans rfl

theorem due_of_le (h : k.toNat ≤ s.time.now.toNat) : due (some k) s.now = true := decide_eq_true h

/-! ## BARRIER_RELEASE -/

theorem endsOnce_barrier (i : Nat) : EndsOnce (· == .barrier i) := ⟨rfl, rfl, rfl⟩

theorem exec_barrierRelease (hp : p < 512) (hi : i < 16) (hb : Tab.find i (s.pav p).barriers = some b) (hk : b.tick = some k)
    (hdue : k.toNat ≤ s.time.now.toNat) (hflip : s.flipFirst p k = false) (hcommit : (s.pav p).commitFirst k = false) :
    exec (.barrierRelease p i) s = .next (b.early.foldl (fun u x => u.memberArrives p x.1 (.barrier i) x.2.1 (BitVec.ofNat 64 x.2.2))
      (b.arrived.foldl (State.release (· == .barrier i)) (s.putBarrier p i b.turn))) := by
  refine (if_neg (by simp; omega)).trans ?_
  simp only [hb]
  exact if_neg (by simp [hk, due_of_le hdue, hflip, hcommit])

theorem barriers_putBarrier_turn_last (h : b.later = []) :
    ((s.putBarrier p i b.turn).pav p).barriers = Tab.drop i (s.pav p).barriers := by
  unfold Barrier.turn
  rw [h]
  exact congrArg Pav.barriers (State.pav_setPav_self _ _ _)

theorem find_putBarrier_turn {e : Nat} {as : List (Nat × Nat)} {rest : List (Nat × List (Nat × Nat))} (h : b.later = (e, as) :: rest) :
    Tab.find i ((s.putBarrier p i b.turn).pav p).barriers = some { expected := e, arrived := as, later := rest } := by
  unfold Barrier.turn
  rw [h]
  exact (congrArg (fun v => Tab.find i (Pav.barriers v)) (State.pav_setPav_self _ _ _)).trans (Tab.find_put_self _ _ _)

/-! ## STEP_COMMIT_RELEASE -/

/-- A strand waits in TCOMMIT. -/
def Wait.isCommit : Wait → Bool
  | .commit _ => true
  | _ => false

theorem endsOnce_isCommit : EndsOnce Wait.isCommit := ⟨rfl, rfl, rfl⟩

theorem release_isCommit :
    State.release Wait.isCommit = fun u x => match (u.strand x.1 x.2).wait with | .commit _ => u.resume x.1 x.2 | _ => u := by
  funext u x
  unfold State.release
  cases (u.strand x.1 x.2).wait <;> rfl

theorem replayCommit_of_live (hrep : s.replaying p = false) (hrec : s.recording p = false) (n : Word64) (hs : List Held) :
    s.replayCommit p n hs = s := by
  unfold State.replayCommit
  simp [hrep, hrec]

/-- A pavilion whose step `n` commits: its held writes without a step take it (R147). -/
def Pav.commits (v : Pav) (n : Word64) (ds : List (Word64 × Word64)) : Pav :=
  { v with committed := n, commit := none, watchdog := 0, deliveries := ds
           held := v.held.map fun h => if h.step.isNone then { h with step := some n } else h }

/-- What a committed step that Replay neither records nor feeds does: the pavilion commits, its strands resume, and the Mirror queue
takes the step; it is told at once where nothing is to be delivered. -/
theorem exec_stepCommitRelease {c : Commit} (hp : p < 512) (hc : (s.pav p).commit = some c) (hk : c.tick = some k)
    (hdue : k.toNat ≤ s.time.now.toNat) (hrep : s.replaying p = false) (hrec : s.recording p = false) (hflip : s.flipFirst p k = false)
    (hearly : c.early = []) :
    let v := s.pav p
    let later := v.isSpan || (!(v.held.filter fun h => h.step.isNone).isEmpty && !false)
    let ds := if later then v.deliveries ++ [(c.step, if v.isSpan then c.tick.getD 0 + 1024 else c.tick.getD 0)] else v.deliveries
    let u := ((s.liveStrands p).foldl (State.release Wait.isCommit) (s.modPav p fun v => v.commits c.step ds)).queueMirror p c.step
    exec (.stepCommitRelease p) s = .next (if later then u else u.raisePav p 0x0005 (detailWords (lohi c.step.toNat))) := by
  have hnow : ¬ (!due c.tick s.now || s.flipFirst p (c.tick.getD 0)) = true := by simp [hk, due_of_le hdue, hflip]
  refine (if_neg (by simp; omega)).trans ?_
  simp only [hc]
  rw [if_neg hnow, replayCommit_of_live hrep hrec, hearly]
  simp only [hrep, release_isCommit]
  rfl

theorem only_dir_queueMirror (s : State) (p : Nat) (n : Word64) : s.queueMirror p n = { s with dir := (s.queueMirror p n).dir } := by
  unfold State.queueMirror
  dsimp only
  split <;> rfl

/-! ## SPAN_DELIVERY_START -/

theorem exec_spanDeliveryStart {d : Word64 × Word64} (hp : p < 512) (hspan : (s.pav p).isSpan = true)
    (hd : ((s.pav p).deliveries.find? fun d => decide (d.2.toNat ≤ s.time.now.toNat) && (s.pav p).held.all fun h => h.step != some d.1) = some d) :
    exec (.spanDeliveryStart p) s = .next ((s.modPav p fun v => { v with deliveries := v.deliveries.erase d }).raisePav p 0x0005
      (detailWords (lohi d.1.toNat))) := by
  have hd' : ((s.pav p).deliveries.find? fun d => due (some d.2) s.now && !(s.pav p).held.any fun h => h.step == some d.1) = some d := by
    simp only [List.not_any_eq_all_not]
    exact hd
  refine (if_neg (by simp; omega)).trans ?_
  simp only [hd', hspan]
  rfl

/-! ## The obligation -/

/-- Settles O18, release by release. -/
theorem releasesResumeStrands : Obligations.ReleasesResumeStrands := by
  unfold Obligations.ReleasesResumeStrands
  refine fun s p hp => ⟨fun i b k hi hb hk hdue hflip hcommit harr => ?_, fun c k hc hk hdue hrep hrec hflip hearly hpcs => ?_, fun d hspan hd => ?_⟩
  · -- BARRIER_RELEASE
    have hf : (s.putBarrier p i b.turn).fits (· == .barrier i) b.arrived := fun x hx _ => (harr x hx).2
    have only := OnlyStrands.foldl_release (endsOnce_barrier i) hf (List.Subset.refl _)
    refine ⟨_, exec_barrierRelease hp hi hb hk hdue hflip hcommit, fun x hx hw hstall => ?_, only.beds, fun hl => ?_, fun e l rest hl => ?_⟩
    · obtain ⟨o, ho⟩ := strand_foldl_release (endsOnce_barrier i) hf (List.Subset.refl _) hx (beq_iff_eq.2 hw)
      rw [ho, Strand.resumed]
      change _ ∧ _ ∧ (s.strand x.1 x.2).pc + 16 = _
      rw [show (s.putBarrier p i b.turn).strand x.1 x.2 = s.strand x.1 x.2 from rfl, wake_of_unstalled hstall]
      exact ⟨rfl, rfl, rfl⟩
    · rw [only.pav, barriers_putBarrier_turn_last hl]
    · rw [only.pav, find_putBarrier_turn hl]
  · -- STEP_COMMIT_RELEASE
    have ht := exec_stepCommitRelease hp hc hk hdue hrep hrec hflip hearly
    extract_lets v later ds u at ht
    have hu : u = _ := only_dir_queueMirror _ _ _
    have only : OnlyStrands (s.modPav p fun v => v.commits c.step ds) _ :=
      OnlyStrands.foldl_release endsOnce_isCommit (fun x hx _ => hpcs x hx) (List.Subset.refl (s.liveStrands p))
    have told : Told u (if later then u else u.raisePav p 0x0005 (detailWords (lohi c.step.toNat))) := .ite .refl (.raisePav .refl)
    have hpav : (if later then u else u.raisePav p 0x0005 (detailWords (lohi c.step.toNat))).pav p = (s.pav p).commits c.step ds := by
      rw [told.pav, hu]
      exact (only.pav p).trans (State.pav_setPav_self _ _ _)
    refine ⟨_, ht, ?_, ?_, ?_, ?_, ?_, ?_⟩
    · rw [hpav]; rfl
    · rw [hpav]; rfl
    · rw [hpav]; rfl
    · rw [hpav]; rfl
    · rw [told.beds, hu]; exact only.beds
    · rw [told.host, hu]; exact only.host
  · -- SPAN_DELIVERY_START
    have told := Told.raisePav (p := p) (code := 0x0005) (detail := detailWords (lohi d.1.toNat))
      (Told.refl (s := s.modPav p fun v => { v with deliveries := v.deliveries.erase d }))
    have hpav := (told.pav p).trans (State.pav_setPav_self _ _ _)
    refine ⟨_, exec_spanDeliveryStart hp hspan hd, ?_, ?_, ?_, told.beds⟩ <;> rw [hpav]

end Sys2Proof.Machine
end

section
/-! SUPPORT. A pavilion's cores stay its own while what they hold changes (R265, R306). -/

namespace Sys2Proof.Machine

variable {α β : Type}

/-! ## Tables -/

theorem Tab.put_comm {j k : Nat} (h : j ≠ k) (a b : α) (t : Tab α) : Tab.put j a (Tab.put k b t) = Tab.put k b (Tab.put j a t) := by
  induction t with
  | nil => grind [Tab.put]
  | cons c t ih => grind [Tab.put]

/-- An entry that another of the list puts again need not be put before. -/
theorem foldl_put_of_mem {e : Nat × α} {l : List (Nat × α)} (he : e ∈ l) (t : Tab α) :
    l.foldl (fun t x => Tab.put x.1 x.2 t) (Tab.put e.1 e.2 t) = l.foldl (fun t x => Tab.put x.1 x.2 t) t := by
  induction l generalizing t with
  | nil => cases he
  | cons b l ih =>
    simp only [List.foldl_cons]
    by_cases hk : b.1 = e.1
    · rw [hk, Tab.put_put]
    · have hl : e ∈ l := (List.mem_cons.1 he).resolve_left fun h => hk (h ▸ rfl)
      rw [Tab.put_comm hk, ih hl]

theorem filterMap_cons_eq (f : α → Option β) (y : α) (l : List α) : (y :: l).filterMap f = (f y).toList ++ l.filterMap f := by
  cases h : f y <;> simp [h]

/-- What a table's entries give, once an entry is put that gives what its key's entry gave: the same, or that once more before it. -/
theorem filterMap_put {f : Nat × α → Option β} {c : Nat} {x d : α} {t : Tab α} (hx : f (c, x) = f (c, Tab.getD t c d)) (hd : f (c, d) = none) :
    ∃ A B, t.filterMap f = A ++ B ∧ ((Tab.put c x t).filterMap f = A ++ B ∨ ∃ e ∈ B, (Tab.put c x t).filterMap f = A ++ e :: B) := by
  induction t with
  | nil =>
    have hn : f (c, x) = none := hx.trans hd
    exact ⟨[], [], rfl, .inl (by simp [Tab.put, hn])⟩
  | cons y t ih =>
    rcases Nat.lt_trichotomy c y.1 with h | rfl | h
    · -- the entry is put before every other
      have hput : Tab.put c x (y :: t) = (c, x) :: y :: t := if_pos h
      refine ⟨[], (y :: t).filterMap f, rfl, ?_⟩
      rw [hput, filterMap_cons_eq]
      cases he : f (c, x) with
      | none => exact .inl rfl
      | some e =>
        refine .inr ⟨e, ?_, rfl⟩
        cases hf : Tab.find c (y :: t) with
        | none => rw [hx, Tab.getD, hf] at he; exact absurd (he.symm.trans hd) (by simp)
        | some z => exact List.mem_filterMap.2 ⟨_, Tab.mem_of_find hf, by rw [← he, hx, Tab.getD, hf]; rfl⟩
    · -- it takes the place of the first of its key
      have hput : Tab.put y.1 x (y :: t) = (y.1, x) :: t := by simp [Tab.put]
      have hget : Tab.getD (y :: t) y.1 d = y.2 := by simp [Tab.getD, Tab.find]
      exact ⟨[], (y :: t).filterMap f, rfl, .inl (by rw [hput, filterMap_cons_eq, hx, hget, filterMap_cons_eq]; rfl)⟩
    · -- it is put further on
      have hput : Tab.put c x (y :: t) = y :: Tab.put c x t := by simp [Tab.put, Nat.lt_asymm h, Nat.ne_of_lt h]
      have hget : Tab.getD (y :: t) c d = Tab.getD t c d := by simp [Tab.getD, Tab.find, Nat.ne_of_lt h]
      obtain ⟨A, B, ht, hp⟩ := ih (by rw [hx, hget])
      refine ⟨(f y).toList ++ A, B, ?_⟩
      rw [hput, filterMap_cons_eq, filterMap_cons_eq, ht, List.append_assoc]
      exact ⟨rfl, hp.imp (fun e => by rw [e]) fun ⟨e, he, e'⟩ => ⟨e, he, by rw [e', List.append_assoc]⟩⟩

/-! ## Own cores -/

/-- The index and the core that an entry of the table of cores gives a pavilion. -/
def ownEntryOf (p : Nat) (x : Nat × Core) : Option (Nat × Nat) :=
  match x.2.owner with
  | some (q, i) => if q == p then some (i, x.1) else none
  | none => none

theorem coresOf_eq (s : State) (p : Nat) : s.coresOf p = (s.cores.filterMap (ownEntryOf p)).foldl (fun t x => Tab.put x.1 x.2 t) [] := rfl

theorem coresOf_setCore {s : State} {c : Nat} {x : Core} (h : x.owner = (s.core c).owner) (p : Nat) : (s.setCore c x).coresOf p = s.coresOf p := by
  obtain ⟨A, B, hs, ht⟩ := filterMap_put (f := ownEntryOf p) (c := c) (x := x) (d := {}) (t := s.cores)
    (by simp only [ownEntryOf, h]; rfl) rfl
  rw [coresOf_eq, coresOf_eq, hs]
  rcases ht with ht | ⟨e, he, ht⟩ <;> rw [State.setCore, ht]
  rw [List.foldl_append, List.foldl_append, List.foldl_cons, foldl_put_of_mem he]

end Sys2Proof.Machine
end

section
/-! SUPPORT. Runs begin, kernels start and end, and the watchdog (R70, R75, R294 to R296, R500, R501). -/

namespace Sys2Proof.Machine

variable {s t : State} {p : Nat} {r : Run} {rest : List Run}

/-! ## A pavilion after changes to it -/

@[simp] theorem setPav_setPav (s : State) (p : Nat) (v w : Pav) : (s.setPav p v).setPav p w = s.setPav p w := by
  simp [State.setPav]

theorem modRun_of_cons (h : (s.pav p).runs = r :: rest) (f : Run → Run) : s.modRun p f = s.setPav p { s.pav p with runs := f r :: rest } := by
  rw [State.modRun, State.modPav, h]

/-! ## Fills change nothing of their pavilion but its slices (R161 to R163) -/

/-- From `s` to `t` nothing of pavilion `p` changes but its slices. -/
structure Fills (p : Nat) (s t : State) : Prop where
  eq : t.pav p = { s.pav p with slices := (t.pav p).slices }

namespace Fills

theorem refl : Fills p s s := ⟨rfl⟩

theorem of_setPav {w : Pav} (h : Fills p (s.setPav p w) t) : ∃ sl, t.pav p = { w with slices := sl } := by
  obtain ⟨h⟩ := h
  rw [State.pav_setPav_self] at h
  exact ⟨_, h⟩

theorem trans {u : State} (h : Fills p s t) (h' : Fills p t u) : Fills p s u := by
  obtain ⟨h'⟩ := h'
  rw [h.eq] at h'
  exact ⟨h'⟩

theorem modSlice {k : Nat} {f : Slice → Slice} (h : Fills p s t) : Fills p s (t.modSlice p k f) :=
  h.trans ⟨by rw [State.modSlice, State.modPav, State.pav_setPav_self]⟩

theorem placeOne {k i : Nat} {cs : List Nat} (h : Fills p s t) : ∀ u ∈ t.placeOne p k i cs, Fills p s u := by
  intro u e
  obtain ⟨_, -, rfl⟩ := Option.map_eq_some_iff.1 e
  exact h.modSlice

theorem reserve {k i fuel : Nat} (h : Fills p s t) : Fills p s (t.reserve p k i fuel) := by
  induction fuel generalizing t with
  | zero => exact h
  | succ fuel ih =>
    rw [State.reserve]
    split
    · exact h
    · split
      · exact h
      · dsimp only
        split
        · exact h.modSlice
        · split
          · next u e => exact h.modSlice.placeOne u e
          · split
            · exact ih h.modSlice.modSlice
            · exact h

theorem beginFill {k : Nat} {post : Option Nat} (h : Fills p s t) : Fills p s (t.beginFill p k post) := by
  unfold State.beginFill State.reserveNext
  split
  · exact h.modSlice.reserve
  · exact h.modSlice

theorem foldl_beginFill {hs : List Nat} {post : Option Nat} (h : Fills p s t) : Fills p s (hs.foldl (fun s k => s.beginFill p k post) t) := by
  induction hs generalizing t with
  | nil => exact h
  | cons k hs ih => exact ih h.beginFill

end Fills

/-! ## RUN_BEGIN -/

theorem exec_runBegin (hp : p < 512) (hrep : s.replaying p = false) : exec (.runBegin p) s = .next (s.beginRun p) := by
  refine (if_neg (by simp; omega)).trans ?_
  rw [State.dueInputs, hrep]
  rfl

theorem pav_beginCycle (s : State) (p : Nat) : ∃ o, (s.beginCycle p).pav p = { s.pav p with obs := o } := by
  unfold State.beginCycle
  extract_lets v s1 s2 why
  split
  · exact ⟨_, rfl⟩
  · have hs : s1.pavs = s.pavs := foldl_unchanged State.pavs (f := fun s x => s.modCore x.2 _) (fun _ _ => rfl) (s.coresOf p) s
    have hs : s2.pav p = s.pav p := congrArg (fun m : Tab Pav => Tab.getD m p {}) hs
    exact ⟨_, by rw [State.modPav, State.pav_setPav_self, hs]⟩

/-- The layer's fills start: the run holds which, and nothing else of the pavilion changes but its slices. -/
theorem pav_layerFills (h : (s.pav p).runs = r :: rest) :
    ∃ fs sl, (s.layerFills p).pav p = { s.pav p with runs := { r with filling := fs } :: rest, slices := sl } := by
  unfold State.layerFills
  rw [h]
  dsimp only [List.head?_cons]
  rw [modRun_of_cons h]
  exact ⟨_, Fills.refl.foldl_beginFill.of_setPav⟩

/-- The pavilion's first run stands at iteration, layer and kernel 0, its watchdog at 0. -/
def Pav.begins (v : Pav) (r : Run) (rest : List Run) : Pav :=
  { v with runs := { r with begun := true, iter := 0, layer := 0, kernel := 0, started := false } :: rest, watchdog := 0, kernel := { members := v.kernel.members } }

theorem beginRun_eq (hb : s.mayBegin p = true) (h : (s.pav p).runs = r :: rest) :
    s.beginRun p = ((s.setPav p ((s.pav p).begins r rest)).beginCycle p).layerFills p := by
  unfold State.beginRun
  rw [hb, modRun_of_cons h, State.modPav, setPav_setPav, State.pav_setPav_self]
  rfl

theorem pav_beginRun (hb : s.mayBegin p = true) (h : (s.pav p).runs = r :: rest) :
    ((s.beginRun p).pav p).watchdog = 0 ∧ ∃ fs, ((s.beginRun p).pav p).runs =
      { r with begun := true, iter := 0, layer := 0, kernel := 0, started := false, filling := fs } :: rest := by
  obtain ⟨o, ho⟩ := pav_beginCycle (s.setPav p ((s.pav p).begins r rest)) p
  rw [State.pav_setPav_self] at ho
  obtain ⟨fs, sl, hf⟩ := pav_layerFills (congrArg Pav.runs ho)
  rw [beginRun_eq hb h, hf, ho]
  exact ⟨rfl, fs, rfl⟩

/-! ## KERNEL_START -/

/-- Strand 0 of a core as kernel entry `k` of layer entry `e` starts it, at a logical index (R70, R305). -/
def kernelStrand (k e logical order : Nat) : Strand :=
  { mode := .ready, cls := 1, pc := BitVec.ofNat 32 (bits k 95 64), s0 := BitVec.ofNat 64 logical
    s1 := BitVec.ofNat 64 (bits k 191 128), s2 := BitVec.ofNat 64 (bits e 15 0), layer := bits e 15 0, readyAt := order }

/-- A core on which kernel entry `k` starts. -/
def Core.starts (k : Nat) (c : Core) : Core := { c with running := true, codeBase := BitVec.ofNat 64 (bits k 63 0) }

/-- The kernel starts on one core of the pavilion. -/
def State.startCore (p k e : Nat) (s : State) (x : Nat × Nat) : State :=
  let u := s.modCore x.2 (Core.starts k)
  ({ u with order := u.order + 1 } : State).setStrand x.2 0 (kernelStrand k e (u.logicalOf p x.1) (u.order + 1))

/-- The kernel has started on a core of the pavilion. -/
structure StartedOn (p k e : Nat) (x : Nat × Nat) (u : State) : Prop where
  strand : ∃ n, u.strand x.2 0 = kernelStrand k e (u.logicalOf p x.1) n
  running : (u.core x.2).running = true
  codeBase : (u.core x.2).codeBase = BitVec.ofNat 64 (bits k 63 0)

theorem pavs_startCore (p k e : Nat) (s : State) (x : Nat × Nat) : (s.startCore p k e x).pavs = s.pavs := rfl

theorem core_startCore (p k e : Nat) (s : State) (x : Nat × Nat) (c : Nat) :
    (s.startCore p k e x).core c = (s.modCore x.2 (Core.starts k)).core c := rfl

theorem logicalOf_modCore_starts (p k : Nat) (s : State) (c i : Nat) : (s.modCore c (Core.starts k)).logicalOf p i = s.logicalOf p i := by
  have hc : (s.modCore c (Core.starts k)).coresOf p = s.coresOf p := coresOf_setCore (x := (s.core c).starts k) rfl p
  simp only [State.logicalOf, State.coreCount, hc]
  rfl

theorem logicalOf_startCore (p k e : Nat) (s : State) (x : Nat × Nat) (i : Nat) : (s.startCore p k e x).logicalOf p i = s.logicalOf p i :=
  logicalOf_modCore_starts p k s x.2 i

theorem startedOn_startCore (p k e : Nat) (s : State) (x : Nat × Nat) : StartedOn p k e x (s.startCore p k e x) where
  strand := ⟨s.order + 1, State.strand_setStrand_self _ _ _ _⟩
  running := by
    rw [core_startCore, core_modCore_self]
    rfl
  codeBase := by
    rw [core_startCore, core_modCore_self]
    rfl

theorem StartedOn.startCore_ne {k e : Nat} {x y : Nat × Nat} (h : StartedOn p k e x s) (hne : x.2 ≠ y.2) :
    StartedOn p k e x (s.startCore p k e y) := by
  have hcore : (s.startCore p k e y).core x.2 = s.core x.2 := by rw [core_startCore, core_modCore_ne hne]
  have hstrand : (s.startCore p k e y).strand x.2 0 = s.strand x.2 0 :=
    (State.strand_setStrand_ne _ _ _ _ _ _ (by omega)).trans (modCore_strand s y.2 (Core.starts k) x.2 0)
  constructor
  · rw [logicalOf_startCore, hstrand]
    exact h.strand
  · rw [hcore]
    exact h.running
  · rw [hcore]
    exact h.codeBase

theorem startedOn_foldl_startCore {k e : Nat} {l : List (Nat × Nat)} (hl : (l.map Prod.snd).Nodup) {x : Nat × Nat} (hx : x ∈ l) (s : State) :
    StartedOn p k e x (l.foldl (State.startCore p k e) s) := by
  have kept : ∀ (l : List (Nat × Nat)) (u : State), (∀ y ∈ l, x.2 ≠ y.2) → StartedOn p k e x u → StartedOn p k e x (l.foldl (State.startCore p k e) u) := by
    intro l
    induction l with
    | nil => exact fun _ _ h => h
    | cons y l ih => exact fun u hne h => ih _ (fun z hz => hne z (List.mem_cons_of_mem _ hz)) (h.startCore_ne (hne y List.mem_cons_self))
  induction l generalizing s with
  | nil => cases hx
  | cons y l ih =>
    obtain ⟨hy, hl⟩ := List.nodup_cons.1 hl
    rcases List.mem_cons.1 hx with rfl | hx
    · exact kept l _ (fun z hz e => hy (List.mem_map.2 ⟨z, hz, e.symm⟩)) (startedOn_startCore p k e s x)
    · exact ih hl hx _

theorem startKernel_eq (hrep : s.replaying p = false) (hrec : s.recording p = false) (h : (s.pav p).runs = r :: rest) :
    ∃ v : Pav, s.startKernel p =
        ((s.coresOf p).foldl (State.startCore p (Tab.getD r.kernels (bits r.entry 27 16 + r.kernel) 0).toNat r.entry) (s.setPav p v)).takeAhead p ∧
      v.runs = { r with started := true } :: rest ∧ v.entry = (s.pav p).entry := by
  unfold State.startKernel
  rw [h, modRun_of_cons h, State.modPav, setPav_setPav, State.pav_setPav_self]
  dsimp only [List.head?_cons]
  rw [if_neg (by rw [hrec, hrep]; exact Bool.false_ne_true)]
  exact ⟨_, rfl, rfl, rfl⟩

theorem exec_kernelStart (hp : p < 512) (hrep : s.replaying p = false) (hdue : s.kernelDue p = true) :
    exec (.kernelStart p) s = .next (s.startKernel p) := by
  refine (if_neg (by simp; omega)).trans ?_
  rw [State.dueInputs, hrep]
  exact congrArg Host.Outcome.next (if_pos hdue)

/-! ## Kernels end -/

theorem exec_kernelCompleteCore {core : Nat} (hc : core < 1088) (hrun : (s.core core).running = true)
    (hfree : ∀ x ∈ s.strands, x.1 / 2048 = core → x.2.mode = .free) :
    exec (.kernelCompleteCore core) s = .next (s.setCore core { s.core core with running := false, shadows := [] }) := by
  have hnone : (s.strands.any fun x => x.1 / 2048 == core && x.2.mode != .free) = false := by
    simpa using hfree
  refine (if_neg (by simp; omega)).trans (if_neg ?_)
  simp [hrun, hnone]

theorem next_of_kernel (h : r.kernel + 1 < bits r.entry 35 28) : r.next = some { r with kernel := r.kernel + 1, started := false } := if_pos h

theorem exec_kernelCompletePavilion (hp : p < 512) (h : (s.pav p).runs = r :: rest) (hstart : r.started = true)
    (hroot : s.rootDone p (s.pav p).kernel.forwarded = true) (hcores : ∀ x ∈ s.coresOf p, (s.core x.2).running = false)
    (hmore : r.kernel + 1 < bits r.entry 35 28) :
    exec (.kernelCompletePavilion p) s = .next (s.setPav p { s.pav p with
      runs := { r with kernel := r.kernel + 1, started := false } :: rest, kernel := { members := (s.pav p).kernel.members } }) := by
  have hidle : ((s.coresOf p).any fun x => (s.core x.2).running) = false := by simpa using hcores
  refine (if_neg (by simp; omega)).trans ?_
  simp only [h, List.head?_cons]
  rw [hstart, hroot, hidle, next_of_kernel hmore]
  dsimp only
  rw [modRun_of_cons h, State.modPav, setPav_setPav, State.pav_setPav_self]
  rfl

/-! ## The watchdog -/

theorem exec_watchdogExpire (hp : p < 512) (hw : s.watching p = true) (hlate : (s.pav p).wdogTicks ≤ (s.pav p).watchdog) :
    exec (.watchdogExpire p) s = .next ((s.modPav p fun v => { v with watchdog := 0 }).startReset p 0x02 0 []) := by
  refine (if_neg (by simp; omega)).trans (if_neg ?_)
  simp [hw, hlate]

theorem resetting_of_watching (h : s.watching p = true) : (s.pav p).resetting = none := by
  simp only [State.watching, Bool.and_eq_true, Option.isNone_iff_eq_none] at h
  exact h.2

/-- The reset of a pavilion that was not resetting (R503). -/
theorem pav_startReset_of_none (h : (s.pav p).resetting = none) (cause loc : Nat) (slots : List Nat) :
    (s.startReset p cause loc slots).pav p = { s.pav p with
      resetting := some { causes := [cause], tick := s.now + 20, slots := slots, oldWinding := (s.pav p).winding, oldStep := (s.pav p).committed
                          location := loc } } := by
  rw [State.startReset, State.modPav, State.pav_setPav_self, h]

/-! ## The obligation -/

/-- Settles O19, event by event. -/
theorem runsAndKernels : Obligations.RunsAndKernels := by
  unfold Obligations.RunsAndKernels
  refine fun s p hp hrep => ⟨fun hb r rest h => ⟨_, exec_runBegin hp hrep, pav_beginRun hb h⟩, fun hdue hrec hnodup r rest h => ?_,
    fun core hc hrun hfree => exec_kernelCompleteCore hc hrun hfree,
    fun r rest h hstart hroot hcores hmore => exec_kernelCompletePavilion hp h hstart hroot hcores hmore, fun hw hlate => ?_⟩
  · -- KERNEL_START
    extract_lets e k
    obtain ⟨v, hstart, hruns, hentry⟩ := startKernel_eq hrep hrec h
    refine ⟨_, (exec_kernelStart hp hrep hdue).trans (congrArg Host.Outcome.next hstart), fun x hx => ?_, ?_, ?_⟩
    · obtain ⟨⟨n, hn⟩, hrun, hbase⟩ := startedOn_foldl_startCore (p := p) (k := k) (e := e) hnodup hx (s.setPav p v)
      have hindex : ((s.coresOf p).foldl (State.startCore p k e) (s.setPav p v)).logicalOf p x.1 = s.logicalOf p x.1 := by
        rw [foldl_unchanged (fun u => State.logicalOf u p x.1) fun u y => logicalOf_startCore p k e u y x.1]
        simp only [State.logicalOf, State.pav_setPav_self, Pav.spanRank, Pav.fld, hentry]
        rfl
      rw [hindex] at hn
      exact ⟨n, hn, hrun, hbase⟩
    · have hpavs : ((s.coresOf p).foldl (State.startCore p k e) (s.setPav p v)).pavs = (s.setPav p v).pavs :=
        foldl_unchanged State.pavs (pavs_startCore p k e) _ _
      rw [State.pav, hpavs, ← hruns]
      exact congrArg Pav.runs (State.pav_setPav_self s p v)
    · exact foldl_unchanged (f := State.startCore p k e) State.beds (fun _ _ => rfl) (s.coresOf p) (s.setPav p v)
  · -- WATCHDOG_EXPIRE
    refine ⟨_, exec_watchdogExpire hp hw hlate, ?_⟩
    have hnone : ((s.modPav p fun v => { v with watchdog := 0 }).pav p).resetting = none := by
      rw [State.modPav, State.pav_setPav_self]
      exact resetting_of_watching hw
    beta_reduce
    rw [pav_startReset_of_none hnone, State.modPav, State.pav_setPav_self]
    exact ⟨rfl, rfl⟩

end Sys2Proof.Machine
end

section
/-! SUPPORT. What a reset finds as it was, and a flip leaves: TIME, fuses, firmware, the reset cause, power, the registers of the cold domain and the
frames that are retired; and while no flip is made cores too, and every pavilion's entry, winding and committed step. `Stands` says nothing of TIME,
firmware, registers or windings. -/

namespace Sys2Proof.Machine

variable {b : Bool} {s t u : State}

/-- What of a pavilion changes only at a flip, a commit, a reset, or when its span comes up. -/
def Pav.standing (v : Pav) : BitVec 2048 × Word16 × Word64 := (v.entry, v.winding, v.committed)

/-- The state `u` with what `t` holds of the parts that last. -/
def State.lasting (t u : State) : State :=
  { u with
    time := t.time, fuse := t.fuse, fw := t.fw, cause := t.cause, power := t.power, cores := t.cores, pavs := t.pavs
    regs := { u.regs with epoch := t.regs.epoch, tableBase := t.regs.tableBase, winBase := t.regs.winBase }
    beds := { u.beds with retiredFrames := t.beds.retiredFrames } }

/-- The state with another PV_EPOCH. -/
def State.atEpoch (s : State) (e : Word32) : State := { s with regs := { s.regs with epoch := e } }

/-- From `s` to `t` the package's lasting parts are as before; and if `b`, cores and what stands of pavilions. -/
structure Lasts (b : Bool) (s t : State) : Prop where
  time : t.time = s.time
  fuse : t.fuse = s.fuse
  fw : t.fw = s.fw
  cause : t.cause = s.cause
  power : t.power = s.power
  epoch : t.regs.epoch = s.regs.epoch
  tableBase : t.regs.tableBase = s.regs.tableBase
  winBase : t.regs.winBase = s.regs.winBase
  retired : t.beds.retiredFrames = s.beds.retiredFrames
  cores : b = true → t.cores = s.cores
  pav : b = true → ∀ p, (t.pav p).standing = (s.pav p).standing

namespace Lasts

theorem refl : Lasts b s s := ⟨rfl, rfl, rfl, rfl, rfl, rfl, rfl, rfl, rfl, fun _ => rfl, fun _ _ => rfl⟩

theorem trans (h : Lasts b s t) (h' : Lasts b t u) : Lasts b s u where
  time := h'.time.trans h.time
  fuse := h'.fuse.trans h.fuse
  fw := h'.fw.trans h.fw
  cause := h'.cause.trans h.cause
  power := h'.power.trans h.power
  epoch := h'.epoch.trans h.epoch
  tableBase := h'.tableBase.trans h.tableBase
  winBase := h'.winBase.trans h.winBase
  retired := h'.retired.trans h.retired
  cores hb := (h'.cores hb).trans (h.cores hb)
  pav hb p := (h'.pav hb p).trans (h.pav hb p)

/-- An update of any other part of the state. -/
theorem update (h : Lasts b s t) (e : u = t.lasting u) : Lasts b s u := by
  rw [e]
  exact h.trans ⟨rfl, rfl, rfl, rfl, rfl, rfl, rfl, rfl, rfl, fun _ => rfl, fun _ _ => rfl⟩

theorem told (h : Lasts b s t) (h' : Told t u) : Lasts b s u := by
  rw [h'.eq]
  exact h.update rfl

theorem ite {c : Prop} [Decidable c] {x y : State} (hx : Lasts b s x) (hy : Lasts b s y) : Lasts b s (if c then x else y) := by
  split
  · exact hx
  · exact hy

theorem foldl {α : Type} {f : State → α → State} {l : List α} (h : Lasts b s t) (hf : ∀ u x, Lasts b s u → Lasts b s (f u x)) :
    Lasts b s (l.foldl f t) := by
  induction l generalizing t with
  | nil => exact h
  | cons x l ih => exact ih (hf _ _ h)

/-! ### What functions and links are told -/

theorem raise {f code pav detail : Nat} (h : Lasts b s t) : Lasts b s (t.raise f code pav detail) := h.told Told.refl.raise
theorem raisePf0 {code pav detail : Nat} (h : Lasts b s t) : Lasts b s (t.raisePf0 code pav detail) := h.told Told.refl.raisePf0
theorem raisePav {p code detail : Nat} (h : Lasts b s t) : Lasts b s (t.raisePav p code detail) := h.told Told.refl.raisePav
theorem complete {k status : Nat} {rsp : List Nat} (h : Lasts b s t) : Lasts b s (t.complete k status rsp) := h.told Told.refl.complete
theorem sendOut {m : BulkMsg} (h : Lasts b s t) : Lasts b s (t.sendOut m) := h.told Told.refl.sendOut
theorem syncSend {pkg : Nat} {m : SyncMsg} (h : Lasts b s t) : Lasts b s (t.syncSend pkg m) := h.told Told.refl.syncSend
theorem syncAll {p : Nat} {m : SyncMsg} (h : Lasts b s t) : Lasts b s (t.syncAll p m) := h.told Told.refl.syncAll

/-! ### Pavilions -/

theorem setPav {p : Nat} {v : Pav} (h : Lasts b s t) (hv : b = true → v.standing = (t.pav p).standing) : Lasts b s (t.setPav p v) := by
  refine h.trans ⟨rfl, rfl, rfl, rfl, rfl, rfl, rfl, rfl, rfl, fun _ => rfl, fun hb q => ?_⟩
  by_cases hq : q = p
  · rw [hq, State.pav_setPav_self, hv hb]
  · rw [State.pav_setPav_ne _ _ _ _ hq]

theorem modPav {p : Nat} {f : Pav → Pav} (h : Lasts b s t) (hf : b = true → (f (t.pav p)).standing = (t.pav p).standing) :
    Lasts b s (t.modPav p f) := h.setPav hf

theorem startReset {p cause loc : Nat} {slots : List Nat} (h : Lasts b s t) : Lasts b s (t.startReset p cause loc slots) :=
  h.modPav fun _ => by split <;> rfl

theorem unrepeatable {p cause : Nat} (h : Lasts b s t) : Lasts b s (t.unrepeatable p cause) := .ite h (h.modPav fun _ => rfl)

/-- A count of what a pavilion moved (R448). -/
theorem addCount {p cls n : Nat} (h : Lasts b s t) : Lasts b s (t.addCount p cls n) := h.modPav fun _ => rfl

theorem count {p cls n : Nat} (h : Lasts b s t) : Lasts b s (t.count p cls n) := .ite h h.addCount

/-! ### Beds -/

/-- The beds change but for the retired frames. -/
theorem modBeds {f : Beds → Beds} (h : Lasts b s t) (hf : (f t.beds).retiredFrames = t.beds.retiredFrames) : Lasts b s (t.modBeds f) :=
  h.trans ⟨rfl, rfl, rfl, rfl, rfl, rfl, rfl, rfl, hf, fun _ => rfl, fun _ _ => rfl⟩

theorem zeroCs {p a n : Nat} (h : Lasts b s t) : Lasts b s (t.zeroCs p a n) := by
  unfold State.zeroCs
  exact h.modBeds rfl

theorem writeCs {p a : Nat} {bs : List Byte} (h : Lasts b s t) : Lasts b s (t.writeCs p a bs) := by
  unfold State.writeCs
  exact h.modBeds rfl

theorem zeroLsRange {core lo hi : Nat} (h : Lasts b s t) : Lasts b s (t.zeroLsRange core lo hi) := by
  unfold State.zeroLsRange
  exact h.modBeds rfl

theorem putScratch {c : Nat} {m : Mem} (h : Lasts b s t) : Lasts b s (t.putScratch c m) := by
  unfold State.putScratch
  exact h.modBeds rfl

theorem logMem {kind loc whereAt : Nat} (h : Lasts b s t) : Lasts b s (t.logMem kind loc whereAt) :=
  .ite (h.modBeds rfl).raisePf0 (h.modBeds rfl)

theorem killSram {p core row : Nat} (h : Lasts b s t) : Lasts b s (t.killSram p core row) :=
  (h.modBeds rfl).logMem.startReset

theorem killOwner {q key : Nat} (h : Lasts b s t) : Lasts b s (t.killOwner q key) :=
  (h.modBeds rfl).logMem.startReset

theorem carry {m : BulkMsg} {src dst n : Nat} (h : Lasts b s t) : Lasts b s (t.carry m src dst n) :=
  (h.foldl fun _ _ hu => hu.unrepeatable).update rfl

theorem background {src dst n : Nat} (h : Lasts b s t) : Lasts b s (t.background src dst n) := h.carry.carry

theorem modNet {f : Net → Net} (h : Lasts b s t) : Lasts b s (t.modNet f) := h.update rfl

theorem leave {src : Nat} {m : BulkMsg} (h : Lasts b s t) : Lasts b s (t.leave src m) := by
  unfold State.leave
  split
  · exact h.carry.sendOut
  · exact h.sendOut

theorem request {q : Sent} (h : Lasts b s t) : Lasts b s (t.request q) := .ite h.modNet.leave h.modNet

theorem sendPoolOf {pav : Option Nat} {num pkg : Nat} {m : PoolMsg} {bytes : List Byte} {last : Bool} (h : Lasts b s t) :
    Lasts b s (t.sendPoolOf pav num pkg m bytes last) := h.request

theorem sendPool {pkg : Nat} {m : PoolMsg} {bytes : List Byte} (h : Lasts b s t) : Lasts b s (t.sendPool pkg m bytes) :=
  .ite (h.foldl fun _ _ hu => hu.sendPoolOf) (.ite h.sendPoolOf (h.foldl fun _ _ hu => hu.sendPoolOf))

theorem tellPool {m : PoolMsg} {bytes : List Byte} (h : Lasts b s t) : Lasts b s (t.tellPool m bytes) := .ite h h.sendPool

theorem modPool {i : Nat} {f : Pool → Pool} (h : Lasts b s t) : Lasts b s (t.modPool i f) := h.update rfl

theorem modHolding {i id : Nat} {f : Holding → Holding} (h : Lasts b s t) : Lasts b s (t.modHolding i id f) := h.modPool

theorem mmuFault {p id : Nat} {page : Word64} (h : Lasts b s t) : Lasts b s (t.mmuFault p id page) := h.raisePav

theorem recordFault {p : Nat} {w : Waiter} (h : Lasts b s t) : Lasts b s (t.recordFault p w) := by
  rw [State.recordFault]
  split
  · exact .ite (h.modPav fun _ => rfl).mmuFault (h.modPav fun _ => rfl)
  · split
    · exact h.modPav fun _ => rfl
    · exact (h.modPav fun _ => rfl).mmuFault

theorem recordAt {p dva : Nat} {a : Access} {data : Option (Nat × List Byte)} (h : Lasts b s t) : Lasts b s (t.recordAt p dva a data) := by
  rw [State.recordAt]
  split
  · exact h
  · exact .ite h h.recordFault

theorem writePool {i page off : Nat} {bs : List Byte} (h : Lasts b s t) : Lasts b s (t.writePool i page off bs) := by
  unfold State.writePool
  refine h.foldl fun _ _ hu => ?_
  dsimp only
  split
  · refine .ite hu ?_
    split
    · exact hu.killOwner
    · exact hu.writeCs
  · exact .ite hu hu.recordAt

theorem writeLists {i : Nat} {pages ls : List Nat} (h : Lasts b s t) : Lasts b s (t.writeLists i pages ls) := by
  induction ls generalizing t pages with
  | nil => exact h
  | cons l ls ih => exact ih h.writePool

theorem zeroPages {i : Nat} {ps : List Nat} (h : Lasts b s t) : Lasts b s (t.zeroPages i ps) :=
  h.foldl fun _ _ hu => hu.foldl fun _ a hv => by
    cases a with
    | none => exact hv
    | some a => exact hv.zeroCs

theorem freePages {i id : Nat} (h : Lasts b s t) : Lasts b s (t.freePages i id) := by
  rw [State.freePages]
  split
  · exact h
  · exact h.zeroPages.modPool

theorem trimPages {i id n lists : Nat} (h : Lasts b s t) : Lasts b s (t.trimPages i id n lists) := by
  rw [State.trimPages]
  split
  · exact h
  · exact .ite h.zeroPages.modPool.writeLists h.zeroPages.modPool

theorem markHolding {i id st : Nat} (h : Lasts b s t) : Lasts b s (t.markHolding i id st) := by
  rw [State.markHolding]
  split
  · exact h
  · exact h.modPool

theorem allDirty {i id : Nat} (h : Lasts b s t) : Lasts b s (t.allDirty i id) := by
  rw [State.allDirty, State.markDirty]
  split
  · exact h
  · exact h.modPool

/-! ### The session directory -/

theorem modDir {f : Dir → Dir} (h : Lasts b s t) : Lasts b s (t.modDir f) := h.update rfl

theorem modSession {id : Nat} {f : Session → Session} (h : Lasts b s t) : Lasts b s (t.modSession id f) := h.modDir

theorem change {id : Nat} {why : Change} {new : Option Session} {asker : Option Nat} (h : Lasts b s t) : Lasts b s (t.change id why new asker) :=
  .ite h.modDir.sendPool h.modDir

theorem releasePool {name id : Nat} (h : Lasts b s t) : Lasts b s (t.releasePool name id) := .ite h.freePages h.sendPool

theorem sessionDone {k status : Nat} {rsp : List Nat} (h : Lasts b s t) : Lasts b s (t.sessionDone k status rsp) := by
  refine .ite h.complete ?_
  split
  · exact h
  · exact h.modDir.sendOut

theorem unextend {id : Nat} {r : Session} (h : Lasts b s t) : Lasts b s (t.unextend id r) :=
  .foldl (.ite h.trimPages h.sendPool) fun _ _ hu => .ite hu (.ite hu.trimPages hu.sendPool)

theorem endJob {j : Job} (h : Lasts b s t) : Lasts b s (t.endJob j) := by
  rw [State.endJob]
  split
  · split
    · exact h
    · exact .ite h (.ite (.ite h.modSession h.modSession.sendPool) h.sessionDone.modSession.change)
  · exact h.sessionDone
  · exact h.sessionDone
  · exact .ite h.change h.modSession
  · refine .ite h.change ?_
    split
    · exact h.unextend.sessionDone
    · exact h.sessionDone
  · exact .ite h.change (h.foldl fun _ _ hu => hu.releasePool.releasePool).sessionDone

theorem closeAnswer {name : Nat} {session : Option Nat} (h : Lasts b s t) : Lasts b s (t.closeAnswer name session) :=
  h.modDir.foldl fun _ _ hu => hu.endJob

theorem tryServe {i id : Nat} (h : Lasts b s t) : Lasts b s (t.tryServe i id) := by
  rw [State.tryServe]
  split
  · exact h
  · exact .ite h (.ite h.markHolding h.markHolding.sendPool)

theorem adoptMirror {i id epoch : Nat} (h : Lasts b s t) : Lasts b s (t.adoptMirror i id epoch) := by
  rw [State.adoptMirror]
  split
  · exact h
  · exact h.modPool.writeLists

theorem ownPool {i id epoch : Nat} {fetch whole : Bool} (h : Lasts b s t) : Lasts b s (t.ownPool i id epoch fetch whole) := by
  rw [State.ownPool]
  split
  · exact h.modHolding
  · exact h.modHolding.tryServe
  · exact h.markHolding.modHolding
  · exact h.modHolding
  · exact .ite h h.adoptMirror

theorem grantPool {name id epoch : Nat} {fetch marks : Bool} (h : Lasts b s t) : Lasts b s (t.grantPool name id epoch fetch marks) :=
  have granted := Lasts.ite h.markHolding.modHolding h.ownPool
  .ite (.ite granted.allDirty granted) h.sendPool

theorem endFills {target id : Nat} (h : Lasts b s t) : Lasts b s (t.endFills target id) :=
  .foldl (h.update rfl) fun _ _ hu => hu.sendOut

theorem ownerLost {id : Nat} {r : Session} (h : Lasts b s t) : Lasts b s (t.ownerLost id r) :=
  have released := h.foldl fun _ _ hu => hu.releasePool
  .ite (Lasts.ite released.releasePool.endFills released).change (Lasts.ite released.releasePool.endFills released).change

theorem sessionLoses {name id : Nat} {r : Session} (h : Lasts b s t) : Lasts b s (t.sessionLoses name id r) :=
  .ite h (.ite (.ite h h.ownerLost) (.ite h.change (.ite (.ite h.modSession
    (.ite h.modSession.modSession.grantPool (.ite h.modSession.change h.modSession.grantPool))) (.ite h.modSession h))))

theorem losePool {name : Nat} (h : Lasts b s t) : Lasts b s (t.losePool name) := by
  unfold State.losePool
  extract_lets i mine s1 ours s3 s4
  have gone : Lasts b s s1 := .ite h.zeroPages.modPool h.closeAnswer
  have raised : Lasts b s s3 := .ite gone.raisePf0 gone
  have sent : Lasts b s s4 := .ite (raised.foldl fun _ _ hu => hu.sendPool) raised
  refine sent.foldl fun u x hu => ?_
  split
  · exact hu.sessionLoses
  · exact hu

theorem losePoolsOf {p : Nat → Bool} (h : Lasts b s t) : Lasts b s (t.losePoolsOf p) := h.foldl fun _ _ hu => hu.losePool

/-! ### Spans -/

theorem sayDown {p : Nat} (h : Lasts b s t) : Lasts b s (t.sayDown p) := (h.modPav fun _ => rfl).foldl fun _ _ hu => hu.syncSend

theorem abortSpan {p : Nat} (h : Lasts b s t) : Lasts b s (t.abortSpan p) := by
  unfold State.abortSpan
  extract_lets v s1
  have said : Lasts b s s1 := h.syncAll
  clear_value s1
  exact .ite h (.ite h.sayDown (said.modPav fun _ => rfl).raisePav)

theorem abortSpans {which : Nat → Bool} (h : Lasts b s t) : Lasts b s (t.abortSpans which) := h.foldl fun _ _ hu => hu.abortSpan

theorem sayReady {p r : Nat} (h : Lasts false s t) : Lasts false s (t.sayReady p r) := .ite h (h.modPav fun _ => rfl).syncSend

theorem tryReady {p : Nat} (h : Lasts false s t) : Lasts false s (t.tryReady p) := .ite h (h.modPav nofun).modNet.raisePav

theorem peerReset {p : Nat} (h : Lasts false s t) : Lasts false s (t.peerReset p) := by
  unfold State.peerReset
  extract_lets s1
  have waits : Lasts false s s1 := h.foldl fun u x hu => by
    split
    · exact hu.update rfl
    · exact hu.update rfl
    · exact hu
  exact waits.modPav fun _ => rfl

theorem dropSpanTraffic {p : Nat} (h : Lasts b s t) : Lasts b s (t.dropSpanTraffic p) := h.update rfl

theorem faultSpan {p rank : Nat} (h : Lasts false s t) : Lasts false s (t.faultSpan p rank) :=
  .ite h (h.modPav fun _ => rfl).dropSpanTraffic.peerReset.raisePav.startReset

theorem reviewSpan {p : Nat} (h : Lasts false s t) : Lasts false s (t.reviewSpan p) := by
  unfold State.reviewSpan
  extract_lets v s1
  have down : Lasts false s s1 := .ite h h.sayDown
  have said : Lasts false s (v.others.foldl (fun s r => if v.span.said.contains r then s else s.sayReady p r) s1) :=
    down.foldl fun _ _ hu => .ite hu hu.sayReady
  refine .ite h ?_
  split
  · exact .ite down.faultSpan said
  · exact .ite down said.tryReady

/-! ### Replay -/

theorem writeDva {p dva : Nat} {bs : List Byte} (h : Lasts b s t) : Lasts b s (t.writeDva p dva bs) := by
  unfold State.writeDva
  refine h.foldl fun _ _ hu => ?_
  split
  · exact hu.writeCs
  · exact hu.recordAt

theorem modRec {f : Recorder → Recorder} (h : Lasts b s t) : Lasts b s (t.modRec f) := h.update rfl

theorem endReplay {why : Nat} (h : Lasts b s t) : Lasts b s (t.endReplay why) := by
  unfold State.endReplay State.ringPut State.ringHeader
  exact .ite h (.ite h.modRec h.writeDva.modRec.writeDva.writeDva.modRec)

theorem endReplayOf {p why : Nat} (h : Lasts b s t) : Lasts b s (t.endReplayOf p why) := .ite h.endReplay h

/-! ### What a pavilion has in progress -/

theorem countMoved {id cls n : Nat} (h : Lasts b s t) : Lasts b s (t.countMoved id cls n) := by
  unfold State.countMoved
  split
  · exact .ite h.count h
  · exact h

theorem cleanPages {i id : Nat} (h : Lasts b s t) : Lasts b s (t.cleanPages i id) := by
  rw [State.cleanPages]
  split
  · exact h
  · exact h.modHolding.modPool

theorem restoreFrom {i id : Nat} {data : List (Nat × List Byte)} (h : Lasts b s t) : Lasts b s (t.restoreFrom i id data) := by
  unfold State.restoreFrom
  refine .ite h ?_
  dsimp only
  split
  · exact h.modHolding
  · exact .modHolding (.cleanPages (h.foldl fun _ _ hu => hu.writePool.countMoved))

theorem restoreProtected {p : Nat} {step : Word64} (h : Lasts b s t) : Lasts b s (t.restoreProtected p step) :=
  h.foldl fun _ _ hu => .ite hu.restoreFrom hu.tellPool

theorem runEnds {p : Nat} {r : Run} {code : Nat} (h : Lasts b s t) : Lasts b s (t.runEnds p r code) := by
  rw [State.runEnds]
  split
  · exact h.complete
  · exact .ite h h.raisePav

theorem endRuns {p code : Nat} (h : Lasts b s t) : Lasts b s (t.endRuns p code) :=
  (h.modPav fun _ => rfl).foldl fun _ _ hu => hu.runEnds

theorem zeroRange {p home pieces : Nat} (h : Lasts b s t) : Lasts b s (t.zeroRange p home pieces) := by
  unfold State.zeroRange
  refine h.foldl fun _ _ hu => ?_
  split
  · exact hu.zeroCs
  · exact hu

theorem abortUnseals {which : Unsealing → Bool} (h : Lasts b s t) : Lasts b s (t.abortUnseals which) :=
  h.foldl fun _ _ hu => .complete (hu.zeroRange.update rfl)

theorem abortPosts {p : Nat} (h : Lasts b s t) : Lasts b s (t.abortPosts p) := by
  unfold State.abortPosts
  extract_lets v ks s1
  have aborted : Lasts b s s1 := .modPav (h.abortUnseals.foldl fun _ _ hu => hu.complete) fun _ => rfl
  clear_value s1
  exact aborted.update rfl

theorem resetStreams {p : Nat} (h : Lasts b s t) : Lasts b s (t.resetStreams p) := h.foldl fun _ _ hu => hu.update rfl

theorem renumber {p : Nat} (h : Lasts b s t) : Lasts b s (t.renumber p) := h.modNet

theorem shuffle {α : Type} {l : List α} {fuel : Nat} (h : Lasts b s t) : Lasts b s (t.shuffle l fuel).2 := by
  induction fuel generalizing t l with
  | zero => exact h
  | succ fuel ih =>
    cases l with
    | nil => exact h
    | cons x l => exact ih (h.update rfl)

theorem host {m : Mem} (h : Lasts b s t) : Lasts b s { t with host := m } := h.update rfl

theorem nextKeySeq {p : Nat} {k : HostKey} (h : Lasts b s t) : Lasts b s (t.nextKeySeq p k) := h.modPav fun _ => rfl

theorem deliverStep {p : Nat} {hs : List Held} (h : Lasts b s t) : Lasts b s (t.deliverStep p hs) := by
  unfold State.deliverStep
  extract_lets plain s1 units q
  have written : Lasts b s q.2 := .shuffle (h.foldl fun _ _ hu => hu.host)
  clear_value q
  refine .addCount (written.foldl fun u _ hu => ?_)
  dsimp only
  split
  · exact hu.nextKeySeq.host
  · exact hu

theorem setReason {f : Option Finding} {st : BitVec 2} (h : Lasts b s t) : Lasts b s (t.setReason f st) := by
  cases f <;> exact h.update rfl

/-! ### The flip -/

theorem modCore {c : Nat} {f : Core → Core} (h : Lasts false s t) : Lasts false s (t.modCore c f) :=
  h.trans ⟨rfl, rfl, rfl, rfl, rfl, rfl, rfl, rfl, rfl, nofun, nofun⟩

theorem clearCore {c : Nat} (h : Lasts false s t) : Lasts false s (t.clearCore c) := h.modCore.update rfl

theorem flipCores (h : Lasts false s t) : Lasts false s t.flipCores := by
  unfold State.flipCores
  extract_lets a new moved copies hurt taken gone changed all s1 s1' s2 early s3 s4
  have cleared : Lasts false s s1 := h.foldl fun _ _ hu => hu.clearCore
  have carried : Lasts false s s1' := cleared.foldl fun u c hu => by
    split
    · exact hu.background
    · exact hu
  have bound : Lasts false s s2 := carried.foldl fun _ _ hu => hu.modCore
  have copied : Lasts false s s3 := bound.foldl fun _ _ hu => hu.zeroLsRange.putScratch
  have killed : Lasts false s s4 := copied.foldl fun _ _ hu => .ite hu.killSram hu
  clear_value s4
  exact killed.update rfl

theorem flipSlices {p : Nat} (h : Lasts false s t) : Lasts false s (t.flipSlices p) :=
  (h.modPav nofun).foldl fun _ _ hu => .ite hu (hu.modPav nofun)

theorem loseStreams {p n : Nat} (h : Lasts false s t) : Lasts false s (t.loseStreams p n) := (h.modPav nofun).update rfl

theorem trimEngines {set : Tab Pav} {p : Nat} (h : Lasts false s t) : Lasts false s (t.trimEngines set p) := by
  unfold State.trimEngines
  exact h.modPav nofun

theorem gainEngines {set : Tab Pav} {p : Nat} (h : Lasts false s t) : Lasts false s (t.gainEngines set p) := by
  unfold State.gainEngines
  exact (h.modPav nofun).modPav nofun

theorem grantEngines {set : Tab Pav} (h : Lasts false s t) : Lasts false s (t.grantEngines set) :=
  .foldl (h.foldl fun _ _ hu => hu.trimEngines) fun _ _ hu => hu.gainEngines

theorem disablePav {p : Nat} {epoch : Word32} (h : Lasts false s t) : Lasts false s (t.disablePav p epoch) := by
  unfold State.disablePav
  extract_lets mine s0 waiting s1 v s2 s3
  have closed : Lasts false s s0 := h.foldl fun _ _ hu => .ite hu.change hu.modDir.sendPool
  have ended : Lasts false s s1 := closed.endRuns.abortPosts.foldl fun _ _ hu => hu.complete
  have delivered : Lasts false s s2 := .ite ended ended.deliverStep
  clear_value s2
  exact (delivered.update rfl).setPav nofun

theorem flipPav {p : Nat} {epoch : Word32} (h : Lasts false s t) : Lasts false s (t.flipPav p epoch) :=
  .ite h.disablePav (.ite (h.setPav nofun).renumber (.foldl ((h.modPav nofun).flipSlices.update rfl) fun _ _ hu => .zeroLsRange (.ite hu hu.modCore)))

theorem flipPools {set : Tab Pav} (h : Lasts false s t) : Lasts false s (t.flipPools set) :=
  h.foldl fun _ _ hu =>
    have lost := Lasts.ite hu.losePool hu
    .ite (.update (.zeroPages (.modPool lost)) rfl) (.ite (.modPool lost) lost)

theorem shortfall {p : Nat} (h : Lasts false s t) : Lasts false s (t.shortfall p) :=
  .ite (h.modPav nofun) (.raisePav (.modPav ((h.modPav nofun).told Told.refl.setFn) nofun))

theorem rescale {qs : List Nat} (h : Lasts false s t) : Lasts false s (t.rescale qs) :=
  .foldl (h.foldl fun _ _ hu => .ite hu (hu.update rfl)) fun _ _ hu => hu.shortfall

theorem closeApply (h : Lasts false s t) : Lasts false s t.closeApply := by
  unfold State.closeApply
  extract_lets a s1
  have told : Lasts false s s1 := .ite h h.complete
  clear_value s1
  exact told.update rfl

/-- A flip leaves all that lasts but PV_EPOCH (R280). -/
theorem flip (s : State) : ∃ e, Lasts false (s.atEpoch e) s.flip := by
  unfold State.flip
  extract_lets a epoch old set t fnOf s0 s1 s2 s3 gone s4 s5 s6 a' s7 s8 qs s8' s9 s10
  have ended : Lasts false s (a.affected.foldl (fun s p => s.endReplayOf p 3) s) := Lasts.refl.foldl fun _ _ hu => hu.endReplayOf
  have moved : Lasts false s s0 := ended.flipCores
  clear_value s0
  have unbound : Lasts false s s1 := moved.foldl fun _ _ hu => hu.loseStreams
  have bound : Lasts false s s2 := (unbound.foldl fun _ _ hu => hu.flipPav).grantEngines
  have pooled : Lasts false s s3 := bound.flipPools
  clear_value s3
  have shared : Lasts false s s4 := pooled.modBeds rfl
  clear_value s4
  have flipped : Lasts false (s.atEpoch epoch) s5 :=
    ⟨shared.time, shared.fuse, shared.fw, shared.cause, shared.power, rfl, shared.tableBase, shared.winBase, shared.retired, nofun, nofun⟩
  clear_value s5
  have told : Lasts false (s.atEpoch epoch) s7 := (flipped.foldl fun _ _ hu => hu.raise).update rfl
  clear_value s7
  have scaled : Lasts false (s.atEpoch epoch) s8' := (Lasts.ite told.complete told).rescale
  clear_value s8'
  have reviewed : Lasts false (s.atEpoch epoch) s10 :=
    (scaled.foldl fun _ _ hu => .ite (hu.modPav nofun) hu).foldl fun _ _ hu => hu.reviewSpan
  exact ⟨epoch, .ite reviewed.closeApply reviewed⟩

end Lasts

theorem lasts_settleFlip (s : State) : ∃ e, Lasts false (s.atEpoch e) s.settleFlip := by
  rw [State.settleFlip]
  split
  · exact Lasts.flip s
  · exact ⟨s.regs.epoch, Lasts.refl⟩

theorem settleFlip_of_phase (h : s.apply.phase ≠ 3) : s.settleFlip = s := if_neg (by simp [h])

end Sys2Proof.Machine
end

section
/-! SUPPORT. Resets of pavilions and functions take their course (R104, R401, R503 to R508). -/

namespace Sys2Proof.Machine

variable {s t u : State} {p f : Nat} {r : Resetting}

/-! ## Cores (R104, R155) -/

theorem Tab.find_keep {α : Type} (g : Nat → Bool) (k : Nat) (t : Tab α) : Tab.find k (Tab.keep g t) = if g k then Tab.find k t else none := by
  induction t with
  | nil => exact (ite_self none).symm
  | cons c t ih =>
    have hput : Tab.keep g (c :: t) = if g c.1 then c :: Tab.keep g t else Tab.keep g t := List.filter_cons
    rw [hput]
    by_cases hc : c.1 = k
    · subst hc
      cases hg : g c.1 <;> simp [Tab.find, ih, hg]
    · cases hg : g c.1 <;> simp [Tab.find, ih, hc]

theorem coresOf_congr (h : t.cores = s.cores) (p : Nat) : t.coresOf p = s.coresOf p := by simp only [State.coresOf, h]

/-- A core of a pavilion that resets holds nothing of kernels any more, and is to be zeroed. -/
def State.emptyCore (s : State) (x : Nat × Nat) : State := (s.clearCore x.2).modCore x.2 fun c => { c with zeroing := true }

/-- The core has been emptied, and is being zeroed. -/
structure Emptied (x : Nat × Nat) (s : State) : Prop where
  zeroing : (s.core x.2).zeroing = true
  running : (s.core x.2).running = false
  strands : ∀ i, i < 2048 → Tab.find (x.2 * 2048 + i) s.strands = none

/-- A core that holds nothing of kernels (R104). -/
def Core.emptied (c : Core) : Core := { c with running := false, slots := [], shadows := [], predictor := [], icache := [] }

theorem core_clearCore_self (s : State) (c : Nat) : (s.clearCore c).core c = (s.core c).emptied := core_modCore_self s c Core.emptied

theorem core_emptyCore_self (s : State) (x : Nat × Nat) : (s.emptyCore x).core x.2 = { (s.core x.2).emptied with zeroing := true } := by
  rw [State.emptyCore, core_modCore_self, core_clearCore_self]

theorem strands_emptyCore (s : State) (x : Nat × Nat) : (s.emptyCore x).strands = Tab.keep (fun k => k / 2048 != x.2) s.strands := rfl

theorem emptied_emptyCore (s : State) (x : Nat × Nat) : Emptied x (s.emptyCore x) where
  zeroing := by rw [core_emptyCore_self]
  running := by
    rw [core_emptyCore_self]
    rfl
  strands i hi := by
    have hk : (x.2 * 2048 + i) / 2048 = x.2 := by omega
    rw [strands_emptyCore, Tab.find_keep, hk, if_neg (by simp)]

theorem Emptied.emptyCore {x y : Nat × Nat} (h : Emptied x s) : Emptied x (s.emptyCore y) := by
  by_cases hx : x.2 = y.2
  · have hy := emptied_emptyCore s y
    exact ⟨hx ▸ hy.zeroing, hx ▸ hy.running, hx ▸ hy.strands⟩
  · have hc : (s.emptyCore y).core x.2 = s.core x.2 := (core_modCore_ne hx _).trans (core_clearCore_ne hx)
    refine ⟨hc ▸ h.zeroing, hc ▸ h.running, fun i hi => ?_⟩
    rw [strands_emptyCore, Tab.find_keep, h.strands i hi, ite_self]

/-! ## RESET_TICK -/

theorem exec_resetTick (hp : p < 512) (hr : (s.pav p).resetting = some r) :
    exec (.resetTick p) s = .next (if r.ticked || !due (some r.tick) s.now || s.syncFirst p r.tick then s else s.resetNow p r) := by
  refine (if_neg (by simp; omega)).trans ?_
  rw [hr]
  exact (apply_ite Host.Outcome.next _ _ _).symm

/-- A pavilion after its reset tick. -/
def Pav.resets (v : Pav) (r : Resetting) (restored left : Nat) : Pav :=
  { v.afterReset (r.causes.all fun c => c == 0x08) with resetting := some { r with ticked := true, restored := restored, left := left } }

/-- What the reset tick does once the pavilion's work has ended: `u` is the state then. -/
theorem resetNow_eq (h : p ∉ s.apply.affected) (r : Resetting) : ∃ (u : State) (restored left : Nat) (fns : Tab Fn), Lasts true s u ∧
    s.resetNow p r = (s.coresOf p).foldl State.emptyCore { u.setPav p ((u.pav p).resets r restored left) with fns := fns } := by
  unfold State.resetNow
  extract_lets v counts s1 s2 s3 s4
  have spared : Lasts true s s1 := by
    rw [show s1 = s from if_neg (by simp [h])]
    exact .refl
  clear_value s1
  have ended : Lasts true s s2 := spared.endReplayOf.abortSpan.restoreProtected.endRuns.abortPosts
  clear_value s2
  have dropped : Lasts true s (((s2.resetStreams p).dropSpanTraffic p).renumber p) := ended.resetStreams.dropSpanTraffic.renumber
  refine ⟨_, counts.1, counts.2, s4.fns, dropped, ?_⟩
  rw [show s4.coresOf p = s.coresOf p from coresOf_congr (dropped.cores rfl) p]
  rfl

theorem pav_foldl_emptyCore (l : List (Nat × Nat)) (s : State) (p : Nat) : (l.foldl State.emptyCore s).pav p = s.pav p :=
  foldl_unchanged (f := State.emptyCore) (State.pav · p) (fun _ _ => rfl) l s

/-- What the pavilion holds after its reset tick, and that its cores are empty (R104, R503, R504). -/
theorem resetNow_course (h : p ∉ s.apply.affected) (r : Resetting) : ∃ (u : State) (restored left : Nat), Lasts true s u ∧
    (s.resetNow p r).pav p = (u.pav p).resets r restored left ∧ ∀ x ∈ s.coresOf p, Emptied x (s.resetNow p r) := by
  obtain ⟨u, restored, left, fns, hu, e⟩ := resetNow_eq h r
  rw [e]
  refine ⟨u, restored, left, hu, ?_, fun x hx => foldl_reaches emptied_emptyCore (fun _ _ _ h => h.emptyCore) hx _⟩
  rw [pav_foldl_emptyCore]
  exact State.pav_setPav_self u p _

/-! ## PAV_RESET_READY -/

/-- From `s` to `t` nothing of pavilion `p` changes but its span and its winding. -/
structure Reviewed (p : Nat) (s t : State) : Prop where
  eq : t.pav p = { s.pav p with span := (t.pav p).span, winding := (t.pav p).winding }

namespace Reviewed

theorem refl : Reviewed p s s := ⟨rfl⟩

theorem trans (h : Reviewed p s t) (h' : Reviewed p t u) : Reviewed p s u := by
  obtain ⟨h'⟩ := h'
  rw [h.eq] at h'
  exact ⟨h'⟩

theorem of_pav (h : Reviewed p s t) (e : u.pav p = t.pav p) : Reviewed p s u := h.trans ⟨by rw [e]⟩

theorem told (h : Reviewed p s t) (h' : Told t u) : Reviewed p s u := h.of_pav (h'.pav p)

theorem modPav {f : Pav → Pav} (h : Reviewed p s t) (hf : f (t.pav p) = { t.pav p with span := (f (t.pav p)).span, winding := (f (t.pav p)).winding }) :
    Reviewed p s (t.modPav p f) := h.trans ⟨by rwa [State.modPav, State.pav_setPav_self]⟩

theorem ite {c : Prop} [Decidable c] {a b : State} (ha : Reviewed p s a) (hb : Reviewed p s b) : Reviewed p s (if c then a else b) := by
  split
  · exact ha
  · exact hb

theorem foldl {α : Type} {f : State → α → State} {l : List α} (h : Reviewed p s t) (hf : ∀ u x, Reviewed p s u → Reviewed p s (f u x)) :
    Reviewed p s (l.foldl f t) := by
  induction l generalizing t with
  | nil => exact h
  | cons x l ih => exact ih (hf _ _ h)

theorem sayDown (h : Reviewed p s t) : Reviewed p s (t.sayDown p) :=
  (h.modPav rfl).foldl fun _ _ hu => hu.told Told.refl.syncSend

theorem sayReady {r : Nat} (h : Reviewed p s t) : Reviewed p s (t.sayReady p r) := .ite h ((h.modPav rfl).told Told.refl.syncSend)

theorem renumber (h : Reviewed p s t) : Reviewed p s (t.renumber p) := h.of_pav rfl

theorem raisePav {code detail : Nat} (h : Reviewed p s t) : Reviewed p s (t.raisePav p code detail) := h.told Told.refl.raisePav

theorem tryReady (h : Reviewed p s t) : Reviewed p s (t.tryReady p) := .ite h (h.modPav rfl).renumber.raisePav

end Reviewed

/-- A span that is not READY is not FAULTED by a review (R364, R375). -/
theorem reviewed_reviewSpan (h : (s.pav p).span.st ≠ 2) : Reviewed p s (s.reviewSpan p) := by
  unfold State.reviewSpan
  extract_lets v s1
  have down : Reviewed p s s1 := .ite .refl Reviewed.refl.sayDown
  have said : Reviewed p s (v.others.foldl (fun s r => if v.span.said.contains r then s else s.sayReady p r) s1) :=
    down.foldl fun _ _ hu => .ite hu hu.sayReady
  have hst : ¬ (v.span.st == 2) = true := by simpa using h
  refine .ite .refl ?_
  split
  · exact (if_neg hst).symm ▸ said
  · exact (if_neg hst).symm ▸ said.tryReady

theorem reviewSpan_of_not_span (h : (s.pav p).isSpan = false) : s.reviewSpan p = s := if_pos (by simp [h])

theorem Told.reportKill (h : Told s t) : Told s (t.reportKill p r) := by
  rw [State.reportKill]
  split
  · exact h
  · exact .ite h.raise h.raise.raisePf0

/-- PAV_RESET_READY before its spans are reviewed: nothing of the pavilion has changed but that it resets, and its slices. -/
def State.leaveReset (s : State) (p : Nat) (r : Resetting) : State :=
  let s2 := r.slots.foldl (fun s k => s.complete k 0 [(s.pav p).winding.toNat]) ((s.modPav p fun v => { v with resetting := none }).reportKill p r)
  (((s2.pav p).slices.filter fun x => x.2.pinned).map Prod.fst).foldl (fun s h => s.beginFill p h none) s2

theorem pav_leaveReset (s : State) (p : Nat) (r : Resetting) : ∃ sl, (s.leaveReset p r).pav p = { s.pav p with resetting := none, slices := sl } := by
  unfold State.leaveReset
  extract_lets s2
  have told : Told (s.setPav p { s.pav p with resetting := none }) s2 := Told.refl.reportKill.foldl fun _ _ hu => hu.complete
  have kept : Fills p (s.setPav p { s.pav p with resetting := none }) s2 := ⟨by rw [told.pav]⟩
  exact kept.foldl_beginFill.of_setPav

theorem exec_pavResetReady (hp : p < 512) (hr : (s.pav p).resetting = some r) (ht : r.ticked = true) : exec (.pavResetReady p) s =
    .next (if ((s.coresOf p).any fun x => (s.core x.2).zeroing) || (List.range 8).any (fun h => (s.half h).resetting.isSome && s.inHalf p h) then s
      else (s.leaveReset p r).reviewSpan p) := by
  refine (if_neg (by simp; omega)).trans ?_
  rw [hr, apply_ite Host.Outcome.next]
  dsimp only
  rw [ht, Bool.not_true, Bool.false_or]
  rfl

theorem pavResetReady_zeroing (hp : p < 512) (hr : (s.pav p).resetting = some r) (ht : r.ticked = true)
    (hz : ∃ x ∈ s.coresOf p, (s.core x.2).zeroing = true) : exec (.pavResetReady p) s = .next s := by
  rw [exec_pavResetReady hp hr ht, List.any_eq_true.2 hz]
  rfl

theorem pavResetReady_done (hp : p < 512) (hr : (s.pav p).resetting = some r) (ht : r.ticked = true)
    (hz : ∀ x ∈ s.coresOf p, (s.core x.2).zeroing = false) (hh : ∀ h, h < 8 → (s.half h).resetting = none ∨ s.inHalf p h = false) :
    exec (.pavResetReady p) s = .next ((s.leaveReset p r).reviewSpan p) := by
  have hidle : ((s.coresOf p).any fun x => (s.core x.2).zeroing) = false := by simpa using hz
  have hhalves : ((List.range 8).any fun h => (s.half h).resetting.isSome && s.inHalf p h) = false := by
    rw [List.any_eq_false]
    intro h hlt
    rcases hh h (List.mem_range.1 hlt) with e | e <;> simp [e]
  rw [exec_pavResetReady hp hr ht, hidle, hhalves]
  rfl

/-- The pavilion no longer resets; its winding moves only with its span (R364, R503). -/
theorem reviewed_leaveReset (hst : (s.pav p).isSpan = true → (s.pav p).span.st ≠ 2) :
    (((s.leaveReset p r).reviewSpan p).pav p).resetting = none ∧ (((s.leaveReset p r).reviewSpan p).pav p).entry = (s.pav p).entry ∧
      ((s.pav p).isSpan = false → (((s.leaveReset p r).reviewSpan p).pav p).winding = (s.pav p).winding) := by
  obtain ⟨sl, hsl⟩ := pav_leaveReset s p r
  have hspan : ((s.leaveReset p r).pav p).isSpan = (s.pav p).isSpan := by
    rw [hsl]
    rfl
  cases h : (s.pav p).isSpan with
  | false =>
    rw [reviewSpan_of_not_span (hspan.trans h), hsl]
    exact ⟨rfl, rfl, fun _ => rfl⟩
  | true =>
    have hrev : Reviewed p (s.leaveReset p r) ((s.leaveReset p r).reviewSpan p) := reviewed_reviewSpan (by rw [hsl]; exact hst h)
    rw [hrev.eq, hsl]
    exact ⟨rfl, rfl, nofun⟩

end Sys2Proof.Machine
end

section
/-! SUPPORT. Function resets, and the resets of the package (R401, R506, R509, R522). -/

namespace Sys2Proof.Machine

variable {s t u : State} {p f : Nat} {r : Resetting}

/-! ## Function resets (R401) -/

/-- A function's own part of its reset: its slots, its events, its sessions, and its commands in progress, which go on without their slots. -/
def State.flrFn (s : State) (f : Nat) : State :=
  let alive := (s.fn f).slots.zipIdx.filter fun (x : MbSlot × Nat) => x.1.st == 1
  let going := alive.foldl (fun (t : Tab MbSlot) (x : MbSlot × Nat) => Tab.put (postOf f x.2 x.1.gen) x.1 t) s.orphans
  (({ s with orphans := going } : State).setFn f (s.fn f).flr).endSpdm f

theorem exec_flr (hf : f < 512) {c : Instr} (hc : (c = .vfFlr f ∧ f ≠ 0 ∧ s.hasFn f = true) ∨ (c = .pf0Flr ∧ f = 0)) : exec c s = .next (s.flr f) := by
  rcases hc with ⟨rfl, hne, hfn⟩ | ⟨rfl, rfl⟩
  · exact (if_neg (by simp [hne]; omega)).trans (if_neg (by simp [hfn]))
  · rfl

theorem flr_of_none (h : s.pavOfFn f = none) : s.flr f = s.flrFn f := by
  have hp : (s.flrFn f).pavOfFn f = none := h
  show (match (s.flrFn f).pavOfFn f with | none => s.flrFn f | some p => _) = _
  rw [hp]

/-- The pavilion's host keys go. -/
def Pav.dropKeys (v : Pav) : Pav := { v with chan := { v.chan with keys := [] } }

theorem flr_of_some (h : s.pavOfFn f = some p) : s.flr f = ((s.flrFn f).modPav p Pav.dropKeys).startReset p 0x0A 0 [] := by
  have hp : (s.flrFn f).pavOfFn f = some p := h
  show (match (s.flrFn f).pavOfFn f with | none => s.flrFn f | some p => _) = _
  rw [hp]
  rfl

/-- Its own reset leaves a function's slots IDLE and no event held. -/
theorem flr_empty (x : Fn) : (∀ m ∈ x.flr.slots, m.st = 0) ∧ x.flr.ring = [] ∧ x.flr.head = x.flr.tail := by
  refine ⟨fun m hm => ?_, rfl, rfl⟩
  obtain ⟨_, -, rfl⟩ := List.mem_map.1 hm
  rfl

theorem pav_startReset (s : State) (p cause loc : Nat) (slots : List Nat) :
    ∃ r, (s.startReset p cause loc slots).pav p = { s.pav p with resetting := some r } := by
  rw [State.startReset, State.modPav, State.pav_setPav_self]
  split <;> exact ⟨_, rfl⟩

theorem exec_vfEnableSet {n : Nat} (hn : n ≤ 511) (hs : s.boot.stage ≠ .recovery) :
    exec (.vfEnableSet n) s = .next (s.modRegs fun r => { r with vfs := n }) :=
  (if_neg (by omega)).trans (if_neg (by simpa using hs))

/-! ## VF_ENABLE_CLEAR -/

theorem Stands.holdReads (h : Stands s t) : Stands s (t.holdReads p) :=
  h.foldl fun _ _ hu => .ite (hu.update rfl) hu

theorem Stands.endTransfers (h : Stands s t) : Stands s (t.endTransfers p) := by
  unfold State.endTransfers
  extract_lets s1 s2
  have ended : Stands s s2 := (h.foldl fun _ _ hu => hu.complete).foldl fun _ _ hu => hu.complete
  clear_value s2
  exact .ite (ended.update rfl) ((ended.modPav rfl id).update rfl)

theorem Stands.haltChannel {cause dva : Nat} (h : Stands s t) : Stands s (t.haltChannel p cause dva) :=
  .ite h (h.modPav rfl id).raisePav.holdReads.endTransfers

/-- A pavilion whose function goes resets, and its channel halts for that (R401, R429). -/
def State.loseFn (s : State) (p : Nat) : State :=
  ((s.startReset p 0x0A 0 []).modPav p fun v => { v with chan := { v.chan with halted := false } }).haltChannel p 6 0

theorem Stands.loseFn (h : Stands s t) : Stands s (t.loseFn p) := (h.startReset.modPav rfl id).haltChannel

theorem resetting_loseFn (s : State) (p : Nat) : ((s.loseFn p).pav p).resetting.isSome = true := by
  have hs : Stands (s.startReset p 0x0A 0 []) (s.loseFn p) := (Stands.refl.modPav rfl id).haltChannel
  obtain ⟨r, hr⟩ := pav_startReset s p 0x0A 0 []
  exact hs.resetting p (by rw [hr]; rfl)

theorem exec_vfEnableClear (s : State) : exec .vfEnableClear s =
    .next ((((s.pavs.filter fun x => x.2.bound && x.2.hostFn != 0).map Prod.fst).foldl State.loseFn s).modRegs fun r => { r with vfs := 0 }) := rfl

theorem resetting_vfEnableClear {x : Nat × Pav} (hx : x ∈ s.pavs) (hb : x.2.bound = true) (hf : x.2.hostFn ≠ 0) :
    ((((s.pavs.filter fun x => x.2.bound && x.2.hostFn != 0).map Prod.fst).foldl State.loseFn s).pav x.1).resetting.isSome = true :=
  foldl_reaches (P := fun p (u : State) => (u.pav p).resetting.isSome = true) resetting_loseFn (fun u p q h => (Stands.refl (s := u)).loseFn.resetting p h)
    (List.mem_map.2 ⟨x, List.mem_filter.2 ⟨hx, by simp [hb, hf]⟩, rfl⟩) s

/-! ## The package (R506, R509, R522) -/

theorem exec_warmReset {cause : Nat} (h : cause ∈ [0x02, 0x03, 0x04, 0x05, 0x07, 0x08]) : exec (.warmReset cause) s = .next (s.warmReset cause) :=
  congrArg Host.Outcome.next (if_pos (List.contains_iff_mem.2 h))

theorem exec_coldReset {cause : Nat} (h : cause ∈ [0x01, 0x04, 0x06]) : exec (.coldReset cause) s = .next (s.coldReset cause (isFatal cause)) :=
  congrArg Host.Outcome.next (if_pos (List.contains_iff_mem.2 h))

theorem core_mapVals_afterWarm (m : Tab Core) (c : Nat) : (Tab.getD (Tab.mapVals (fun _ c => c.afterWarm) m) c {}).owner = none := by
  rw [Tab.getD, Tab.find_mapVals]
  cases Tab.find c m <;> rfl

/-- What a warm reset keeps (R509): each part of the state after it, from what stands once a flip that is due is made. -/
structure Warm (s t : State) (cause : Nat) : Prop where
  cause : t.cause.cause = BitVec.ofNat 8 cause
  warmCount : t.cause.warmCount = sat16 s.cause.warmCount
  time : t.time = s.time
  epoch : t.regs.epoch = s.regs.epoch
  tableBase : t.regs.tableBase = s.regs.tableBase
  winBase : t.regs.winBase = s.regs.winBase
  floor : t.fw.svnFloor = s.fw.svnFloor
  retired : t.beds.retiredFrames = s.beds.retiredFrames
  stage : t.boot.stage = if s.fw.armed then Stage.recovery else .rom
  none : t.regs.vfs = 0 ∧ t.beds.ls = [] ∧ t.strands = [] ∧ t.apply = {} ∧ ∀ c, (t.core c).owner = none

theorem warm_warmReset (s : State) (cause : Nat) : Warm s.settleFlip (s.warmReset cause) cause := by
  unfold State.warmReset
  extract_lets s' s1 s2 s3
  have lost : Lasts false s' s2 := (Lasts.refl.abortSpans.losePoolsOf).abortUnseals
  have h : Lasts false s' s3 := .ite lost.setReason lost
  clear_value s3
  exact ⟨rfl, congrArg (sat16 ·.warmCount) h.cause, h.time, h.epoch, h.tableBase, h.winBase, (congrArg Fw.svnFloor h.fw :), h.retired,
    (congrArg (fun w : Fw => if w.armed then Stage.recovery else .rom) h.fw :), rfl, rfl, rfl, rfl, core_mapVals_afterWarm s3.cores⟩

/-- A cold reset takes from the state before it what boot flash and the fuses hold (R506). -/
structure Cold (s t : State) (cause : Nat) : Prop where
  cause : t.cause.cause = BitVec.ofNat 8 cause
  warmCount : t.cause.warmCount = 0
  mem : t.beds.mem = []
  ls : t.beds.ls = []
  retired : t.beds.retiredFrames = s.beds.retiredFrames
  pavs : t.pavs = []
  cores : t.cores = State.reset.cores
  regs : t.regs = if s.apply.phase = 0 then State.reset.regs else { State.reset.regs with epoch := s.regs.epoch }
  fuse : t.fuse = s.fuse
  floor : t.fw.svnFloor = s.fw.svnFloor
  version : t.fw.version = s.fw.version
  coeffs : t.power.coeffs = s.power.flash
  stage : t.boot.stage = .rom
  cold : t.boot.cold = true

theorem cold_coldReset (s : State) (cause : Nat) (fatal : Bool) : Cold s.settleFlip (s.coldReset cause fatal) cause := by
  unfold State.coldReset
  extract_lets s' s1
  exact ⟨rfl, rfl, rfl, rfl, rfl, rfl, rfl, by simp only [beq_iff_eq]; rfl, rfl, rfl, rfl, rfl, rfl, rfl⟩

/-! ## The obligation -/

theorem resetTick_course (hp : p < 512) (hr : (s.pav p).resetting = some r) (ht : r.ticked = false) (hdue : r.tick.toNat ≤ s.now.toNat)
    (hfirst : s.syncFirst p r.tick = false) : exec (.resetTick p) s = .next (s.resetNow p r) := by
  rw [exec_resetTick hp hr, ht, due_of_le hdue, hfirst]
  rfl

theorem resetTick_early (hp : p < 512) (hr : (s.pav p).resetting = some r) (ht : r.ticked = false) (hearly : s.now.toNat < r.tick.toNat) :
    exec (.resetTick p) s = .next s := by
  have hdue : due (some r.tick) s.now = false := decide_eq_false (by omega)
  rw [exec_resetTick hp hr, ht, hdue]
  rfl

/-- Settles O47, reset by reset. That beds are empty after a cold reset, that a reset keeps the committed step only where every cause of it is
0x08, that NumVFs is 0 after a warm reset, and that a cold reset which meets an apply keeps PV_EPOCH, are the model's choices
(notes/assumptions/1.md, 36.md, 39.md and 75.md). -/
theorem resetsTakeTheirCourse : Obligations.ResetsTakeTheirCourse := by
  unfold Obligations.ResetsTakeTheirCourse
  intro s
  refine ⟨fun p r hp hr ht hdue hfirst haff _ => ⟨_, resetTick_course hp hr ht hdue hfirst, ?tick⟩,
    fun p r hp hr => ⟨resetTick_early hp hr, fun ht hz => ?zeroing, fun ht hz hh hst => ?ready⟩,
    fun f hf hn c hc => ⟨?flr, flr_empty _⟩, fun f p hf hn c hc => ⟨_, exec_flr hf hc, ?pavFlr⟩,
    ⟨_, exec_vfEnableClear s, rfl, fun x hx hb hf => resetting_vfEnableClear hx hb hf⟩, fun n hn hs => exec_vfEnableSet hn hs,
    fun cause hc => ⟨_, exec_warmReset hc, ?warm⟩, fun cause hc => ⟨_, exec_coldReset hc, ?cold⟩, fun hs => if_neg (by simp [hs])⟩
  case tick =>
    obtain ⟨u, restored, left, hu, hpav, hcores⟩ := resetNow_course haff r
    have hstand := hu.pav rfl p
    simp only [Pav.standing, Prod.mk.injEq] at hstand
    obtain ⟨-, hwinding, hcommitted⟩ := hstand
    rw [hpav, ← hwinding, ← hcommitted]
    exact ⟨rfl, rfl, rfl, rfl, rfl, fun h hh => (List.mem_filter.1 hh).2, rfl, rfl,
      fun x hx => ⟨(hcores x hx).zeroing, (hcores x hx).running, (hcores x hx).strands⟩⟩
  case zeroing => exact pavResetReady_zeroing hp hr ht hz
  case ready =>
    obtain ⟨hnone, hentry, hwinding⟩ := reviewed_leaveReset (r := r) hst
    exact ⟨_, pavResetReady_done hp hr ht hz hh, hnone, hentry, hwinding⟩
  case flr =>
    rw [exec_flr hf hc, flr_of_none hn]
    rfl
  case pavFlr =>
    obtain ⟨r, hr⟩ := pav_startReset ((s.flrFn f).modPav p Pav.dropKeys) p 0x0A 0 []
    rw [flr_of_some hn, hr, State.modPav, State.pav_setPav_self]
    exact ⟨rfl, rfl, rfl, rfl⟩
  case warm =>
    obtain ⟨e, h⟩ := lasts_settleFlip s
    have w := warm_warmReset s cause
    obtain ⟨hvfs, hls, hstrands, happly, howner⟩ := w.none
    refine ⟨w.cause, w.warmCount.trans (congrArg _ (congrArg _ h.cause)), w.time.trans h.time, w.epoch, fun hphase => ?_, w.tableBase.trans h.tableBase,
      w.winBase.trans h.winBase, hvfs, hls, hstrands, happly, w.floor.trans (congrArg Fw.svnFloor h.fw), w.retired.trans h.retired, ?_, howner⟩
    · rw [w.epoch, settleFlip_of_phase hphase]
    · rw [w.stage, h.fw]
      rfl
  case cold =>
    obtain ⟨e, h⟩ := lasts_settleFlip s
    have w := cold_coldReset s cause (isFatal cause)
    exact ⟨w.cause, w.warmCount, w.mem, w.ls, w.retired.trans h.retired, w.pavs, w.cores, w.regs, w.fuse.trans h.fuse, w.floor.trans (congrArg Fw.svnFloor h.fw),
      w.version.trans (congrArg Fw.version h.fw), w.coeffs.trans (congrArg Power.flash h.power), w.stage, w.cold⟩

end Sys2Proof.Machine
end

section
/-! SUPPORT. Scalar registers and descriptor fields (R109, R123): what a write reads back as, and what it leaves. -/

namespace Sys2Proof.Machine

/-! ## Registers -/

variable (t : Strand)

theorem reg_setReg_self {d : BitVec 3} (hd : d.toNat < 6) (v : Word64) : (t.setReg d v).reg d = v := by
  have hcodes : d = 0 ∨ d = 1 ∨ d = 2 ∨ d = 3 ∨ d = 4 ∨ d = 5 := by bv_omega
  rcases hcodes with rfl | rfl | rfl | rfl | rfl | rfl <;> rfl

theorem reg_setReg_ne {d r : BitVec 3} (hr : r ≠ d) (v : Word64) : (t.setReg d v).reg r = t.reg r := by
  have hne : r.toNat ≠ d.toNat := fun e => hr (BitVec.eq_of_toNat_eq e)
  unfold Strand.setReg
  split
  case h_7 => rfl
  all_goals
    next hn =>
      unfold Strand.reg
      split <;> simp_all only [ne_eq, not_true_eq_false]

/-! ## Bits of a number -/

theorem testBit_setBits {hi lo : Nat} (h : lo ≤ hi) (w v b : Nat) :
    (setBits w hi lo v).testBit b = if b < lo ∨ hi < b then w.testBit b else v.testBit (b - lo) := by
  have hpow : 2 ^ (hi + 1) = 2 ^ lo * 2 ^ (hi + 1 - lo) := by rw [← Nat.pow_add]; congr 1; omega
  have hsum : setBits w hi lo v = 2 ^ lo * (2 ^ (hi + 1 - lo) * (w / 2 ^ (hi + 1)) + v % 2 ^ (hi + 1 - lo)) + w % 2 ^ lo := by
    simp only [setBits, Nat.shiftRight_eq_div_pow, Nat.shiftLeft_eq]
    rw [hpow]
    ring
  rw [hsum, Nat.testBit_two_pow_mul_add _ (Nat.mod_lt _ (Nat.two_pow_pos _)), Nat.testBit_mod_two_pow]
  by_cases hlo : b < lo
  · simp [hlo]
  · rw [if_neg hlo, Nat.testBit_two_pow_mul_add _ (Nat.mod_lt _ (Nat.two_pow_pos _)), Nat.testBit_mod_two_pow, Nat.testBit_div_two_pow]
    by_cases hhi : hi < b
    · rw [if_neg (by omega), if_pos (.inr hhi)]
      congr 1
      omega
    · rw [if_pos (by omega), if_neg (by omega)]
      simp
      omega

theorem testBit_bits (w hi lo b : Nat) : (bits w hi lo).testBit b = (decide (b < hi + 1 - lo) && w.testBit (lo + b)) := by
  rw [bits, Nat.testBit_mod_two_pow, Nat.testBit_shiftRight]

/-! ## Descriptor fields -/

theorem getLsbD_set {fn hi lo : Nat} (hf : Desc.field fn = (hi, lo)) (h : lo ≤ hi) (d : Desc) (v : Word64) {b : Nat} (hb : b < 256) :
    (Desc.set d fn v).getLsbD b = if b < lo ∨ hi < b then d.getLsbD b else v.toNat.testBit (b - lo) := by
  rw [Desc.set, hf, BitVec.getLsbD_ofNat, testBit_setBits h]
  simp [hb, BitVec.getLsbD]

theorem fld_set {fn hi lo : Nat} (hf : Desc.field fn = (hi, lo)) (h : lo ≤ hi) (hhi : hi < 256) (d : Desc) (v : Word64) :
    (Desc.set d fn v).fld hi lo = v.toNat % 2 ^ (hi + 1 - lo) := by
  refine Nat.eq_of_testBit_eq fun b => ?_
  rw [Desc.fld, testBit_bits, Nat.testBit_mod_two_pow]
  by_cases hb : b < hi + 1 - lo
  · have hget := getLsbD_set hf h d v (b := lo + b) (by omega)
    rw [if_neg (by omega), BitVec.getLsbD] at hget
    rw [hget, Nat.add_sub_cancel_left]
  · simp [hb]

theorem get_eq {fn hi lo : Nat} (hf : Desc.field fn = (hi, lo)) (d : Desc) :
    Desc.get d fn = BitVec.ofNat 64 (d.toNat / 2 ^ lo % 2 ^ (hi + 1 - lo)) := by
  rw [Desc.get, hf, Desc.fld, bits, Nat.shiftRight_eq_div_pow]

theorem get_set {fn hi lo : Nat} (hf : Desc.field fn = (hi, lo)) (h : lo ≤ hi) (hhi : hi < 256) (d : Desc) (v : Word64) :
    Desc.get (Desc.set d fn v) fn = BitVec.ofNat 64 (v.toNat % 2 ^ (hi + 1 - lo)) := by
  rw [Desc.get, hf, fld_set hf h hhi]

/-- Settles O3: each field of the list is one that `Desc.field` names, and lies within the 256 bits. -/
theorem registerAndDescriptorFieldsReadBack : Obligations.RegisterAndDescriptorFieldsReadBack := by
  unfold Obligations.RegisterAndDescriptorFieldsReadBack
  refine ⟨fun t d r v => ⟨rfl, rfl, rfl, rfl, rfl, rfl, rfl, rfl, fun hd => reg_setReg_self t hd v, fun hr => reg_setReg_ne t hr v, setReg_pc t d v, ?_⟩,
    fun d v x hx => ?_⟩
  · unfold Strand.setReg
    split <;> exact ⟨rfl, rfl, rfl, rfl, rfl⟩
  · have hfield : ∀ x ∈ ([(0, 63, 0), (1, 95, 64), (2, 111, 96), (3, 151, 128), (4, 175, 152), (5, 180, 176), (6, 183, 181), (7, 194, 184)] :
        List (Nat × Nat × Nat)), Desc.field x.1 = x.2 ∧ x.2.2 ≤ x.2.1 ∧ x.2.1 < 256 := by decide
    obtain ⟨hf, hle, hlt⟩ := hfield x hx
    refine ⟨get_eq hf d, get_set hf hle hlt d v, fun b hb hout => ?_⟩
    rw [getLsbD_set hf hle d v hb, if_pos hout]

end Sys2Proof.Machine
end

section
/-! SUPPORT. The scalar instructions with a defined encoding, each issued at a PC that can advance (R108, R111, R120 to R123). -/

namespace Sys2Proof.Machine

variable {s : State} {core strand p i : Nat} {f : ScalarFields}

/-! ## Arithmetic -/

theorem alu_of_issues (h : Issues s core strand 8 p i) (hdef : shapeAlu.undefined f = false) (hpc : (s.strand core strand).pc.toNat + 8 < 2 ^ 32)
    (opc : Nat) : alu core strand opc f s = .next (s.setStrand core strand
      (((s.strand core strand).setReg f.dst (aluOp opc ((s.strand core strand).reg f.srca) (opB (s.strand core strand) f))).withPc
        ((s.strand core strand).pc + 8))) := by
  rw [alu, scalar_of_issues h hdef, scalarDone_of_lt (by rwa [setReg_pc]), setReg_pc]

/-- Settles O1: each of the eleven is `aluOp` of its opcode. -/
theorem aluResults : Obligations.AluResults := by
  unfold Obligations.AluResults
  intro s core strand p i f h hdef hpc
  have hmin (a b : Word64) : aluOp 0x19 a b = if a.toInt < b.toInt then a else b := by simp [aluOp, BitVec.slt]
  have hmax (a b : Word64) : aluOp 0x1A a b = if a.toInt < b.toInt then b else a := by simp [aluOp, BitVec.slt]
  have halu := alu_of_issues h hdef hpc
  simp only [List.forall_mem_cons]
  refine ⟨halu 0x10, halu 0x11, halu 0x12, halu 0x13, halu 0x14, halu 0x15, halu 0x16, halu 0x17, halu 0x18, ?_, ?_, List.forall_mem_nil _⟩
  · rw [← hmin]; exact halu 0x19
  · rw [← hmax]; exact halu 0x1A

/-! ## Moves and comparisons -/

/-- An instruction that gives its strand new scalar state, with the PC it had, and goes on at PC + 8. -/
theorem scalar_scalarDone (h : Issues s core strand 8 p i) {k : ScalarShape} (hdef : k.undefined f = false) (opc : Nat)
    (hpc : (s.strand core strand).pc.toNat + 8 < 2 ^ 32) {g : Strand → Strand} (hg : (g (s.strand core strand)).pc = (s.strand core strand).pc) :
    scalar core strand opc k f s (fun _ _ t => s.scalarDone core strand (g t)) =
      .next (s.setStrand core strand ((g (s.strand core strand)).withPc ((s.strand core strand).pc + 8))) := by
  rw [scalar_of_issues h hdef, scalarDone_of_lt (by rwa [hg]), hg]

theorem setDst_of_issues (h : Issues s core strand 8 p i) {k : ScalarShape} (hdef : k.undefined f = false) (opc : Nat)
    (hpc : (s.strand core strand).pc.toNat + 8 < 2 ^ 32) (v : Strand → Word64) :
    setDst core strand opc k f v s =
      .next (s.setStrand core strand (((s.strand core strand).setReg f.dst (v (s.strand core strand))).withPc ((s.strand core strand).pc + 8))) :=
  scalar_scalarDone h hdef opc hpc (setReg_pc _ _ _)

/-! ## Reads of ASTAT and SRC (R79, R89) -/

/-- What an instruction that reads ASTAT or SRC leaves behind it: its occurrence counted, and at an address that has stood at a
predicate the predictor told the value. -/
def State.noted (s : State) (core strand : Nat) (v : Word64) : State :=
  if (s.strand core strand).predicates.contains (s.strand core strand).pc.toNat then s.predict core strand v else s.countOcc core strand

theorem statusRead_of_none {ns : List Nat} (hns : ns = []) (v : Word64) (body : State → State) :
    s.statusRead core strand ns v body = body (s.noted core strand v) := by
  subst hns
  rfl

theorem strand_countOcc (s : State) (core strand : Nat) : (s.countOcc core strand).strand core strand =
    { s.strand core strand with
      occ := Tab.put (s.strand core strand).pc.toNat (Tab.getD (s.strand core strand).occ (s.strand core strand).pc.toNat 0 + 1) (s.strand core strand).occ } :=
  State.strand_setStrand_self _ _ _ _

theorem strand_predict (s : State) (core strand : Nat) (v : Word64) :
    (s.predict core strand v).strand core strand = (s.countOcc core strand).strand core strand := by
  rw [State.predict, strand_countOcc, strand_countOcc, modCore_strand]

theorem strand_noted (s : State) (core strand : Nat) (v : Word64) :
    (s.noted core strand v).strand core strand = (s.countOcc core strand).strand core strand := by
  unfold State.noted
  split
  · exact strand_predict _ _ _ _
  · rfl

theorem pc_noted (s : State) (core strand : Nat) (v : Word64) : ((s.noted core strand v).strand core strand).pc = (s.strand core strand).pc := by
  rw [strand_noted, strand_countOcc]

/-- An instruction that reads ASTAT or SRC once nothing in flight writes it, and then gives its strand new scalar state. -/
theorem scalar_statusRead (h : Issues s core strand 8 p i) {k : ScalarShape} (hdef : k.undefined f = false) (opc : Nat)
    (hpc : (s.strand core strand).pc.toNat + 8 < 2 ^ 32) {ns : Strand → List Nat} (hns : ns (s.strand core strand) = []) (v : Strand → Word64)
    {g : Strand → Strand → Strand} (hg : ∀ t u : Strand, (g t u).pc = u.pc) :
    scalar core strand opc k f s (fun _ _ t => s.statusRead core strand (ns t) (v t) fun u => u.scalarDone core strand (g t (u.strand core strand))) =
      .next ((s.noted core strand (v (s.strand core strand))).setStrand core strand
        ((g (s.strand core strand) ((s.noted core strand (v (s.strand core strand))).strand core strand)).withPc ((s.strand core strand).pc + 8))) := by
  rw [scalar_of_issues h hdef, statusRead_of_none hns, scalarDone_of_lt (by rwa [hg, pc_noted]), hg, pc_noted]

/-- Settles O2, instruction by instruction. That RDAS, CLAS and RDSRC stand at predicates is the model's choice (notes/assumptions/18.md). -/
theorem moveAndCompareResults : Obligations.MoveAndCompareResults := by
  unfold Obligations.MoveAndCompareResults
  intro s core strand p i f h hpc
  extract_lets t b sum holds
  have hcond : cond f.fn.toNat (t.reg f.srca) b = holds := by
    simp only [holds]
    generalize f.fn.toNat = n
    rcases n with _ | _ | _ | _ | _ | n <;> simp only [cond, BitVec.slt, BitVec.ult, bne, Bool.beq_eq_decide_eq, ← decide_not, not_lt, ne_eq]
  refine ⟨?_, fun hdef hsrc => ?_, ?_⟩
  · simp only [List.forall_mem_cons]
    refine ⟨fun hdef => ?_, fun hdef => setDst_of_issues h hdef 0x1C hpc fun _ => sext64 f.imm, 
      fun hdef => setDst_of_issues h hdef 0x1D hpc fun t => (f.imm ++ (t.reg f.dst).truncate 32 : BitVec 64),
     
      fun hdef => setDst_of_issues h hdef 0x34 hpc fun _ => s.now,
      fun hdef => setDst_of_issues h hdef 0x29 hpc fun t => Desc.get (t.desc f.srcb) f.fn.toNat,
      fun hdef => scalar_scalarDone h hdef 0x28 hpc (g := fun t => t.setDesc f.dst (Desc.set (t.desc f.dst) f.fn.toNat (opAddr t f))) rfl,
      fun hdef => scalar_scalarDone h hdef 0x01 hpc (g := id) rfl, List.forall_mem_nil _⟩
    rw [← hcond]
    exact setDst_of_issues h hdef 0x1B hpc fun t => if cond f.fn.toNat (t.reg f.srca) (opB t f) then 1 else 0
  · show execSetsrc core strand f s = _
    rw [execSetsrc, scalar_of_issues h hdef]
    rw [if_neg (by simp [t, hsrc])]
    exact congrArg Host.Outcome.next (scalarDone_of_lt hpc)
  · simp only [List.forall_mem_cons]
    refine ⟨fun hdef hns => scalar_statusRead h hdef 0x30 hpc (ns := Strand.astatBlockers) hns (fun t => t.astat.zeroExtend 64)
        (g := fun t u => u.setReg f.dst (t.astat.zeroExtend 64)) fun _ _ => setReg_pc _ _ _, fun hdef hns => ?_,
      fun hdef hns => scalar_statusRead h hdef 0x33 hpc (ns := Strand.srcBlockers) hns Strand.src
        (g := fun t u => u.setReg f.dst t.src) fun _ _ => setReg_pc _ _ _, List.forall_mem_nil _⟩
    refine (scalar_statusRead h hdef 0x31 hpc (ns := Strand.astatBlockers) hns (fun t => t.astat.zeroExtend 64)
      (g := fun t u => u.clearFlags (opB t f)) fun _ _ => rfl).trans ?_
    have hastat : ((s.noted core strand (t.astat.zeroExtend 64)).strand core strand).astat = t.astat := by
      rw [strand_noted, strand_countOcc]
    rw [Strand.clearFlags, hastat]
    rfl

end Sys2Proof.Machine
end

section
/-! SUPPORT. Branches and jumps (R111), and accesses of scratch by scalar instructions (R84, R119, R121). -/

namespace Sys2Proof.Machine

variable {s : State} {core strand p i : Nat} {f : ScalarFields}

/-! ## Branches and jumps -/

/-- A target in the code range becomes the PC; another is an ALIGN_FAULT with the target's 64 bits in DETAIL. -/
theorem jumpTo_eq (s : State) (core strand opc : Nat) (target : Int) (k : Strand → Strand) :
    s.jumpTo core strand opc target k = if 0 ≤ target ∧ target < 2 ^ 32 then
        s.setStrand core strand ((k (s.strand core strand)).withPc (BitVec.ofInt 32 target))
      else s.kernelFault core strand 0x07 opc 0 (target % 2 ^ 64).toNat := by
  unfold State.jumpTo
  by_cases h : 0 ≤ target ∧ target < 2 ^ 32
  · rw [if_pos h, if_neg (by simp; omega)]
    rfl
  · rw [if_neg h, if_pos (by simp; omega)]
    rfl

theorem scalar_jumpTo (h : Issues s core strand 8 p i) {k : ScalarShape} (hdef : k.undefined f = false) (opc : Nat) (g : Strand → Strand) :
    scalar core strand opc k f s (fun _ _ t => s.jumpTo core strand opc (relTarget t f.imm) g) =
      .next (if 0 ≤ relTarget (s.strand core strand) f.imm ∧ relTarget (s.strand core strand) f.imm < 2 ^ 32 then
          s.setStrand core strand ((g (s.strand core strand)).withPc (BitVec.ofInt 32 (relTarget (s.strand core strand) f.imm)))
        else s.kernelFault core strand 0x07 opc 0 (relTarget (s.strand core strand) f.imm % 2 ^ 64).toNat) := by
  rw [scalar_of_issues h hdef, jumpTo_eq]

theorem exec_br (h : Issues s core strand 8 p i) (hdef : shapeBr.undefined f = false) :
    exec (.br core strand f) s = .next (if cond f.fn.toNat ((s.strand core strand).reg f.srca) ((s.strand core strand).reg f.srcb) then
        s.jumpTo core strand 0x40 (relTarget (s.strand core strand) f.imm) id
      else s.advance core strand 8) := by
  show execBr core strand f s = _
  rw [execBr, scalar_of_issues h hdef]

/-- Settles O6, instruction by instruction. -/
theorem branchesAndJumps : Obligations.BranchesAndJumps := by
  unfold Obligations.BranchesAndJumps
  intro s core strand p i f h
  extract_lets t rel a b holds
  have hcond : cond f.fn.toNat a b = true ↔ holds := by
    simp only [holds]
    generalize f.fn.toNat = n
    rcases n with _ | _ | _ | _ | _ | n <;> simp [cond, BitVec.slt, BitVec.ult]
  refine ⟨fun hdef hno hpc => ?_, fun hdef => ?_, ?_⟩
  · rw [exec_br h hdef, if_neg (mt hcond.1 hno), advance_of_lt hpc]
    rfl
  · show execJmpr core strand f s = _
    rw [execJmpr, scalar_of_issues h hdef]
    by_cases hal : a.toNat % 8 = 0
    · have hofInt : BitVec.ofInt 32 (a.toNat : Int) = a.truncate 32 := by
        rw [BitVec.ofInt_natCast]
        exact BitVec.eq_of_toNat_eq (by simp)
      have hdetail : ((a.toNat : Int) % 2 ^ 64).toNat = a.toNat := by omega
      simp only [a, t] at hal hofInt hdetail
      simp only [jumpTo_eq, hofInt, hdetail, hal, bne_self_eq_false, Bool.false_eq_true, if_false, true_and, Int.natCast_nonneg, a, t, id]
      norm_cast
    · simp only [a, t] at hal
      simp [hal, a, t]
  · simp only [List.forall_mem_cons]
    refine ⟨fun hdef hyes => ?_, fun hdef _ => scalar_jumpTo h hdef 0x41 id, fun hdef _ => scalar_jumpTo h hdef 0x43 _, List.forall_mem_nil _⟩
    rw [exec_br h hdef, if_pos (hcond.2 hyes), jumpTo_eq]
    rfl

/-! ## Scratch accesses -/

theorem length_leBytes (n w : Nat) : (leBytes n w).length = n := by
  induction n generalizing w with
  | zero => rfl
  | succ n ih => simp [leBytes, ih]

/-- An aligned access within scratch that waits for nothing, and of which a load meets no uncorrectable error. -/
theorem scratchAccess_of_legal {t : Strand} {a : Word64} {w : Nat} {isLoad : Bool} (hal : a.toNat % w = 0)
    (hin : a.toNat + w ≤ (s.pav p).scratchBytes) (hfree : t.blockers ⟨0, a.toNat, w⟩ (!isLoad) = [])
    (hgood : isLoad = true → s.lsHurt core a.toNat w = false) (opc : Nat) (body : State) :
    scratchAccess core strand opc p t a w isLoad s body = body := by
  have hok : scratchFault (s.pav p) a.toNat w = none := by
    rw [scratchFault, if_neg (by simp [hal]), if_neg (by omega)]
  unfold scratchAccess
  simp only [hok, hfree]
  rw [if_neg (by simp), if_neg (by simpa using hgood)]

/-! ## Stores -/

/-- Bytes stored in a local store read back, and every other byte of every local store reads as before. -/
theorem readLs_writeLs (hwf : Mem.wf s.beds.ls = true) (core a : Nat) (bs : List Byte) : (s.writeLs core a bs).readLs core a bs.length = bs :=
  Mem.readN_writeN hwf _ _

theorem read_ls_writeLs {k a : Nat} {bs : List Byte} (h : k < lsKey core a ∨ lsKey core a + bs.length ≤ k) :
    Mem.read (s.writeLs core a bs).beds.ls k = Mem.read s.beds.ls k := by
  rcases h with h | h
  · exact Mem.read_writeN_before _ _ _ h
  · exact Mem.read_writeN_after _ _ _ h

theorem stored_advance (hpc : (s.strand core strand).pc.toNat + 8 < 2 ^ 32) (a : Nat) (bs : List Byte) :
    (s.writeLs core a bs).advance core strand 8 =
      (s.writeLs core a bs).setStrand core strand ((s.strand core strand).withPc ((s.strand core strand).pc + 8)) :=
  advance_of_lt (s := s.writeLs core a bs) hpc

/-- What stands after a store. -/
theorem does_of_stores {c : Instr} {a w n : Nat} {x : Strand}
    (hexec : exec c s = .next ((s.writeLs core a (leBytes w n)).setStrand core strand x)) (hwf : Mem.wf s.beds.ls = true) :
    Does c s fun s' => s'.readLs core a w = leBytes w n ∧
      (∀ k, (k < lsKey core a ∨ lsKey core a + w ≤ k) → Mem.read s'.beds.ls k = Mem.read s.beds.ls k) ∧
      ∃ marks, s' = { s.setStrand core strand x with beds := { s.beds with ls := s'.beds.ls, lsBad := marks } } := by
  refine ⟨_, hexec, ?_, fun k hk => ?_, _, rfl⟩
  · have hread := readLs_writeLs hwf core a (leBytes w n)
    rwa [length_leBytes] at hread
  · exact read_ls_writeLs (by rwa [length_leBytes])

/-- Settles O5: STS and STD are one store, of different widths. -/
theorem scratchStores : Obligations.ScratchStores := by
  unfold Obligations.ScratchStores
  intro s core strand p i f h
  extract_lets t a w
  intro hpc
  have hsts : shapeSts.undefined f = false → a % w = 0 → a + w ≤ (s.pav p).scratchBytes → t.blockers ⟨0, a, w⟩ true = [] →
      exec (.sts core strand f) s = .next ((s.writeLs core a (leBytes w (t.reg f.srcb).toNat)).setStrand core strand (t.withPc (t.pc + 8))) :=
    fun hdef hal hin hfree => by
      show execSts core strand f s = _
      rw [execSts, scalar_of_issues h hdef]
      exact congrArg Host.Outcome.next ((scratchAccess_of_legal (a := opAddr t f) hal hin hfree (by simp) _ _).trans (stored_advance hpc _ _))
  have hstd : shapeStd.undefined f = false → a % 32 = 0 → a + 32 ≤ (s.pav p).scratchBytes → t.blockers ⟨0, a, 32⟩ true = [] →
      exec (.std core strand f) s = .next ((s.writeLs core a (leBytes 32 (t.desc f.srcb).toNat)).setStrand core strand (t.withPc (t.pc + 8))) :=
    fun hdef hal hin hfree => by
      show execStd core strand f s = _
      rw [execStd, scalar_of_issues h hdef]
      exact congrArg Host.Outcome.next ((scratchAccess_of_legal (a := opAddr t f) hal hin hfree (by simp) _ _).trans (stored_advance hpc _ _))
  refine ⟨hsts, hstd, fun hwf => ?_⟩
  simp only [List.forall_mem_cons]
  exact ⟨fun hdef hal hin hfree => does_of_stores (hsts hdef hal hin hfree) hwf, fun hdef hal hin hfree => does_of_stores (hstd hdef hal hin hfree) hwf,
    List.forall_mem_nil _⟩

end Sys2Proof.Machine
end

section
/-! SUPPORT. Loads of scratch by scalar instructions (R89, R119, R121). -/

namespace Sys2Proof.Machine

variable {s : State} {core strand p i : Nat} {f : ScalarFields}

/-- A read that meets no error of the SRAM leaves the state alone. -/
theorem sramError_of_clean {err : SramErr} (h : sramOutcome err.symbols = .clean) (core a : Nat) : s.sramError core a err = s := by
  unfold State.sramError
  rw [h]

/-- A load's value goes to the predictor, its occurrence is counted, and the strand takes the value and goes on at PC + 8. -/
def State.loaded (s : State) (core strand : Nat) (v : Word64) (g : Strand → Strand) : State :=
  ((s.predict core strand v).modStrand core strand g).advance core strand 8

theorem exec_lds (h : Issues s core strand 8 p i) (hdef : shapeLds.undefined f = false) {err : SramErr} (hclean : sramOutcome err.symbols = .clean)
    {a : Word64} (ha : opAddr (s.strand core strand) f = a) {w : Nat} (hw : 2 ^ (f.fn.toNat % 4) = w)
    (hal : a.toNat % w = 0) (hin : a.toNat + w ≤ (s.pav p).scratchBytes) (hfree : (s.strand core strand).blockers ⟨0, a.toNat, w⟩ false = [])
    (hgood : s.lsHurt core a.toNat w = false) {v : Word64} (hv : (if f.fn.getLsbD 2 then BitVec.ofInt 64 (toSigned (8 * w) (leNat (s.readLs core a.toNat w)))
      else BitVec.ofNat 64 (leNat (s.readLs core a.toNat w))) = v) :
    exec (.lds core strand f err) s = .next (s.loaded core strand v fun t => t.setReg f.dst v) := by
  show execLds core strand f err s = _
  rw [execLds, scalar_of_issues h hdef]
  dsimp only
  rw [if_neg (by simp [hclean]), sramError_of_clean hclean, ite_self, ha, hw, hv, scratchAccess_of_legal hal hin hfree fun _ => hgood]
  rfl

theorem exec_ldd (h : Issues s core strand 8 p i) (hdef : shapeLdd.undefined f = false) {a : Word64} (ha : opAddr (s.strand core strand) f = a)
    (hal : a.toNat % 32 = 0) (hin : a.toNat + 32 ≤ (s.pav p).scratchBytes) (hfree : (s.strand core strand).blockers ⟨0, a.toNat, 32⟩ false = [])
    (hgood : s.lsHurt core a.toNat 32 = false) {d : Desc} (hd : BitVec.ofNat 256 (leNat (s.readLs core a.toNat 32)) = d) :
    exec (.ldd core strand f) s = .next (s.loaded core strand (descValue d) fun t => t.setDesc f.dst d) := by
  show execLdd core strand f s = _
  rw [execLdd, scalar_of_issues h hdef]
  dsimp only
  rw [ha, hd, scratchAccess_of_legal hal hin hfree fun _ => hgood]
  rfl

theorem setReg_occ (t : Strand) (d : BitVec 3) (v : Word64) (o : Tab Nat) : ({ t with occ := o } : Strand).setReg d v = { t.setReg d v with occ := o } := by
  unfold Strand.setReg
  split <;> rfl

theorem loaded_eq (hpc : (s.strand core strand).pc.toNat + 8 < 2 ^ 32) (v : Word64) {g : Strand → Strand} (hg : ∀ t, (g t).pc = t.pc) :
    s.loaded core strand v g = (s.predict core strand v).setStrand core strand
      ((g ((s.countOcc core strand).strand core strand)).withPc ((s.strand core strand).pc + 8)) := by
  have ht : ((s.predict core strand v).modStrand core strand g).strand core strand = g ((s.countOcc core strand).strand core strand) := by
    rw [strand_modStrand_self, strand_predict]
  have hpc' : (g ((s.countOcc core strand).strand core strand)).pc = (s.strand core strand).pc := by
    rw [hg, strand_countOcc]
  rw [State.loaded, advance_of_lt (by rwa [ht, hpc']), ht, hpc', State.modStrand, setStrand_setStrand]
  rfl

theorem core_predict_ne {c : Nat} (hc : c ≠ core) (v : Word64) : (s.predict core strand v).core c = s.core c :=
  State.core_setCore_ne s core _ c hc

/-- What stands after a load that gives its strand `x`. -/
theorem does_of_loads {c : Instr} {v : Word64} {g : Strand → Strand} (hexec : exec c s = .next (s.loaded core strand v g))
    (hpc : (s.strand core strand).pc.toNat + 8 < 2 ^ 32) (hg : ∀ t, (g t).pc = t.pc) {x : Strand}
    (hx : (g ((s.countOcc core strand).strand core strand)).withPc ((s.strand core strand).pc + 8) = x) :
    Does c s fun s' => s'.strand core strand = x ∧ s'.beds = s.beds ∧ s'.pavs = s.pavs ∧ s'.fns = s.fns ∧
      (∀ k, k ≠ core * 2048 + strand → Tab.find k s'.strands = Tab.find k s.strands) ∧ ∀ c, c ≠ core → s'.core c = s.core c := by
  rw [loaded_eq hpc v hg, hx] at hexec
  exact ⟨_, hexec, State.strand_setStrand_self _ _ _ _, rfl, rfl, rfl, fun k hk => (find_setStrand_ne hk _).trans (find_setStrand_ne hk _),
    fun _ hc => core_predict_ne hc v⟩

/-- Settles O4: LDS and LDD are one load, of different widths and destinations. -/
theorem scratchLoads : Obligations.ScratchLoads := by
  unfold Obligations.ScratchLoads
  intro s core strand p i f h t a hpc
  refine ⟨fun err hclean hdef hal hin hfree hgood => ?_, fun hdef hal hin hfree hgood => ?_⟩
  · refine does_of_loads (exec_lds h hdef hclean rfl rfl hal hin hfree hgood rfl) hpc (fun _ => setReg_pc _ _ _) ?_
    rw [strand_countOcc, setReg_occ]
    rfl
  · refine does_of_loads (exec_ldd h hdef rfl hal hin hfree hgood rfl) hpc (fun _ => rfl) ?_
    rw [strand_countOcc]
    rfl

end Sys2Proof.Machine
end

section
/-! SUPPORT. Undefined encodings and kernel faults (R107, R151, R153). -/

namespace Sys2Proof.Machine

variable {s : State} {core strand p i : Nat}

/-! ## Undefined encodings -/

/-- The opcodes of the scalar instructions (R120), and of the tile instructions (R126, R132, R139, R143). -/
def scalarOpcodes : List Nat := [0x01, 0x10, 0x11, 0x12, 0x13, 0x14, 0x15, 0x16, 0x17, 0x18, 0x19, 0x1A, 0x1B, 0x1C, 0x1D, 0x20, 0x21, 0x28, 0x29, 0x2A, 0x2B,
  0x30, 0x31, 0x32, 0x33, 0x34, 0x40, 0x41, 0x42, 0x43, 0x50, 0x51, 0x52, 0x53]
def tileOpcodes : List Nat := [0x80, 0x81, 0x82, 0x83, 0x84, 0x90, 0x91, 0x92, 0x93, 0x94, 0xA0, 0xA1, 0xA2, 0xA3, 0xB0, 0xB1, 0xB2]

theorem scalarShape_of_unlisted {op : Nat} (h : op ∉ scalarOpcodes) : scalarShape op = none := by
  unfold scalarShape
  split
  case h_35 => rfl
  all_goals exact absurd h (by decide)

/-- A word whose opcode neither table lists is an undefined encoding. -/
theorem undefinedWord_of_unlisted {w : Nat} (hs : scalarShape (w % 256) = none) (ht : tileOpcode (w % 256) = false) : undefinedWord w = true := by
  unfold undefinedWord
  simp [hs, ht]

/-- A tile instruction whose word is an undefined encoding takes the kernel fault ILLEGAL_INSTRUCTION. -/
theorem tile_undefined {f : TileFields} (h : Issues s core strand 16 p i) {op : Nat} (hdef : (tileShape op f).undefined f = true)
    (body : Nat → Nat → Flight → State → State) : tile core strand op f s body = .next (s.kernelFault core strand 0x01 op 0 0) := by
  rw [tile, issue_of_issues h, if_pos hdef]

theorem exec_undefinedEncoding {w0 w1 : Word64} (h : Issues s core strand (if (w0.toNat + 2 ^ 64 * w1.toNat) % 256 < 128 then 8 else 16) p i)
    (hdef : undefinedWord (w0.toNat + 2 ^ 64 * w1.toNat) = true) :
    exec (.undefinedEncoding core strand w0 w1) s = .next (s.kernelFault core strand 0x01 ((w0.toNat + 2 ^ 64 * w1.toNat) % 256) 0 0) := by
  show execUndefinedEncoding core strand w0 w1 s = _
  rw [execUndefinedEncoding, issue_of_issues h, if_pos hdef]

/-! ## The report of a kernel fault (R151) -/

theorem faultReport_eq {code opc strand core pc tile detail : Nat} (hcode : code < 256) (hopc : opc < 256) (hstrand : strand < 2048)
    (hcore : core < 2 ^ 32) (hpc : pc < 2 ^ 32) (htile : tile < 2 ^ 32) (hdetail : detail < 2 ^ 64) (time : Word64) :
    faultReport code opc strand core pc tile detail time =
      code + opc * 2 ^ 8 + strand * 2 ^ 16 + core * 2 ^ 32 + pc * 2 ^ 64 + tile * 2 ^ 96 + detail * 2 ^ 128 + time.toNat * 2 ^ 192 := by
  unfold faultReport
  iterate 7 rw [Nat.shiftLeft_eq]
  rw [Nat.mod_eq_of_lt hcode, Nat.mod_eq_of_lt hopc, Nat.mod_eq_of_lt hstrand, Nat.mod_eq_of_lt hcore, Nat.mod_eq_of_lt hpc,
    Nat.mod_eq_of_lt htile, Nat.mod_eq_of_lt hdetail]

/-- Each field of a report reads back. -/
theorem faultReport_fields {code opc strand core pc tile detail : Nat} (hcode : code < 256) (hopc : opc < 256) (hstrand : strand < 2048)
    (hcore : core < 2 ^ 32) (hpc : pc < 2 ^ 32) (htile : tile < 2 ^ 32) (hdetail : detail < 2 ^ 64) (time : Word64) :
    let rep := faultReport code opc strand core pc tile detail time
    rep % 256 = code ∧ rep / 2 ^ 8 % 256 = opc ∧ rep / 2 ^ 16 % 2048 = strand ∧ rep / 2 ^ 27 % 32 = 0 ∧ rep / 2 ^ 32 % 2 ^ 32 = core ∧
      rep / 2 ^ 64 % 2 ^ 32 = pc ∧ rep / 2 ^ 96 % 2 ^ 32 = tile ∧ rep / 2 ^ 128 % 2 ^ 64 = detail ∧ rep / 2 ^ 192 = time.toNat := by
  intro rep
  have hrep : rep = _ := faultReport_eq hcode hopc hstrand hcore hpc htile hdetail time
  generalize rep = r at hrep
  omega

/-! ## A kernel fault (R153) -/

/-- The pavilion has raised a kernel fault since its last reset began. -/
def Pav.killedByFault (v : Pav) : Bool := (v.resetting.map fun r => r.causes.contains 1).getD false

theorem killedByFault_iff (v : Pav) : v.killedByFault = true ↔ (v.resetting.map fun r => r.causes.contains 1) = some true := by
  unfold Pav.killedByFault
  cases v.resetting.map fun r => r.causes.contains 1 <;> simp

/-- The strand stops for good. -/
def State.stopped (s : State) (core strand : Nat) : State := s.modStrand core strand fun x => { x with mode := .waiting, wait := .killed }

/-- The report that the fault of the instruction at the strand's PC makes. -/
def State.reportOf (s : State) (p i core strand code opc tile detail : Nat) : Nat :=
  faultReport code opc strand (s.logicalOf p i) (s.strand core strand).pc.toNat tile detail s.now

theorem kernelFault_of_killed (ho : (s.core core).owner = some (p, i)) (hf : (s.pav p).killedByFault = true) (code opc tile detail : Nat) :
    s.kernelFault core strand code opc tile detail = s.stopped core strand := by
  unfold State.kernelFault State.kernelFaultAt
  simp only [ho]
  exact if_pos hf

theorem kernelFault_of_first (ho : (s.core core).owner = some (p, i)) (hf : (s.pav p).killedByFault = false) (code opc tile detail : Nat) :
    s.kernelFault core strand code opc tile detail =
      (((s.stopped core strand).raisePav p 0x0001 (s.reportOf p i core strand code opc tile detail)).modPav p fun v =>
        { v with faults := [], waiters := [] }).startReset p 0x01 (coreLoc core) [] := by
  unfold State.kernelFault State.kernelFaultAt
  simp only [ho]
  exact if_neg (Bool.eq_false_iff.1 hf)

/-- A pavilion that starts to reset for a cause has it among its causes. -/
theorem causes_startReset_self (s : State) (p cause loc : Nat) (slots : List Nat) :
    (((s.startReset p cause loc slots).pav p).resetting.map fun r => r.causes.contains cause) = some true := by
  rw [State.startReset, State.modPav, State.pav_setPav_self]
  split <;> simp

theorem faults_startReset (s : State) (p cause loc : Nat) (slots : List Nat) :
    ((s.startReset p cause loc slots).pav p).faults = (s.pav p).faults ∧ ((s.startReset p cause loc slots).pav p).waiters = (s.pav p).waiters := by
  rw [State.startReset, State.modPav, State.pav_setPav_self]
  split <;> exact ⟨rfl, rfl⟩

/-- A kernel fault stops its strand. -/
theorem strand_kernelFault (ho : (s.core core).owner = some (p, i)) (code opc tile detail : Nat) :
    (s.kernelFault core strand code opc tile detail).strand core strand = { s.strand core strand with mode := .waiting, wait := .killed } := by
  cases hf : (s.pav p).killedByFault with
  | true =>
    rw [kernelFault_of_killed ho hf]
    exact strand_modStrand_self _ _ _ _
  | false =>
    rw [kernelFault_of_first ho hf]
    exact (Told.refl.raisePav.strand core strand).trans (strand_modStrand_self _ _ _ _)

/-- Settles O58. That the bits of IMM which TBAR and TWAIT do not use must be zero is the model's choice (notes/assumptions/90.md). -/
theorem kernelFaultsKillAndAreReportedOnce : Obligations.KernelFaultsKillAndAreReportedOnce := by
  unfold Obligations.KernelFaultsKillAndAreReportedOnce
  refine ⟨fun s core strand p i w0 w1 => ?_, fun s core strand p i f err h => ?_, fun s core strand p i f h => ?_,
    fun s core strand code opc tile detail p i ho hcode hopc hstrand htile hdetail hlog => ?_⟩
  · refine ⟨fun op hop hlist => ?_, fun h hdef => exec_undefinedEncoding h hdef⟩
    have hs : scalarShape op = none := scalarShape_of_unlisted fun hm => hlist (List.mem_append_left tileOpcodes hm)
    have ht : tileOpcode op = false := Bool.eq_false_iff.2 fun hm => hlist (List.mem_append_right scalarOpcodes (List.contains_iff_mem.1 hm))
    exact undefinedWord_of_unlisted (hop ▸ hs) (hop ▸ ht)
  · simp only [List.forall_mem_append, List.forall_mem_cons, List.not_mem_nil, IsEmpty.forall_iff, implies_true, and_true]
    and_intros
    all_goals
      intro hk
      simp only [exec, execNop, execAdd, execSub, execMul, execAnd, execOr, execXor, execShl, execShr, execSar, execMin, execMax, execCmp, execMovi, execMovhi,
        execLds, execSts, execSetd, execGetd, execLdd, execStd, execRdas, execClas, execSetsrc, execRdsrc, execRdtime, execBr, execJmp, execJmpr, execCall,
        execSpawn, execYield, execExit, execFence, alu, setDst]
      exact scalar_undefined h hk _ _
  · simp only [List.forall_mem_cons, List.not_mem_nil, IsEmpty.forall_iff, implies_true, and_true]
    and_intros
    all_goals
      intro hk
      simp only [exec, execTld, execTst, execTcp, execTgather, execTscatter, execTmm, execTvop, execTred, execTcvt, execTdec, execTsend, execTrecv, execTput,
        execTget, execTbar, execTwait, execTcommit]
      exact tile_undefined h hk _
  · intro t
    refine ⟨?_, ?_, ?_, fun hf => kernelFault_of_killed ho ((killedByFault_iff _).2 hf) _ _ _ _, fun hf => ?_⟩
    · rw [strand_kernelFault ho]
    · rw [strand_kernelFault ho]
    · cases hf : (s.pav p).killedByFault with
      | true =>
        rw [show t = _ from kernelFault_of_killed ho hf _ _ _ _]
        exact (killedByFault_iff _).1 hf
      | false =>
        rw [show t = _ from kernelFault_of_first ho hf _ _ _ _]
        exact causes_startReset_self _ _ _ _ _
    · have hfirst := kernelFault_of_first (strand := strand) ho (Bool.eq_false_iff.2 (mt (killedByFault_iff _).1 hf)) code opc tile detail
      refine ⟨?_, ?_, ?_, _, hfirst, faultReport_fields hcode hopc hstrand hlog (s.strand core strand).pc.isLt htile hdetail s.now⟩
      · rw [show t = _ from hfirst, (faults_startReset _ _ _ _ _).1, State.modPav, State.pav_setPav_self]
      · rw [show t = _ from hfirst, (faults_startReset _ _ _ _ _).2, State.modPav, State.pav_setPav_self]
      · rw [show t = _ from hfirst, beds_startReset]
        exact Told.refl.raisePav.beds

end Sys2Proof.Machine
end

section
/-! SUPPORT. TMM of a cleared or continued slot (R42, R43, R133). -/

namespace Sys2Proof.Machine

variable {f : TileFields} {dd ds1 ds2 : Desc} {rd1 rd2 : Rd} {held : Option Slot} {es : List Acc}

/-! ## Lists and rows -/

theorem nthD_of_lt {α : Type} {l : List α} {k : Nat} (h : k < l.length) (d : α) : nthD l k d = l[k] := by
  rw [nthD, List.getElem?_eq_getElem h]
  rfl

theorem nthD_tileValues {d : Desc} {k : Nat} (h : k < d.extent1) (rd : Rd) : nthD (tileValues d rd) k [] = rowValues d rd k := by
  rw [nthD_of_lt (by simpa [tileValues] using h)]
  simp [tileValues]

theorem length_rowValues_le (d : Desc) (rd : Rd) (k : Nat) : (rowValues d rd k).length ≤ d.extent0 := by
  unfold rowValues
  split <;> simp

/-- The products of element `k` of the slot, in the order of k of R133. -/
def tmmProducts (ds1 ds2 : Desc) (rd1 rd2 : Rd) (k : Nat) : List (Num × Bool) :=
  List.zipWith Num.mul (rowValues ds2 rd2 (k / ds1.extent1)) (rowValues ds1 rd1 (k % ds1.extent1))

theorem length_tmmProducts_le (ds1 ds2 : Desc) (rd1 rd2 : Rd) (k : Nat) : (tmmProducts ds1 ds2 rd1 rd2 k).length ≤ ds1.extent0 := by
  rw [tmmProducts, List.length_zipWith]
  exact (Nat.min_le_right _ _).trans (length_rowValues_le _ _ _)

/-- Products of every element, as TMM forms them from the rows of its operands. -/
theorem map_tmmProducts (ds1 ds2 : Desc) (rd1 rd2 : Rd) :
    ((List.range (ds2.extent1 * ds1.extent1)).map fun k =>
      List.zipWith Num.mul (nthD (tileValues ds2 rd2) (k / ds1.extent1) []) (nthD (tileValues ds1 rd1) (k % ds1.extent1) [])) =
    (List.range (ds2.extent1 * ds1.extent1)).map (tmmProducts ds1 ds2 rd1 rd2) := by
  refine List.map_congr_left fun k hk => ?_
  have hk := List.mem_range.1 hk
  have hn : 0 < ds1.extent1 := Nat.pos_of_ne_zero fun h0 => by simp [h0] at hk
  rw [nthD_tileValues ((Nat.div_lt_iff_lt_mul hn).2 hk), nthD_tileValues (Nat.mod_lt _ hn), tmmProducts]

/-! ## The slot -/

/-- The element that takes the destination's AUTO, and then its products. -/
def tmmElement (dd ds1 ds2 : Desc) (rd1 rd2 : Rd) (a : Acc) (k : Nat) : Option Acc :=
  ({ a with auto := a.auto || dd.auto } : Acc).addAll ((tmmProducts ds1 ds2 rd1 rd2 k).map Prod.fst)

/-- An element whose count has room takes its products (R45). -/
theorem tmmElement_isSome {a : Acc} (h : a.count.toNat + ds1.extent0 < 2 ^ 32) (k : Nat) : (tmmElement dd ds1 ds2 rd1 rd2 a k).isSome = true := by
  have hlen := length_tmmProducts_le ds1 ds2 rd1 rd2 k
  rw [tmmElement, Acc.addAll, if_neg (by simp only [List.length_map]; omega)]
  rfl

/-- The slot's elements once TMM has added its products. -/
def tmmElements (dd ds1 ds2 : Desc) (rd1 rd2 : Rd) (es : List Acc) : List Acc :=
  (List.zipWith (tmmElement dd ds1 ds2 rd1 rd2) es (List.range (ds2.extent1 * ds1.extent1))).map fun x => x.getD {}

theorem length_tmmElements (hes : es.length = ds2.extent1 * ds1.extent1) :
    (tmmElements dd ds1 ds2 rd1 rd2 es).length = ds2.extent1 * ds1.extent1 := by
  simp [tmmElements, hes]

theorem some_nthD_tmmElements (hes : es.length = ds2.extent1 * ds1.extent1) (hroom : ∀ a ∈ es, a.count.toNat + ds1.extent0 < 2 ^ 32)
    {k : Nat} (hk : k < ds2.extent1 * ds1.extent1) :
    some (nthD (tmmElements dd ds1 ds2 rd1 rd2 es) k {}) = tmmElement dd ds1 ds2 rd1 rd2 (nthD es k {}) k := by
  rw [nthD_of_lt (hk.trans_eq (length_tmmElements hes).symm), nthD_of_lt (hk.trans_eq hes.symm)]
  have hsome := tmmElement_isSome (dd := dd) (ds2 := ds2) (rd1 := rd1) (rd2 := rd2) (hroom _ (List.getElem_mem (hk.trans_eq hes.symm))) k
  simp only [tmmElements, List.getElem_map, List.getElem_zipWith, List.getElem_range]
  obtain ⟨b, hb⟩ := Option.isSome_iff_exists.1 hsome
  rw [hb]
  rfl

/-- The elements TMM starts from: cleared ones, or those of a slot of its shape whose anchors agree with the destination's (R42, R133). -/
structure TmmStarts (f : TileFields) (dd ds1 ds2 : Desc) (held : Option Slot) (es : List Acc) : Prop where
  length : es.length = ds2.extent1 * ds1.extent1
  start : f.opt0 = true ∧ es = List.replicate (ds2.extent1 * ds1.extent1) (Acc.fresh dd.auto dd.anchor) ∨
    f.opt0 = false ∧ ∃ k, held = some k ∧ k.n = ds1.extent1 ∧ k.m = ds2.extent1 ∧ k.elems = es
  anchors : f.opt0 = false → ∀ a ∈ es, dd.auto = true ∨ a.auto = true ∨ a.anchor = dd.anchor

theorem computeTmm_eq (h : TmmStarts f dd ds1 ds2 held es) (hroom : ∀ a ∈ es, a.count.toNat + ds1.extent0 < 2 ^ 32) :
    ∃ fl, computeTmm f dd ds1 ds2 rd1 rd2 held =
      .done [] (some (some ⟨ds1.extent1, ds2.extent1, tmmElements dd ds1 ds2 rd1 rd2 es, false⟩)) fl 0 := by
  have hanchor : (!f.opt0 && es.any fun a => !a.auto && !dd.auto && a.anchor != dd.anchor) = false := by
    cases hf : f.opt0
    · rw [Bool.not_false, Bool.true_and, List.any_eq_false]
      intro a ha
      rcases h.anchors hf a ha with h | h | h <;> simp [h]
    · rfl
  have hzip : List.zipWith (fun (x : Acc) (ps : List (Num × Bool)) => x.addAll (ps.map Prod.fst)) (es.map fun x => { x with auto := x.auto || dd.auto })
      ((List.range (ds2.extent1 * ds1.extent1)).map (tmmProducts ds1 ds2 rd1 rd2)) =
      List.zipWith (tmmElement dd ds1 ds2 rd1 rd2) es (List.range (ds2.extent1 * ds1.extent1)) := by
    rw [List.zipWith_map]
    rfl
  have hnone : (List.zipWith (tmmElement dd ds1 ds2 rd1 rd2) es (List.range (ds2.extent1 * ds1.extent1))).any Option.isNone = false := by
    rw [List.any_eq_false]
    intro x hx
    obtain ⟨k, hk, rfl⟩ := List.getElem_of_mem hx
    rw [List.getElem_zipWith]
    simpa [Option.isSome_iff_ne_none] using tmmElement_isSome (hroom _ (List.getElem_mem _)) _
  unfold computeTmm
  dsimp only
  rcases h.start with ⟨hf, hes⟩ | ⟨hf, k, rfl, hn, hm, hes⟩
  · rw [if_pos hf]
    dsimp only
    rw [← hes, hanchor, map_tmmProducts, hzip, hnone]
    exact ⟨_, rfl⟩
  · rw [if_neg (Bool.eq_false_iff.1 hf)]
    dsimp only
    rw [if_pos (by simp [hn, hm]), hes]
    dsimp only
    rw [hanchor, map_tmmProducts, hzip, hnone]
    exact ⟨_, rfl⟩

/-- Settles O11. That elements with AUTO take the products in the order of k is the model's choice (notes/assumptions/70.md). -/
theorem tmmAccumulates : Obligations.TmmAccumulates := by
  unfold Obligations.TmmAccumulates
  intro f dd ds1 ds2 rd1 rd2 held es n m hstart hroom
  have h : TmmStarts f dd ds1 ds2 held es := by
    rcases hstart with ⟨hf, hes⟩ | ⟨hf, hheld, hlen, hanchors⟩
    · exact ⟨hes ▸ List.length_replicate, .inl ⟨hf, hes⟩, fun h => absurd (h.symm.trans hf) (by decide)⟩
    · exact ⟨hlen, .inr ⟨hf, hheld⟩, fun _ => hanchors⟩
  obtain ⟨fl, hdone⟩ := computeTmm_eq (rd1 := rd1) (rd2 := rd2) h hroom
  refine ⟨_, fl, hdone, length_tmmElements h.length, fun i j hi hj => ?_⟩
  have hk : i * n + j < m * n := by nlinarith
  have hdiv : (i * n + j) / n = i := by rw [Nat.mul_comm, Nat.mul_add_div (by omega), Nat.div_eq_of_lt hj, Nat.add_zero]
  have hmod : (i * n + j) % n = j := by rw [Nat.mul_comm, Nat.mul_add_mod, Nat.mod_eq_of_lt hj]
  rw [some_nthD_tmmElements h.length hroom hk, tmmElement, tmmProducts, hdiv, hmod]

end Sys2Proof.Machine
end

section
/-! SUPPORT. Arrivals at barriers and step commits, and TWAIT (R98, R143 to R146). -/

namespace Sys2Proof.Machine

variable {s : State} {core strand op p i : Nat} {f : TileFields}

/-! ## What an issue leaves alone -/

theorem adoptShape_none (s : State) (core e k : Nat) : s.adoptShape core e k none = s := by
  unfold State.adoptShape
  split
  · contradiction
  · rfl

/-- An instruction that names no slot's shape issues in the state as it stands. -/
theorem atIssue_of_no_shape {x : Flight} (h : x.slotShape = none) : s.atIssue core x = s := by
  rw [State.atIssue, h, adoptShape_none]

theorem strand_atIssue (s : State) (core : Nat) (x : Flight) (c t : Nat) : (s.atIssue core x).strand c t = s.strand c t := adoptShape_strand ..

/-- Dropping shadow buffers changes no owner of a core. -/
theorem ownerOf_dropShadows (s : State) (core strand c : Nat) : (s.dropShadows core strand).ownerOf c = s.ownerOf c := by
  by_cases hc : c = core
  · subst hc
    rw [State.ownerOf, State.dropShadows, State.modCore, State.core_setCore_self]
    rfl
  · rw [State.ownerOf, core_dropShadows_ne hc]
    rfl

theorem commitSteps_dropShadows (s : State) (core strand p : Nat) : (s.dropShadows core strand).commitSteps p = s.commitSteps p := by
  unfold State.commitSteps
  simp only [ownerOf_dropShadows]
  rfl

/-! ## Barriers -/

/-- An arrival with the expected count of a use that is not full, or the first of a use, joins it. -/
theorem arrive_of_open {old : Option Barrier} {n : Nat} (hpos : 0 < n)
    (hopen : ∀ o, old = some o → o.tick = none ∧ o.arrived.length < o.expected ∧ o.expected = n) (who : Nat × Nat) :
    (Barrier.arrive old who n).1 = some { (old.getD { expected := n }) with arrived := (old.elim [] Barrier.arrived) ++ [who] } := by
  unfold Barrier.arrive
  rw [if_neg (by simpa using hpos.ne')]
  cases old with
  | none => rfl
  | some o =>
    obtain ⟨htick, hroom, hexp⟩ := hopen o rfl
    have hfull : o.full = false := by simpa [Barrier.full, htick] using hroom
    simp [hfull, hexp]

theorem exec_tbar (h : TileIssues s core strand 0xB0 p i f) {bar : Barrier}
    (hbar : (Barrier.arrive (Tab.find (f.imm.toNat % 16) (s.pav p).barriers) (core, strand) ((s.strand core strand).reg f.xs).toNat).1 = some bar) :
    exec (.tbar core strand f) s = .next (((s.dropShadows core strand).modPav p fun v =>
      { v with barriers := Tab.put (f.imm.toNat % 16) bar v.barriers }).waitFor core strand (.barrier (f.imm.toNat % 16))) := by
  show execTbar core strand f s = _
  rw [execTbar, tile_of_issues h, atIssue_of_no_shape rfl]
  dsimp only
  have hbar' : (Barrier.arrive (Tab.find (f.imm.toNat % 16) ((s.dropShadows core strand).pav p).barriers) (core, strand)
      (s.newFlight core strand 0xB0 f).xs.toNat).1 = some bar := hbar
  rw [hbar']

/-! ## TWAIT and TCOMMIT -/

theorem exec_twait (h : TileIssues s core strand 0xB1 p i f) : exec (.twait core strand f) s = .next (
    let a := s.dropShadows core strand
    if f.fn == 0 then
      if (s.strand core strand).flights.any fun y => (f.imm.truncate 16 : BitVec 16).getLsbD y.f.tag.toNat then a.waitFor core strand (.tags (f.imm.truncate 16))
      else a.setStrand core strand ((s.strand core strand).withPc ((s.strand core strand).pc + 16))
    else if s.lsHurt core f.imm.toNat 8 then (a.killLs p core ((s.badWord core f.imm.toNat 8).getD 0)).waitFor core strand .killed
    else if Machine.cond (f.opt.toNat % 8) (BitVec.ofNat 64 (leNat (s.readLs core f.imm.toNat 8))) ((s.strand core strand).reg f.xs) then
      a.setStrand core strand ((s.strand core strand).withPc ((s.strand core strand).pc + 16))
    else a.waitFor core strand (.word (f.opt.toNat % 8) f.imm.toNat ((s.strand core strand).reg f.xs))) := by
  show execTwait core strand f s = _
  have hgo : (s.dropShadows core strand).advance core strand 16 =
      (s.dropShadows core strand).setStrand core strand ((s.strand core strand).withPc ((s.strand core strand).pc + 16)) :=
    advance_of_lt (s := s.dropShadows core strand) h.next
  rw [execTwait, tile_of_issues h, atIssue_of_no_shape rfl]
  dsimp only
  rw [hgo]
  rfl

theorem exec_tcommit (h : TileIssues s core strand 0xB2 p i f) (hsame : ∀ k ∈ s.commitSteps p, k = (s.strand core strand).reg f.xs)
    (hnext : (s.pav p).committed.toNat < ((s.strand core strand).reg f.xs).toNat) :
    exec (.tcommit core strand f) s = .next ((s.dropShadows core strand).waitFor core strand (.commit ((s.strand core strand).reg f.xs))) := by
  show execTcommit core strand f s = _
  have hnone : ((s.dropShadows core strand).commitSteps p).find? (fun n => n != (s.newFlight core strand 0xB2 f).xs) = none := by
    rw [commitSteps_dropShadows, List.find?_eq_none]
    intro k hk
    rw [hsame k hk]
    exact (bne_self_eq_false _).trans_ne Bool.false_ne_true
  rw [execTcommit, tile_of_issues h, atIssue_of_no_shape rfl]
  dsimp only
  rw [hnone]
  exact congrArg Host.Outcome.next (if_neg (Nat.not_le.2 hnext))

/-- Settles O15, instruction by instruction. -/
theorem synchronisationWaits : Obligations.SynchronisationWaits := by
  unfold Obligations.SynchronisationWaits
  refine ⟨fun s core strand p i f h => ?_, fun s core strand p i f h => ?_, fun s core strand p i f h hsame hnext => exec_tcommit h hsame hnext⟩
  · intro x b old hpos hopen
    refine ⟨_, exec_tbar h (arrive_of_open hpos hopen _), ?_, ?_, ?_, ?_, rfl⟩
    · rw [State.waitFor, strand_modStrand_self]
    · rw [State.waitFor, strand_modStrand_self]
    · rw [State.waitFor, strand_modStrand_self]
      rfl
    · rw [State.waitFor, State.modStrand, State.pav_setStrand, State.modPav, State.pav_setPav_self]
      exact Tab.find_put_self _ _ _
  · intro t word
    refine ⟨fun hfn => (exec_twait h).trans (congrArg Host.Outcome.next (if_pos (by simp [hfn]))), fun hfn hgood => ?_⟩
    refine (exec_twait h).trans (congrArg Host.Outcome.next ((if_neg (by simp [hfn])).trans (if_neg (by simp [hgood]))))

end Sys2Proof.Machine
end

section
/-! SUPPORT. Posting of TSEND and TRECV, and the match of their halves (R77, R140, R141). -/

namespace Sys2Proof.Machine

variable {s : State} {core strand op p i : Nat} {f : TileFields}

/-! ## Posting -/

theorem exec_tsend (h : TileIssues s core strand 0xA0 p i f) : exec (.tsend core strand f) s = .next (
    let x := s.newFlight core strand 0xA0 f
    let a := (s.atIssue core x).dropShadows core strand
    let key : MsgKey := ⟨(s.atIssue core x).logicalOf p i, x.xs.toNat, f.fn.toNat, f.imm.toNat⟩
    if (a.pav p).sends.any fun q => q.key == key then a.kernelFault core strand 0x0F 0xA0 0 0
    else
      let b := (a.launched core strand { x with prog := .posted }).modPav p fun v => { v with sends := v.sends ++ [⟨key, core, strand, x.num⟩] }
      if (a.pav p).far x.xs.toNat then b.sendFar p core strand x key else b) := by
  show execTsend core strand f s = _
  rw [execTsend, tile_of_issues h]
  rfl

/-- A strand that has launched an instruction is still READY. -/
theorem mode_launched {x : Flight} (hready : (s.strand core strand).mode = .ready) (hpc : (s.strand core strand).pc.toNat + 16 < 2 ^ 32) :
    ((s.launched core strand x).strand core strand).mode = .ready := by
  rw [launched_strand x hpc]
  exact hready

theorem exec_trecv (h : TileIssues s core strand 0xA1 p i f) : exec (.trecv core strand f) s = .next (
    let x := s.newFlight core strand 0xA1 f
    let a := (s.atIssue core x).dropShadows core strand
    let key : MsgKey := ⟨x.xs.toNat, (s.atIssue core x).logicalOf p i, f.fn.toNat, f.imm.toNat⟩
    if (a.pav p).recvs.any fun q => q.key == key then a.kernelFault core strand 0x0F 0xA1 0 0
    else ((a.launched core strand { x with prog := .posted }).modPav p fun v => { v with recvs := v.recvs ++ [⟨key, core, strand, x.num⟩] }).waitFor
      core strand (.recv x.num)) := by
  show execTrecv core strand f s = _
  have hstrand (x : Flight) : ((s.atIssue core x).dropShadows core strand).strand core strand = s.strand core strand := by
    rw [dropShadows_strand, strand_atIssue]
  have hmode := fun x y : Flight => mode_launched (s := (s.atIssue core x).dropShadows core strand) (x := y)
    (by rw [hstrand]; exact h.issues.ready) (by rw [hstrand]; exact h.next)
  rw [execTrecv, tile_of_issues h]
  refine congrArg Host.Outcome.next (congrArg (ite _ _) (if_pos ?_))
  exact beq_iff_eq.2 (hmode _ _)

/-! ## The match -/

/-- An instruction that has completed is no longer in flight, nor does another's completion bring it back. -/
theorem flight_eq_none_iff (t : Strand) (num : Nat) : t.flight num = none ↔ ∀ x ∈ t.flights, x.num ≠ num := by
  simp [Strand.flight]

theorem flights_finishFlight_self (s : State) (core strand num : Nat) :
    ((s.finishFlight core strand num).strand core strand).flights = (s.strand core strand).flights.filter fun x => x.num != num := by
  rw [State.finishFlight, strand_modStrand_self]

theorem flights_finishFlight_subset (s : State) (core strand num c t : Nat) :
    ((s.finishFlight core strand num).strand c t).flights ⊆ (s.strand c t).flights := by
  by_cases hk : c * 2048 + t = core * 2048 + strand
  · have hs (u : State) : u.strand c t = u.strand core strand := by simp only [State.strand, hk]
    rw [hs, hs, flights_finishFlight_self]
    exact List.filter_subset_self _
  · rw [State.finishFlight, State.modStrand, State.strand_setStrand_ne _ _ _ _ _ _ hk]
    exact fun _ hx => hx

theorem flight_finishFlight_self (s : State) (core strand num : Nat) : ((s.finishFlight core strand num).strand core strand).flight num = none := by
  rw [flight_eq_none_iff, flights_finishFlight_self]
  intro x hx
  simpa using (List.mem_filter.1 hx).2

theorem flight_finishFlight_of_none {num c t : Nat} (h : (s.strand c t).flight num = none) (core strand n : Nat) :
    ((s.finishFlight core strand n).strand c t).flight num = none := by
  rw [flight_eq_none_iff] at h ⊢
  exact fun x hx => h x (flights_finishFlight_subset s core strand n c t hx)

/-- Rows delivered one after the other, by number. -/
theorem deliver_rows {d : Fmt × Nat × Nat × List (List Byte)} {r : Post} {y : Flight} (hop : y.f.opt0 = false) (hfmt : y.dd.fmt = some d.1)
    (h0 : y.dd.extent0 = d.2.1) (h1 : y.dd.extent1 = d.2.2.1) : s.deliver p r y d =
      ((List.range d.2.2.2.length).foldl (fun s i => s.writeRow p r.core [] y.dd i (nthD d.2.2.2 i [])) s, true) := by
  unfold State.deliver
  dsimp only
  rw [if_neg (by simp [hop]), if_neg (by simp [hfmt, h0, h1])]

/-- Writing rows by their number in a list, or from the list of them. -/
theorem foldl_range_nthD {α β : Type} (g : α → Nat → β → α) (n : Nat) (h : Nat → β) (d : β) (s : α) :
    (List.range ((List.range n).map h).length).foldl (fun s i => g s i (nthD ((List.range n).map h) i d)) s =
      ((List.range n).map fun j => (j, h j)).foldl (fun u z => g u z.1 z.2) s := by
  rw [List.foldl_map, List.length_map, List.length_range]
  refine List.foldl_ext _ _ _ fun u j hj => ?_
  rw [nthD_of_lt (by simpa using hj), List.getElem_map, List.getElem_range]

/-! ### Bytes counted -/

theorem beds_count (s : State) (p cls n : Nat) : (s.count p cls n).beds = s.beds := by
  unfold State.count
  split <;> rfl

theorem strand_count (s : State) (p cls n c t : Nat) : (s.count p cls n).strand c t = s.strand c t := by
  unfold State.count
  split <;> rfl

theorem posts_count (s : State) (p cls n : Nat) :
    ((s.count p cls n).pav p).sends = (s.pav p).sends ∧ ((s.count p cls n).pav p).recvs = (s.pav p).recvs := by
  unfold State.count
  split
  · exact ⟨rfl, rfl⟩
  · rw [State.addCount, State.modPav, State.pav_setPav_self]
    exact ⟨rfl, rfl⟩

/-! ### MESSAGE_MATCH -/

/-- Both halves of a key leave their pavilion. -/
def Pav.unpost (key : MsgKey) (v : Pav) : Pav :=
  { v with recvs := v.recvs.filter fun q => q.key != key, sends := v.sends.filter fun q => q.key != key, inbox := v.inbox.filter fun q => q.key != key }

theorem key_ne_of_unpost {key : MsgKey} {v : Pav} {z : Post} (hz : z ∈ (v.unpost key).sends ++ (v.unpost key).recvs) : z.key ≠ key := by
  rcases List.mem_append.1 hz with hz | hz <;> simpa using (List.mem_filter.1 hz).2

/-- The state once a match has delivered its rows: both halves unposted, the bytes counted, both instructions complete. -/
def State.matched (s : State) (p n : Nat) (q r : Post) : State :=
  (((s.modPav p (Pav.unpost q.key)).count p 3 n).finishFlight q.core q.strand q.num).finishFlight r.core r.strand r.num

theorem beds_matched (s : State) (p n : Nat) (q r : Post) : (s.matched p n q r).beds = s.beds :=
  beds_count (s.modPav p (Pav.unpost q.key)) p 3 n

theorem posts_matched {n : Nat} {q r : Post} {z : Post} (hz : z ∈ ((s.matched p n q r).pav p).sends ++ ((s.matched p n q r).pav p).recvs) :
    z.key ≠ q.key := by
  obtain ⟨hsends, hrecvs⟩ := posts_count (s.modPav p (Pav.unpost q.key)) p 3 n
  have hpav : (s.matched p n q r).pav p = ((s.modPav p (Pav.unpost q.key)).count p 3 n).pav p := rfl
  rw [hpav, hsends, hrecvs, State.modPav, State.pav_setPav_self] at hz
  exact key_ne_of_unpost hz

theorem flights_matched (s : State) (p n : Nat) (q r : Post) : ((s.matched p n q r).strand q.core q.strand).flight q.num = none ∧
    ((s.matched p n q r).strand r.core r.strand).flight r.num = none :=
  ⟨flight_finishFlight_of_none (flight_finishFlight_self _ _ _ _) _ _ _, flight_finishFlight_self _ _ _ _⟩

/-- The rows of a posted TSEND's source, and the state once a match has written them to the TRECV's destination. -/
def State.sentRows (s : State) (p core : Nat) (x : Flight) : List (List Byte) := (List.range x.ds1.rows).map (s.rowData p core [] {} x.ds1)

def State.delivered (s : State) (p : Nat) (q r : Post) (x y : Flight) : State :=
  ((List.range x.ds1.rows).map fun j => (j, s.rowData p q.core [] {} x.ds1 j)).foldl (fun u z => u.writeRow p r.core [] y.dd z.1 z.2) s

theorem deliver_sentRows {q r : Post} {x y : Flight} {fmt : Fmt} (hyo : y.f.opt0 = false) (hyf : y.dd.fmt = some fmt)
    (h0 : y.dd.extent0 = x.ds1.extent0) (h1 : y.dd.extent1 = x.ds1.extent1) :
    s.deliver p r y (fmt, x.ds1.extent0, x.ds1.extent1, s.sentRows p q.core x) = (s.delivered p q r x y, true) :=
  (deliver_rows hyo hyf h0 h1).trans (congrArg (Prod.mk · true) (foldl_range_nthD (fun (u : State) j bs => u.writeRow p r.core [] y.dd j bs) _ _ _ _))

/-- A match between scratch operands of one format and shape. -/
theorem exec_messageMatch {q r : Post} {x y : Flight} {fmt : Fmt} (hp : p < 512)
    (hsend : (s.pav p).sends.find? (fun z => z.key == q.key) = some q) (hrecv : (s.pav p).recvs.find? (fun z => z.key == q.key) = some r)
    (hx : (s.strand q.core q.strand).flight q.num = some x) (hy : (s.strand r.core r.strand).flight r.num = some y)
    (hxo : x.f.opt0 = false) (hyo : y.f.opt0 = false) (hgood : s.badLs p q.core x.sources = none) (hslot : s.badSlot q.core x = false)
    (hxf : x.ds1.fmt = some fmt) (hyf : y.dd.fmt = some fmt) (h0 : y.dd.extent0 = x.ds1.extent0) (h1 : y.dd.extent1 = x.ds1.extent1) :
    ∃ n, exec (.messageMatch p q.key) s = .next ((s.delivered p q r x y).matched p n q r) := by
  have hdata : s.sendData p q.core x = some (fmt, x.ds1.extent0, x.ds1.extent1, s.sentRows p q.core x) := by
    rw [State.sendData, if_neg (by simp [hxo]), hxf]
    rfl
  refine ⟨(s.sentRows p q.core x).foldl (fun n bs => n + bs.length) 0, ?_⟩
  show execMessageMatch p q.key s = _
  unfold execMessageMatch
  rw [if_neg (by simp [numPavs]; omega)]
  simp only [hrecv, hy, hsend, hx, hgood, hslot, hxo, Option.isSome_none, Bool.false_and, Bool.false_eq_true, if_false, hdata,
    deliver_sentRows (q := q) hyo hyf h0 h1, Bool.not_true]
  rfl

/-- Settles O14. -/
theorem messagesPostAndMatch : Obligations.MessagesPostAndMatch := by
  unfold Obligations.MessagesPostAndMatch
  refine ⟨fun s core strand p i f h => exec_tsend h, fun s core strand p i f h => exec_trecv h,
    fun s p q r x y fmt hp _ hsend hrecv hx hy hxo hyo hgood hslot hxf hyf h0 h1 => ?_⟩
  obtain ⟨n, hexec⟩ := exec_messageMatch hp hsend hrecv hx hy hxo hyo hgood hslot hxf hyf h0 h1
  have hbeds := beds_matched (s.delivered p q r x y) p n q r
  obtain ⟨hq, hr⟩ := flights_matched (s.delivered p q r x y) p n q r
  exact ⟨_, hexec, fun z hz => posts_matched hz, hq, hr, congrArg Beds.mem hbeds, congrArg Beds.ls hbeds⟩

end Sys2Proof.Machine
end

section
/-! SUPPORT. Tile instructions of one tile that can be carried out at once (R78, R126 to R130, R132). -/

namespace Sys2Proof.Machine

variable {l r q : State} {p core strand : Nat} {x : Flight} {m : Tab PageLoc}

/-! ## Pages that lie in beds of this package or are the package page -/

/-- A kind of page location that neither a bed nor the package page is. -/
def Elsewhere (k : PageLoc → Bool) : Prop := (∀ q cs, k (.bed q cs) = false) ∧ k .package = false

theorem elsewhere_isHost : Elsewhere PageLoc.isHost := ⟨fun _ _ => rfl, rfl⟩
theorem elsewhere_isRemote : Elsewhere PageLoc.isRemote := ⟨fun _ _ => rfl, rfl⟩

variable {k : PageLoc → Bool}

theorem Elsewhere.of_mem (hk : Elsewhere k) (hm : Tab.near m) {y : Nat × PageLoc} (hy : y ∈ m) : k y.2 = false := by
  rcases hm y hy with ⟨q, cs, h⟩ | h
  · rw [h, hk.1]
  · rw [h, hk.2]

theorem Elsewhere.of_find (hk : Elsewhere k) (hm : Tab.near m) {pg : Nat} {c : PageLoc} (hf : Tab.find pg m = some c) : k c = false :=
  hk.of_mem hm (Tab.mem_of_find hf)

theorem Elsewhere.any (hk : Elsewhere k) (hm : Tab.near m) : (m.any fun y => k y.2) = false :=
  List.any_eq_false.2 fun _ hy => Bool.eq_false_iff.1 (hk.of_mem hm hy)

theorem Elsewhere.touches (hk : Elsewhere k) (hm : Tab.near m) (d : Desc) (v : Pav) (rows : List Nat) : d.touches v m rows k = none := by
  refine List.findSome?_eq_none_iff.2 fun pg _ => ?_
  cases hf : Tab.find pg m with
  | none => rfl
  | some c => simp [hk.of_find hm hf]

theorem hostBytes_of_near (hm : Tab.near m) (x : Flight) (rows : List Nat) : x.hostBytes m rows = 0 := by
  have hnone (pc : Nat × Nat × List Byte) : ((Tab.find pc.1 m).map PageLoc.isHost).getD false = false := by
    cases hf : Tab.find pc.1 m with
    | none => rfl
    | some c => exact elsewhere_isHost.of_find hm hf
  have hnil : (rows.flatMap fun q => (x.dd.pieces q (List.replicate x.dd.rowBytes 0)).filter fun pc =>
      ((Tab.find pc.1 m).map PageLoc.isHost).getD false) = [] := List.flatMap_eq_nil_iff.2 fun _ _ => by simp [hnone]
  unfold Flight.hostBytes
  rw [hnil]
  exact ite_self _

/-! ## The tile -/

theorem feed_of_no_replay (h : q.replaying p = false) (core kind : Nat) (bs : List (Nat × Nat)) : q.feed p core kind bs = (none, q) := by
  simp [State.feed, h]

/-- What the attempt at a tile comes to, once nothing stands in its way. -/
def State.carryOut (r : State) (p core strand : Nat) (x : Flight) (m : Tab PageLoc) (rows : List (Nat × Nat)) : Attempt :=
  if isMove x.op.toNat then ⟨r.moveTile p core strand x m {} rows, true⟩
  else ⟨r.computeTile p core strand x m, ((r.computeTile p core strand x m).strand core strand).wait != .killed⟩

theorem attemptTile_of_oneTile (h : OneTile l r p core strand x m) (hmap : x.map = none) :
    l.attemptTile p core strand x {} = r.carryOut p core strand x m (l.tileRows p core x) := by
  obtain ⟨q, hpages, hreplay, htraffic⟩ := h.pages
  have hany := elsewhere_isHost.any h.near
  have hhost := fun d v rows => elsewhere_isHost.touches h.near d v rows
  have hremote := fun d v rows => elsewhere_isRemote.touches h.near d v rows
  have hbytes := fun rows => hostBytes_of_near h.near x rows
  have hfeed := fun kind bs => feed_of_no_replay hreplay core kind bs
  have hsource := h.source
  have hdest := h.dest
  unfold State.attemptTile State.carryOut
  cases hmove : isMove x.op.toNat <;> simp only [hmove, if_true, if_false, Bool.false_eq_true, Bool.true_and, Bool.false_and, Bool.not_eq_true'] at htraffic hsource hdest <;>
    simp [h.begins, h.room, h.indices, h.whole, hmap, hpages, hreplay, hany, hhost, hremote, hbytes, hfeed, htraffic, hsource, hdest, h.words, h.slot]

/-! ## The instruction -/

/-- The last instruction put in flight is the one its number names. -/
theorem flight_append (t : Strand) (x : Flight) : ({ t with flights := t.flights ++ [x] } : Strand).flight x.num = some x := by
  simp [Strand.flight]

/-- A tile that can be carried out at once ends the instruction that has no other. -/
theorem driveTiles_of_oneTile (h : OneTile l r p core strand x m) (hmap : x.map = none) (htile : x.tile = 0)
    (hflight : (l.strand core strand).flight x.num = some x) (hgo : (r.carryOut p core strand x m (l.tileRows p core x)).go = true) :
    l.driveTiles p core strand x.num {} = (r.carryOut p core strand x m (l.tileRows p core x)).state.oneTileDone core strand x := by
  have hlast : (x.tile + 1) * x.extent.2 ≥ x.extent.1 := by
    rw [htile, Nat.zero_add, Nat.one_mul]
    exact h.one
  unfold State.driveTiles
  simp only [hflight]
  rw [State.runTiles]
  simp only [hflight, attemptTile_of_oneTile h hmap, hgo, h.begins, Bool.not_true, Bool.false_eq_true, if_false, if_pos hlast]
  rfl

/-- What an instruction whose address and occurrence no shadow buffer names does: it is launched, and its tiles are carried out. -/
theorem launchRun_of_idle {a : State} {i : Nat} (hshadow : (a.core core).shadowFor strand x.pc x.occ = none) (hidle : a.engineBusy core x = false) :
    launchRun core strand p i x a = (a.launched core strand x).driveTiles p core strand x.num {} := by
  simp [launchRun, hshadow, hidle]

theorem engineBusy_of_move (h : isCompute x.op.toNat = false) (a : State) : a.engineBusy core x = false := by simp [State.engineBusy, h]

/-- A launched instruction is the last of its strand in flight. -/
theorem flight_launched {a : State} (hpc : (a.strand core strand).pc.toNat + 16 < 2 ^ 32) :
    ((a.launched core strand x).strand core strand).flight x.num = some x := by
  rw [launched_strand x hpc]
  exact flight_append _ _

/-- An instruction of one tile is launched and done with it at once. -/
theorem launchRun_of_oneTile {a : State} {i : Nat} (hpc : (a.strand core strand).pc.toNat + 16 < 2 ^ 32)
    (hshadow : (a.core core).shadowFor strand x.pc x.occ = none) (hidle : a.engineBusy core x = false) (hmap : x.map = none) (htile : x.tile = 0)
    (h : OneTile (a.launched core strand x) r p core strand x m)
    (hgo : (r.carryOut p core strand x m ((a.launched core strand x).tileRows p core x)).go = true) :
    launchRun core strand p i x a = (r.carryOut p core strand x m ((a.launched core strand x).tileRows p core x)).state.oneTileDone core strand x := by
  rw [launchRun_of_idle hshadow hidle, driveTiles_of_oneTile h hmap htile (flight_launched hpc) hgo]

/-! ## Movement -/

variable {s : State} {op i : Nat} {f : TileFields}

theorem carryOut_of_move (h : isMove x.op.toNat = true) (r : State) (rows : List (Nat × Nat)) :
    r.carryOut p core strand x m rows = ⟨r.moveTile p core strand x m {} rows, true⟩ := if_pos h

/-- A movement instruction of one tile, launched from a state `a` in which its strand is as it was, moves its bytes and is done. -/
theorem launchRun_of_move {a : State} (hissue : TileIssues s core strand op p i f) (hx : x = s.newFlight core strand op f) (hmove : isMove x.op.toNat = true)
    (hcompute : isCompute x.op.toNat = false) (ha : a.strand core strand = s.strand core strand)
    (hshadow : (a.core core).shadowFor strand x.pc x.occ = none) (hone : OneTile (a.launched core strand x) r p core strand x m) :
    launchRun core strand p i x a =
      (r.moveTile p core strand x m {} ((a.launched core strand x).tileRows p core x)).oneTileDone core strand x := by
  have hcarry := carryOut_of_move (p := p) (core := core) (strand := strand) (m := m) hmove r ((a.launched core strand x).tileRows p core x)
  rw [launchRun_of_oneTile (ha ▸ hissue.next) hshadow (engineBusy_of_move hcompute a) (hx ▸ rfl) (hx ▸ rfl) hone (by rw [hcarry]), hcarry]

theorem tile_launchRun_of_move (hissue : TileIssues s core strand op p i f) (hx : x = s.newFlight core strand op f) (hmove : isMove x.op.toNat = true)
    (hcompute : isCompute x.op.toNat = false) (hshadow : ((s.atIssue core x).core core).shadowFor strand x.pc x.occ = none)
    (hone : OneTile ((s.atIssue core x).launched core strand x) r p core strand x m) :
    tile core strand op f s (launchRun core strand) = .next
      ((r.moveTile p core strand x m {} (((s.atIssue core x).launched core strand x).tileRows p core x)).oneTileDone core strand x) := by
  rw [tile_of_issues hissue, ← hx, launchRun_of_move hissue hx hmove hcompute (strand_atIssue ..) hshadow hone]

/-- Settles O8: each of the seven launches its instruction, TPUT once it has dropped the strand's shadow buffers. -/
theorem movementMovesOneTile : Obligations.MovementMovesOneTile := by
  unfold Obligations.MovementMovesOneTile
  intro s r core strand p i f m
  simp only [List.forall_mem_cons]
  refine ⟨fun h hshadow hone => tile_launchRun_of_move h rfl rfl rfl hshadow hone, fun h hshadow hone => tile_launchRun_of_move h rfl rfl rfl hshadow hone,
    fun h hshadow hone => tile_launchRun_of_move h rfl rfl rfl hshadow hone, fun h hshadow hone => tile_launchRun_of_move h rfl rfl rfl hshadow hone,
    fun h hshadow hone => tile_launchRun_of_move h rfl rfl rfl hshadow hone, fun h hshadow hone => ?_,
    fun h hshadow hone => tile_launchRun_of_move h rfl rfl rfl hshadow hone, List.forall_mem_nil _⟩
  show execTput core strand f s = _
  rw [execTput, tile_of_issues h]
  exact congrArg Host.Outcome.next
    (launchRun_of_move h rfl rfl rfl ((dropShadows_strand ..).trans (strand_atIssue ..)) hshadow hone)

end Sys2Proof.Machine
end

section
/-! SUPPORT. A compute instruction of a strand that is READY and yet holds the wait of a killed strand. -/

namespace Sys2Proof.Machine

/-- One FP32 element in scratch (R112). -/
def fp32At (base : Nat) : Desc := BitVec.ofNat 256 (base + 4 * 2 ^ 64 + 2 ^ 96 + 2 ^ 128 + 2 ^ 152 + 0x0C * 2 ^ 176)

/-- Core 0 of pavilion 0, which has one segment of scratch; its strand 0 is READY, and its wait is that of a killed strand. -/
def readyAfterKill : State :=
  { pavs := [(0, { entry := BitVec.ofNat 2048 (1 + 2 ^ 104) })]
    cores := [(0, { owner := some (0, 0), icache := [0] })]
    strands := [(0, { mode := .ready, wait := .killed, descs := [fp32At 0, fp32At 64, 0, 0, 0, 0, 0, 0] })] }

/-- TVOP FN 0x00: the element at byte 64 to byte 0. -/
def copyElement : TileFields := { ds1 := 1 }

/-- The instruction in flight, and the state in which it is. -/
def copyFlight : Flight := readyAfterKill.newFlight 0 0 0x91 copyElement
def copyLaunched : State := (readyAfterKill.atIssue 0 copyFlight).launched 0 0 copyFlight

theorem tileIssues_readyAfterKill : TileIssues readyAfterKill 0 0 0x91 0 0 copyElement where
  issues := ⟨by decide, by decide, by decide +kernel, by decide +kernel, by decide +kernel, by decide +kernel⟩
  defined := by decide +kernel
  room := by decide +kernel
  coreRoom := by decide +kernel
  free := by decide +kernel
  legal := by decide +kernel
  next := by decide +kernel

theorem oneTile_readyAfterKill : OneTile copyLaunched copyLaunched 0 0 0 copyFlight [] where
  one := by decide +kernel
  room := by decide +kernel
  begins := by decide +kernel
  whole := by decide +kernel
  indices := by decide +kernel
  pages := ⟨copyLaunched, by decide +kernel, by decide +kernel, by decide +kernel⟩
  near := fun _ h => nomatch h
  words := by decide +kernel
  slot := by decide +kernel
  source := by decide +kernel
  dest := by decide +kernel

theorem slotAdmits_copyFlight : SlotAdmits copyLaunched 0 0 copyFlight [] :=
  ⟨fun h => absurd h (by decide +kernel), fun h => absurd h (by decide +kernel), fun h => absurd h (by decide +kernel)⟩

/-! ### A strand that is not killed -/

section
variable {s r : State} {core strand p i op : Nat} {f : TileFields} {m : Tab PageLoc} {x : Flight}

theorem carryOut_of_compute (h : isMove x.op.toNat = false) (hwait : ((r.computeTile p core strand x m).strand core strand).wait ≠ .killed)
    (rows : List (Nat × Nat)) : r.carryOut p core strand x m rows = ⟨r.computeTile p core strand x m, true⟩ := by
  rw [State.carryOut, h, if_neg Bool.false_ne_true, bne_iff_ne.2 hwait]

/-- A compute instruction of one tile on an idle engine computes it, and is done unless its strand's wait is `killed` then. -/
theorem tile_launchRun_of_compute (hissue : TileIssues s core strand op p i f) (hx : x = s.newFlight core strand op f)
    (hmove : isMove x.op.toNat = false) (hshadow : ((s.atIssue core x).core core).shadowFor strand x.pc x.occ = none)
    (hidle : (s.atIssue core x).engineBusy core x = false) (hone : OneTile ((s.atIssue core x).launched core strand x) r p core strand x m)
    (hwait : ((r.computeTile p core strand x m).strand core strand).wait ≠ .killed) :
    tile core strand op f s (launchRun core strand) = .next ((r.computeTile p core strand x m).oneTileDone core strand x) := by
  have hcarry := carryOut_of_compute hmove hwait (((s.atIssue core x).launched core strand x).tileRows p core x)
  have hnext : (((s.atIssue core x).strand core strand).pc.toNat + 16) < 2 ^ 32 := by rw [strand_atIssue]; exact hissue.next
  rw [tile_of_issues hissue, ← hx, launchRun_of_oneTile hnext hshadow hidle (hx ▸ rfl) (hx ▸ rfl) hone (by rw [hcarry]),
    hcarry]

end

/-- What O10 claims holds of every strand that the attempt at the tile does not leave with the wait `killed`. -/
theorem exec_compute_of_not_killed {s r : State} {core strand p i : Nat} {f : TileFields} {m : Tab PageLoc} :
    ∀ y ∈ ([(.tmm core strand f, 0x90), (.tvop core strand f, 0x91), (.tred core strand f, 0x92), (.tcvt core strand f, 0x93),
        (.tdec core strand f, 0x94)] : List (Instr × Nat)),
      TileIssues s core strand y.2 p i f →
      let x := s.newFlight core strand y.2 f
      let a := s.atIssue core x
      (a.core core).shadowFor strand x.pc x.occ = none → a.engineBusy core x = false → OneTile (a.launched core strand x) r p core strand x m →
      ((r.computeTile p core strand x m).strand core strand).wait ≠ .killed →
      exec y.1 s = .next ((r.computeTile p core strand x m).oneTileDone core strand x) := by
  simp only [List.forall_mem_cons]
  exact ⟨fun h => tile_launchRun_of_compute h rfl rfl, fun h => tile_launchRun_of_compute h rfl rfl, fun h => tile_launchRun_of_compute h rfl rfl,
    fun h => tile_launchRun_of_compute h rfl rfl, fun h => tile_launchRun_of_compute h rfl rfl, List.forall_mem_nil _⟩

/-- Refutes O10: an attempt at a compute tile goes on only where the strand's wait is not `killed`, whatever the strand's mode. A READY strand
whose wait is `killed` has its result written, but its instruction does not become one that is done. R153 lets no
READY strand keep that wait, and the statement does not leave such a strand out. -/
theorem not_computeRunsOneTile : ¬ Obligations.ComputeRunsOneTile := by
  unfold Obligations.ComputeRunsOneTile
  intro h
  have hexec : exec (.tvop 0 0 copyElement) readyAfterKill = .next ((copyLaunched.computeTile 0 0 0 copyFlight []).oneTileDone 0 0 copyFlight) :=
    h readyAfterKill copyLaunched 0 0 0 0 copyElement [] (.tvop 0 0 copyElement, 0x91) (by simp) tileIssues_readyAfterKill (by decide +kernel)
      (by decide +kernel) oneTile_readyAfterKill slotAdmits_copyFlight
  have hpending : ((after (exec (.tvop 0 0 copyElement) readyAfterKill) readyAfterKill).strand 0 0).flights.map Flight.prog = [.pending] := by decide +kernel
  have hmoved : (((copyLaunched.computeTile 0 0 0 copyFlight []).oneTileDone 0 0 copyFlight).strand 0 0).flights.map Flight.prog = [.moved] := by
    decide +kernel
  rw [hexec] at hpending
  exact absurd (hpending.symm.trans hmoved) (by decide)

end Sys2Proof.Machine
end

section
/-! SUPPORT. What a node of the sync tree passes up, and what the root decides of a pavilion that is no member of a span. -/

namespace Sys2Proof.Machine

variable {s : State} {pav node i : Nat}

/-! ### A node passes its arrivals up (R247, R296) -/

/-- Within a package a node has its one message to pass once its arrivals are all there; within a span, each new count (R247). -/
theorem barrierPasses_of_gathered {b : Barrier} (hnew : Tab.find node b.forwarded = none) (hcount : 0 < s.barrierCount b node)
    (hall : s.barrierDone pav b node = true ∨ b.expected ≤ s.barrierCount b node) : s.barrierPasses pav b node = true := by
  have hsent : Tab.getD b.forwarded node 0 = 0 := by rw [Tab.getD, hnew]; rfl
  cases hspan : (s.pav pav).isSpan with
  | true => simpa [State.barrierPasses, hspan, hsent] using hcount
  | false => simpa [State.barrierPasses, hspan, hnew] using ⟨by omega, hall⟩

theorem kernelRuns_of_started {v : Pav} (h : ∃ r rest, v.runs = r :: rest ∧ r.started = true) : v.kernelRuns = true := by
  obtain ⟨r, rest, hruns, hstarted⟩ := h
  simp [Pav.kernelRuns, hruns, hstarted]

section
variable (hpav : pav < 512) (hnode : node ≤ 75) (hbound : (s.pav pav).bound = true) (hserves : s.nodeServes pav node = true)
include hpav hnode hbound hserves

theorem exec_syncArrivalForward_barrier {b : Barrier} (hb : Tab.find i (s.pav pav).barriers = some b) (hpasses : s.barrierPasses pav b node = true) :
    exec (.syncArrivalForward pav node (.barrier i)) s = .next (s.modPav pav fun v =>
      { v with barriers := Tab.put i { b with forwarded := Tab.put node (s.barrierCount b node) b.forwarded } v.barriers }) := by
  refine (if_neg (by simp; omega)).trans ((if_neg (by simp [hbound, hserves])).trans ?_)
  simp only [hb]
  exact if_neg (by simp [hpasses])

theorem exec_syncArrivalForward_commit {c : Commit} (hc : (s.pav pav).commit.getD {} = c) (hnew : Tab.find node c.forwarded = none)
    (hdone : s.treeDone pav node c.forwarded (s.commitArrived pav) = true) {n : Word64} {rest : List Word64} (hsteps : s.commitSteps pav = n :: rest)
    (hstep : c.step = 0 ∨ n = c.step) :
    exec (.syncArrivalForward pav node .commit) s = .next (s.modPav pav fun v =>
      { v with commit := some { c with forwarded := Tab.put node (s.coreArrivals pav node c.forwarded) c.forwarded, step := n } }) := by
  refine (if_neg (by simp; omega)).trans ((if_neg (by simp [hbound, hserves])).trans ?_)
  simp only [hc, hsteps, List.headD_cons]
  refine (if_neg (by simp [hnew, hdone])).trans ((if_neg (by simp)).trans (if_neg ?_))
  obtain hzero | heq := hstep
  · simp [hzero]
  · simp [heq]

theorem exec_syncArrivalForward_kernelStart (hnew : Tab.find node (s.pav pav).kernel.forwarded = none)
    (hdone : s.treeDone pav node (s.pav pav).kernel.forwarded (fun x => !(s.core x).running) = true) (hruns : (s.pav pav).kernelRuns = true) :
    exec (.syncArrivalForward pav node .kernelStart) s = .next (s.modPav pav fun v =>
      { v with kernel := { v.kernel with
        forwarded := Tab.put node (s.coreArrivals pav node (s.pav pav).kernel.forwarded) (s.pav pav).kernel.forwarded } }) := by
  refine (if_neg (by simp; omega)).trans ((if_neg (by simp [hbound, hserves])).trans ?_)
  exact (if_neg (by simp [hnew, hdone])).trans (if_neg (by simp [hruns]))

end

/-! ### The root names a release tick (R144, R146, R248, R296) -/

theorem decides_of_not_span {v : Pav} (h : v.isSpan = false) : v.decides = true := by simp [Pav.decides, h]

theorem leadTicks_of_not_span {v : Pav} (h : v.isSpan = false) : v.leadTicks = 20 := by simp [Pav.leadTicks, h]

/-- The release tick that the root of a pavilion of one package names (R248). -/
theorem releaseTick_of_not_span {v : Pav} (h : v.isSpan = false) : s.now + BitVec.ofNat 64 v.leadTicks = s.time.now + 20 := by
  rw [leadTicks_of_not_span h]; rfl

theorem alignTick_eq (t : Nat) : alignTick t = (t + 1023) / 1024 * 1024 := by
  simp [alignTick, roundUp, ceilDiv]

/-- The tick of a CYCLE pavilion's first kernel start is a multiple of 1,024 (R562). -/
def kernelTick (v : Pav) (first : Bool) (t : Word64) : Word64 := if v.cycle && first then BitVec.ofNat 64 (alignTick t.toNat) else t

theorem kernelTick_of_not_cycle {v : Pav} (h : v.cycle = false) (first : Bool) (t : Word64) : kernelTick v first t = t := by
  simp [kernelTick, h]

section
variable (hpav : pav < 512) (hbound : (s.pav pav).bound = true) (hspan : (s.pav pav).isSpan = false)
include hpav hbound hspan

theorem exec_releaseDecide_barrier {b : Barrier} (hb : Tab.find i (s.pav pav).barriers = some b) (htick : b.tick = none)
    (hmembers : b.members = []) (hroot : b.expected ≤ atRoot b.forwarded) :
    exec (.releaseDecide pav (.barrier i)) s = .next (s.modPav pav fun v =>
      { v with barriers := Tab.put i { b with tick := some (s.time.now + 20) } v.barriers }) := by
  refine (if_neg (by simp; omega)).trans ((if_neg (by simp [hbound])).trans ?_)
  simp only [hb, htick, hmembers, hspan, releaseTick_of_not_span hspan, decides_of_not_span hspan]
  exact (if_neg (by simp)).trans ((if_pos trivial).trans (if_neg (by simpa using hroot)))

theorem exec_releaseDecide_commit {c : Commit} (hc : (s.pav pav).commit.getD {} = c) (htick : c.tick = none)
    (hroot : s.rootDone pav c.forwarded = true) (hstep : c.step ≠ 0) :
    exec (.releaseDecide pav .commit) s = .next (s.modPav pav fun v => { v with commit := some { c with tick := some (s.time.now + 20) } }) := by
  refine (if_neg (by simp; omega)).trans ((if_neg (by simp [hbound])).trans ?_)
  simp only [hc, htick, hroot, hspan, releaseTick_of_not_span hspan, decides_of_not_span hspan]
  exact (if_neg (by simp)).trans ((if_pos trivial).trans (if_neg (by simpa using hstep)))

theorem exec_releaseDecide_kernelStart (htick : (s.pav pav).kernel.tick = none) (hready : s.kernelReady pav = true) :
    exec (.releaseDecide pav .kernelStart) s = .next (s.modPav pav fun v => { v with kernel := { v.kernel with
      tick := some (kernelTick (s.pav pav) (((s.pav pav).runs.head?.map fun r => r.iter == 0 && r.layer == 0 && r.kernel == 0).getD false)
        (s.time.now + 20)) } }) := by
  refine (if_neg (by simp; omega)).trans ((if_neg (by simp [hbound])).trans ?_)
  simp only [htick, hready, hspan, releaseTick_of_not_span hspan, decides_of_not_span hspan]
  simp [State.modPav, hspan, kernelTick]

end

/-- Settles O17: at a node by what it has gathered, at the root by what has arrived. -/
theorem syncTreeForwardsAndDecides : Obligations.SyncTreeForwardsAndDecides := by
  unfold Obligations.SyncTreeForwardsAndDecides
  intro s pav node hpav hnode hbound
  refine ⟨fun hserves => ⟨?_, ?_, ?_⟩, fun hspan => ⟨?_, ?_, ?_, ?_⟩⟩
  · intro i b hb hnew hcount hall
    exact exec_syncArrivalForward_barrier hpav hnode hbound hserves hb (barrierPasses_of_gathered hnew hcount hall)
  · intro hnew hdone n rest hsteps hstep
    exact exec_syncArrivalForward_commit hpav hnode hbound hserves rfl hnew hdone hsteps hstep
  · intro hnew hdone hruns
    exact exec_syncArrivalForward_kernelStart hpav hnode hbound hserves hnew hdone (kernelRuns_of_started hruns)
  · intro i b hb htick hmembers hroot
    exact exec_releaseDecide_barrier hpav hbound hspan hb htick hmembers hroot
  · intro htick hroot hstep
    exact exec_releaseDecide_commit hpav hbound hspan rfl htick hroot hstep
  · intro htick hready hcycle
    have h := exec_releaseDecide_kernelStart hpav hbound hspan htick hready
    rwa [kernelTick_of_not_cycle hcycle] at h
  · intro htick hready hcycle ⟨r, rest, hruns, hiter, hlayer, hkernel⟩
    have h := exec_releaseDecide_kernelStart hpav hbound hspan htick hready
    simpa [kernelTick, hcycle, hruns, hiter, hlayer, hkernel, alignTick_eq] using h

end Sys2Proof.Machine
end

section
/-! SUPPORT. Traffic of the package itself, and records of the memory log: what each leaves of the beds (R180, R235). Zeroing (R155, R284). -/

namespace Sys2Proof.Machine

variable {s : State}

/-! ## Background traffic and the memory log -/

theorem beds_carry (s : State) (m : BulkMsg) (src dst n : Nat) : (s.carry m src dst n).beds = s.beds := beds_foldl_unrepeatable ..

@[simp] theorem beds_background (s : State) (src dst n : Nat) : (s.background src dst n).beds = s.beds :=
  (beds_carry ..).trans (beds_carry ..)

@[simp] theorem channel_background (s : State) (src dst n q : Nat) : (s.background src dst n).channel q = s.channel q :=
  congrArg (fun b : Beds => Tab.getD b.channels q {}) (beds_background s src dst n)

/-! ## Zeroed bytes -/

theorem Mem.read_clear_outside {m : Mem} {lo hi a : Nat} (h : a < lo ∨ hi ≤ a) : Mem.read (Mem.clear m lo hi) a = Mem.read m a := by
  induction m with
  | nil => rfl
  | cons x m ih =>
    rw [Mem.clear, List.filter_cons]
    by_cases hx : x.1 = a
    · rw [if_pos (by simpa [hx] using h), Mem.read, Mem.read, if_pos (by simpa using hx), if_pos (by simpa using hx)]
    · split
      · rw [Mem.read, Mem.read, if_neg (by simpa using hx), if_neg (by simpa using hx)]
        exact ih
      · rw [Mem.read, if_neg (by simpa using hx)]
        exact ih

/-- A cleared range reads as zeros, and every other byte as before. -/
theorem Mem.read_clear_eq (m : Mem) (lo hi a : Nat) : Mem.read (Mem.clear m lo hi) a = if lo ≤ a ∧ a < hi then 0 else Mem.read m a := by
  split
  · next h => exact Mem.read_clear h.1 h.2
  · next h => exact Mem.read_clear_outside (by omega)

/-! ## The commands -/

theorem exec_lsZeroComplete {core : Nat} (hcore : core < 1088) (h : (s.core core).zeroing = true) :
    exec (.lsZeroComplete core) s = .next (((s.background controlProcessor (coreLoc core) (384 * 65536)).zeroLs core).modCore core fun c =>
      { c with zeroing := false, shadows := [] }) :=
  (if_neg (by simpa using hcore)).trans (if_neg (by simp [h]))

@[simp] theorem beds_modCore (s : State) (c : Nat) (f : Core → Core) : (s.modCore c f).beds = s.beds := rfl

theorem mem_zeroLs (s : State) (core : Nat) : (s.zeroLs core).beds.mem = s.beds.mem := rfl

theorem ls_zeroLs (s : State) (core : Nat) : (s.zeroLs core).beds.ls = Mem.clear s.beds.ls (lsKey core 0) (lsKey (core + 1) 0) := rfl

/-- The state after a granule's bytes have been zeroed: neither its lines nor the list of granules hold on to it. -/
def State.zeroGranule (s : State) (q g : Nat) : State :=
  let lo := bedKey q (g * 2 ^ 20)
  let out := fun (l : Nat) => !(decide (lo ≤ l * 64) && decide (l * 64 < lo + 2 ^ 20))
  s.modBeds fun b => { b with mem := Mem.clear b.mem lo (lo + 2 ^ 20), zeroGranules := b.zeroGranules.filter fun x => x != q * 4096 + g
                              badLines := b.badLines.filter out, listed := b.listed.filter out }

theorem exec_granuleZeroComplete {q g : Nat} (hq : q < 384) (hg : g < 3590) (h : q * 4096 + g ∈ s.beds.zeroGranules) :
    exec (.granuleZeroComplete q g) s = .next ((s.background controlProcessor (channelLoc q) (2 ^ 20)).zeroGranule q g) :=
  (if_neg (by simp [granulesPerChannel]; omega)).trans (if_neg (by simp [h]))

theorem mem_zeroGranule (s : State) (q g : Nat) :
    (s.zeroGranule q g).beds.mem = Mem.clear s.beds.mem (bedKey q (g * 2 ^ 20)) (bedKey q (g * 2 ^ 20) + 2 ^ 20) := rfl

theorem ls_zeroGranule (s : State) (q g : Nat) : (s.zeroGranule q g).beds.ls = s.beds.ls := rfl

theorem not_mem_zeroGranules_zeroGranule (s : State) (q g : Nat) : q * 4096 + g ∉ (s.zeroGranule q g).beds.zeroGranules := by
  simp [State.zeroGranule, State.modBeds]

/-- Settles O23: both commands clear exactly the range of keys that the local store, or the granule, has. -/
theorem zeroingLeavesZeros : Obligations.ZeroingLeavesZeros := by
  unfold Obligations.ZeroingLeavesZeros
  refine fun s => ⟨fun core hcore hzeroing => ⟨_, exec_lsZeroComplete hcore hzeroing, ?_⟩, fun q g hq hg hwaits =>
    ⟨_, exec_granuleZeroComplete hq hg hwaits, not_mem_zeroGranules_zeroGranule _ q g, ?_⟩⟩
  · beta_reduce
    rw [core_modCore_self, beds_modCore, mem_zeroLs, ls_zeroLs, beds_background]
    exact ⟨rfl, rfl, rfl, Mem.read_clear_eq _ _ _⟩
  · rw [mem_zeroGranule, ls_zeroGranule, beds_background]
    exact ⟨rfl, Mem.read_clear_eq _ _ _⟩

end Sys2Proof.Machine
end

section
/-! SUPPORT. The memory log, counted errors and retired frames: what each leaves of the beds (R175 to R180). -/

namespace Sys2Proof.Machine

variable {s : State} {q : Nat}

/-! ## The memory log -/

/-- The state with one more record in the memory log (R180). -/
def State.logged (s : State) (kind loc whereAt : Nat) : State :=
  s.modBeds fun b => { b with log := (⟨s.now, whereAt, kind, loc⟩ :: b.log).take 64 }

/-- Beside the record of the log, PF0 alone may be told. -/
theorem told_logMem (s : State) (kind loc whereAt : Nat) : Told (s.logged kind loc whereAt) (s.logMem kind loc whereAt) :=
  .ite Told.refl.raisePf0 .refl

@[simp] theorem beds_logMem (s : State) (kind loc whereAt : Nat) :
    (s.logMem kind loc whereAt).beds = { s.beds with log := (⟨s.now, whereAt, kind, loc⟩ :: s.beds.log).take 64 } := (told_logMem ..).beds

@[simp] theorem channel_logMem (s : State) (kind loc whereAt q : Nat) : (s.logMem kind loc whereAt).channel q = s.channel q := by
  simp [State.channel]

@[simp] theorem pav_logMem (s : State) (kind loc whereAt p : Nat) : (s.logMem kind loc whereAt).pav p = s.pav p := (told_logMem ..).pav p

@[simp] theorem core_logMem (s : State) (kind loc whereAt c : Nat) : (s.logMem kind loc whereAt).core c = s.core c := (told_logMem ..).core c

/-! ## Counted errors and retired frames -/

@[simp] theorem beds_setChannel (s : State) (q : Nat) (x : Channel) :
    (s.setChannel q x).beds = { s.beds with channels := Tab.put q x s.beds.channels } := rfl

/-- An uncorrectable error is counted and logged (R175). -/
theorem beds_bedUncorrectable (s : State) (key : Nat) : ∃ l, (s.bedUncorrectable key).beds = { s.beds with ueCount := s.beds.ueCount + 1, log := l } :=
  ⟨_, beds_logMem ..⟩

/-- A retired frame is listed, once, and logged (R177). -/
theorem beds_retireFrame (s : State) (key : Nat) : ∃ fs l, (s.retireFrame key).beds = { s.beds with retiredFrames := fs, log := l } := by
  unfold State.retireFrame
  extract_lets q w
  split
  · exact ⟨_, _, rfl⟩
  · exact ⟨_, _, beds_logMem ..⟩

/-- From `s` to `t` the beds differ in channels, retired frames and the log alone, and no channel scrubs another line. -/
structure Repairs (s t : State) : Prop where
  beds : ∃ cs fs l, t.beds = { s.beds with channels := cs, retiredFrames := fs, log := l }
  scrubLine : ∀ q, (t.channel q).scrubLine = (s.channel q).scrubLine

namespace Repairs

variable {t : State}

theorem refl : Repairs s s := ⟨⟨_, _, _, rfl⟩, fun _ => rfl⟩

theorem setChannel {x : Channel} (h : Repairs s t) (hx : x.scrubLine = (t.channel q).scrubLine) : Repairs s (t.setChannel q x) := by
  obtain ⟨⟨cs, fs, l, hb⟩, hl⟩ := h
  refine ⟨⟨Tab.put q x cs, fs, l, by rw [beds_setChannel, hb]⟩, fun r => ?_⟩
  by_cases hr : r = q
  · rw [hr, State.channel_setChannel_self, hx, hl]
  · rw [State.channel_setChannel_ne _ _ _ _ hr, hl]

theorem logMem {kind loc whereAt : Nat} (h : Repairs s t) : Repairs s (t.logMem kind loc whereAt) := by
  obtain ⟨⟨cs, fs, l, hb⟩, hl⟩ := h
  exact ⟨⟨cs, fs, _, by rw [beds_logMem, hb]⟩, fun r => by rw [channel_logMem, hl]⟩

theorem retireFrame {key : Nat} (h : Repairs s t) : Repairs s (t.retireFrame key) := by
  obtain ⟨⟨cs, fs, l, hb⟩, hl⟩ := h
  obtain ⟨fs', l', hb'⟩ := beds_retireFrame t key
  exact ⟨⟨cs, fs', l', by rw [hb', hb]⟩, fun r => by rw [← hl r, State.channel, hb']; rfl⟩

end Repairs

/-- A corrected error is counted; beside that it is logged and fed to the repair rules (R175, R176). -/
theorem repairs_bedCorrected (s : State) (key : Nat) :
    Repairs (s.modBeds fun b => { b with ceCount := b.ceCount + 1 }) (s.bedCorrected key) := by
  unfold State.bedCorrected
  extract_lets q row s1 c c1 recurs
  have logged : Repairs (s.modBeds fun b => { b with ceCount := b.ceCount + 1 }) s1 := Repairs.refl.logMem
  split
  · exact logged.setChannel rfl
  · split
    · exact logged.setChannel rfl
    · split
      · exact .logMem (logged.setChannel rfl)
      · exact .retireFrame (logged.setChannel rfl)

theorem ceCount_bedCorrected (s : State) (key : Nat) : (s.bedCorrected key).beds.ceCount = s.beds.ceCount + 1 := by
  obtain ⟨_, _, _, hb⟩ := (repairs_bedCorrected s key).beds
  rw [hb]
  rfl

theorem mem_bedCorrected (s : State) (key : Nat) : (s.bedCorrected key).beds.mem = s.beds.mem := by
  obtain ⟨_, _, _, hb⟩ := (repairs_bedCorrected s key).beds
  rw [hb]
  rfl

theorem scrubLine_bedCorrected (s : State) (key q : Nat) : ((s.bedCorrected key).channel q).scrubLine = (s.channel q).scrubLine :=
  (repairs_bedCorrected s key).scrubLine q

end Sys2Proof.Machine
end

section
/-! SUPPORT. Refresh, scrubbing, spare channels, failed channels and rows of local stores (R171 to R179). -/

namespace Sys2Proof.Machine

variable {s : State} {q : Nat}

/-! ## Refresh (R171, R172) -/

theorem refreshAt_eq (s : State) (d : Int) :
    s.refreshAt d = if d > 105 then 4 else if d > 85 ∨ (∃ x ∈ s.pavs, x.2.bound = true ∧ x.2.cycle = true) then 2 else 1 :=
  if_congr Iff.rfl rfl (if_congr (by simp [State.cycleMode]) rfl rfl)

/-- A run on a channel that turns to four times the base rate is repeatable no longer (R564); the beds stay. -/
theorem beds_foldl_cycleEnds (ps : List Nat) (cause : Nat) (s : State) :
    (ps.foldl (fun s p => if (s.pav p).cycle then s.unrepeatable p cause else s) s).beds = s.beds :=
  foldl_unchanged State.beds (fun u p => by
    split
    · exact beds_foldl_unrepeatable [p] cause u
    · rfl) ps s

/-- The channel's new rate and temperature. -/
theorem setRefresh_beds (s : State) (q : Nat) (d : Int) : ∃ a l, (s.setRefresh q d).beds =
    { (s.setChannel q { s.channel q with celsius := d, refresh := s.refreshAt d, capAt := a }).beds with log := l } := by
  unfold State.setRefresh
  extract_lets c r turned s1
  split
  · exact ⟨_, _, (beds_foldl_cycleEnds ..).trans (beds_logMem ..)⟩
  · exact ⟨_, _, rfl⟩

theorem mem_setRefresh (s : State) (q : Nat) (d : Int) : (s.setRefresh q d).beds.mem = s.beds.mem := by
  obtain ⟨_, _, hb⟩ := setRefresh_beds s q d
  rw [hb]
  rfl

theorem channel_setRefresh (s : State) (q : Nat) (d : Int) :
    ∃ a, (s.setRefresh q d).channel q = { s.channel q with celsius := d, refresh := s.refreshAt d, capAt := a } := by
  obtain ⟨a, _, hb⟩ := setRefresh_beds s q d
  exact ⟨a, by rw [State.channel, hb]; exact State.channel_setChannel_self s q _⟩

theorem exec_refresh (hq : q < 384) (hpop : s.fuse.populated q = true) :
    exec (.refresh q) s = .next ((s.setRefresh q (s.channel q).celsius).setChannel q
      { (s.setRefresh q (s.channel q).celsius).channel q with refreshes := ((s.setRefresh q (s.channel q).celsius).channel q).refreshes + 1 }) :=
  (if_neg (by simpa using hq)).trans (if_neg (by simp [hpop]))

theorem exec_dramTemperatureReport (hq : q < 384) (hpop : s.fuse.populated q = true) (d : Int) :
    exec (.dramTemperatureReport q d) s = .next (s.setRefresh q d) :=
  (if_neg (by simpa using hq)).trans (if_neg (by simp [hpop]))

/-! ## Scrubbing (R173) -/

/-- The scrubber has read a channel's line and goes on to the next. -/
def State.scrubbed (s : State) (q : Nat) : State :=
  (s.background (channelLoc q) (channelLoc q) 64).setChannel q { s.channel q with scrubLine := ((s.channel q).scrubLine + 1) % linesPerChannel }

theorem beds_scrubbed (s : State) (q : Nat) : ∃ cs, (s.scrubbed q).beds = { s.beds with channels := cs } :=
  ⟨_, by rw [State.scrubbed, beds_setChannel, beds_background]⟩

theorem scrubLine_scrubbed (s : State) (q : Nat) :
    ((s.scrubbed q).channel q).scrubLine = ((s.channel q).scrubLine + 1) % linesPerChannel := by
  rw [State.scrubbed, State.channel_setChannel_self]

/-- The line that the scrubber reads is bad from now on. -/
def State.lineGone (s : State) (key : Nat) : State :=
  s.modBeds fun b => if b.bad key then b else { b with badLines := b.badLines ++ [key / 64] }

/-- What a scrub read does, by what it meets. -/
theorem exec_patrolScrubRead (hq : q < 384) (hscrubs : s.scrubs = true) (hpop : s.fuse.populated q = true)
    (hretired : (s.channel q).retired = false) (hon : s.groupOn q = true) (hbad : s.beds.bad (bedKey q ((s.channel q).scrubLine * 64)) = false)
    (errs : SymbolErrors) : exec (.patrolScrubRead q errs) s = .next (
      let key := bedKey q ((s.channel q).scrubLine * 64)
      match (s.channel q).outcome (s.channel q).scrubLine errs with
      | .clean => s.scrubbed q
      | .corrected => (s.scrubbed q).bedCorrected key
      | .uncorrectable => (((s.scrubbed q).lineGone key).bedUncorrectable key).retireFrame key) := by
  refine (if_neg (by simpa using hq)).trans ((if_neg (by simp [hscrubs, hpop, hretired, hon])).trans ?_)
  generalize ho : (s.channel q).outcome (s.channel q).scrubLine errs = o
  unfold Channel.outcome at ho
  dsimp only
  rw [ho, hbad]
  cases o <;> rfl

theorem bad_lineGone (s : State) (key : Nat) : (s.lineGone key).beds.bad key = true := by
  unfold State.lineGone State.modBeds
  dsimp only
  split
  · assumption
  · simp [Beds.bad]

theorem beds_lineGone (s : State) (key : Nat) : ∃ ls, (s.lineGone key).beds = { s.beds with badLines := ls } := by
  unfold State.lineGone State.modBeds
  dsimp only
  split
  · exact ⟨_, rfl⟩
  · exact ⟨_, rfl⟩

/-- An uncorrectable line of a scrub read is bad and counted, and its frame is reported (R173, R175). -/
theorem scrubGone (s : State) (key : Nat) : let t := ((s.lineGone key).bedUncorrectable key).retireFrame key
    (∀ q, t.channel q = s.channel q) ∧ t.beds.ueCount = s.beds.ueCount + 1 ∧ t.beds.bad key = true ∧ t.beds.mem = s.beds.mem := by
  intro t
  obtain ⟨fs, l, hframe⟩ := beds_retireFrame ((s.lineGone key).bedUncorrectable key) key
  obtain ⟨l', hcount⟩ := beds_bedUncorrectable (s.lineGone key) key
  obtain ⟨ls, hgone⟩ := beds_lineGone s key
  have hbad := bad_lineGone s key
  have ht : t.beds = { s.beds with badLines := ls, ueCount := s.beds.ueCount + 1, retiredFrames := fs, log := l } := by
    rw [hframe, hcount, hgone]
  rw [hgone] at hbad
  unfold State.channel
  rw [ht]
  exact ⟨fun _ => rfl, rfl, hbad, rfl⟩

/-! ## Spare channels (R176, R178) -/

theorem exec_spareChannelStart (hq : q < 384) (hplace : s.place q = true) (hretired : (s.channel q).retired = false) {wear : Bool}
    (hfree : s.spareTaken (groupOf q) = false) (hworn : (s.channel q).worn s.now wear = true) :
    exec (.spareChannelStart q wear) s
      = .next ((s.setChannel q { s.channel q with copyPoint := some 0, capAt := s.now }).logMem 0x05 (channelLoc q) 0) :=
  (if_neg (by simpa using hq)).trans (if_neg (by simp [hplace, hretired, hfree, hworn]))

/-- The channel once its copy has come to the end: the spare stands in its place. -/
def Channel.copied (c : Channel) (now : Word64) : Channel :=
  { refresh := c.refresh, celsius := c.celsius, refreshes := c.refreshes, scrubLine := c.scrubLine, spared := true, scale := c.scale, capAt := now }

theorem exec_spareCopyComplete (hq : q < 384) (hend : (s.channel q).copyPoint = some linesPerChannel) :
    exec (.spareCopyComplete q) s = .next (((s.modBeds fun b => { b with badLines := b.badLines.filter fun l => l * 64 / 2 ^ 33 != q }).setChannel q
      ((s.channel q).copied s.now)).logMem 0x06 (channelLoc q) 0) :=
  (if_neg (by simpa using hq)).trans (if_neg (by simp [hend]))

theorem exec_spareCopyComplete_of_unfinished (hq : q < 384) (hgoes : (s.channel q).copyPoint ≠ some linesPerChannel) :
    exec (.spareCopyComplete q) s = .next s :=
  (if_neg (by simpa using hq)).trans (if_pos (by simpa using hgoes))

/-! ## Failed channels (R179) -/

/-- Pools none of whose holders passes the test are not lost. -/
theorem losePoolsOf_of_none {f : Nat → Bool} (h : ∀ x ∈ s.pools, x.2.defined = true → f x.2.holder = false) : s.losePoolsOf f = s := by
  have hnil : (s.pools.filter fun x => x.2.defined && f x.2.holder) = [] := List.filter_eq_nil_iff.2 fun x hx hp => by
    rw [Bool.and_eq_true] at hp
    rw [h x hx hp.1] at hp
    exact Bool.false_ne_true hp.2
  rw [State.losePoolsOf, hnil]
  rfl

/-- The group's spare stands in a place, or is being copied to stand in another's. -/
def State.spareInUse (s : State) (q : Nat) : Bool :=
  (List.range 24).any fun i => let p := groupOf q * 24 + i; let x := s.channel p; x.spared || (p != q && x.copyPoint.isSome)

theorem spareInUse_iff : s.spareInUse q = true ↔ ∃ i, i < 24 ∧ ((s.channel (groupOf q * 24 + i)).spared = true ∨
    (groupOf q * 24 + i ≠ q ∧ (s.channel (groupOf q * 24 + i)).copyPoint ≠ none)) := by
  simp [State.spareInUse, ← Option.ne_none_iff_isSome]

/-- What a failed channel's device held is lost. -/
def State.channelLost (s : State) (q : Nat) : State := (s.modBeds fun b => b.lose q).logMem 0x07 (channelLoc q) 0

/-- A pavilion on a failed channel is reset, and its run is repeatable no longer. -/
def State.killOnChannel (s : State) (q p : Nat) : State :=
  let t := s.startReset p 0x06 (channelLoc q) []
  if (t.pav p).cycle then t.unrepeatable p 2 else t

/-- Every pavilion on the failed channel is reset. -/
def State.channelKills (s : State) (q : Nat) : State :=
  ((s.channelLost q).pavsOn q).foldl (fun s p => s.killOnChannel q p) (s.channelLost q)

/-- The channel once the spare has come in for it, zeroed. -/
def Channel.replaced (c : Channel) (now : Word64) : Channel :=
  { refresh := c.refresh, celsius := c.celsius, refreshes := c.refreshes, spared := true, scale := c.scale, capAt := now }

/-- The failed channel is retired, and package memory is lost with it (R260). -/
def State.channelRetired (s : State) (q : Nat) : State :=
  (((s.channelKills q).setChannel q { s.channel q with retired := true, copyPoint := none, capAt := s.now }).modRegs fun r =>
    { r with tableLost := true }).raisePf0 0x0041 0 (channelLoc q)

/-- The spare comes in for the failed channel. -/
def State.channelReplaced (s : State) (q : Nat) : State :=
  ((s.channelKills q).setChannel q ((s.channel q).replaced s.now)).logMem 0x06 (channelLoc q) 0

/-- A failed channel that holds no pool's pages is retired where its group's spare is in use, else the spare comes in. -/
theorem failChannel_eq (h : ∀ x ∈ s.pools, x.2.defined = true → (s.pav x.2.holder).chOwn = 0 ∨ bitAt (s.pav x.2.holder).chMask q = false) :
    s.failChannel q = if s.spareInUse q then s.channelRetired q else s.channelReplaced q := by
  have hpools : (s.channelLost q).pools = s.pools := (congrArg State.pools (told_logMem _ 0x07 (channelLoc q) 0).eq).trans rfl
  have hkept : (s.channelLost q).losePoolsOf (fun h => (s.pav h).chOwn != 0 && bitAt (s.pav h).chMask q) = s.channelLost q :=
    losePoolsOf_of_none fun x hx hd => by
      rw [hpools] at hx
      obtain h0 | h1 := h x hx hd
      · simp [h0]
      · simp [h1]
  unfold State.channelRetired State.channelReplaced State.channelKills
  rw [← hkept]
  rfl

theorem stands_killOnChannel (s : State) (q p : Nat) : Stands s (s.killOnChannel q p) :=
  .ite Stands.refl.startReset.unrepeatable Stands.refl.startReset

theorem beds_killOnChannel (s : State) (q p : Nat) : (s.killOnChannel q p).beds = s.beds := by
  unfold State.killOnChannel
  extract_lets t
  split
  · exact beds_foldl_unrepeatable [p] 2 t
  · rfl

theorem resetting_killOnChannel_self (s : State) (q p : Nat) : ((s.killOnChannel q p).pav p).resetting.isSome = true := by
  have hreset := resetting_startReset_self s p 0x06 (channelLoc q) []
  unfold State.killOnChannel
  extract_lets t
  split
  · exact Stands.refl.unrepeatable.resetting p hreset
  · exact hreset

theorem mem_pavsOn {p : Nat} (hbound : (s.pav p).bound = true) (hown : (s.pav p).chOwn ≠ 0) (hmask : bitAt (s.pav p).chMask q = true) :
    p ∈ s.pavsOn q :=
  List.mem_map_of_mem (List.mem_filter.2 ⟨mem_pavs_of_bound hbound, by simp [hbound, hown, hmask]⟩)

/-- Every bound pavilion whose own set has the failed channel resets. -/
theorem resetting_channelKills {p : Nat} (hbound : (s.pav p).bound = true) (hown : (s.pav p).chOwn ≠ 0) (hmask : bitAt (s.pav p).chMask q = true) :
    ((s.channelKills q).pav p).resetting.isSome = true := by
  have hp : (s.channelLost q).pav p = s.pav p := pav_logMem ..
  rw [← hp] at hbound hown hmask
  exact foldl_reaches (P := fun p u => (u.pav p).resetting.isSome = true) (fun u p => resetting_killOnChannel_self u q p)
    (fun u p r h => (stands_killOnChannel u q r).resetting p h) (mem_pavsOn hbound hown hmask) _

theorem mem_channelKills (s : State) (q : Nat) : (s.channelKills q).beds.mem = Mem.clear s.beds.mem (bedKey q 0) (bedKey (q + 1) 0) :=
  congrArg Beds.mem (foldl_unchanged State.beds (fun u p => beds_killOnChannel u q p) ..) |>.trans (congrArg Beds.mem (beds_logMem ..))

theorem channelRetired_told (s : State) (q : Nat) : Told (((s.channelKills q).setChannel q
    { s.channel q with retired := true, copyPoint := none, capAt := s.now }).modRegs fun r => { r with tableLost := true }) (s.channelRetired q) :=
  Told.refl.raisePf0

theorem channelRetired_facts (s : State) (q : Nat) : let t := s.channelRetired q
    t.channel q = { s.channel q with retired := true, copyPoint := none, capAt := s.now } ∧ t.regs.tableLost = true ∧
      t.beds.mem = (s.channelKills q).beds.mem ∧ ∀ p, t.pav p = (s.channelKills q).pav p := by
  intro t
  have ht := channelRetired_told s q
  have hregs : t.regs.tableLost = true := (congrArg (fun u : State => u.regs.tableLost) ht.eq :)
  refine ⟨?_, hregs, by rw [ht.beds, State.beds_modRegs, beds_setChannel], fun p => by rw [ht.pav, State.pav_modRegs, State.pav_setChannel]⟩
  rw [State.channel, ht.beds, State.beds_modRegs]
  exact State.channel_setChannel_self ..

theorem channelReplaced_facts (s : State) (q : Nat) : let t := s.channelReplaced q
    t.channel q = (s.channel q).replaced s.now ∧ t.beds.mem = (s.channelKills q).beds.mem ∧ ∀ p, t.pav p = (s.channelKills q).pav p := by
  intro t
  unfold t State.channelReplaced
  rw [channel_logMem, State.channel_setChannel_self, beds_logMem, beds_setChannel]
  exact ⟨rfl, rfl, fun p => by rw [pav_logMem, State.pav_setChannel]⟩

theorem exec_channelFailure (hq : q < 384) (hplace : s.place q = true) (hretired : (s.channel q).retired = false) :
    exec (.channelFailure q) s = .next (s.failChannel q) :=
  (if_neg (by simpa using hq)).trans (if_neg (by simp [hplace, hretired]))

/-! ## Rows of local stores (R176) -/

theorem exec_lsRowRepair {core bank segment : Nat} (hcore : core < 1088) (hbank : bank < 64) (hsegment : segment < 384)
    (hspare : Tab.getD (s.core core).lsRepairs bank 0 < 8) (hrecurs : (Tab.find (segment * 64 + bank) (s.core core).lsRows).map Prod.snd = some true) :
    exec (.lsRowRepair core bank segment) s = .next ((s.modCore core fun c =>
      { c with lsRepairs := Tab.put bank (Tab.getD (s.core core).lsRepairs bank 0 + 1) c.lsRepairs, lsRows := Tab.drop (segment * 64 + bank) c.lsRows }).logMem
        0x08 (coreLoc core) (segment * 64 + bank)) :=
  (if_neg (by simp; omega)).trans (if_neg (by simp [hrecurs]; omega))

/-! ## The obligation -/

/-- Settles O22: each event by its own command; a failed channel by whether its group's spare is in use. -/
theorem bedEvents : Obligations.BedEvents := by
  unfold Obligations.BedEvents
  intro s q hq c rate
  have hrate : ∀ d, rate d = s.refreshAt d := fun d => (refreshAt_eq s d).symm
  refine ⟨fun hpop => ⟨⟨_, exec_refresh hq hpop, ?_⟩, fun d => ⟨_, exec_dramTemperatureReport hq hpop d, ?_⟩⟩,
    fun hscrubs hpop hretired hon hbad errs => ?_, fun hplace hretired => ⟨fun wear hfree hworn => ?_, fun hpools => ?_⟩,
    fun hend => ?_, exec_spareCopyComplete_of_unfinished hq, fun core bank segment hcore hbank hsegment hspare hrecurs => ?_⟩
  · obtain ⟨a, hc⟩ := channel_setRefresh s q (s.channel q).celsius
    rw [State.channel_setChannel_self, hc, hrate]
    exact ⟨rfl, rfl, mem_setRefresh ..⟩
  · obtain ⟨a, hc⟩ := channel_setRefresh s q d
    rw [hc, hrate]
    exact ⟨rfl, rfl, mem_setRefresh ..⟩
  · have hexec := exec_patrolScrubRead hq hscrubs hpop hretired hon hbad errs
    refine ⟨fun hout => ?_, fun hout => ⟨_, hexec, ?_⟩, fun hout => ⟨_, hexec, ?_⟩⟩
    · rw [hexec, hout]
      rfl
    · rw [hout]
      obtain ⟨cs, hbeds⟩ := beds_scrubbed s q
      rw [scrubLine_bedCorrected, scrubLine_scrubbed, ceCount_bedCorrected, mem_bedCorrected, hbeds]
      exact ⟨rfl, rfl, rfl⟩
    · rw [hout]
      obtain ⟨hline, hcount, hgone, hmem⟩ := scrubGone (s.scrubbed q) (bedKey q (c.scrubLine * 64))
      obtain ⟨cs, hbeds⟩ := beds_scrubbed s q
      rw [hline, scrubLine_scrubbed, hcount, hmem, hbeds]
      exact ⟨rfl, rfl, hgone, rfl⟩
  · refine ⟨_, exec_spareChannelStart hq hplace hretired hfree hworn, ?_⟩
    beta_reduce
    rw [channel_logMem, State.channel_setChannel_self, beds_logMem]
    exact ⟨rfl, rfl⟩
  · refine ⟨_, exec_channelFailure hq hplace hretired, ?_⟩
    rw [failChannel_eq hpools, ← spareInUse_iff, ← mem_channelKills]
    cases htaken : s.spareInUse q with
    | true =>
      obtain ⟨hchannel, hlost, hmem, hpav⟩ := channelRetired_facts s q
      rw [if_pos rfl, hchannel]
      exact ⟨fun h => absurd rfl h, fun _ => ⟨rfl, rfl, hlost⟩, rfl, hmem, fun p hb ho hm => by rw [hpav]; exact resetting_channelKills hb ho hm⟩
    | false =>
      obtain ⟨hchannel, hmem, hpav⟩ := channelReplaced_facts s q
      rw [if_neg Bool.false_ne_true, hchannel]
      exact ⟨fun _ => ⟨rfl, rfl⟩, fun h => absurd h Bool.false_ne_true, rfl, hmem,
        fun p hb ho hm => by rw [hpav]; exact resetting_channelKills hb ho hm⟩
  · refine ⟨_, exec_spareCopyComplete hq hend, ?_⟩
    beta_reduce
    rw [channel_logMem, State.channel_setChannel_self, beds_logMem]
    exact ⟨rfl, rfl, rfl, rfl, rfl⟩
  · refine ⟨_, exec_lsRowRepair hcore hbank hsegment hspare hrecurs, ?_⟩
    beta_reduce
    rw [core_logMem, core_modCore_self, beds_logMem]
    exact ⟨Tab.getD_put_self .., rfl, rfl⟩

end Sys2Proof.Machine
end

section
/-! SUPPORT. Which access a slot serves (R388, R389): one that may be served, of the highest priority of those. -/

namespace Sys2Proof.Machine

variable {s : State} {q : Nat} {ws : List McAccess}

/-! ## Folds -/

/-- The greatest value of a list, from `m` on. -/
theorem foldl_max_spec {α : Type} (f : α → Nat) (l : List α) (m : Nat) :
    m ≤ l.foldl (fun m x => max m (f x)) m ∧ (∀ x ∈ l, f x ≤ l.foldl (fun m x => max m (f x)) m) ∧
      (l.foldl (fun m x => max m (f x)) m = m ∨ ∃ x ∈ l, f x = l.foldl (fun m x => max m (f x)) m) := by
  induction l generalizing m with
  | nil => exact ⟨Nat.le_refl _, List.forall_mem_nil _, .inl rfl⟩
  | cons y l ih =>
    obtain ⟨hm, hall, hone⟩ := ih (max m (f y))
    rw [List.foldl_cons]
    refine ⟨by omega, List.forall_mem_cons.2 ⟨by omega, hall⟩, ?_⟩
    obtain h | ⟨x, hx, h⟩ := hone
    · obtain hle | hle := Nat.le_total m (f y)
      · exact .inr ⟨y, List.mem_cons_self, by rw [h, Nat.max_eq_right hle]⟩
      · exact .inl (by rw [h, Nat.max_eq_left hle])
    · exact .inr ⟨x, List.mem_cons_of_mem _ hx, h⟩

/-- The older of the oldest so far and another. -/
def older (b : Option (Nat × McAccess)) (x : Nat × McAccess) : Option (Nat × McAccess) :=
  match b with
  | none => some x
  | some y => if x.2.age > y.2.age then some x else b

theorem oldest_eq (l : List (Nat × McAccess)) : oldest l = l.foldl older none := rfl

theorem older_cases (b : Option (Nat × McAccess)) (x : Nat × McAccess) : older b x = some x ∨ older b x = b ∧ b.isSome = true := by
  unfold older
  split
  · exact .inl rfl
  · split
    · exact .inl rfl
    · exact .inr ⟨rfl, rfl⟩

theorem foldl_older_mem {l : List (Nat × McAccess)} {b : Option (Nat × McAccess)} {x : Nat × McAccess} (h : l.foldl older b = some x) :
    b = some x ∨ x ∈ l := by
  induction l generalizing b with
  | nil => exact .inl h
  | cons y l ih =>
    obtain hb | hx := ih h
    · obtain he | ⟨he, -⟩ := older_cases b y
      · exact .inr (Option.some.inj (he.symm.trans hb) ▸ List.mem_cons_self)
      · exact .inl (he.symm.trans hb)
    · exact .inr (List.mem_cons_of_mem _ hx)

theorem foldl_older_isSome (l : List (Nat × McAccess)) {b : Option (Nat × McAccess)} (h : b.isSome = true) : (l.foldl older b).isSome = true := by
  induction l generalizing b with
  | nil => exact h
  | cons y l ih =>
    obtain he | ⟨he, -⟩ := older_cases b y
    · exact ih (by rw [he]; rfl)
    · exact ih (by rw [he]; exact h)

theorem oldest_mem {l : List (Nat × McAccess)} {x : Nat × McAccess} (h : oldest l = some x) : x ∈ l :=
  (foldl_older_mem h).resolve_left nofun

theorem oldest_isSome {l : List (Nat × McAccess)} {x : Nat × McAccess} (h : x ∈ l) : ∃ y, oldest l = some y := by
  cases l with
  | nil => cases h
  | cons y l => exact Option.isSome_iff_exists.1 (foldl_older_isSome l rfl)

/-! ## Deficit round robin (R389) -/

/-- A class that has no turn in hand is given its quantum, once. -/
def topUp (a : Tab Nat × List Nat) (t : Nat × Nat) : Tab Nat × List Nat :=
  if a.2.contains t.1 then a else (Tab.put t.1 (Tab.getD a.1 t.1 0 + 64 * max 1 t.2) a.1, t.1 :: a.2)

/-- After its quantum every class of the list has at least 64 bytes in hand. -/
theorem le_getD_foldl_topUp (ts : List (Nat × Nat)) (a : Tab Nat × List Nat) (ha : ∀ k ∈ a.2, 64 ≤ Tab.getD a.1 k 0) (k : Nat)
    (hk : k ∈ a.2 ∨ k ∈ ts.map Prod.fst) : 64 ≤ Tab.getD (ts.foldl topUp a).1 k 0 := by
  induction ts generalizing a with
  | nil => exact ha k (hk.resolve_right List.not_mem_nil)
  | cons t ts ih =>
    rw [List.map_cons, List.mem_cons] at hk
    have hstep : (∀ j ∈ (topUp a t).2, 64 ≤ Tab.getD (topUp a t).1 j 0) ∧ (∀ j ∈ a.2, j ∈ (topUp a t).2) ∧ t.1 ∈ (topUp a t).2 := by
      unfold topUp
      split
      · next h => exact ⟨ha, fun _ => id, by simpa using h⟩
      · refine ⟨fun j hj => ?_, fun _ => List.mem_cons_of_mem _, List.mem_cons_self⟩
        rw [Tab.getD_put]
        split
        · omega
        · next hne => exact ha j ((List.mem_cons.1 hj).resolve_left hne)
    obtain ⟨hall, hkept, hnew⟩ := hstep
    refine ih _ hall ?_
    obtain h | rfl | h := hk
    · exact .inl (hkept k h)
    · exact .inl hnew
    · exact .inr h

/-- The class with more in hand, the lower key on a tie. -/
def fuller (d : Tab Nat) (b : Nat × Nat) (t : Nat × Nat) : Nat × Nat :=
  let x := Tab.getD d t.1 0
  if x > b.2 || (x == b.2 && t.1 < b.1) then (t.1, x) else b

theorem foldl_fuller_spec (d : Tab Nat) (ts : List (Nat × Nat)) (b : Nat × Nat) :
    b.2 ≤ (ts.foldl (fuller d) b).2 ∧ (∀ t ∈ ts, Tab.getD d t.1 0 ≤ (ts.foldl (fuller d) b).2) ∧
      (ts.foldl (fuller d) b = b ∨ ∃ t ∈ ts, (ts.foldl (fuller d) b).1 = t.1) := by
  induction ts generalizing b with
  | nil => exact ⟨Nat.le_refl _, List.forall_mem_nil _, .inl rfl⟩
  | cons t ts ih =>
    rw [List.foldl_cons]
    obtain ⟨hb, hall, hone⟩ := ih (fuller d b t)
    have hstep : b.2 ≤ (fuller d b t).2 ∧ Tab.getD d t.1 0 ≤ (fuller d b t).2 ∧ (fuller d b t = b ∨ (fuller d b t).1 = t.1) := by
      unfold fuller
      extract_lets x
      split
      · next h =>
        simp only [gt_iff_lt, Bool.or_eq_true, decide_eq_true_eq, Bool.and_eq_true, beq_iff_eq] at h
        exact ⟨by omega, Nat.le_refl _, .inr rfl⟩
      · next h =>
        simp only [gt_iff_lt, Bool.or_eq_true, decide_eq_true_eq, Bool.and_eq_true, beq_iff_eq] at h
        exact ⟨Nat.le_refl _, by omega, .inl rfl⟩
    obtain ⟨hle, hx, heq⟩ := hstep
    refine ⟨hle.trans hb, List.forall_mem_cons.2 ⟨hx.trans hb, hall⟩, ?_⟩
    obtain h | ⟨u, hu, h⟩ := hone
    · rw [h]
      exact heq.imp id fun h1 => ⟨t, List.mem_cons_self, h1⟩
    · exact .inr ⟨u, List.mem_cons_of_mem _ hu, h⟩

/-- Some class of the list has bytes in hand once quanta have been given out where none had 64. -/
theorem exists_deficit {d : Tab Nat} {ts : List (Nat × Nat)} (h : ts ≠ []) :
    ∃ t ∈ ts, 0 < Tab.getD (if ts.foldl (fun m t => max m (Tab.getD d t.1 0)) 0 < 64 then (ts.foldl topUp (d, [])).1 else d) t.1 0 := by
  obtain ⟨t, ht⟩ := List.exists_mem_of_ne_nil ts h
  split
  · have := le_getD_foldl_topUp ts (d, []) (fun _ h => nomatch h) t.1 (.inr (List.mem_map_of_mem ht))
    exact ⟨t, ht, by omega⟩
  · next hmost =>
    obtain ⟨-, -, h0 | ⟨u, hu, he⟩⟩ := foldl_max_spec (fun t : Nat × Nat => Tab.getD d t.1 0) ts 0
    · omega
    · exact ⟨u, hu, by omega⟩

/-- The turn is that of a class of the list. -/
theorem roundRobin_mem {l : List (Nat × McAccess)} (h : l ≠ []) : ∃ x ∈ l, (s.turn x.2).1 = (s.roundRobin q l).1 := by
  obtain ⟨t, ht, hpos⟩ := exists_deficit (d := (s.channel q).deficit) (ts := l.map fun x => s.turn x.2) (by simpa using h)
  obtain ⟨-, hall, hone⟩ := foldl_fuller_spec _ (l.map fun x => s.turn x.2) (2049, 0)
  have hle := hall t ht
  obtain heq | ⟨u, hu, heq⟩ := hone
  · rw [heq] at hle
    exact absurd hpos (Nat.not_lt.2 hle)
  · obtain ⟨x, hx, rfl⟩ := List.mem_map.1 hu
    exact ⟨x, hx, heq.symm⟩

/-! ## The choice -/

/-- The waiting accesses that may be served, with their places. -/
def State.servable (s : State) (q : Nat) (ws : List McAccess) : List (Nat × McAccess) :=
  (ws.zipIdx.map fun x => (x.2, x.1)).filter fun x => s.mayServe q x.2

theorem mem_servable {x : Nat × McAccess} : x ∈ s.servable q ws ↔ ws[x.1]? = some x.2 ∧ s.mayServe q x.2 = true := by
  rw [State.servable, List.mem_filter, List.mem_map]
  refine and_congr_left fun _ => ⟨?_, fun h => ⟨(x.2, x.1), List.mem_zipIdx_iff_getElem?.2 h, rfl⟩⟩
  rintro ⟨y, hy, rfl⟩
  exact List.mem_zipIdx_iff_getElem?.1 hy

/-- Those of highest priority. -/
def State.foremost (s : State) (q : Nat) (ws : List McAccess) : List (Nat × McAccess) :=
  (s.servable q ws).filter fun x => s.priority q ws x.2 == (s.servable q ws).foldl (fun m x => max m (s.priority q ws x.2)) 0

theorem mem_foremost {x : Nat × McAccess} (h : x ∈ s.foremost q ws) :
    x ∈ s.servable q ws ∧ ∀ y ∈ s.servable q ws, s.priority q ws y.2 ≤ s.priority q ws x.2 := by
  obtain ⟨hx, he⟩ := List.mem_filter.1 h
  obtain ⟨-, hall, -⟩ := foldl_max_spec (fun x : Nat × McAccess => s.priority q ws x.2) (s.servable q ws) 0
  rw [eq_of_beq he]
  exact ⟨hx, hall⟩

theorem foremost_ne_nil {x : Nat × McAccess} (h : x ∈ s.servable q ws) : s.foremost q ws ≠ [] := by
  obtain ⟨-, hall, hone⟩ := foldl_max_spec (fun x : Nat × McAccess => s.priority q ws x.2) (s.servable q ws) 0
  obtain h0 | ⟨y, hy, he⟩ := hone
  · exact List.ne_nil_of_mem (List.mem_filter.2 ⟨h, beq_of_eq (by have := hall x h; omega)⟩)
  · exact List.ne_nil_of_mem (List.mem_filter.2 ⟨hy, beq_of_eq he⟩)

/-- At E = 4 the turns of classes decide, at any other priority the age alone. -/
theorem choose_eq (s : State) (q : Nat) (ws : List McAccess) : s.choose q ws =
    if (s.servable q ws).foldl (fun m x => max m (s.priority q ws x.2)) 0 == 4 then
      (oldest ((s.foremost q ws).filter fun x => (s.turn x.2).1 == (s.roundRobin q (s.foremost q ws)).1)).map fun x =>
        (x.1, x.2, (s.roundRobin q (s.foremost q ws)).2)
    else (oldest (s.foremost q ws)).map fun x => (x.1, x.2, (s.channel q).deficit) := rfl

theorem mem_foremost_of_choose {i : Nat} {a : McAccess} {d : Tab Nat} (h : s.choose q ws = some (i, a, d)) : (i, a) ∈ s.foremost q ws := by
  rw [choose_eq] at h
  split at h
  · obtain ⟨x, hx, he⟩ := Option.map_eq_some_iff.1 h
    cases he
    exact List.mem_of_mem_filter (oldest_mem hx)
  · obtain ⟨x, hx, he⟩ := Option.map_eq_some_iff.1 h
    cases he
    exact oldest_mem hx

theorem choose_of_servable {x : Nat × McAccess} (h : x ∈ s.servable q ws) : ∃ i a d, s.choose q ws = some (i, a, d) := by
  have hne := foremost_ne_nil h
  rw [choose_eq]
  split
  · obtain ⟨y, hy, hturn⟩ := roundRobin_mem (s := s) (q := q) hne
    obtain ⟨z, hz⟩ := oldest_isSome (List.mem_filter.2 ⟨hy, beq_iff_eq.2 hturn⟩ :
      y ∈ (s.foremost q ws).filter fun x => (s.turn x.2).1 == (s.roundRobin q (s.foremost q ws)).1)
    exact ⟨_, _, _, by rw [hz]; rfl⟩
  · obtain ⟨y, hy⟩ := List.exists_mem_of_ne_nil _ hne
    obtain ⟨z, hz⟩ := oldest_isSome hy
    exact ⟨_, _, _, by rw [hz]; rfl⟩

theorem choose_of_none (h : ∀ a ∈ ws, s.mayServe q a = false) : s.choose q ws = none := by
  cases hc : s.choose q ws with
  | none => rfl
  | some x =>
    obtain ⟨hget, hmay⟩ := mem_servable.1 (mem_foremost (mem_foremost_of_choose hc)).1
    rw [h _ (List.mem_of_getElem? hget)] at hmay
    cases hmay

/-- The access that is chosen may be served, and no other that may has a higher priority. -/
theorem choose_highest {i : Nat} {a : McAccess} {d : Tab Nat} (h : s.choose q ws = some (i, a, d)) :
    ws[i]? = some a ∧ s.mayServe q a = true ∧ ∀ b ∈ ws, s.mayServe q b = true → s.priority q ws b ≤ s.priority q ws a := by
  obtain ⟨hmem, hall⟩ := mem_foremost (mem_foremost_of_choose h)
  obtain ⟨hget, hmay⟩ := mem_servable.1 hmem
  refine ⟨hget, hmay, fun b hb hb' => ?_⟩
  obtain ⟨j, hj⟩ := List.mem_iff_getElem?.1 hb
  exact hall (j, b) (mem_servable.2 ⟨hj, hb'⟩)

end Sys2Proof.Machine
end

section
/-! SUPPORT. An access slot of a channel (R178, R385, R386, R391). -/

namespace Sys2Proof.Machine

variable {s t : State} {q i : Nat} {ws : List McAccess} {a : McAccess} {d : Tab Nat}

/-! ## The slot's counts -/

/-- The channel once the slot serves an access of priority `e`. -/
def Channel.slot (c : Channel) (ws : List McAccess) (a : McAccess) (e : Nat) (d : Tab Nat) : Channel :=
  { c with
    deficit := d, copySlots := if a.kind = .copy then 0 else c.copySlots + 1
    backSlots := if a.kind = .background ∨ (∀ b ∈ ws, b.kind ≠ .background) then 0 else c.backSlots + 1
    reserve := if e = 15 then c.reserve + 64 else c.reserve
    copyPoint := if a.kind = .copy then c.copyPoint.map (· + 1) else c.copyPoint }

/-- The slot is counted, and runs that others' accesses disturb are repeatable no longer (R564). -/
def State.slotTaken (s : State) (q : Nat) (ws : List McAccess) (a : McAccess) (d : Tab Nat) : State :=
  (s.setChannel q ((s.channel q).slot ws a (s.priority q ws a) d)).sharedOn q a.kind

/-- A copy's line goes to the group's spare. -/
def State.slotMoved (s : State) (q : Nat) (ws : List McAccess) (a : McAccess) (d : Tab Nat) : State :=
  if a.kind == .copy then (s.slotTaken q ws a d).background (channelLoc q) (channelLoc (s.spareOf (groupOf q))) 64 else s.slotTaken q ws a d

/-- The access is charged to its class's meter. -/
def State.slotCharged (s : State) (q : Nat) (ws : List McAccess) (a : McAccess) (d : Tab Nat) : State :=
  match s.charged a.kind with
  | some (p, k) => (s.slotMoved q ws a d).modPav p fun v => v.putMeter k q fun m => m.charge ((s.channel q).placed a)
  | none => s.slotMoved q ws a d

theorem kind_placed (c : Channel) (a : McAccess) : (c.placed a).kind = a.kind := by
  unfold Channel.placed; split <;> rfl

theorem op_placed (c : Channel) (a : McAccess) : (c.placed a).op = a.op := by
  unfold Channel.placed; split <;> rfl

theorem errs_placed (c : Channel) (a : McAccess) : (c.placed a).errs = a.errs := by
  unfold Channel.placed; split <;> rfl

theorem line_placed (c : Channel) (a : McAccess) : (c.placed a).line = if a.kind = .copy then c.copyPoint.getD a.line else a.line := by
  simp only [Channel.placed, beq_iff_eq]
  split <;> rfl

theorem placed_of_ne_copy {c : Channel} (h : a.kind ≠ .copy) : c.placed a = a := if_neg (by simpa using h)

/-- A priority follows from the kind of access alone. -/
theorem priority_placed (s : State) (q : Nat) (ws : List McAccess) (c : Channel) (a : McAccess) :
    s.priority q ws (c.placed a) = s.priority q ws a := by
  rw [State.priority, State.priority, kind_placed]

/-- The channel as the slot leaves it, in the model's own words. -/
theorem slot_eq (c : Channel) (ws : List McAccess) (a : McAccess) (e : Nat) (d : Tab Nat) : c.slot ws a e d =
    { c with
      deficit := d, copySlots := if a.kind == .copy then 0 else c.copySlots + 1
      backSlots := if a.kind == .background || !(ws.any fun x => x.kind == .background) then 0 else c.backSlots + 1
      reserve := if e == 15 then c.reserve + 64 else c.reserve
      copyPoint := if a.kind == .copy then c.copyPoint.map (· + 1) else c.copyPoint } := by
  have hback : (a.kind == .background || !(ws.any fun x => x.kind == .background)) = true ↔
      a.kind = .background ∨ ∀ b ∈ ws, b.kind ≠ .background := by simp
  simp only [Channel.slot, beq_iff_eq, hback]

theorem exec_mcServeAccess_of_some (hq : q < 384) (hpop : s.fuse.populated q = true) (h : s.choose q ws = some (i, a, d)) :
    exec (.mcServeAccess q ws) s = .next (((s.slotCharged q ws a d).lineError q ((s.channel q).placed a)).answered i) := by
  refine (if_neg (by simpa using hq)).trans ((if_neg (by simp [hpop])).trans ?_)
  simp only [h, kind_placed, priority_placed, ← slot_eq]
  rfl

theorem exec_mcServeAccess_of_none (hq : q < 384) (hpop : s.fuse.populated q = true) (h : s.choose q ws = none) :
    exec (.mcServeAccess q ws) s
      = .next (s.setChannel q { s.channel q with copySlots := (s.channel q).copySlots + 1, backSlots := 0 }) := by
  refine (if_neg (by simpa using hq)).trans ((if_neg (by simp [hpop])).trans ?_)
  simp only [h]

/-! ## What the read of the line meets -/

theorem beds_sharedOn (s : State) (q : Nat) (k : McKind) : (s.sharedOn q k).beds = s.beds := by
  unfold State.sharedOn
  split
  · rfl
  · exact beds_foldl_unrepeatable ..

theorem beds_slotTaken (s : State) (q : Nat) (ws : List McAccess) (a : McAccess) (d : Tab Nat) :
    (s.slotTaken q ws a d).beds = { s.beds with channels := Tab.put q ((s.channel q).slot ws a (s.priority q ws a) d) s.beds.channels } := by
  rw [State.slotTaken, beds_sharedOn]
  rfl

theorem beds_slotCharged (s : State) (q : Nat) (ws : List McAccess) (a : McAccess) (d : Tab Nat) :
    (s.slotCharged q ws a d).beds = (s.slotTaken q ws a d).beds := by
  have hmoved : (s.slotMoved q ws a d).beds = (s.slotTaken q ws a d).beds := by
    unfold State.slotMoved
    split
    · exact beds_background ..
    · rfl
  unfold State.slotCharged
  split
  · exact hmoved
  · exact hmoved

/-- The slot makes no line bad, and moves no row to a shadow. -/
theorem slotCharged_line (s : State) (q : Nat) (ws : List McAccess) (a : McAccess) (d : Tab Nat) :
    (s.slotCharged q ws a d).beds.bad = s.beds.bad ∧ ((s.slotCharged q ws a d).channel q).outcome = (s.channel q).outcome := by
  have hbeds := (beds_slotCharged s q ws a d).trans (beds_slotTaken s q ws a d)
  refine ⟨by rw [hbeds]; rfl, ?_⟩
  rw [State.channel, hbeds]
  exact (congrArg Channel.outcome (Tab.getD_put_self q ((s.channel q).slot ws a (s.priority q ws a) d) {} s.beds.channels)).trans rfl

/-- A line that is written whole, or read without an error. -/
theorem lineError_of_clean (h : a.op = .whole ∨ (t.beds.bad (bedKey q (a.line * 64)) = false ∧ (t.channel q).outcome a.line a.errs = .clean)) :
    t.lineError q a = t := by
  unfold State.lineError
  obtain h | ⟨hbad, hout⟩ := h
  · simp [h]
  · simp [hbad, hout]

theorem lineError_of_corrected (hop : a.op ≠ .whole) (hbad : t.beds.bad (bedKey q (a.line * 64)) = false)
    (hout : (t.channel q).outcome a.line a.errs = .corrected) : t.lineError q a = t.bedCorrected (bedKey q (a.line * 64)) := by
  unfold State.lineError
  simp [hop, hbad, hout]

theorem exec_mcServeAccess_of_clean (hq : q < 384) (hpop : s.fuse.populated q = true) (h : s.choose q ws = some (i, a, d))
    (hclean : a.op = .whole ∨ (s.beds.bad (bedKey q (((s.channel q).placed a).line * 64)) = false ∧
      (s.channel q).outcome ((s.channel q).placed a).line a.errs = .clean)) :
    exec (.mcServeAccess q ws) s = .next ((s.slotCharged q ws a d).answered i) := by
  obtain ⟨hbad, hout⟩ := slotCharged_line s q ws a d
  rw [exec_mcServeAccess_of_some hq hpop h, lineError_of_clean (by rwa [op_placed, errs_placed, hbad, hout])]

theorem exec_mcServeAccess_of_corrected (hq : q < 384) (hpop : s.fuse.populated q = true) (h : s.choose q ws = some (i, a, d))
    (hop : a.op ≠ .whole) (hbad : s.beds.bad (bedKey q (((s.channel q).placed a).line * 64)) = false)
    (hout : (s.channel q).outcome ((s.channel q).placed a).line a.errs = .corrected) :
    exec (.mcServeAccess q ws) s
      = .next (((s.slotCharged q ws a d).bedCorrected (bedKey q (((s.channel q).placed a).line * 64))).answered i) := by
  obtain ⟨hbad', hout'⟩ := slotCharged_line s q ws a d
  rw [exec_mcServeAccess_of_some hq hpop h, lineError_of_corrected (by rwa [op_placed]) (by rwa [hbad']) (by rwa [errs_placed, hout'])]

/-! ## The charge, by kind (R385, R386) -/

theorem slotMoved_of_ne_copy (h : a.kind ≠ .copy) : s.slotMoved q ws a d = s.slotTaken q ws a d := if_neg (by simpa using h)

/-- What an access that is no speculation adds to its class's meter. -/
def Meter.serve (m : Meter) (a : McAccess) : Meter := { m with served := m.served + 64, latSum := m.latSum + a.age, latCount := m.latCount + 1 }

theorem charge_of_spec {p dva : Nat} (h : a.kind = .spec p dva) (m : Meter) : m.charge a = { m with served := m.served + 64 } := by
  rw [Meter.charge, h]

theorem charge_of_not_spec (h : ∀ p dva, a.kind ≠ .spec p dva) (m : Meter) : m.charge a = m.serve a := by
  unfold Meter.charge
  split
  · next p dva he => exact absurd he (h p dva)
  · rfl

theorem slotCharged_of_charged {p k : Nat} (hcopy : a.kind ≠ .copy) (h : s.charged a.kind = some (p, k)) :
    s.slotCharged q ws a d = (s.slotTaken q ws a d).modPav p fun v => v.putMeter k q fun m => m.charge a := by
  rw [State.slotCharged, h, placed_of_ne_copy hcopy, slotMoved_of_ne_copy hcopy]

theorem slotCharged_of_not_charged (h : s.charged a.kind = none) : s.slotCharged q ws a d = s.slotMoved q ws a d := by
  rw [State.slotCharged, h]

theorem slotCharged_tenant {p dva : Nat} (h : a.kind = .tenant p dva) : s.slotCharged q ws a d =
    (s.slotTaken q ws a d).modPav p fun v => v.putMeter ((s.pav p).classOf dva) q fun m => m.serve a := by
  rw [slotCharged_of_charged (by simp [h]) (by rw [h]; rfl)]
  simp only [charge_of_not_spec (a := a) (by simp [h])]

theorem slotCharged_window {w off : Nat} (h : a.kind = .window w off) : s.slotCharged q ws a d =
    (s.slotTaken q ws a d).modPav (Win.owner (s.window w).1) fun v =>
      v.putMeter ((s.pav (Win.owner (s.window w).1)).classOf (Win.base (s.window w).1 + off)) q fun m => m.serve a := by
  rw [slotCharged_of_charged (by simp [h]) (by rw [h]; rfl)]
  simp only [charge_of_not_spec (a := a) (by simp [h])]

theorem slotCharged_spec {p dva : Nat} (h : a.kind = .spec p dva) : s.slotCharged q ws a d =
    (s.slotTaken q ws a d).modPav p fun v => v.putMeter ((s.pav p).classOf dva) q fun m => { m with served := m.served + 64 } := by
  rw [slotCharged_of_charged (by simp [h]) (by rw [h]; rfl)]
  simp only [charge_of_spec h]

theorem slotCharged_copy (h : a.kind = .copy) : s.slotCharged q ws a d =
    (s.slotTaken q ws a d).background (channelLoc q) (channelLoc (s.spareOf (groupOf q))) 64 :=
  (slotCharged_of_not_charged (by rw [h]; rfl)).trans (if_pos (by rw [h]; rfl))

/-- A stream's access, and one of the package itself, changes no meter. -/
theorem slotCharged_unmetered (h : a.kind = .sys ∨ a.kind = .scrub ∨ a.kind = .background ∨ ∃ p n, a.kind = .stream p n) :
    s.slotCharged q ws a d = s.slotTaken q ws a d := by
  have hnone : s.charged a.kind = none ∧ a.kind ≠ .copy := by
    obtain h | h | h | ⟨p, n, h⟩ := h <;> rw [h] <;> exact ⟨rfl, nofun⟩
  rw [slotCharged_of_not_charged hnone.1, slotMoved_of_ne_copy hnone.2]

/-- Settles O21: the slot's counts and meters by the kind of the chosen access, which is of highest priority. -/
theorem accessSlotServesHighestPriority : Obligations.AccessSlotServesHighestPriority := by
  unfold Obligations.AccessSlotServesHighestPriority
  intro s q ws hq hpop
  refine ⟨fun i a d hchoose => ?_, fun hnone => exec_mcServeAccess_of_none hq hpop (choose_of_none hnone), fun ⟨a, ha, hmay⟩ => ?_⟩
  · intro c e line s1 key charged
    have hline : line = ((s.channel q).placed a).line := (line_placed c a).symm
    unfold key charged
    rw [hline]
    refine ⟨fun hclean => ?_, fun hop hbad hout hsys => ?_⟩
    · rw [exec_mcServeAccess_of_clean hq hpop hchoose hclean]
      refine ⟨fun p dva h => ?_, fun w off h => ?_, fun p dva h => ?_, fun h => ?_, fun h => ?_⟩
      · rw [slotCharged_tenant h]; rfl
      · rw [slotCharged_window h]; rfl
      · rw [slotCharged_spec h]; rfl
      · rw [slotCharged_copy h]; rfl
      · rw [slotCharged_unmetered h]; rfl
    · rw [exec_mcServeAccess_of_corrected hq hpop hchoose hop hbad hout, slotCharged_unmetered (.inl hsys)]
      rfl
  · obtain ⟨j, hj⟩ := List.mem_iff_getElem?.1 ha
    obtain ⟨i, b, d, hchoose⟩ := choose_of_servable (mem_servable.2 ⟨hj, hmay⟩ : (j, a) ∈ s.servable q ws)
    exact ⟨_, exec_mcServeAccess_of_some hq hpop hchoose, b, choose_highest hchoose⟩

end Sys2Proof.Machine
end

section
/-! SUPPORT. Walks of page tables read nothing of functions: what a walk finds is the same after a post (R187, R410). -/

namespace Sys2Proof.Machine

variable {s t : State} {p : Nat}

/-! ## Walks after a post -/

/-- The state with other functions. -/
def State.withFns (s : State) (f : Tab Fn) : State := { s with fns := f }

/-- An answer and the state after it, with other functions. -/
def withFnsSnd {α : Type} (f : Tab Fn) (r : α × State) : α × State := (r.1, r.2.withFns f)

theorem pav_withFns (s : State) (f : Tab Fn) (p : Nat) : (s.withFns f).pav p = s.pav p := rfl
theorem beds_withFns (s : State) (f : Tab Fn) : (s.withFns f).beds = s.beds := rfl
theorem readCs_withFns (s : State) (f : Tab Fn) (p : Nat) : (s.withFns f).readCs p = s.readCs p := rfl
theorem cachedAt_withFns (s : State) (f : Tab Fn) (un p level idx : Nat) : (s.withFns f).cachedAt un p level idx = s.cachedAt un p level idx := rfl
theorem draw_withFns (s : State) (f : Tab Fn) : (s.withFns f).draw = withFnsSnd f s.draw := rfl

theorem readMemEntry_withFns (s : State) (f : Tab Fn) (un p page dva level : Nat) :
    (s.withFns f).readMemEntry un p page dva level = withFnsSnd f (s.readMemEntry un p page dva level) := by
  rw [State.readMemEntry, State.readMemEntry, pav_withFns, beds_withFns, readCs_withFns]
  dsimp only
  generalize s.beds.badIn _ _ _ = b
  cases b with
  | none => split_ifs <;> rfl
  | some _ => split_ifs <;> rfl

theorem readEntry_withFns (s : State) (f : Tab Fn) (un p page dva level : Nat) :
    (s.withFns f).readEntry un p page dva level = withFnsSnd f (s.readEntry un p page dva level) := by
  simp only [State.readEntry, pav_withFns, beds_withFns, readCs_withFns, cachedAt_withFns]
  generalize s.cachedAt un p level (dvaIdx dva level) = c
  cases c with
  | none => exact readMemEntry_withFns ..
  | some e =>
    dsimp only
    rw [draw_withFns]
    simp only [withFnsSnd, readMemEntry_withFns]
    split_ifs <;> rfl

theorem walkLevel_withFns (s : State) (f : Tab Fn) {un p dva level page : Nat} {next : State → Nat → Walk × State}
    (hn : ∀ u a, next (u.withFns f) a = withFnsSnd f (next u a)) :
    (s.withFns f).walkLevel un p dva level page next = withFnsSnd f (s.walkLevel un p dva level page next) := by
  simp only [State.walkLevel, readEntry_withFns, pav_withFns]
  generalize s.readEntry un p page dva level = r
  obtain ⟨_ | e, u⟩ := r
  · rfl
  · simp only [withFnsSnd, hn]
    split_ifs <;> rfl

theorem walkFrom_withFns (s : State) (f : Tab Fn) (un p dva level page : Nat) :
    (s.withFns f).walkFrom un p dva level page = withFnsSnd f (s.walkFrom un p dva level page) := by
  induction level generalizing s page with
  | zero =>
    rw [walkFrom_zero, walkFrom_zero]
    exact walkLevel_withFns s f fun _ _ => rfl
  | succ level ih =>
    rw [walkFrom_succ, walkFrom_succ]
    exact walkLevel_withFns s f fun u a => ih u a

theorem walk_withFns (s : State) (f : Tab Fn) (un p dva : Nat) : ((s.withFns f).walk un p dva).1 = (s.walk un p dva).1 := by
  simp only [State.walk, pav_withFns, walkFrom_withFns]
  split_ifs <;> rfl

theorem homeOk_withFns (s : State) (f : Tab Fn) (p home len : Nat) : (s.withFns f).homeOk p home len = s.homeOk p home len := by
  simp only [State.homeOk, walk_withFns]

/-- A home meets R156 after a post as it did before. -/
theorem homeOk_postedAt (s : State) (fn slot p home len : Nat) : (s.postedAt fn slot).homeOk p home len = s.homeOk p home len :=
  homeOk_withFns s _ p home len

/-! ## A command that passes its checks -/

section
variable {fn slot k : Nat} {sel : (Nat → Nat) → Bool} {f : CmdForm}

/-- A command that passes its checks has its body's effect, a body that knows the post by its name. -/
theorem post_body {start : Nat → State → State} {body : Nat → Nat → State → State} (h : Passes s fn slot sel f)
    (hs : ∀ k t, start k t = t.start k f (body k)) : post fn slot sel start s =
      .next (body (s.postName fn slot) ((s.postedAt fn slot).target (s.postName fn slot)) (s.postedAt fn slot)) := by
  rw [post_starts h.starts, hs, start_passes h]

/-- The name of a post of a slot is none under which a member keeps a command (R416). -/
theorem postName_lt (h : Posts s fn slot sel) : s.postName fn slot < 2 ^ 50 := by
  have := h.fnOk
  have := h.slotOk
  have := h.fresh
  unfold State.postName postOf
  omega

/-- Post `k` is of a command in progress that holds its slot. -/
structure Holds (s : State) (k : Nat) : Prop where
  live : replayPost k = false
  mine : Tab.find k s.orphans = none
  slot : k % 4 < (s.fn (postFn k)).slots.length
  st : (s.mb k).st = 1
  gen : (s.mb k).gen = k / 2048

theorem holds_postedAt (h : Posts s fn slot sel) : Holds (s.postedAt fn slot) (s.postName fn slot) := by
  have hmb := Posts.mb_postedAt h
  have hgen : s.postName fn slot / 2048 = (s.slotAt fn slot).gen := gen_postOf h.fnOk h.slotOk
  refine ⟨not_replayPost h.fnOk h.slotOk h.fresh, h.mine, ?_, by rw [hmb]; rfl, by rw [hmb, hgen]; rfl⟩
  rw [State.postName, slot_postOf h.slotOk, postFn_postOf h.fnOk h.slotOk, State.postedAt, State.setMb, State.postName, postFn_postOf h.fnOk h.slotOk,
    State.fn_setFn_self]
  simpa [setNth, h.four] using h.slotOk

/-- What a slot holds, by the functions and the orphans. -/
theorem mb_congr (hk : replayPost k = false) (hf : t.fns = s.fns) (ho : t.orphans = s.orphans) : t.mb k = s.mb k := by
  simp only [State.mb, hk, State.fn, hf, ho, Bool.false_eq_true, if_false]

theorem Holds.congr (h : Holds s k) (hf : t.fns = s.fns) (ho : t.orphans = s.orphans) : Holds t k where
  live := h.live
  mine := by rw [ho]; exact h.mine
  slot := by simpa only [State.fn, hf] using h.slot
  st := by rw [mb_congr h.live hf ho]; exact h.st
  gen := by rw [mb_congr h.live hf ho]; exact h.gen

theorem mb_setMb_self (hlive : replayPost k = false) (hmine : Tab.find k s.orphans = none) (hslot : k % 4 < (s.fn (postFn k)).slots.length)
    (m : MbSlot) : (s.setMb k m).mb k = m := by
  simp only [State.mb, hlive, Bool.false_eq_true, if_false]
  show (Tab.find k s.orphans).getD _ = m
  rw [hmine, Option.getD_none, State.setMb, State.fn_setFn_self]
  simp [nthD, setNth, hslot]

theorem mb_sendVector (s : State) (f v k : Nat) : (s.sendVector f v).mb k = s.mb k := by
  unfold State.sendVector
  dsimp only
  split
  · have hslots : ∀ g, ((s.setFn f { s.fn f with pba := (s.fn f).pba ||| BitVec.ofNat 8 (2 ^ v) }).fn g).slots = (s.fn g).slots := fun g => by
      by_cases hg : g = f
      · rw [hg, State.fn_setFn_self]
      · rw [State.fn_setFn_ne _ _ _ _ hg]
    simp only [State.mb, hslots]
    rfl
  · rfl

/-- A command that holds its slot completes there (R411). -/
theorem Holds.complete (h : Holds s k) (status : Nat) (rsp : List Nat) :
    ((s.complete k status rsp).mb k).st = 2 ∧ ((s.complete k status rsp).mb k).status = BitVec.ofNat 8 status := by
  unfold State.complete
  extract_lets m w0 words m' u
  have hm : u.mb k = m' := mb_setMb_self h.live h.mine h.slot m'
  rw [if_neg (by simp [m, h.st, h.gen]), if_neg (by simp [h.mine])]
  split
  · rw [mb_sendVector, hm]
    exact ⟨rfl, rfl⟩
  · rw [hm]
    exact ⟨rfl, rfl⟩

end

end Sys2Proof.Machine
end

section
/-! SUPPORT. MODEL_LOAD: a free handle for a good home (R156, R157). -/

namespace Sys2Proof.Machine

variable {s t : State} {fn slot p k h : Nat} {sl : Slice}

/-! ## The choice of a handle -/

theorem freeHandle_cases (taken : List Nat) (n h : Nat) : (0 < freeHandle taken n h ∧ freeHandle taken n h < 2 ^ 24 ∧ freeHandle taken n h ∉ taken) ∨
    ∀ j < n, (h + j) % 2 ^ 24 ∈ 0 :: taken := by
  induction n generalizing h with
  | zero => exact .inr fun j hj => absurd hj (Nat.not_lt_zero j)
  | succ n ih =>
    by_cases hh : h % 2 ^ 24 ∈ 0 :: taken
    · have hstep : freeHandle taken (n + 1) h = freeHandle taken n (h % 2 ^ 24 + 1) := by
        rw [freeHandle]
        exact if_pos (by simpa using hh)
      rw [hstep]
      refine (ih (h % 2 ^ 24 + 1)).imp_right fun hall j hj => ?_
      cases j with
      | zero => exact hh
      | succ j =>
        have := hall j (by omega)
        rwa [show h + (j + 1) = h + 1 + j by omega, Nat.add_mod, ← Nat.mod_add_mod h, ← Nat.add_mod]
    · have hstep : freeHandle taken (n + 1) h = h % 2 ^ 24 := by
        rw [freeHandle]
        exact if_neg (by simpa using hh)
      rw [hstep]
      rw [List.mem_cons, not_or] at hh
      exact .inl ⟨Nat.pos_of_ne_zero hh.1, Nat.mod_lt _ (by norm_num), hh.2⟩

/-- Fewer than 2^24 handles cannot all be taken: the search finds a free one (R157). -/
theorem freeHandle_free {taken : List Nat} (hlen : taken.length + 2 ≤ 2 ^ 24) (h : Nat) :
    0 < freeHandle taken (taken.length + 2) h ∧ freeHandle taken (taken.length + 2) h < 2 ^ 24 ∧ freeHandle taken (taken.length + 2) h ∉ taken := by
  refine (freeHandle_cases taken (taken.length + 2) h).resolve_right fun hall => ?_
  -- as many different numbers would lie in a list that is shorter
  have hnodup : ((List.range (taken.length + 2)).map fun j => (h + j) % 2 ^ 24).Nodup :=
    List.Nodup.map_on (fun x hx y hy hxy => by rw [List.mem_range] at hx hy; omega) List.nodup_range
  have hsub : ((List.range (taken.length + 2)).map fun j => (h + j) % 2 ^ 24) ⊆ 0 :: taken := fun x hx => by
    obtain ⟨j, hj, rfl⟩ := List.mem_map.1 hx
    exact hall j (List.mem_range.1 hj)
  have := (List.subperm_of_subset hnodup hsub).length_le
  simp at this

/-! ## Commands on slices of a pavilion that is no member of a span -/

/-- A command that no other member shares completes at once. -/
theorem finish_of_unshared (hk : k < 2 ^ 50) (hs : (s.pav p).shared = []) (status : Nat) (rsp : List Nat) :
    s.finish p k status rsp = s.complete k status rsp := by
  unfold State.finish
  dsimp only
  rw [hs]
  exact if_neg (Nat.not_le.2 hk)

theorem share_of_not_span (hspan : (s.pav p).isSpan = false) (k h : Nat) (words : List Nat) : s.share p k h words = s :=
  if_pos (by simp [hspan])

/-- Finishing a command of a pavilion with none shared tells functions and links alone. -/
theorem told_finish (hs : (s.pav p).shared = []) (k status : Nat) (rsp : List Nat) : Told s (s.finish p k status rsp) := by
  unfold State.finish
  dsimp only
  rw [hs]
  exact .ite Told.refl.syncSend Told.refl.complete

theorem pav_modPav_self (s : State) (p : Nat) (f : Pav → Pav) : (s.modPav p f).pav p = f (s.pav p) := State.pav_setPav_self ..

theorem modSlice_of_find (hf : Tab.find h (s.pav p).slices = some sl) (f : Slice → Slice) :
    s.modSlice p h f = s.setPav p { s.pav p with slices := Tab.put h (f sl) (s.pav p).slices } := by
  rw [State.modSlice, State.modPav, hf]

/-! ## MODEL_LOAD -/

theorem exec_modelLoad (hp : Passes s fn slot (opc 0x20) modelLoadForm) :
    let t := s.postedAt fn slot
    let m := (s.slotAt fn slot).posted
    exec (.modelLoad fn slot) s = .next (t.loadModel (s.postName fn slot) (t.target (s.postName fn slot)) 0 (m.w2 2) (m.w2 4) (m.w 6) (m.w2 7)) := by
  rw [← Posts.mb_postedAt hp.starts.posts]
  exact post_body (body := fun k p s => s.loadModel k p 0 ((s.mb k).w2 2) ((s.mb k).w2 4) ((s.mb k).w 6) ((s.mb k).w2 7)) hp fun _ _ => rfl

section
variable {home len o wrap : Nat}

/-- A home that is not good is refused (R156). -/
theorem loadModel_of_bad (hk : k < 2 ^ 50) (hs : (s.pav p).shared = []) (hhome : s.homeOk p home len = false) :
    s.loadModel k p 0 home len o wrap = s.complete k 0x01 [] := by
  rw [← finish_of_unshared hk hs]
  exact if_pos (by simp [hhome])

/-- The slice that MODEL_LOAD registers: none of its pieces is resident (R157). -/
def loadedSlice (home len o : Nat) (now : Word64) : Slice :=
  { home := BitVec.ofNat 64 home, pieces := len / 65536, code := bitAt o 1, lastUse := now }

/-- The handle that Gaold chooses for a new slice. -/
def State.newHandle (s : State) (p : Nat) : Nat :=
  freeHandle ((s.pav p).slices.map Prod.fst) (((s.pav p).slices.map Prod.fst).length + 2) s.draw.1.toNat

theorem loadSlice_new (s : State) (k p : Nat) (sl : Slice) : s.loadSlice k p 0 false sl =
    ((s.addSlice p sl).2.share p k (s.newHandle p) (s.sliceWords k)).finish p k 0 [s.newHandle p, 0] := rfl

/-- A good home without FILL or SEALED is registered under a new handle, and the command completes. -/
theorem loadModel_of_good (hk : k < 2 ^ 50) (hs : (s.pav p).shared = []) (hspan : (s.pav p).isSpan = false) (hhome : s.homeOk p home len = true)
    (hcount : s.sliceCount p < 65536) (hfill : bitAt o 0 = false) (hsealed : bitAt o 2 = false) :
    s.loadModel k p 0 home len o wrap = (s.addSlice p (loadedSlice home len o s.now)).2.complete k 0 [s.newHandle p, 0] := by
  have hload : s.loadModel k p 0 home len o wrap = s.loadSlice k p 0 false (loadedSlice home len o s.now) := by
    unfold State.loadModel
    rw [hhome, hsealed, hfill]
    exact (if_neg (by simp)).trans (if_neg (Nat.not_le.2 hcount))
  have hpav : ((s.addSlice p (loadedSlice home len o s.now)).2.pav p) =
      { s.pav p with slices := Tab.put (s.newHandle p) (loadedSlice home len o s.now) (s.pav p).slices } := pav_modPav_self ..
  rw [hload, loadSlice_new, share_of_not_span (by rw [hpav]; exact hspan), finish_of_unshared hk (by rw [hpav]; exact hs)]

theorem newHandle_free (hcount : s.sliceCount p < 65536) :
    Tab.find (s.newHandle p) (s.pav p).slices = none ∧ 0 < s.newHandle p ∧ s.newHandle p < 2 ^ 24 := by
  have hlen : ((s.pav p).slices.map Prod.fst).length + 2 ≤ 2 ^ 24 := by
    unfold State.sliceCount at hcount
    rw [List.length_map]
    omega
  obtain ⟨hpos, hlt, hnot⟩ := freeHandle_free hlen s.draw.1.toNat
  exact ⟨Tab.find_eq_none hnot, hpos, hlt⟩

end

end Sys2Proof.Machine
end

section
/-! SUPPORT. MODEL_PIN, its UNPIN and MODEL_EVICT (R157, R163 to R165, R416). -/

namespace Sys2Proof.Machine

variable {s t : State} {fn slot p k h : Nat} {sl : Slice} {x : Shared}

/-! ## MODEL_PIN -/

theorem exec_modelPin (hp : Passes s fn slot (fun w => opc 0x21 w && w 3 % 2 == 0) pinForm) :
    let t := s.postedAt fn slot
    exec (.modelPin fn slot) s = .next (t.pinSlice (t.target (s.postName fn slot)) (s.postName fn slot) ((s.slotAt fn slot).posted.w 2)) := by
  rw [← Posts.mb_postedAt hp.starts.posts]
  exact post_body (body := fun k p s => s.pinSlice p k ((s.mb k).w 2)) hp fun _ _ => rfl

theorem foldl_add_if {α : Type} (c : α → Bool) (f : α → Nat) (l : List α) (n : Nat) :
    l.foldl (fun n x => if c x then n + f x else n) n = n + ((l.filter c).map f).sum := by
  induction l generalizing n with
  | nil => rfl
  | cons x l ih =>
    rw [List.foldl_cons, ih]
    by_cases hx : c x = true
    · rw [if_pos hx, List.filter_cons_of_pos hx, List.map_cons, List.sum_cons, Nat.add_assoc]
    · rw [if_neg hx, List.filter_cons_of_neg hx]

/-- Pieces of the slices that are pinned beside one. -/
def Pav.pinnedBeside (v : Pav) (h : Nat) : Nat := ((v.slices.filter fun x => x.2.pinned && x.1 != h).map fun x => x.2.pieces).sum

theorem pinSlice_of_none (hk : k < 2 ^ 50) (hs : (s.pav p).shared = []) (hf : Tab.find h (s.pav p).slices = none) :
    s.pinSlice p k h = s.complete k 0x02 [] := by
  rw [← finish_of_unshared hk hs]
  unfold State.pinSlice
  dsimp only
  rw [hf]

section
variable (hk : k < 2 ^ 50) (hs : (s.pav p).shared = []) (hf : Tab.find h (s.pav p).slices = some sl)
include hf

/-- Within the capacity the slice is pinned, and filled unless it is whole (R164). -/
theorem pinSlice_of_some : s.pinSlice p k h =
    if s.orangeryPieces p < (s.pav p).pinnedBeside h + sl.pieces then s.finish p k 0x03 []
    else
      let s1 := (s.share p k h (s.sliceWords k)).modSlice p h fun x => { x with pinned := true }
      if sl.residentCount == sl.pieces then s1.finish p k 0 [sl.pieces] else s1.beginFill p h (some k) := by
  have hsum := foldl_add_if (fun x : Nat × Slice => x.2.pinned && x.1 != h) (fun x => x.2.pieces) (s.pav p).slices 0
  rw [Nat.zero_add] at hsum
  unfold State.pinSlice Pav.pinnedBeside
  dsimp only
  rw [hf, ← hsum]

include hk hs

theorem pinSlice_of_beyond (hcap : s.orangeryPieces p < (s.pav p).pinnedBeside h + sl.pieces) : s.pinSlice p k h = s.complete k 0x03 [] := by
  rw [pinSlice_of_some hf, if_pos hcap, finish_of_unshared hk hs]

theorem pinSlice_of_whole (hcap : (s.pav p).pinnedBeside h + sl.pieces ≤ s.orangeryPieces p) (hspan : (s.pav p).isSpan = false)
    (hwhole : sl.residentCount = sl.pieces) :
    s.pinSlice p k h = (s.modSlice p h fun x => { x with pinned := true }).complete k 0 [sl.pieces] := by
  rw [pinSlice_of_some hf, if_neg (Nat.not_lt.2 hcap), share_of_not_span hspan]
  refine (if_pos (beq_of_eq hwhole)).trans (finish_of_unshared hk ?_ 0 _)
  rw [modSlice_of_find hf, State.pav_setPav_self]
  exact hs

omit hk hs

theorem pinSlice_of_part (hcap : (s.pav p).pinnedBeside h + sl.pieces ≤ s.orangeryPieces p) (hspan : (s.pav p).isSpan = false)
    (hpart : sl.residentCount ≠ sl.pieces) :
    s.pinSlice p k h = (s.modSlice p h fun x => { x with pinned := true }).beginFill p h (some k) := by
  rw [pinSlice_of_some hf, if_neg (Nat.not_lt.2 hcap), share_of_not_span hspan]
  exact if_neg (by simpa using hpart)

end

/-! ## UNPIN -/

theorem exec_modelUnpin (hp : Passes s fn slot (fun w => opc 0x21 w && w 3 % 2 == 1) pinForm) :
    let t := s.postedAt fn slot
    exec (.modelUnpin fn slot) s = .next (t.unpinSlice (t.target (s.postName fn slot)) (s.postName fn slot) ((s.slotAt fn slot).posted.w 2)) := by
  rw [← Posts.mb_postedAt hp.starts.posts]
  exact post_body (body := fun k p s => s.unpinSlice p k ((s.mb k).w 2)) hp fun _ _ => rfl

theorem unpinSlice_of_none (hk : k < 2 ^ 50) (hs : (s.pav p).shared = []) (hf : Tab.find h (s.pav p).slices = none) :
    s.unpinSlice p k h = s.complete k 0x02 [] := by
  rw [← finish_of_unshared hk hs]
  unfold State.unpinSlice
  rw [hf]

theorem unpinSlice_of_some (hf : Tab.find h (s.pav p).slices = some sl) : s.unpinSlice p k h =
    ((s.share p k h (s.sliceWords k)).modSlice p h fun x => { x with pinned := false }).finish p k 0 [sl.residentCount] := by
  unfold State.unpinSlice
  rw [hf]

theorem unpinSlice_of_not_span (hk : k < 2 ^ 50) (hs : (s.pav p).shared = []) (hf : Tab.find h (s.pav p).slices = some sl)
    (hspan : (s.pav p).isSpan = false) :
    s.unpinSlice p k h = (s.modSlice p h fun x => { x with pinned := false }).complete k 0 [sl.residentCount] := by
  rw [unpinSlice_of_some hf, share_of_not_span hspan, finish_of_unshared hk]
  rw [modSlice_of_find hf, State.pav_setPav_self]
  exact hs

/-! ### UNPIN of a span -/

theorem orphans_syncForward (s : State) (x : SyncItem) : (s.syncForward x).orphans = s.orphans := by
  unfold State.syncForward
  split <;> rfl

theorem orphans_syncSend (s : State) (pkg : Nat) (m : SyncMsg) : (s.syncSend pkg m).orphans = s.orphans := by
  unfold State.syncSend
  split
  · rfl
  · exact orphans_syncForward ..

/-- Messages to the other members of a span change no mailbox slot. -/
theorem slots_syncAll (s : State) (p : Nat) (m : SyncMsg) : (s.syncAll p m).fns = s.fns ∧ (s.syncAll p m).orphans = s.orphans := by
  unfold State.syncAll
  refine ⟨foldl_unchanged State.fns (fun u r => ?_) .., foldl_unchanged State.orphans (fun u r => ?_) ..⟩
  · split
    · rfl
    · exact fns_syncSend ..
  · split
    · rfl
    · exact orphans_syncSend ..

/-- A command that rank 0 of a span has passed to the others, before it is done here (R416). -/
def Pav.sharing (v : Pav) (own : Option (Nat × List Nat)) : Shared := { left := (List.range v.spanLast).map (· + 1), own := own }

/-- Rank 0 passes a command on a slice that has its handle already. -/
theorem share_of_span (hk : k < 2 ^ 50) (hspan : (s.pav p).isSpan = true) {words : List Nat} (hop : nthD words 0 0 % 256 ≠ 0x20) (h : Nat) :
    s.share p k h words = (s.modPav p fun v => { v with shared := Tab.put k (v.sharing none) v.shared }).syncAll p
      (.slice (s.pav p).spanId k h words (s.pav p).winding) := by
  have hhandle : (if nthD words 0 0 % 256 == 0x20 then h else 0) = 0 := if_neg (by simpa using hop)
  unfold State.share
  dsimp only
  rw [hhandle, if_neg (by simp only [hspan, ge_iff_le, Nat.not_le.2 hk]; decide)]
  rfl

/-- While another member is to complete a shared command, it stays open. -/
theorem settleShared_of_left (hf : Tab.find k (s.pav p).shared = some x) (hleft : x.left ≠ []) : s.settleShared p k = s := by
  obtain ⟨left, own, status, handle⟩ := x
  unfold State.settleShared
  rw [hf]
  cases left with
  | nil => exact absurd rfl hleft
  | cons r left => rfl

theorem finish_of_sharing (hk : k < 2 ^ 50) (hs : (s.pav p).shared = [(k, x)]) (hleft : x.left ≠ []) (status : Nat) (rsp : List Nat) :
    s.finish p k status rsp = s.modPav p fun v => { v with shared := [(k, { x with own := some (status, rsp) })] } := by
  have hput : Tab.put k { x with own := some (status, rsp) } (s.pav p).shared = [(k, { x with own := some (status, rsp) })] := by
    rw [hs]
    exact Tab.put_put k _ x []
  have hfind : Tab.find k (s.pav p).shared = some x := by
    rw [hs]
    exact Tab.find_put_self k x []
  unfold State.finish
  dsimp only
  rw [hfind]
  refine (if_neg (Nat.not_le.2 hk)).trans ?_
  have hmod : (s.modPav p fun v => { v with shared := Tab.put k { x with own := some (status, rsp) } v.shared }) =
      s.modPav p fun v => { v with shared := [(k, { x with own := some (status, rsp) })] } := by
    unfold State.modPav
    dsimp only
    rw [hput]
  dsimp only
  rw [hmod]
  exact settleShared_of_left (x := { x with own := some (status, rsp) }) (by rw [pav_modPav_self]; exact Tab.find_put_self k _ []) hleft

/-! ## MODEL_EVICT -/

theorem exec_modelEvict (hp : Passes s fn slot (opc 0x22) evictForm) :
    let t := s.postedAt fn slot
    let m := (s.slotAt fn slot).posted
    exec (.modelEvict fn slot) s
      = .next (t.evictNow (t.target (s.postName fn slot)) (s.postName fn slot) (m.w 2) (m.w 3 % 2 == 1)) := by
  rw [← Posts.mb_postedAt hp.starts.posts]
  exact post_body (body := fun k p s => s.evictNow p k ((s.mb k).w 2) ((s.mb k).w 3 % 2 == 1)) hp fun _ _ => rfl

/-- A slice without a fill, with its resident pieces only (R162). -/
def Slice.settled (sl : Slice) : Slice := { sl with filling := none, posts := [], resident := sl.resident.filter fun x => x.2.resident }

/-- The slice's fill has ended, and no run waits for it. -/
def State.fillEnded (s : State) (p h : Nat) (sl : Slice) : State :=
  s.modPav p fun v => { v with slices := Tab.put h sl.settled v.slices
                               runs := v.runs.map fun r => { r with filling := r.filling.filter fun x => x != h } }

/-- The end of a fill answers the posts that wait for it, and changes nothing else. -/
theorem told_endFill (hs : (s.pav p).shared = []) (hf : Tab.find h (s.pav p).slices = some sl) : Told (s.fillEnded p h sl) (s.endFill p h) := by
  have hshared : ((s.fillEnded p h sl).pav p).shared = [] := (congrArg Pav.shared (pav_modPav_self ..)).trans hs
  have hfold : s.endFill p h = sl.posts.foldl (fun u k => u.finish p k 0 (if (u.mb k).w 0 % 256 == 0x20 then [h, sl.residentCount] else [sl.residentCount]))
      (s.fillEnded p h sl) := by
    unfold State.endFill
    rw [hf]
    rfl
  rw [hfold]
  exact Told.refl.foldl fun u k hu => hu.update (told_finish (by rw [hu.pav]; exact hshared) ..).eq

/-- The slice once all its pieces have been evicted. -/
def Slice.evicted (sl : Slice) : Slice := { sl with resident := [] }

theorem evictSlice_of_find (hf : Tab.find h (s.pav p).slices = some sl) :
    s.evictSlice p h = s.setPav p { s.pav p with slices := Tab.put h sl.evicted (s.pav p).slices } := modSlice_of_find hf _

/-- The state once a slice has been evicted and its fill has ended. -/
def State.evicted (s : State) (p h : Nat) (sl : Slice) : State := (s.evictSlice p h).fillEnded p h sl.evicted

theorem told_evict (hs : (s.pav p).shared = []) (hf : Tab.find h (s.pav p).slices = some sl) :
    Told (s.evicted p h sl) ((s.evictSlice p h).endFill p h) := by
  have hpav : (s.evictSlice p h).pav p = { s.pav p with slices := Tab.put h sl.evicted (s.pav p).slices } := by
    rw [evictSlice_of_find hf, State.pav_setPav_self]
  exact told_endFill (by rw [hpav]; exact hs) (by rw [hpav]; exact Tab.find_put_self ..)

/-- Beside the slice, only the runs that waited for its fill change. -/
theorem pav_evicted (hf : Tab.find h (s.pav p).slices = some sl) : (s.evicted p h sl).pav p =
    { s.pav p with slices := Tab.put h sl.evicted.settled (s.pav p).slices
                   runs := (s.pav p).runs.map fun r => { r with filling := r.filling.filter fun x => x != h } } := by
  unfold State.evicted State.fillEnded
  rw [pav_modPav_self, evictSlice_of_find hf, State.pav_setPav_self]
  dsimp only
  rw [Tab.put_put]

theorem beds_evicted (hf : Tab.find h (s.pav p).slices = some sl) : (s.evicted p h sl).beds = s.beds := by
  unfold State.evicted
  rw [evictSlice_of_find hf]
  rfl

theorem zeroHome_of_no_key (hf : Tab.find h (s.pav p).slices = some sl) (hkey : sl.key = none) : s.zeroHome p h = s := by
  unfold State.zeroHome
  rw [hf]
  exact if_pos (by simp [hkey])

/-- In a table of rising keys, an entry that is put and taken out leaves the table without its key's entry. -/
theorem Tab.drop_put {α : Type} {k : Nat} {a b : α} {t : Tab α} (hsorted : (t.map Prod.fst).Pairwise (· < ·)) (hf : Tab.find k t = some b) :
    Tab.drop k (Tab.put k a t) = Tab.drop k t := by
  induction t with
  | nil => cases hf
  | cons c t ih =>
    rw [List.map_cons, List.pairwise_cons] at hsorted
    by_cases hk : c.1 = k
    · simp [Tab.put, Tab.drop, hk]
    · have hf' : Tab.find k t = some b := by simpa [Tab.find, hk] using hf
      have hlt : c.1 < k := hsorted.1 k (List.mem_map_of_mem (Tab.mem_of_find hf'))
      simp [Tab.put, Tab.drop, hk, Nat.lt_asymm hlt, ih hsorted.2 hf']

theorem evictNow_of_none (hk : k < 2 ^ 50) (hs : (s.pav p).shared = []) (hf : Tab.find h (s.pav p).slices = none) (release : Bool) :
    s.evictNow p k h release = s.complete k 0x02 [] := by
  rw [← finish_of_unshared hk hs]
  exact if_pos (by simp [hf])

section
variable (hk : k < 2 ^ 50) (hs : (s.pav p).shared = []) (hf : Tab.find h (s.pav p).slices = some sl)
include hk hs hf

theorem evictNow_of_listed (hlist : (s.pav p).lists h = true) : s.evictNow p k h true = s.complete k 0x05 [] := by
  rw [← finish_of_unshared hk hs]
  exact (if_neg (by simp [hf])).trans (if_pos (by simp [hlist]))

/-- A slice that is evicted keeps its handle (R165). -/
theorem evictNow_of_kept (hspan : (s.pav p).isSpan = false) : s.evictNow p k h false = ((s.evictSlice p h).endFill p h).complete k 0 [] := by
  have hpav := congrArg Pav.shared ((told_evict hs hf).pav p)
  refine (if_neg (by simp [hf])).trans ((if_neg (by simp)).trans ?_)
  rw [share_of_not_span hspan]
  exact finish_of_unshared hk (hpav.trans (by rw [pav_evicted hf]; exact hs)) 0 []

/-- A slice that is released gives up its handle, and no sealed home is to be zeroed (R157, R493). -/
theorem evictNow_of_released (hspan : (s.pav p).isSpan = false) (hlist : (s.pav p).lists h = false) (hkey : sl.key = none) :
    s.evictNow p k h true = (((s.evictSlice p h).endFill p h).modPav p fun v => { v with slices := Tab.drop h v.slices }).complete k 0 [] := by
  have hpav := ((told_evict hs hf).pav p).trans (pav_evicted hf)
  refine (if_neg (by simp [hf])).trans ((if_neg (by simp [hlist])).trans ?_)
  rw [share_of_not_span hspan]
  dsimp only
  rw [if_pos rfl, zeroHome_of_no_key (sl := sl.evicted.settled) (by rw [hpav]; exact Tab.find_put_self ..) hkey]
  exact finish_of_unshared hk (by rw [pav_modPav_self, hpav]; exact hs) 0 []

end

end Sys2Proof.Machine
end

section
/-! SUPPORT. UNPIN at rank 0 of a span (R416). -/

namespace Sys2Proof.Machine

variable {s t : State} {fn slot p k h : Nat} {sl : Slice}

section
variable (hk : k < 2 ^ 50) (hs : (s.pav p).shared = []) (hspan : (s.pav p).isSpan = true) (hop : (s.mb k).w 0 % 256 ≠ 0x20)
include hk hspan hop

theorem share_sliceWords (h : Nat) : s.share p k h (s.sliceWords k) =
    (s.modPav p fun v => { v with shared := Tab.put k (v.sharing none) v.shared }).syncAll p
      (.slice (s.pav p).spanId k h (s.sliceWords k) (s.pav p).winding) := share_of_span hk hspan (words := s.sliceWords k) hop h

/-- Sharing a command keeps every mailbox slot. -/
theorem slots_share (h : Nat) : (s.share p k h (s.sliceWords k)).fns = s.fns ∧ (s.share p k h (s.sliceWords k)).orphans = s.orphans := by
  rw [share_sliceWords hk hspan hop]
  exact slots_syncAll ..

include hs

theorem pav_share (h : Nat) : (s.share p k h (s.sliceWords k)).pav p = { s.pav p with shared := [(k, (s.pav p).sharing none)] } := by
  rw [share_sliceWords hk hspan hop, Told.refl.syncAll.pav, pav_modPav_self, hs]
  rfl

variable (hf : Tab.find h (s.pav p).slices = some sl)
include hf

/-- The slice is unpinned in the shared state. -/
theorem pav_share_unpin (h' : Nat) : ((s.share p k h' (s.sliceWords k)).modSlice p h fun x => { x with pinned := false }).pav p =
    { s.pav p with slices := Tab.put h { sl with pinned := false } (s.pav p).slices, shared := [(k, (s.pav p).sharing none)] } := by
  have hpav := pav_share hk hs hspan hop h'
  rw [modSlice_of_find (sl := sl) (by rw [hpav]; exact hf), State.pav_setPav_self, hpav]

/-- The command waits for the other members once it is done here. -/
theorem unpinSlice_of_span (hlast : 0 < (s.pav p).spanLast) : s.unpinSlice p k h =
    ((s.share p k h (s.sliceWords k)).modSlice p h fun x => { x with pinned := false }).modPav p fun v =>
      { v with shared := [(k, (s.pav p).sharing (some (0, [sl.residentCount])))] } := by
  have hleft : ((s.pav p).sharing none).left ≠ [] := by simpa [Pav.sharing] using hlast.ne'
  have hfinish := finish_of_sharing hk (congrArg Pav.shared (pav_share_unpin hk hs hspan hop hf h)) hleft 0 [sl.residentCount]
  exact (unpinSlice_of_some hf).trans hfinish

theorem pav_unpinSlice_of_span (hlast : 0 < (s.pav p).spanLast) : (s.unpinSlice p k h).pav p =
    { s.pav p with slices := Tab.put h { sl with pinned := false } (s.pav p).slices
                   shared := [(k, (s.pav p).sharing (some (0, [sl.residentCount])))] } := by
  rw [unpinSlice_of_span hk hs hspan hop hf hlast, pav_modPav_self, pav_share_unpin hk hs hspan hop hf]

/-- The post goes on holding its slot. -/
theorem holds_unpinSlice_of_span (hlast : 0 < (s.pav p).spanLast) (hh : Holds s k) : Holds (s.unpinSlice p k h) k := by
  obtain ⟨hfns, horphans⟩ := slots_share hk hspan hop h
  rw [unpinSlice_of_span hk hs hspan hop hf hlast, modSlice_of_find (sl := sl) (by rw [pav_share hk hs hspan hop]; exact hf)]
  exact hh.congr hfns horphans

end

end Sys2Proof.Machine
end

section
/-! SUPPORT. What posts of MODEL_LOAD, MODEL_PIN and MODEL_EVICT do (R156, R157, R163 to R165). -/

namespace Sys2Proof.Machine

variable {s : State} {fn slot : Nat} {sl : Slice}

/-- A good home is registered under a free handle, and the post completes. -/
theorem does_modelLoad (hp : Passes s fn slot (opc 0x20) modelLoadForm) :
    let k := s.postName fn slot
    let p := (s.postedAt fn slot).target k
    let m := (s.slotAt fn slot).posted
    (s.pav p).shared = [] → s.homeOk p (m.w2 2) (m.w2 4) = true → s.sliceCount p < 65536 → (s.pav p).isSpan = false →
    bitAt (m.w 6) 0 = false → bitAt (m.w 6) 2 = false →
    ∃ handle, Tab.find handle (s.pav p).slices = none ∧ 0 < handle ∧ handle < 2 ^ 24 ∧
      Does (.modelLoad fn slot) s fun u => u.beds = s.beds ∧ (u.mb k).st = 2 ∧ (u.mb k).status = 0 ∧
        (u.pav p).slices = Tab.put handle (loadedSlice (m.w2 2) (m.w2 4) (m.w 6) s.now) (s.pav p).slices := by
  intro k p m hs hhome hcount hspan hfill hsealed
  let t := s.postedAt fn slot
  let u := (t.addSlice p (loadedSlice (m.w2 2) (m.w2 4) (m.w 6) s.now)).2
  obtain ⟨hnone, hpos, hlt⟩ := newHandle_free (s := t) (p := p) hcount
  have hload := loadModel_of_good (s := t) (wrap := m.w2 7) (postName_lt hp.starts.posts) hs hspan
    ((homeOk_postedAt ..).trans hhome) hcount hfill hsealed
  refine ⟨t.newHandle p, hnone, hpos, hlt, _, (exec_modelLoad hp).trans (congrArg _ hload), ?_⟩
  have hholds : Holds u k := (holds_postedAt hp.starts.posts).congr rfl rfl
  have htold : Told u (u.complete k 0 [t.newHandle p, 0]) := Told.refl.complete
  obtain ⟨hst, hstatus⟩ := hholds.complete 0 [t.newHandle p, 0]
  exact ⟨htold.beds, hst, hstatus, congrArg Pav.slices ((htold.pav p).trans (pav_modPav_self ..))⟩

/-- At rank 0 of a span an UNPIN clears the mark and waits for the other members. -/
theorem does_modelUnpin_of_span (hp : Passes s fn slot (fun w => opc 0x21 w && w 3 % 2 == 1) pinForm) :
    let t := s.postedAt fn slot
    let k := s.postName fn slot
    let p := t.target k
    let h := (s.slotAt fn slot).posted.w 2
    let waiting := [(k, (s.pav p).sharing (some (0, [sl.residentCount])))]
    (s.pav p).shared = [] → Tab.find h (s.pav p).slices = some sl → (s.pav p).isSpan = true → 0 < (s.pav p).spanLast →
    Does (.modelUnpin fn slot) s fun u =>
      u = ((t.share p k h (t.sliceWords k)).modSlice p h fun x => { x with pinned := false }).modPav p (fun v => { v with shared := waiting }) ∧
      Tab.find h (u.pav p).slices = some { sl with pinned := false } ∧ (u.mb k).st = 1 ∧ (u.pav p).shared = waiting := by
  intro t k p h waiting hs hf hspan hlast
  have hk : k < 2 ^ 50 := postName_lt hp.starts.posts
  -- UNPIN is no MODEL_LOAD, whose handle the other members would take
  have hop : (t.mb k).w 0 % 256 ≠ 0x20 := by
    have hmb : t.mb k = (s.slotAt fn slot).posted := Posts.mb_postedAt hp.starts.posts
    have hchosen := hp.starts.posts.chosen
    simp only [opc, Bool.and_eq_true, beq_iff_eq] at hchosen
    obtain ⟨hopc, -⟩ := hchosen
    rw [hmb]
    exact fun h20 => absurd (h20.symm.trans hopc) (by decide)
  have hpav := pav_unpinSlice_of_span (s := t) hk hs hspan hop hf hlast
  refine ⟨_, exec_modelUnpin hp, unpinSlice_of_span (s := t) hk hs hspan hop hf hlast, ?_, ?_, congrArg Pav.shared hpav⟩
  · exact (congrArg (fun v : Pav => Tab.find h v.slices) hpav).trans (Tab.find_put_self ..)
  · exact (holds_unpinSlice_of_span (s := t) hk hs hspan hop hf hlast (holds_postedAt hp.starts.posts)).st

section
variable (hp : Passes s fn slot (opc 0x22) evictForm)
include hp

/-- An eviction empties the slice, which stays registered. -/
theorem does_modelEvict :
    let k := s.postName fn slot
    let p := (s.postedAt fn slot).target k
    let m := (s.slotAt fn slot).posted
    (s.pav p).shared = [] → Tab.find (m.w 2) (s.pav p).slices = some sl → m.w 3 % 2 = 0 → (s.pav p).isSpan = false →
    Does (.modelEvict fn slot) s fun u => u.beds = s.beds ∧ Tab.find (m.w 2) (u.pav p).slices = some sl.evicted.settled := by
  intro k p m hs hf hrel hspan
  let t := s.postedAt fn slot
  have hrelease : (m.w 3 % 2 == 1) = false := by rw [hrel]; rfl
  have hevict := (congrArg (t.evictNow p k (m.w 2)) hrelease).trans (evictNow_of_kept (postName_lt hp.starts.posts) hs hf hspan)
  refine ⟨_, (exec_modelEvict hp).trans (congrArg _ hevict), ?_⟩
  have htold := (told_evict (s := t) hs hf).complete (k := k) (status := 0) (rsp := [])
  have hpav := (htold.pav p).trans (pav_evicted hf)
  exact ⟨htold.beds.trans (beds_evicted hf), (congrArg (fun v : Pav => Tab.find (m.w 2) v.slices) hpav).trans (Tab.find_put_self ..)⟩

/-- A release takes the slice out of the table of slices. -/
theorem does_modelEvict_release :
    let k := s.postName fn slot
    let p := (s.postedAt fn slot).target k
    let m := (s.slotAt fn slot).posted
    (s.pav p).shared = [] → Tab.find (m.w 2) (s.pav p).slices = some sl → m.w 3 % 2 = 1 → (s.pav p).lists (m.w 2) = false →
    (s.pav p).isSpan = false → sl.key = none → ((s.pav p).slices.map Prod.fst).Pairwise (· < ·) →
    Does (.modelEvict fn slot) s fun u => u.beds = s.beds ∧ (u.pav p).slices = Tab.drop (m.w 2) (s.pav p).slices := by
  intro k p m hs hf hrel hlist hspan hkey hsorted
  let t := s.postedAt fn slot
  have hrelease : (m.w 3 % 2 == 1) = true := by rw [hrel]; rfl
  have hevict := (congrArg (t.evictNow p k (m.w 2)) hrelease).trans
    (evictNow_of_released (postName_lt hp.starts.posts) hs hf hspan hlist hkey)
  refine ⟨_, (exec_modelEvict hp).trans (congrArg _ hevict), ?_⟩
  have htold := told_evict (s := t) hs hf
  have hpav := (htold.pav p).trans (pav_evicted hf)
  refine ⟨Told.refl.complete.beds.trans (htold.beds.trans (beds_evicted hf)), ?_⟩
  rw [Told.refl.complete.pav p, pav_modPav_self, hpav]
  exact Tab.drop_put hsorted hf

end

/-- Settles O38, command by command. An UNPIN at rank 0 of a span waits for the other members, which is the model's choice
(assumption 76). -/
theorem modelsLoadPinAndEvict : Obligations.ModelsLoadPinAndEvict := by
  unfold Obligations.ModelsLoadPinAndEvict
  intro s fn slot t k m p h hs
  have hs' : (t.pav p).shared = [] := hs
  refine ⟨fun hp => ?_, fun hp => ?_, fun hp => ?_, fun hp => ?_⟩ <;> have hk : k < 2 ^ 50 := postName_lt hp.starts.posts
  · exact ⟨fun hhome => (exec_modelLoad hp).trans (congrArg _ (loadModel_of_bad hk hs' ((homeOk_postedAt ..).trans hhome))), does_modelLoad hp hs⟩
  · have hexec : exec (.modelPin fn slot) s = .next (t.pinSlice p k h) := exec_modelPin hp
    rw [hexec]
    exact ⟨fun hf => congrArg _ (pinSlice_of_none hk hs' hf), fun sl hf =>
      ⟨fun hcap => congrArg _ (pinSlice_of_beyond hk hs' hf hcap), fun hcap hspan hwhole => congrArg _ (pinSlice_of_whole hk hs' hf hcap hspan hwhole),
        fun hcap hspan hpart => congrArg _ (pinSlice_of_part hf hcap hspan hpart)⟩⟩
  · have hexec : exec (.modelUnpin fn slot) s = .next (t.unpinSlice p k h) := exec_modelUnpin hp
    exact ⟨fun hf => hexec.trans (congrArg _ (unpinSlice_of_none hk hs' hf)), fun sl hf =>
      ⟨fun hspan => hexec.trans (congrArg _ (unpinSlice_of_not_span hk hs' hf hspan)),
        fun hspan _ hlast => does_modelUnpin_of_span hp hs hf hspan hlast⟩⟩
  · have hexec : exec (.modelEvict fn slot) s = .next (t.evictNow p k h (m.w 3 % 2 == 1)) := exec_modelEvict hp
    refine ⟨fun hf => hexec.trans (congrArg _ (evictNow_of_none hk hs' hf _)), fun sl hf => ⟨fun hrel hlist => ?_, fun hrel hspan => ?_, ?_⟩⟩
    · rw [hexec, beq_of_eq hrel]
      exact congrArg _ (evictNow_of_listed hk hs' hf hlist)
    · obtain ⟨u, hu, hbeds, hfind⟩ := does_modelEvict hp hs hf hrel hspan
      exact ⟨u, hu, hbeds, _, hfind, rfl, rfl, rfl⟩
    · exact does_modelEvict_release hp hs hf

end Sys2Proof.Machine
end

section
/-! SUPPORT. Fills of the orangery and reads of the tables' root, one step each (R162, R166, R187, R199). -/

namespace Sys2Proof.Machine

variable {s u : State} {pav handle : Nat} {sl : Slice} {pc : Piece}

/-! ## Traffic leaves the slices as they are -/

theorem slices_unrepeatable (s : State) (q cause p : Nat) : ((s.unrepeatable q cause).pav p).slices = (s.pav p).slices := by
  unfold State.unrepeatable
  split
  · rfl
  · by_cases hp : p = q
    · rw [hp, pav_modPav_self]
    · exact congrArg Pav.slices (State.pav_setPav_ne _ _ _ p hp)

theorem slices_carry (s : State) (m : BulkMsg) (src dst n p : Nat) : ((s.carry m src dst n).pav p).slices = (s.pav p).slices :=
  foldl_unchanged (fun u : State => (u.pav p).slices) (fun u q => slices_unrepeatable u q _ p) _ s

theorem slices_setTraffic (s : State) (q : Nat) (x : BulkSource) (wr : Bool) (loc a n p : Nat) :
    ((s.setTraffic q x wr loc a n).pav p).slices = (s.pav p).slices :=
  foldl_unchanged (fun u : State => (u.pav p).slices) (fun _ _ => (slices_carry ..).trans (slices_carry ..)) _ s

/-! ## PIECE_OVERWRITE -/

theorem pav_writeLs (s : State) (core o p : Nat) (bs : List Byte) : (s.writeLs core o bs).pav p = s.pav p := rfl

theorem modSlice_eq_modPav (hf : Tab.find handle (u.pav pav).slices = some sl) (f : Slice → Slice) :
    u.modSlice pav handle f = u.modPav pav fun v => { v with slices := Tab.put handle (f sl) v.slices } := modSlice_of_find hf f

theorem writePiece_of_clean {piece a : Nat} {bs : List Byte} (hf : Tab.find handle (s.pav pav).slices = some sl) (hpc : Tab.find piece sl.resident = some pc)
    (hhome : s.homePiece pav sl piece = some (a, bs)) (hclean : s.beds.badIn (csKey (s.pav pav) (s.pav pav).channels) a 65536 = none) :
    s.writePiece pav handle piece =
      ((s.setTraffic pav .fill false (coreLoc pc.core) a 65536).writeLs pc.core (pc.segment * 65536) bs).modPav pav fun v =>
        { v with slices := Tab.put handle { sl with resident := Tab.put piece { pc with written := true } sl.resident } v.slices } := by
  have hslices : (((s.setTraffic pav .fill false (coreLoc pc.core) a 65536).writeLs pc.core (pc.segment * 65536) bs).pav pav).slices =
      (s.pav pav).slices := (congrArg Pav.slices (pav_writeLs ..)).trans (slices_setTraffic ..)
  simp only [State.writePiece, hf, hpc, hhome, hclean, modSlice_eq_modPav (hslices.symm ▸ hf)]

/-- What O20 claims of PIECE_OVERWRITE holds. -/
theorem exec_pieceOverwrite_of_clean {core segment piece a : Nat} {bs : List Byte} (hcore : core < 1088) (hseg : segment < 384)
    (howner : s.ownerOf core = some pav) (hfills : s.fills pav = true)
    (hhit : ((s.pav pav).slices.findSome? fun x =>
      (x.2.resident.find? fun y => y.2.core == core && y.2.segment == segment && !y.2.resident && x.2.nextRead == some y.1).map fun y => (x.1, y.1))
        = some (handle, piece))
    (hf : Tab.find handle (s.pav pav).slices = some sl) (hpc : Tab.find piece sl.resident = some pc) (hpcCore : pc.core = core)
    (hpcSegment : pc.segment = segment) (hhome : s.homePiece pav sl piece = some (a, bs))
    (hclean : s.beds.badIn (csKey (s.pav pav) (s.pav pav).channels) a 65536 = none) :
    exec (.pieceOverwrite core segment) s = .next (((s.setTraffic pav .fill false (coreLoc core) a 65536).writeLs core (segment * 65536) bs).modPav pav
      fun v => { v with slices := Tab.put handle { sl with resident := Tab.put piece { pc with written := true } sl.resident } v.slices }) := by
  subst hpcCore hpcSegment
  show execPieceOverwrite pc.core pc.segment s = _
  unfold execPieceOverwrite
  rw [if_neg (by simpa [numCores] using ⟨hcore, hseg⟩), howner]
  dsimp only
  rw [hhit]
  exact (if_pos hfills).trans (congrArg _ (writePiece_of_clean hf hpc hhome hclean))

/-! ## PIECE_RESIDENT -/

/-- A piece that has its place is not placed again. -/
theorem reserveNext_of_placed {i : Nat} (hf : Tab.find handle (s.pav pav).slices = some sl) (hfilling : sl.filling = some i)
    (hpc : Tab.find i sl.resident = some pc) : s.reserveNext pav handle = s := by
  unfold State.reserveNext
  rw [hf, Option.bind_some, hfilling]
  dsimp only
  rw [State.reserve, hf]
  exact if_pos (by simp [hpc])

/-- The slice once the piece that its fill stands at is resident. -/
def Slice.advanced (sl : Slice) (i : Nat) (pc : Piece) : Slice :=
  let sl' := { sl with resident := Tab.put i { pc with resident := true, written := true } sl.resident }
  { sl' with filling := some (sl'.nextMissing (i + 1)) }

theorem frozen_of_fills (h : s.fills pav = true) : (s.pav pav).freeze.frozen = false := by
  unfold State.fills at h
  simpa using (Bool.and_eq_true_iff.1 h).1

theorem modPav_setPav (s : State) (p : Nat) (x : Pav) (f : Pav → Pav) : (s.setPav p x).modPav p f = s.setPav p (f x) := by
  rw [State.modPav, State.pav_setPav_self, setPav_setPav]

/-- What O20 claims of PIECE_RESIDENT holds. -/
theorem exec_pieceResident_of_written {i : Nat} (hpav : pav < 512) (hf : Tab.find handle (s.pav pav).slices = some sl) (hfilling : sl.filling = some i)
    (hpc : Tab.find i sl.resident = some pc) (hwritten : pc.written = true) (hfills : s.fills pav = true) :
    exec (.pieceResident pav handle) s = .next ((s.setPav pav { s.pav pav with
      slices := Tab.put handle (sl.advanced i pc) (s.pav pav).slices
      acct := { (s.pav pav).acct with bedBytes := (s.pav pav).acct.bedBytes + 65536 } }).reserveNext pav handle) := by
  have hcount : ((s.modSlice pav handle fun x => x.advanced i pc).count pav 2 65536) = s.setPav pav { s.pav pav with
      slices := Tab.put handle (sl.advanced i pc) (s.pav pav).slices
      acct := { (s.pav pav).acct with bedBytes := (s.pav pav).acct.bedBytes + 65536 } } := by
    rw [modSlice_of_find hf, State.count, State.pav_setPav_self, if_neg (by simp [frozen_of_fills hfills])]
    exact modPav_setPav ..
  show execPieceResident pav handle s = _
  unfold execPieceResident
  rw [if_neg (Nat.not_le.2 hpav : ¬ pav ≥ numPavs), hf, Option.bind_some, hfilling]
  dsimp only
  rw [if_neg (by simp [hfills]), reserveNext_of_placed hf hfilling hpc, hf, Option.bind_some, hpc]
  dsimp only
  rw [if_pos hwritten, hf, Option.bind_some, hpc, Option.map_some, Option.getD_some, if_neg (by simp [hwritten])]
  exact congrArg (fun v : State => Host.Outcome.next (v.reserveNext pav handle)) hcount

/-! ## SLICE_FILL_COMPLETE -/

/-- The beds and the slices are as they were, and of the shared commands those of the listed posts have no status. -/
structure Answering (s : State) (p : Nat) (posts : List Nat) (u : State) : Prop where
  beds : u.beds = s.beds
  slices : (u.pav p).slices = (s.pav p).slices
  clean : ∀ k x, k ∈ posts → (k, x) ∈ (u.pav p).shared → x.status = 0

section
variable {p k : Nat} {posts : List Nat} (h : Answering s p posts u)
include h

theorem Answering.told {t : State} (ht : Told u t) : Answering s p posts t where
  beds := ht.beds.trans h.beds
  slices := (congrArg Pav.slices (ht.pav p)).trans h.slices
  clean := by rw [ht.pav]; exact h.clean

/-- The shared commands change, none of the listed posts to one with a status. -/
theorem Answering.setShared {f : Tab Shared → Tab Shared} (hf : ∀ j x, j ∈ posts → (j, x) ∈ f (u.pav p).shared → x.status = 0) :
    Answering s p posts (u.modPav p fun v => { v with shared := f v.shared }) where
  beds := h.beds
  slices := (congrArg Pav.slices (pav_modPav_self ..)).trans h.slices
  clean := by rw [pav_modPav_self]; exact hf

/-- A shared command that this member has completed with status 0 and that has no status of another settles and releases no slice. -/
theorem Answering.settleShared {x : Shared} {rsp : List Nat} (hf : Tab.find k (u.pav p).shared = some { x with own := some (0, rsp) }) (hx : x.status = 0) :
    Answering s p posts (u.settleShared p k) := by
  unfold State.settleShared
  rw [hf]
  cases hleft : x.left with
  | nil =>
    simp only [hx, beq_self_eq_true, Bool.true_or, if_true]
    exact (h.setShared fun j y hj hy => h.clean j y hj (Tab.mem_drop hy)).told Told.refl.complete
  | cons r left => exact h

/-- A post completes with status 0, or waits for the other members. -/
theorem Answering.finish (hk : k ∈ posts) (rsp : List Nat) : Answering s p posts (u.finish p k 0 rsp) := by
  unfold State.finish
  dsimp only
  split
  · exact h.told Told.refl.syncSend
  · cases hx : Tab.find k (u.pav p).shared with
    | none => exact h.told Told.refl.complete
    | some x =>
      have hzero : x.status = 0 := h.clean k x hk (Tab.mem_of_find hx)
      refine (h.setShared fun j y hj hy => ?_).settleShared (x := x) (rsp := rsp) (by rw [pav_modPav_self]; exact Tab.find_put_self ..) hzero
      rcases Tab.mem_put hy with heq | hmem
      · obtain ⟨rfl, rfl⟩ := Prod.mk.inj heq
        exact hzero
      · exact h.clean j y hj hmem

theorem Answering.foldl {ks : List Nat} {rsp : State → Nat → List Nat} (hks : ks ⊆ posts) :
    Answering s p posts (ks.foldl (fun u k => u.finish p k 0 (rsp u k)) u) := by
  induction ks generalizing u with
  | nil => exact h
  | cons k ks ih =>
    obtain ⟨hk, hks⟩ := List.cons_subset.1 hks
    exact ih (h.finish hk _) hks

end

/-- What O20 claims of SLICE_FILL_COMPLETE holds where no shared command of a post that waits has a status, be its key in the table twice. -/
theorem does_sliceFillComplete (hpav : pav < 512) (hf : Tab.find handle (s.pav pav).slices = some sl) (hfills : s.fills pav = true)
    (hover : s.fillOver pav handle = true) (hclean : ∀ k x, k ∈ sl.posts → (k, x) ∈ (s.pav pav).shared → x.status = 0) :
    Does (.sliceFillComplete pav handle) s fun t =>
      Tab.find handle (t.pav pav).slices = some { sl with filling := none, posts := [], resident := sl.resident.filter fun x => x.2.resident } ∧
      t.beds = s.beds := by
  have hexec : exec (.sliceFillComplete pav handle) s = .next (s.endFill pav handle) := by
    show execSliceFillComplete pav handle s = _
    unfold execSliceFillComplete
    rw [if_neg (Nat.not_le.2 hpav : ¬ pav ≥ numPavs)]
    exact if_pos (by simp [hfills, hover])
  have hpavEnded : (s.fillEnded pav handle sl).pav pav = _ := pav_modPav_self ..
  have hstart : Answering (s.fillEnded pav handle sl) pav sl.posts (s.fillEnded pav handle sl) := ⟨rfl, rfl, by rw [hpavEnded]; exact hclean⟩
  have hend : Answering (s.fillEnded pav handle sl) pav sl.posts (s.endFill pav handle) := by
    unfold State.endFill
    rw [hf]
    exact hstart.foldl (List.Subset.refl _)
  refine ⟨_, hexec, ?_, hend.beds⟩
  rw [hend.slices, hpavEnded]
  exact Tab.find_put_self ..

/-! ## PAGE_WALK_READ of the root level -/

/-- What O20 claims of PAGE_WALK_READ holds. -/
theorem exec_pageWalkRead_root {unit : Nat} {dva : Word64} (hpav : pav < 512) (hunit : unit ≤ 76) (hserves : s.unitServes unit pav = true)
    (hbound : (s.pav pav).bound = true) (hown : (s.pav pav).chOwn ≠ 0) (hdva : dva.toNat < 2 ^ 55) (hpage : dva.toNat / 65536 * 65536 ≠ packagePage) :
    let r := s.readEntry unit pav (s.pav pav).ptRoot dva.toNat 2
    exec (.pageWalkRead unit pav dva 2) s = .next (match r.1 with
      | .error key => (r.2.bedUncorrectable key).startReset pav 0x03 (channelLoc (key / 2 ^ 33)) []
      | .ok _ => r.2) := by
  intro r
  have hwalk : s.walkDown unit pav dva.toNat 2 2 (s.pav pav).ptRoot = (r.2, match r.1 with | .error key => some key | .ok _ => none) := by
    rw [State.walkDown]
    cases hr : r.1 with
    | error key => rfl
    | ok e => exact if_pos (by simp)
  show execPageWalkRead unit pav dva 2 s = _
  unfold execPageWalkRead
  rw [if_neg (by simpa [numPavs] using ⟨hunit, hpav⟩), if_neg (by simpa [hbound, hserves, hown, hpage] using hdva), hwalk]
  cases r.1 <;> rfl

end Sys2Proof.Machine
end

section
/-! SUPPORT. The end of a fill whose post is twice among the commands that members share. -/

namespace Sys2Proof.Machine

/-- Slice 1 of pavilion 0, whose fill is over; post 3 waits for the fill twice. -/
def filledSlice : Slice := { home := 0, pieces := 0, filling := some 0, posts := [3, 3] }

/-- Gaold runs, and post 3 stands twice among the shared commands of pavilion 0: first with status 0, then as a MODEL_LOAD of slice 1 that
another member has completed with status 1. -/
def sharedTwice : State :=
  { boot := { stage := .running }
    pavs := [(0, { slices := [(1, filledSlice)], shared := [(3, { left := [] }), (3, { left := [], status := 1, handle := 1 })] })] }

/-- Refutes O20: the end of a fill completes each post that waits for it, and a post that settles leaves the shared commands, so that a second
entry of its key takes its place. The statement asks for status 0 of the first entry alone and lets the table hold two: here the second entry
has a status, by which the slice is released. -/
theorem not_orangeryFillsAndWalks : ¬ Obligations.OrangeryFillsAndWalks := by
  unfold Obligations.OrangeryFillsAndWalks
  intro h
  obtain ⟨-, -, hfill, -⟩ := h sharedTwice 0 (by decide)
  have hfirst : ∀ x, Tab.find 3 (sharedTwice.pav 0).shared = some x → x.status = 0 := fun x hx => by
    cases hx
    rfl
  obtain ⟨t, hexec, hfind, -⟩ := hfill 1 filledSlice (by decide +kernel) (by decide +kernel) (by decide +kernel) fun k x hk hx => by
    obtain rfl : k = 3 := by simpa [filledSlice] using hk
    exact hfirst x hx
  have hgone : Tab.find 1 ((after (exec (.sliceFillComplete 0 1) sharedTwice) sharedTwice).pav 0).slices = none := by decide +kernel
  rw [hexec] at hgone
  exact absurd (hfind.symm.trans hgone) (by simp)

end Sys2Proof.Machine
end

section
/-! SUPPORT. What reads of window pages of this package change: window entries come into force and accessed bits are set (R217 to R219). -/

namespace Sys2Proof.Machine

variable {s t u : State} {un p : Nat}

/-! ## Walks -/

theorem Translated.dropPage {dva : Nat} (h : Translated s t) : Translated s (t.dropPage un p dva) := h.update rfl

theorem Translated.walkPages {l : List (Nat × Access)} (h : Translated s t) : Translated s (t.walkPages un p l).2 := by
  induction l generalizing t with
  | nil => exact h
  | cons x rest ih =>
    obtain ⟨pg, a⟩ := x
    rw [State.walkPages]
    dsimp only
    split
    · exact h.walk
    · split
      · dsimp only
        split
        · exact h.walk.dropPage
        · exact h.walk
      · split <;> exact ih h.walk

theorem Translated.walkOwner {a : Access} {pages : List Nat} (h : Translated s t) : Translated s (t.walkOwner p a pages).2 := by
  induction pages generalizing t with
  | nil => exact h
  | cons pg rest ih =>
    rw [State.walkOwner]
    dsimp only
    split
    · exact h
    · split
      · exact h.walkPages
      · split
        · split
          · exact h.walkPages
          · split <;> exact ih h.walkPages
        · exact h.walkPages
      · exact h.walkPages

/-! ## Window entries, accessed bits and the walks between them -/

/-- From `s` to `t` the window entries in force, the translation caches, the draws of free values and the beds alone change. -/
structure WindowRead (s t : State) : Prop where
  eq : t = { s with windows := t.windows, draws := t.draws, tcache := t.tcache, beds := t.beds }

namespace WindowRead

theorem refl : WindowRead s s := ⟨rfl⟩

theorem update (h : WindowRead s t) (e : u = { t with windows := u.windows, draws := u.draws, tcache := u.tcache, beds := u.beds }) : WindowRead s u := by
  obtain ⟨h⟩ := h
  rw [h] at e
  exact ⟨e⟩

theorem trans (h : WindowRead s t) (h' : WindowRead t u) : WindowRead s u := h.update h'.eq

theorem translated (h : WindowRead s t) (h' : Translated t u) : WindowRead s u := by
  rw [h'.eq]
  exact h.update rfl

theorem pav (h : WindowRead s t) (p : Nat) : t.pav p = s.pav p := (congrArg (State.pav · p) h.eq).trans rfl
theorem fns (h : WindowRead s t) : t.fns = s.fns := (congrArg State.fns h.eq).trans rfl
theorem cores (h : WindowRead s t) : t.cores = s.cores := (congrArg State.cores h.eq).trans rfl
theorem strands (h : WindowRead s t) : t.strands = s.strands := (congrArg State.strands h.eq).trans rfl

theorem ite {c : Prop} [Decidable c] {a b : State} (ha : WindowRead s a) (hb : WindowRead s b) : WindowRead s (if c then a else b) := by
  split
  · exact ha
  · exact hb

theorem foldl {α : Type} {f : State → α → State} {l : List α} (h : WindowRead s t) (hf : ∀ u x, WindowRead s u → WindowRead s (f u x)) :
    WindowRead s (l.foldl f t) := by
  induction l generalizing t with
  | nil => exact h
  | cons x l ih => exact ih (hf _ _ h)

/-- An entry comes into force at its first use (R217). -/
theorem window {w : Nat} (h : WindowRead s t) : WindowRead s (t.window w).2 := by
  unfold State.window
  split
  · exact h
  · split
    · exact h
    · exact h.update rfl

/-- The accessed bits of a leaf (R194). -/
theorem touch {dva : Nat} {l : Leaf} {wr : Bool} (h : WindowRead s t) : WindowRead s (t.touch un p dva l wr) := by
  unfold State.touch
  refine h.foldl fun v x hv => .ite hv ?_
  dsimp only
  split <;> exact hv.update rfl

theorem touchAll {ls : List (Nat × Walk × Access)} (h : WindowRead s t) : WindowRead s (t.touchAll un p ls) := by
  refine h.foldl fun v x hv => ?_
  split
  · exact hv.touch
  · exact hv

theorem touchWindow {w page : Nat} {a : Access} (h : WindowRead s t) : WindowRead s (t.touchWindow w page a) := by
  unfold State.touchWindow
  dsimp only
  split
  · exact (h.translated Translated.refl.walkPages).touchAll
  · exact h

end WindowRead

/-! ## Requests that a window of this package serves -/

/-- An answer to a window request that, if it serves, comes with a state which reads of windows may leave: one that is refused may have
met an uncorrectable line. -/
def ServesBy (s : State) (q : WinAnswer × State) : Prop := ∀ o cs, q.1 = .served o cs → WindowRead s q.2

namespace ServesBy

variable {w src tenant last : Nat} {pages : List Nat} {rd wr : Bool}

theorem refused {r pg : Nat} : ServesBy s (.refused r pg, t) := nofun

theorem ite {c : Prop} [Decidable c] {a b : WinAnswer × State} (ha : ServesBy s a) (hb : ServesBy s b) : ServesBy s (if c then a else b) := by
  split
  · exact ha
  · exact hb

theorem windowCheck : ServesBy s (s.windowCheck w src tenant pages last rd wr) := by
  unfold State.windowCheck
  refine .ite refused (.ite refused (.ite refused (.ite refused ?_)))
  split
  · exact refused
  · refine .ite refused (.ite refused (.ite refused ?_))
    dsimp only
    split
    · exact refused
    · exact refused
    · exact refused
    · exact refused
    · exact fun _ _ _ => WindowRead.refl.window.translated Translated.refl.walkOwner

theorem windowRequest : ServesBy s (s.windowRequest w src tenant pages last rd wr) := by
  unfold State.windowRequest
  dsimp only
  split
  · next o cs hq => exact fun _ _ _ => (windowCheck o cs hq).foldl fun _ _ hu => hu.touchWindow
  · exact windowCheck

end ServesBy

/-- A piece of a program table is read: the window that holds it comes into force, and an access that succeeds is marked (R194, R217, R219). -/
theorem WindowRead.windowUsed {lo n : Nat} (h : WindowRead s t) : WindowRead s (t.windowUsed p lo n) := by
  unfold State.windowUsed
  split
  · refine .ite ?_ h
    dsimp only
    split
    · next o cs hq => exact .ite h.window (h.trans (ServesBy.windowRequest o cs hq))
    · exact h.window
  · exact h

end Sys2Proof.Machine
end

section
/-! SUPPORT. Reads of a program table (R292, R293): what every piece read leaves, the check of the whole table leaves. RUN (R294, R421). -/

namespace Sys2Proof.Machine

variable {s t u : State} {fn slot p k : Nat}

/-! ## Checks of a table -/

/-- A property of states that the read of each piece of a pavilion's program table keeps. -/
def PiecesKeep (p : Nat) (P : State → Prop) : Prop := ∀ u lo n, P u → P (u.windowUsed p lo n)

/-- A check of a run's table keeps a property of states, accepted or stopped. -/
def TableKeeps {α : Type} (P : State → Prop) (m : TableM α) : Prop := ∀ t, P t → P (m.run.run t).2

namespace TableKeeps

variable {α β : Type} {P : State → Prop} {a : Accept}

theorem pure {x : α} : TableKeeps P (Pure.pure x) := fun _ => id

theorem throw {e : TableStop} : TableKeeps P (MonadExcept.throw e : TableM α) := fun _ => id

theorem needs {b : Bool} {e : TableStop} : TableKeeps P (Machine.needs b e) := by
  unfold Machine.needs
  split
  · exact pure
  · exact throw

theorem bind {m : TableM α} {f : α → TableM β} (hm : TableKeeps P m) (hf : ∀ x, TableKeeps P (f x)) : TableKeeps P (m >>= f) := by
  intro t ht
  have hu := hm t ht
  rw [ExceptT.run_bind, StateT.run_bind]
  rcases hr : m.run.run t with ⟨_ | x, u⟩ <;> rw [hr] at hu
  · exact hu
  · exact hf x u hu

theorem get {f : State → TableM β} (hf : ∀ s, TableKeeps P (f s)) : TableKeeps P (MonadStateOf.get >>= f) := fun t => hf t t

theorem foldlM {f : β → α → TableM β} (hf : ∀ b x, TableKeeps P (f b x)) {l : List α} {b : β} : TableKeeps P (l.foldlM f b) := by
  induction l generalizing b with
  | nil => exact pure
  | cons x l ih =>
    rw [List.foldlM_cons]
    exact bind (hf b x) fun _ => ih

theorem checkAll {f : Nat → TableM Nat} (hf : ∀ i, TableKeeps P (f i)) {l : List Nat} : TableKeeps P (checkAll f l) := by
  induction l with
  | nil => exact pure
  | cons i l ih => exact bind (hf i) fun _ => bind ih fun _ => pure

variable (hP : PiecesKeep p P)
include hP

theorem tableRead {why : TableStop} {dva n : Nat} : TableKeeps P (tableRead p a why dva n) := by
  unfold Machine.tableRead
  split
  · exact throw
  · refine bind (foldlM fun bs x t ht => ?_) fun _ => pure
    have hu := hP t x.1 x.2 ht
    change P ((match t.tablePiece p a why x.1 x.2 with
      | .ok cs => Pure.pure (bs ++ cs)
      | .error e => (MonadExcept.throw e : TableM _)).run.run (t.windowUsed p x.1 x.2)).2
    split <;> exact hu

theorem checkHead {dva first last repeats : Nat} : TableKeeps P (checkHead p a dva first last repeats) :=
  get fun _ => bind needs fun _ => bind needs fun _ => bind (tableRead hP) fun _ => bind needs fun _ => bind needs fun _ =>
    bind needs fun _ => bind needs fun _ => bind needs fun _ => pure

theorem checkLayer {h : TableHead} {j : Nat} : TableKeeps P (checkLayer p a h j) :=
  bind (tableRead hP) fun _ => bind needs fun _ => bind needs fun _ => pure

theorem checkKernel {h : TableHead} {j : Nat} : TableKeeps P (checkKernel p a h j) :=
  bind (tableRead hP) fun _ => bind needs fun _ => bind needs fun _ => bind needs fun _ => pure

theorem checkSlice {h : TableHead} {i : Nat} : TableKeeps P (checkSlice p a h i) :=
  bind (tableRead hP) fun _ => get fun _ => bind needs fun _ => bind needs fun _ => pure

theorem checkTable {sl : Option Nat} {dva first last repeats : Nat} : TableKeeps P (checkTable p a sl dva first last repeats) :=
  bind (checkHead hP) fun _ => bind (checkAll fun _ => checkLayer hP) fun _ => bind (checkAll fun _ => checkKernel hP) fun _ =>
    bind (checkAll fun _ => checkSlice hP) fun _ => pure

end TableKeeps

theorem WindowRead.readTable {a : Accept} {sl : Option Nat} {dva first last repeats : Nat} (h : WindowRead s t) :
    WindowRead s (t.readTable p a sl dva first last repeats).2 :=
  TableKeeps.checkTable (P := WindowRead s) (fun _ _ _ hu => hu.windowUsed) t h

/-! ## RUN -/

/-- The read of the table that a post of RUN names. -/
def State.readPosted (s : State) (p k : Nat) : Except TableStop Run × State :=
  s.readTable p { post := k } (some k) ((s.mb k).w2 2) (bits ((s.mb k).w 4) 9 0) (bits ((s.mb k).w 4) 25 16) ((s.mb k).w 5)

/-- A RUN whose table is good goes on in the state that the read leaves. -/
theorem acceptRun_of_good {r : Run} (h : (s.readPosted p k).1 = .ok r) :
    s.acceptRun p { post := k } = (s.readPosted p k).2.takeRun p { post := k } r := by
  have hread : s.readTable p { post := k } (some k) ((s.mb k).w2 2) (bits ((s.mb k).w 4) 9 0) (bits ((s.mb k).w 4) 25 16) ((s.mb k).w 5) =
      (.ok r, (s.readPosted p k).2) := Prod.ext h rfl
  unfold State.acceptRun tablePages
  rw [State.acceptOn]
  simp only [State.runNames, Option.or_none, Option.isSome_none, Bool.false_eq_true, if_false, hread]

/-- A pavilion holds one run more. -/
def State.addRun (s : State) (p : Nat) (r : Run) : State := s.modPav p fun v => { v with runs := v.runs ++ [r] }

/-- A run is accepted last where fewer than four are, in the state that the read of its table leaves (R294, R421). -/
theorem acceptRun_of_room {r : Run} (hroom : (s.pav p).runs.length < 4) (hspan : (s.pav p).isSpan = false) (hgood : (s.readPosted p k).1 = .ok r) :
    s.acceptRun p { post := k } = ((s.readPosted p k).2.dropAccept p { post := k }).addRun p r := by
  have hread : WindowRead s (s.readPosted p k).2 := WindowRead.refl.readTable
  rw [acceptRun_of_good hgood]
  exact (if_neg (by rw [hread.pav]; exact Nat.not_le.2 hroom)).trans (if_pos (by rw [hread.pav, hspan]; rfl))

theorem runs_addRun (s : State) (p : Nat) (a : Accept) (r : Run) : (((s.dropAccept p a).addRun p r).pav p).runs = (s.pav p).runs ++ [r] := by
  rw [State.addRun, pav_modPav_self, State.dropAccept, pav_modPav_self]

theorem exec_run (hp : Passes s fn slot (opc 0x28) runForm) :
    let t := s.postedAt fn slot
    let k := s.postName fn slot
    let p := t.target k
    exec (.run fn slot) s = .next (if (t.pav p).runs.length ≥ 4 then t.complete k 0x07 ([0] ++ lohi (t.pav p).committed.toNat)
      else t.acceptRun p { post := k }) :=
  post_body (body := fun k p s =>
    if (s.pav p).runs.length ≥ runLimit then s.complete k 0x07 ([0] ++ lohi (s.pav p).committed.toNat) else s.acceptRun p { post := k }) hp fun _ _ => rfl

/-- What O37 claims of a RUN that is accepted. -/
theorem does_run (hp : Passes s fn slot (opc 0x28) runForm) {r : Run} :
    let t := s.postedAt fn slot
    let k := s.postName fn slot
    let p := t.target k
    (s.pav p).runs.length < 4 → (s.pav p).isSpan = false → (t.readPosted p k).1 = .ok r →
    Does (.run fn slot) s fun u => (u.pav p).runs = (s.pav p).runs ++ [r] ∧ u.beds = (t.readPosted p k).2.beds ∧ u.fns = t.fns ∧
      u.cores = s.cores ∧ u.strands = s.strands := by
  intro t k p hroom hspan hgood
  have hread : WindowRead t (t.readPosted p k).2 := WindowRead.refl.readTable
  have haccept : t.acceptRun p { post := k } = ((t.readPosted p k).2.dropAccept p { post := k }).addRun p r := acceptRun_of_room hroom hspan hgood
  have hexec : exec (.run fn slot) s = .next (t.acceptRun p { post := k }) := (exec_run hp).trans (congrArg _ (if_neg (Nat.not_le.2 hroom)))
  rw [haccept] at hexec
  generalize (t.readPosted p k).2 = q at hread hexec ⊢
  refine ⟨_, hexec, ?_, rfl, hread.fns, hread.cores, hread.strands⟩
  rw [runs_addRun, hread.pav]
  rfl

end Sys2Proof.Machine
end

section
/-! SUPPORT. INVALIDATE: its post, the units that receive it, and its drain (R212, R213). -/

namespace Sys2Proof.Machine

variable {s t : State} {fn slot un p k : Nat} {v : Inval}

/-! ## The post -/

theorem exec_invalidate (hp : Passes s fn slot (opc 0x18) invalidateForm) :
    let t := s.postedAt fn slot
    let k := s.postName fn slot
    let m := (s.slotAt fn slot).posted
    exec (.invalidate fn slot) s
      = .next { t with invals := t.invals ++ [{ post := k, pav := t.target k, kind := invalKind m, first := m.w2 2, len := m.w2 4 }] } := by
  rw [← Posts.mb_postedAt hp.starts.posts]
  exact post_body (body := fun k p s =>
    { s with invals := s.invals ++ [{ post := k, pav := p, kind := invalKind (s.mb k), first := (s.mb k).w2 2, len := (s.mb k).w2 4 }] }) hp fun _ _ => rfl

/-! ## What changes cores alone -/

/-- The state with other cores. -/
def State.withCores (s : State) (c : Tab Core) : State := { s with cores := c }

/-- A fold whose steps change cores alone changes cores alone. -/
theorem foldl_withCores {α : Type} {f : State → α → State} (hf : ∀ u x, ∃ c, f u x = u.withCores c) (l : List α) (s : State) :
    ∃ c, l.foldl f s = s.withCores c := by
  induction l generalizing s with
  | nil => exact ⟨s.cores, rfl⟩
  | cons x l ih =>
    obtain ⟨c, hc⟩ := hf s x
    obtain ⟨c', hc'⟩ := ih (f s x)
    exact ⟨c', by rw [List.foldl_cons, hc', hc]; rfl⟩

/-- Beside cores, discarding shadow buffers changes nothing. -/
theorem dropAllShadows_eq (s : State) (p : Nat) : ∃ c, s.dropAllShadows p = s.withCores c := foldl_withCores (fun _ _ => ⟨_, rfl⟩) _ s

/-! ## A unit receives the target -/

/-- A cached entry is outside the target (R213). -/
def Inval.spares (v : Inval) (c : TEntry) : Bool :=
  !(c.pav == v.pav && v.hits (c.idx <<< (16 + 13 * c.level)) ((c.idx + 1) <<< (16 + 13 * c.level)))

theorem Inval.hits_of_spares {c : TEntry} (h : v.spares c = true) (hp : c.pav = v.pav) :
    v.hits (c.idx <<< (16 + 13 * c.level)) ((c.idx + 1) <<< (16 + 13 * c.level)) = false := by
  simpa [Inval.spares, hp] using h

/-- The unit's cache keeps what the target spares; beside it, instruction lines of cores alone go. -/
theorem dropTarget_eq (s : State) (un : Nat) (v : Inval) :
    ∃ c, s.dropTarget un v = { s with tcache := Tab.put un ((Tab.getD s.tcache un []).filter v.spares) s.tcache, cores := c } := by
  unfold State.dropTarget
  dsimp only
  split
  · exact ⟨s.cores, rfl⟩
  · refine foldl_withCores (fun u x => ?_) _ _
    split
    · exact ⟨_, rfl⟩
    · exact ⟨u.cores, rfl⟩

/-- An INVALIDATE notes that a unit has received it. -/
def Inval.receivedBy (un : Nat) (v x : Inval) : Inval := if x.post == v.post then { x with units := addNew un x.units } else x

theorem mem_addNew_self (x : Nat) (l : List Nat) : x ∈ addNew x l := by
  unfold addNew
  split
  · next h => exact List.contains_iff_mem.1 h
  · simp

theorem Inval.mem_units_receivedBy {x : Inval} (h : (v.receivedBy un x).post = v.post) : un ∈ (v.receivedBy un x).units := by
  unfold Inval.receivedBy at h ⊢
  by_cases hx : x.post = v.post
  · rw [if_pos (beq_of_eq hx)]
    exact mem_addNew_self ..
  · rw [if_neg (by simpa using hx)] at h
    exact absurd h hx

theorem exec_invalidateReceive (hfn : fn < 512) (hslot : slot < 4) (hun : un ≤ 76) (hv : s.inval fn slot = some v) :
    exec (.invalidateReceive un fn slot) s = .next ({ s with invals := s.invals.map (v.receivedBy un) }.dropTarget un v) := by
  show execInvalidateReceive un fn slot s = _
  unfold execInvalidateReceive
  rw [if_neg (by simpa [numFns] using ⟨⟨hun, hfn⟩, hslot⟩), hv]
  rfl

/-- What O37 claims of INVALIDATE_RECEIVE. -/
theorem does_invalidateReceive (hfn : fn < 512) (hslot : slot < 4) (hun : un ≤ 76) (hv : s.inval fn slot = some v) :
    Does (.invalidateReceive un fn slot) s fun r => r.beds = s.beds ∧ r.strands = s.strands ∧ r.pavs = s.pavs ∧
      (∀ e ∈ Tab.getD r.tcache un [], e.pav = v.pav → v.hits (e.idx <<< (16 + 13 * e.level)) ((e.idx + 1) <<< (16 + 13 * e.level)) = false) ∧
      ∀ x ∈ r.invals, x.post = v.post → un ∈ x.units := by
  obtain ⟨c, hdrop⟩ := dropTarget_eq { s with invals := s.invals.map (v.receivedBy un) } un v
  refine ⟨_, (exec_invalidateReceive hfn hslot hun hv).trans (congrArg _ hdrop), rfl, rfl, rfl, fun e he hp => ?_, fun x hx hpost => ?_⟩
  · rw [Tab.getD_put_self] at he
    exact Inval.hits_of_spares (List.mem_filter.1 he).2 hp
  · obtain ⟨y, -, rfl⟩ := List.mem_map.1 hx
    exact Inval.mem_units_receivedBy hpost

/-! ## The drain -/

theorem Told.invals (h : Told s t) : t.invals = s.invals := (congrArg State.invals h.eq).trans rfl

/-- The state in which a drained INVALIDATE completes: shadow buffers, the request, and windows in its target are gone (R98, R213). -/
def State.withdrawn (s : State) (v : Inval) : State :=
  let s1 := s.dropAllShadows v.pav
  { s1 with invals := s1.invals.filter fun x => x.post != v.post
            windows := if v.kind == 2 then Tab.keep (fun w => !(decide (v.first ≤ w) && decide (w < v.first + v.len))) s1.windows else s1.windows }

/-- What the end of an INVALIDATE changes beside shadow buffers and windows is the list of those in progress. -/
structure Withdrawn (s : State) (v : Inval) (t : State) : Prop where
  invals : t.invals = s.invals.filter fun x => x.post != v.post
  beds : t.beds = s.beds
  strands : t.strands = s.strands
  fns : t.fns = s.fns
  orphans : t.orphans = s.orphans

theorem withdrawn_withdrawn (s : State) (v : Inval) : Withdrawn s v (s.withdrawn v) := by
  obtain ⟨c, hc⟩ := dropAllShadows_eq s v.pav
  rw [State.withdrawn, hc]
  exact ⟨rfl, rfl, rfl, rfl, rfl⟩

section
variable (hfn : fn < 512) (hslot : slot < 4) (hv : s.inval fn slot = some v) (hunits : ∀ u ∈ s.unitsOf v.pav, u ∈ v.units)
  (huses : s.usesTarget v = false) (hheld : s.heldTarget v = false)
include hfn hslot hv hunits huses hheld

theorem exec_invalidateDrainComplete :
    exec (.invalidateDrainComplete fn slot) s = .next ((s.withdrawn v).complete v.post 0 (lohi s.now.toNat)) := by
  have hall : ((s.unitsOf v.pav).all fun u => v.units.contains u) = true := List.all_eq_true.2 fun u hu => List.contains_iff_mem.2 (hunits u hu)
  show execInvalidateDrainComplete fn slot s = _
  unfold execInvalidateDrainComplete
  rw [if_neg (by simpa [numFns] using ⟨hfn, hslot⟩), hv]
  exact if_neg (by simp only [hall, huses, hheld]; decide)

/-- What O37 claims of INVALIDATE_DRAIN_COMPLETE. -/
theorem does_invalidateDrainComplete :
    Does (.invalidateDrainComplete fn slot) s fun r => (∀ x ∈ r.invals, x.post ≠ v.post) ∧ r.beds = s.beds ∧ r.strands = s.strands ∧
      (Holds s v.post → (r.mb v.post).st = 2 ∧ (r.mb v.post).status = 0) := by
  have hw := withdrawn_withdrawn s v
  have htold : Told (s.withdrawn v) ((s.withdrawn v).complete v.post 0 (lohi s.now.toNat)) := Told.refl.complete
  refine ⟨_, exec_invalidateDrainComplete hfn hslot hv hunits huses hheld, fun x hx => ?_, htold.beds.trans hw.beds, htold.strands.trans hw.strands,
    fun hh => (hh.congr hw.fns hw.orphans).complete 0 (lohi s.now.toNat)⟩
  rw [htold.invals, hw.invals] at hx
  simpa using (List.mem_filter.1 hx).2

end

end Sys2Proof.Machine
end

section
/-! SUPPORT. MEM_COPY (R419, R420, R430, R493), FAULT_RESOLVE (R208, R502) and PKG_RESET (R412). -/

namespace Sys2Proof.Machine

variable {s t : State} {fn slot p k : Nat}

/-! ## Sealed frames after a post -/

theorem dvaLocal_withFns (s : State) (f : Tab Fn) (p dva : Nat) : (s.withFns f).dvaLocal p dva = s.dvaLocal p dva := by
  simp only [State.dvaLocal, walk_withFns]

theorem sealedFrame_withFns (s : State) (f : Tab Fn) (p a : Nat) : (s.withFns f).sealedFrame p a = s.sealedFrame p a := by
  simp only [State.sealedFrame, dvaLocal_withFns]
  rfl

/-- A range touches sealed frames after a post as it did before (R493). -/
theorem sealedRange_postedAt (s : State) (fn slot p a n : Nat) : (s.postedAt fn slot).sealedRange p a n = s.sealedRange p a n := by
  show (s.withFns _).sealedRange p a n = _
  simp only [State.sealedRange, sealedFrame_withFns]

/-! ## MEM_COPY -/

section
variable (hp : Passes s fn slot (opc 0x24) (memCopyForm (s.pav ((s.postedAt fn slot).target (s.postName fn slot))).conf))
include hp

theorem exec_memCopy :
    let t := s.postedAt fn slot
    let k := s.postName fn slot
    let p := t.target k
    let m := (s.slotAt fn slot).posted
    exec (.memCopy fn slot) s = .next (
      if m.w2 3 % 64 != 0 || m.w2 5 % copyUnit (s.pav p).conf != 0 || m.w2 5 + m.w 7 > (s.pav p).capacity || s.sealedRange p (m.w2 5) (m.w 7) then
        t.complete k 0x01 []
      else if (s.pav p).chan.halted then t.complete k 0x07 []
      else if bitAt (m.w 2) 0 then t.copyOut k p (m.w2 3) (m.w2 5) (m.w 7)
      else if s.replaying p then t.complete k 0 [m.w 7]
      else { t with transfers := t.transfers ++ [{ post := k, pav := p, kind := 0, iova := m.w2 3, addr := m.w2 5, len := m.w 7 }] }) := by
  intro t k p m
  have hmb : t.mb k = m := Posts.mb_postedAt hp.starts.posts
  have hexec : exec (.memCopy fn slot) s = .next (startMemCopy k t) := post_starts hp.starts _
  have hstart : startMemCopy k t = _ := start_passes hp _
  rw [hexec, hstart]
  dsimp only
  rw [hmb, sealedRange_postedAt]
  rfl

/-- A range that is not good is refused (R419). -/
theorem memCopy_of_bad :
    let t := s.postedAt fn slot
    let k := s.postName fn slot
    let p := t.target k
    let m := (s.slotAt fn slot).posted
    m.w2 3 % 64 ≠ 0 ∨ m.w2 5 % copyUnit (s.pav p).conf ≠ 0 ∨ (s.pav p).capacity < m.w2 5 + m.w 7 →
    exec (.memCopy fn slot) s = .next (t.complete k 0x01 []) := by
  intro t k p m hbad
  rw [exec_memCopy hp]
  refine congrArg _ (if_pos ?_)
  rcases hbad with h | h | h <;> simp [t, k, p, m, h]

/-- With a good range and a channel that is not halted, DIR chooses between a copy out and a transfer that waits for the host. -/
theorem memCopy_of_good :
    let t := s.postedAt fn slot
    let k := s.postName fn slot
    let p := t.target k
    let m := (s.slotAt fn slot).posted
    m.w2 3 % 64 = 0 → m.w2 5 % copyUnit (s.pav p).conf = 0 → m.w2 5 + m.w 7 ≤ (s.pav p).capacity → s.sealedRange p (m.w2 5) (m.w 7) = false →
    (s.pav p).chan.halted = false → s.replaying p = false →
    exec (.memCopy fn slot) s = .next (if bitAt (m.w 2) 0 then t.copyOut k p (m.w2 3) (m.w2 5) (m.w 7)
      else { t with transfers := t.transfers ++ [{ post := k, pav := p, kind := 0, iova := m.w2 3, addr := m.w2 5, len := m.w 7 }] }) := by
  intro t k p m hiova haddr hlen hsealed hhalted hreplay
  rw [exec_memCopy hp]
  refine congrArg _ ((if_neg ?_).trans ((if_neg (Bool.eq_false_iff.1 hhalted)).trans ?_))
  · simpa [t, k, p, m, hiova, haddr, hsealed] using hlen
  · rw [if_neg (Bool.eq_false_iff.1 hreplay)]

end

/-- Plain bytes go to the IOVA of the host function, and count in HOST (R420, R436). -/
theorem copyOut_of_plain {iova addr len : Nat} (hconf : (s.pav p).conf = false) (hreplay : s.replaying p = false)
    (hclean : s.beds.badIn (csKey (s.pav p) (s.pav p).channels) addr len = none) :
    s.copyOut k p iova addr len =
      ({ s with host := Mem.writeN s.host ((s.pav p).hostAt iova) (s.readCs p addr len) }.count p 0 len).complete k 0 [len] := by
  unfold State.copyOut
  dsimp only
  rw [hclean]
  exact (if_neg (by simp [hreplay])).trans (if_pos (by simp [hconf]))

/-! ## FAULT_RESOLVE -/

/-- KILL of a record that stands kills the pavilion, and every record of it goes (R208, R502). -/
theorem exec_faultResolveKill (hp : Passes s fn slot (fun w => opc 0x19 w && bitAt (w 2) 8) resolveForm) :
    let t := s.postedAt fn slot
    let k := s.postName fn slot
    let p := t.target k
    (Tab.find ((s.slotAt fn slot).posted.w 2 % 32) (s.pav p).faults).isSome = true →
    exec (.faultResolveKill fn slot) s
      = .next (((t.modPav p fun v => { v with faults := [], waiters := [] }).startReset p 0x04 0 []).complete k 0 [0]) := by
  intro t k p hsome
  obtain ⟨r, hr⟩ := Option.isSome_iff_exists.1 hsome
  have hr' : Tab.find ((t.mb k).w 2 % 32) (t.pav p).faults = some r := by
    rw [show t.mb k = _ from Posts.mb_postedAt hp.starts.posts]
    exact hr
  refine (post_body (start := startResolveKill) hp fun _ _ => rfl).trans (congrArg _ ?_)
  dsimp only
  rw [hr']

/-- A RETRY of a record that is not OPEN answers 0; of one that is, the counts of its tiles (R208). -/
theorem exec_faultResolveRetry (hp : Passes s fn slot (fun w => opc 0x19 w && !bitAt (w 2) 8) resolveForm) :
    let t := s.postedAt fn slot
    let k := s.postName fn slot
    let p := t.target k
    let id := (s.slotAt fn slot).posted.w 2 % 32
    ((∀ r, Tab.find id (s.pav p).faults = some r → r.st ≠ 1) → exec (.faultResolveRetry fn slot) s = .next (t.complete k 0 [0])) ∧
    ∀ r, Tab.find id (s.pav p).faults = some r → r.st = 1 → exec (.faultResolveRetry fn slot) s =
      .next ((t.retryRecord p id r).1.complete k 0 [(t.retryRecord p id r).2.1 % 65536 + ((t.retryRecord p id r).2.2 % 65536) <<< 16]) := by
  intro t k p id
  have hexec := post_body (start := startResolveRetry) hp fun _ _ => rfl
  rw [show (s.postedAt fn slot).mb (s.postName fn slot) = _ from Posts.mb_postedAt hp.starts.posts] at hexec
  refine ⟨fun hclosed => hexec.trans (congrArg _ ?_), fun r hr hopen => hexec.trans (congrArg _ ?_)⟩ <;> dsimp only
  · split
    · rfl
    · next r hr => exact if_pos (by simpa using hclosed r hr)
  · have hr' : Tab.find ((s.slotAt fn slot).posted.w 2 % 32) (t.pav p).faults = some r := hr
    rw [hr']
    exact if_neg (by simp [hopen])

/-- Counting each of a list's elements in one of two counts. -/
theorem foldl_tally {α β : Type} {f : β × Nat × Nat → α → β × Nat × Nat} (hf : ∀ a x, (f a x).2.1 + (f a x).2.2 = a.2.1 + a.2.2 + 1) (l : List α)
    (a : β × Nat × Nat) : (l.foldl f a).2.1 + (l.foldl f a).2.2 = a.2.1 + a.2.2 + l.length := by
  induction l generalizing a with
  | nil => rfl
  | cons x l ih =>
    rw [List.foldl_cons, ih, hf, List.length_cons]
    omega

/-- The tiles that proceed and those that fault again are together the tiles that waited. -/
theorem tally_retryRecord (s : State) (p id : Nat) (r : FaultRec) :
    (s.retryRecord p id r).2.1 + (s.retryRecord p id r).2.2 = ((s.pav p).waiters.filter fun w => w.page == r.page).length := by
  unfold State.retryRecord
  refine (foldl_tally (fun a w => ?_) _ _).trans (by simp)
  dsimp only
  split <;> dsimp only <;> omega

/-! ## PKG_RESET -/

/-- A warm reset leaves every mailbox slot IDLE (R412). -/
theorem idle_warmReset (s : State) (cause f : Nat) {x : Fn} (hx : Tab.find f (s.warmReset cause).fns = some x) : ∀ y ∈ x.slots, y.st = 0 := by
  unfold State.warmReset at hx
  extract_lets s' s1 s2 s3 at hx
  replace hx : Tab.find f (Tab.mapVals (fun _ x => x.afterWarm) s3.fns) = some x := hx
  rw [Tab.find_mapVals, Option.map_eq_some_iff] at hx
  obtain ⟨z, -, rfl⟩ := hx
  intro y hy
  obtain ⟨m, -, rfl⟩ := List.mem_map.1 hy
  rfl

end Sys2Proof.Machine
end

section
/-! SUPPORT. Commands on memory, runs and resets, as posts that pass their checks find them (R208 to R213, R292 to R294, R419 to R421, R446, R502,
R505). -/

namespace Sys2Proof.Machine

variable {s : State} {fn slot : Nat}

theorem exec_identify (hp : Passes s fn slot (opc 0x01) { anyMajor := true }) :
    let t := s.postedAt fn slot
    exec (.identify fn slot) s = .next (t.complete (s.postName fn slot) 0 (t.identity fn)) := by
  have hfn : postFn (s.postName fn slot) = fn := postFn_postOf hp.starts.posts.fnOk hp.starts.posts.slotOk
  refine (post_body (body := fun k _ s => s.complete k 0 (s.identity (postFn k))) hp fun _ _ => rfl).trans ?_
  rw [hfn]

theorem exec_pavReset (hp : Passes s fn slot (opc 0x44) pavResetForm) :
    let t := s.postedAt fn slot
    let k := s.postName fn slot
    exec (.pavReset fn slot) s = .next (t.startReset (t.target k) 0x09 0 [k]) :=
  post_body (body := fun k p s => s.startReset p 0x09 0 [k]) hp fun _ _ => rfl

theorem exec_pkgReset (hp : Passes s fn slot (opc 0x45) pkgResetForm) : exec (.pkgReset fn slot) s = .next ((s.postedAt fn slot).warmReset 3) :=
  post_body (body := fun _ _ s => s.warmReset 3) hp fun _ _ => rfl

/-- Settles O37, command by command. A RUN is accepted in the state that reading its table leaves, which differs from the one posted in window
entries, translation caches, free values and beds alone (`WindowRead.readTable`). -/
theorem memoryAndRunCommandsAct : Obligations.MemoryAndRunCommandsAct := by
  unfold Obligations.MemoryAndRunCommandsAct
  intro s fn slot t k m p
  refine ⟨exec_identify, exec_invalidate, fun v hfn hslot hv => ⟨fun u hu => does_invalidateReceive hfn hslot hu hv, fun hunits huses hheld => ?drain⟩,
    exec_faultResolveKill, fun hp => ⟨(exec_faultResolveRetry hp).1, fun r hr hopen => ?retry⟩, fun hp hreplay => ⟨memCopy_of_bad hp, ?copy⟩,
    fun hp => ⟨fun hfull => ?full, fun r hroom hspan => ?accepted⟩, fun hp hnone => ?reset, fun hp => ⟨exec_pkgReset hp, idle_warmReset t 3⟩⟩
  case drain =>
    obtain ⟨r, hexec, hinvals, hbeds, hstrands, hdone⟩ := does_invalidateDrainComplete hfn hslot hv hunits huses hheld
    exact ⟨r, hexec, hinvals, hbeds, hstrands, fun hst hlive hmine hgen hslots => hdone ⟨hlive, hmine, hslots, hst, hgen⟩⟩
  case retry => exact ⟨_, _, _, (exec_faultResolveRetry hp).2 r hr hopen, tally_retryRecord t p (m.w 2 % 32) r⟩
  case copy =>
    intro hiova haddr hlen hsealed hhalted
    have hgood := memCopy_of_good hp hiova haddr hlen hsealed hhalted hreplay
    refine ⟨fun hin => hgood.trans (congrArg _ (if_neg (Bool.eq_false_iff.1 hin))), fun hout hconf hclean => hgood.trans (congrArg _ ?_)⟩
    exact (if_pos hout).trans (copyOut_of_plain (s := t) hconf hreplay hclean)
  case full => exact (exec_run hp).trans (congrArg _ (if_pos hfull))
  case accepted =>
    have hread : t.readPosted p k = t.readTable p { post := k } (some k) (m.w2 2) (bits (m.w 4) 9 0) (bits (m.w 4) 25 16) (m.w 5) := by
      rw [State.readPosted, show t.mb k = m from Posts.mb_postedAt hp.starts.posts]
    rw [← hread]
    exact does_run hp hroom hspan
  case reset =>
    have hpav := pav_startReset_of_none (s := t) hnone 0x09 0 [k]
    exact ⟨_, exec_pavReset hp, rfl, rfl, rfl, congrArg Pav.resetting hpav⟩

end Sys2Proof.Machine
end

section
/-! SUPPORT. A step of the block: the command in front of the queue, or what the hub of the control network serves (R244, R245). -/

namespace Sys2Proof.Machine

variable {s : State}

/-- A response that waits at the hub goes first. -/
theorem hubServe_of_response {r : HubPort × Nat} {rest : List (HubPort × Nat)} (hr : s.net.hub.responses = r :: rest) :
    s.hubServe = (s.modNet fun n => { n with hub := { s.net.hub with responses := rest } }).answered r.2 := by
  simp only [State.hubServe, hr]

/-- With no response at the hub, the request that is next in the round joins the queue. -/
theorem hubServe_of_request {x : HubPort × Instr} (hr : s.net.hub.responses = []) (hx : s.net.hub.next = some x) :
    s.hubServe = { s.modNet fun n => { n with hub := { s.net.hub with last := x.1.place, requests := s.net.hub.requests.erase x } } with
      pending := s.pending ++ [x.2] } := by
  simp only [State.hubServe, hr, hx]

theorem hubServe_of_empty (hr : s.net.hub.responses = []) (hq : s.net.hub.requests = []) : s.hubServe = s := by
  simp only [State.hubServe, hr, Hub.next, hq, List.foldl_nil]

/-- Settles O56: a step takes the front command, or serves the hub, whose choice is the nearest requester's oldest request (`Hub.next_eq`). -/
theorem aStepRunsTheFrontCommand : Obligations.AStepRunsTheFrontCommand := by
  unfold Obligations.AStepRunsTheFrontCommand
  refine fun s => ⟨fun _ _ => rfl, fun hpending => ?_⟩
  have hstep : step s = .next s.hubServe := by simp only [step, hpending]
  refine ⟨fun r rest hr => ?response, fun l x r hresp hreq hl hr => ?request, fun hresp hreq => ?idle⟩
  case response => rw [hstep, hubServe_of_response hr]; rfl
  case request =>
    have hnot : x ∉ l := fun hx => Nat.lt_irrefl _ (hl x hx)
    have herase : s.net.hub.requests.erase x = l ++ r := by rw [hreq, List.erase_append_right _ hnot, List.erase_cons_head]
    rw [hstep, hubServe_of_request hresp (Hub.next_eq _ l r x hreq hl hr), herase, hpending]
    rfl
  case idle => rw [hstep, hubServe_of_empty hresp hreq]

end Sys2Proof.Machine
end

section
/-! SUPPORT. A tick of TIME (R251, R445, R500), and the election of a time master in it, which leaves sealed loads in progress as they are (R358). -/

namespace Sys2Proof.Machine

variable {s t : State} {p : Nat}

/-! ## Sealed loads in progress -/

theorem Told.unseals (h : Told s t) : t.unseals = s.unseals := (congrArg State.unseals h.eq).trans rfl

theorem unseals_sayDown (s : State) (p : Nat) : (s.sayDown p).unseals = s.unseals :=
  foldl_unchanged State.unseals (fun _ _ => Told.refl.syncSend.unseals) _ _

theorem unseals_sayReady (s : State) (p r : Nat) : (s.sayReady p r).unseals = s.unseals := by
  unfold State.sayReady
  dsimp only
  split
  · rfl
  · exact Told.refl.syncSend.unseals

theorem unseals_tryReady (s : State) (p : Nat) : (s.tryReady p).unseals = s.unseals := by
  unfold State.tryReady
  dsimp only
  split
  · rfl
  · exact Told.refl.raisePav.unseals

theorem unseals_peerReset (s : State) (p : Nat) : (s.peerReset p).unseals = s.unseals := by
  unfold State.peerReset
  refine foldl_unchanged State.unseals (fun u x => ?_) _ _
  split <;> rfl

theorem unseals_faultSpan (s : State) (p rank : Nat) : (s.faultSpan p rank).unseals = s.unseals := by
  unfold State.faultSpan
  extract_lets v s1 s2
  split
  · rfl
  · exact Told.refl.raisePav.unseals.trans (unseals_peerReset ..)

theorem unseals_reviewSpan (s : State) (p : Nat) : (s.reviewSpan p).unseals = s.unseals := by
  unfold State.reviewSpan
  extract_lets v s1
  have hdown : s1.unseals = s.unseals := by
    dsimp only [s1]
    split
    · rfl
    · exact unseals_sayDown s p
  have hsaid : (v.others.foldl (fun s r => if v.span.said.contains r then s else s.sayReady p r) s1).unseals = s.unseals := by
    refine (foldl_unchanged State.unseals (fun u r => ?_) _ _).trans hdown
    split
    · rfl
    · exact unseals_sayReady u p r
  split
  · rfl
  · split
    · split
      · exact (unseals_faultSpan ..).trans hdown
      · exact hsaid
    · split
      · exact hdown
      · exact (unseals_tryReady ..).trans hsaid

theorem unseals_probe (s : State) (p : Nat) : (s.probe p).unseals = s.unseals := by
  unfold State.probe
  dsimp only
  split
  · rfl
  · exact foldl_unchanged State.unseals (fun _ _ => Told.refl.syncSend.unseals) _ _

theorem unseals_rerouted (s : State) : s.rerouted.unseals = s.unseals :=
  (foldl_unchanged State.unseals unseals_probe _ _).trans (foldl_unchanged State.unseals unseals_reviewSpan _ _)

theorem unseals_elect (s : State) : s.elect.unseals = s.unseals := by
  unfold State.elect State.lead
  dsimp only
  split
  · split
    · rfl
    · exact unseals_rerouted _
  · rfl

theorem unseals_electAlone (s : State) : s.electAlone.unseals = s.unseals := by
  unfold State.electAlone
  split
  · exact unseals_elect s
  · rfl

/-! ## The tick -/

/-- With no correction to make, TIME advances by one tick (R359). -/
theorem advance_of_unmoved {y : Tsync} (h : y.toMove = 0) : y.advance.1 = 1 := by
  rw [Tsync.advance, if_pos (by simp [h])]

/-- A tick with no sealed load in progress is the advance of TIME and the election (R251, R358). -/
theorem exec_timeTick (hclk : s.boot.refclk = true) (hseal : s.unseals = []) : exec .timeTick s = .next s.tickOn.electAlone := by
  have hnone : s.tickOn.electAlone.unseals = [] := (unseals_electAlone _).trans hseal
  show (if !s.ticking then _ else _) = _
  rw [State.ticking, hclk]
  exact congrArg Host.Outcome.next (by rw [hnone]; rfl)

/-- What a pavilion counts in one tick (R445, R500). -/
theorem pav_countTicks_one (s : State) (p : Nat) : (s.countTicks 1).pav p = if (s.pav p).bound then
    { s.pav p with acct := { (s.pav p).acct with coreTicks := (s.pav p).acct.coreTicks + BitVec.ofNat 64 (s.coreCount p) }
                   watchdog := (s.pav p).watchdog + (if s.watching p then 1 else 0) } else s.pav p := by
  have hpav : s.pav p = (Tab.find p s.pavs).getD {} := rfl
  have hcount : (s.countTicks 1).pav p = (Tab.find p (s.countTicks 1).pavs).getD {} := rfl
  rw [hcount, State.countTicks, Tab.find_mapVals]
  cases hfind : Tab.find p s.pavs with
  | none => rw [hpav, hfind, Option.getD_none, not_bound_default]; rfl
  | some v =>
    rw [hfind, Option.getD_some] at hpav
    rw [hpav, Option.map_some, Option.getD_some, Nat.one_mul]
    cases v.bound with
    | false => rfl
    | true => cases s.watching p <;> rfl

theorem exec_timeBroadcast (h : s.time.now.toNat % 1024 = 0) :
    exec .timeBroadcast s = .next { s with time := { s.time with lastBroadcast := s.time.now } } :=
  if_neg (by simp [State.now, h])

theorem exec_timeNowLowRead (h : s.exposed = true) : exec .timeNowLowRead s = .next { s with
    answer := s.time.now.toNat % 2 ^ 32, regs := { s.regs with timeLatch := BitVec.ofNat 32 (s.time.now.toNat / 2 ^ 32) } } :=
  if_neg (by simp [h])

/-- Settles O25: a tick counts in every pavilion and advances TIME; it elects where the package stands alone at a multiple of 1,024. -/
theorem timeAdvances : Obligations.TimeAdvances := by
  unfold Obligations.TimeAdvances
  refine fun s => ⟨fun hclk hmove hseal => ?tick, exec_timeBroadcast, exec_timeNowLowRead⟩
  have hone : s.links.tsync.advance.1 = 1 := advance_of_unmoved hmove
  have hnow : s.tickOn.time.now = s.time.now + 1 := by
    show s.time.now + BitVec.ofNat 64 s.links.tsync.advance.1 = _
    rw [hone]
    rfl
  have hpav : ∀ p, s.tickOn.pav p = (s.countTicks 1).pav p := fun p => by rw [← hone]; rfl
  refine ⟨s.tickOn, ?_, hnow, rfl, rfl, rfl, rfl, rfl, fun p => (hpav p).trans (pav_countTicks_one s p)⟩
  rw [exec_timeTick hclk hseal, State.electAlone, State.now, hnow]
  simp only [Bool.and_eq_true, beq_iff_eq]
  rfl

end Sys2Proof.Machine
end

section
/-! SUPPORT. What messages and requests served at this package leave: the pairs of the numbering of requests (R241). -/

namespace Sys2Proof.Machine

variable {s t : State}

/-! ## Pairs -/

theorem pairs_carry (s : State) (m : BulkMsg) (src dst n : Nat) : (s.carry m src dst n).net.pairs = s.net.pairs :=
  (congrArg Net.pairs (net_foldl_unrepeatable _ 5 s) :)

theorem pairs_leave (s : State) (src : Nat) (m : BulkMsg) : (s.leave src m).net.pairs = s.net.pairs := by
  unfold State.leave
  split
  · exact (congrArg Net.pairs Told.refl.sendOut.net).trans (pairs_carry ..)
  · exact congrArg Net.pairs Told.refl.sendOut.net

theorem pairs_answerOut (s : State) (m a : BulkMsg) : (s.answerOut m a).net.pairs = s.net.pairs := pairs_leave ..

theorem pairs_request (s : State) (q : Sent) : (s.request q).net.pairs = s.net.pairs := by
  unfold State.request
  dsimp only
  split
  · exact pairs_leave ..
  · rfl

theorem pairs_sendPoolFor (s : State) (pav : Option Nat) (num pkg : Nat) (m : PoolMsg) (bytes : List Byte) :
    (s.sendPoolFor pav num pkg m bytes).net.pairs = s.net.pairs := by
  have parts : ∀ (f : Nat → PoolMsg × List Byte × Bool) (l : List Nat),
      (l.foldl (fun s i => s.sendPoolOf pav num pkg (f i).1 (f i).2.1 (f i).2.2) s).net.pairs = s.net.pairs :=
    fun f l => foldl_unchanged (fun u : State => u.net.pairs) (fun _ _ => pairs_request ..) l s
  unfold State.sendPoolFor
  dsimp only
  split
  · exact parts (fun i => ({ m with words := (m.words.drop (i * 448)).take 448 }, [], i + 1 == ceilDiv m.words.length 448)) _
  · split
    · exact pairs_request ..
    · exact parts (fun i => ({ m with other := m.other + i * 4096 }, (bytes.drop (i * 4096)).take 4096, true)) _

theorem net_logMem (s : State) (kind loc whereAt : Nat) : (s.logMem kind loc whereAt).net = s.net := (told_logMem ..).net.trans rfl

theorem net_killSram (s : State) (p core row : Nat) : (s.killSram p core row).net = s.net := (net_logMem ..).trans rfl

theorem net_killOwner (s : State) (q key : Nat) : (s.killOwner q key).net = s.net := (net_logMem ..).trans rfl

theorem net_recordFault (s : State) (p : Nat) (w : Waiter) : (s.recordFault p w).net = s.net := by
  unfold State.recordFault
  dsimp only
  split
  · split
    · exact Told.refl.raisePav.net
    · rfl
  · split
    · rfl
    · exact Told.refl.raisePav.net

theorem net_recordAt (s : State) (p dva : Nat) (a : Access) (data : Option (Nat × List Byte)) : (s.recordAt p dva a data).net = s.net := by
  unfold State.recordAt
  split
  · rfl
  · dsimp only
    split
    · rfl
    · exact net_recordFault ..

theorem net_writePool (s : State) (i page off : Nat) (bs : List Byte) : (s.writePool i page off bs).net = s.net := by
  unfold State.writePool
  refine foldl_unchanged State.net (fun u j => ?_) _ _
  dsimp only
  split
  · split
    · rfl
    · split
      · exact net_killOwner ..
      · rfl
  · split
    · rfl
    · exact net_recordAt ..

theorem pairs_poolWrote (s : State) (i page off : Nat) (bs : List Byte) : (s.poolWrote i page off bs).net.pairs = s.net.pairs := by
  unfold State.poolWrote
  split
  · rfl
  · dsimp only
    split
    · rfl
    · split
      · split
        · split
          · exact congrArg Net.pairs (net_writePool ..)
          · rfl
        · exact pairs_sendPoolFor ..
      · rfl

theorem pairs_writeWindow (s : State) (w page p cs off : Nat) (bs : List Byte) : (s.writeWindow w page p cs off bs).net.pairs = s.net.pairs := by
  unfold State.writeWindow
  dsimp only
  split
  · rfl
  · exact pairs_poolWrote ..

/-! ## Requests served here -/

theorem WindowRead.net (h : WindowRead s t) : t.net = s.net := (congrArg State.net h.eq).trans rfl

theorem net_touchWindow (s : State) (w page : Nat) (a : Access) : (s.touchWindow w page a).net = s.net := WindowRead.refl.touchWindow.net

theorem net_ite {c : Prop} [Decidable c] {a b : WinAnswer × State} (ha : a.2.net = s.net) (hb : b.2.net = s.net) :
    (if c then a else b).2.net = s.net := by
  split
  · exact ha
  · exact hb

/-- The check of a window request, refused or not, leaves the networks as they were. -/
theorem net_windowCheck (s : State) (w src tenant : Nat) (pages : List Nat) (last : Nat) (rd wr : Bool) :
    (s.windowCheck w src tenant pages last rd wr).2.net = s.net := by
  have entered : WindowRead s (s.window w).2 := WindowRead.refl.window
  have walked : ∀ {p a l}, ((s.window w).2.walkOwner p a l).2.net = s.net := (entered.translated Translated.refl.walkOwner).net
  unfold State.windowCheck
  refine net_ite entered.net (net_ite entered.net (net_ite entered.net (net_ite entered.net ?_)))
  split
  · exact entered.net
  · refine net_ite entered.net (net_ite entered.net (net_ite entered.net ?_))
    dsimp only
    split
    · exact walked
    · exact entered.net
    · exact walked
    · exact (net_killOwner ..).trans walked
    · exact walked

theorem pairs_serveWindow (s : State) (m : BulkMsg) : (s.serveWindow m).net.pairs = s.net.pairs := by
  unfold State.serveWindow
  extract_lets wr whole pages last q s1 s2
  have checked : s1.net = s.net := net_windowCheck ..
  have touched : s2.net = s.net := (foldl_unchanged State.net (fun _ _ => net_touchWindow ..) _ _).trans checked
  clear_value s1 s2
  split
  · exact pairs_answerOut ..
  · split
    · exact (pairs_answerOut ..).trans (congrArg Net.pairs (net_windowCheck ..))
    · extract_lets v key pieces puts hurt s3
      have written : s3.net.pairs = s.net.pairs :=
        (foldl_unchanged (fun u : State => u.net.pairs) (fun _ _ => pairs_writeWindow ..) _ _).trans (congrArg Net.pairs touched)
      clear_value s3
      split
      · exact (pairs_answerOut ..).trans (congrArg Net.pairs ((net_killOwner ..).trans checked))
      · split
        · exact (pairs_answerOut ..).trans (congrArg Net.pairs checked)
        · split
          · split
            · exact (pairs_answerOut ..).trans written
            · exact written
          · exact (pairs_answerOut ..).trans (congrArg Net.pairs touched)

theorem net_foldl_writeLs (s : State) (c : Nat) (l : List (Nat × List Byte)) : (l.foldl (fun s x => s.writeLs c x.1 x.2) s).net = s.net :=
  foldl_unchanged State.net (f := fun s (x : Nat × List Byte) => s.writeLs c x.1 x.2) (fun _ _ => rfl) l s

theorem pairs_servePeer (s : State) (m : BulkMsg) : (s.servePeer m).net.pairs = s.net.pairs := by
  unfold State.servePeer
  split
  · rfl
  · next c _ =>
    dsimp only
    split
    · exact congrArg Net.pairs (net_killSram ..)
    · split
      · exact (pairs_answerOut ..).trans (congrArg Net.pairs (net_foldl_writeLs s c _))
      · exact pairs_answerOut ..

/-- A read or write of a core, or a window request, is served without a pair changing. -/
theorem pairs_serve (s : State) {m : BulkMsg} (hpool : m.pool = none) : (s.serve m).net.pairs = s.net.pairs := by
  unfold State.serve
  rw [hpool]
  dsimp only [Option.isSome]
  rw [if_neg Bool.false_ne_true]
  split
  · exact pairs_serveWindow ..
  · split
    · exact pairs_servePeer ..
    · rfl

/-- The state in which a pair has changed. -/
def State.putPair (s : State) (k : Nat) (p : Pair) : State := s.modNet fun n => { n with pairs := Tab.put k p n.pairs }

theorem getD_putPair (s : State) (k : Nat) (p : Pair) : Tab.getD (s.putPair k p).net.pairs k {} = p := Tab.getD_put_self ..

theorem early_putPair (s : State) (k : Nat) (p : Pair) : (Tab.getD (s.putPair k p).net.pairs k {}).early = p.early := by rw [getD_putPair]

/-- Requests held early in the pair of a message. -/
def State.heldEarly (s : State) (m : BulkMsg) : List BulkMsg := (Tab.getD s.net.pairs (bulkPair m) {}).early

/-- A request that is applied leaves those held early in its pair. -/
theorem heldEarly_applyRequest (s : State) {m : BulkMsg} (hpool : m.pool = none) : (s.applyRequest m).heldEarly m = s.heldEarly m := by
  have hput : ∀ ps, (s.putPair (bulkPair m) { Tab.getD s.net.pairs (bulkPair m) {} with parts := ps }).heldEarly m = s.heldEarly m :=
    fun _ => early_putPair ..
  unfold State.applyRequest
  extract_lets k p
  generalize (if m.pool.isSome = true then m.last && p.parts.isEmpty else !putsBytes m || m.tile.isEmpty) = whole
  split
  · rw [State.heldEarly, pairs_serve s hpool, State.heldEarly]
  · split
    · rw [State.heldEarly, pairs_answerOut]
      exact hput _
    · rw [State.heldEarly, pairs_serve _ (by simp only [joinParts, hpool, Option.map_none])]
      exact hput _

end Sys2Proof.Machine
end

section
/-! SUPPORT. Bulk messages that arrive (R240 to R243, R354, R498): a request's turn in its pair, and replies. -/

namespace Sys2Proof.Machine

variable {s : State} {m : BulkMsg} {q : Sent} {c : Instr}

/-! ## Requests in their turn -/

theorem putPair_putPair (s : State) (k : Nat) (p p' : Pair) : (s.putPair k p).putPair k p' = s.putPair k p' := by
  show { s with net := { s.net with pairs := Tab.put k p' (Tab.put k p s.net.pairs) } } = _
  rw [Tab.put_put]
  rfl

/-- With none held in its pair, nothing waits behind a request. -/
theorem drainPair_of_none (h : s.heldEarly m = []) (fuel : Nat) : s.drainPair (bulkPair m) fuel = s := by
  cases fuel with
  | zero => rfl
  | succ fuel =>
    rw [State.drainPair]
    dsimp only
    rw [show (Tab.getD s.net.pairs (bulkPair m) {}).early = [] from h]
    rfl

/-- The pair once the request that it expects next, with none held, has been applied (R241). -/
def Pair.turned (p : Pair) : Pair := { p with expect := p.expect + 1, early := [] }

/-- The one request held in its pair, if it is the one expected, is applied. -/
theorem drainPair_of_held {p : Pair} (hp : Tab.getD s.net.pairs (bulkPair m) {} = p) (hearly : p.early = [m]) (hseq : m.seq = p.expect) (fuel : Nat) :
    s.drainPair (bulkPair m) (fuel + 1) = ((s.putPair (bulkPair m) p.turned).applyRequest m).drainPair (bulkPair m) fuel := by
  have hfound : p.early.find? (fun x => x.seq == p.expect) = some m := by simp [hearly, hseq]
  have hrest : p.early.filter (fun x => x.seq != p.expect) = [] := by simp [hearly, hseq]
  rw [State.drainPair]
  dsimp only
  rw [hp, hfound, hrest]
  rfl

/-- A request that is the next of its pair, with none held, is held and at once applied. -/
theorem sequence_next (hpool : m.pool = none) {p : Pair} (hp : Tab.getD s.net.pairs (bulkPair m) {} = p) (hearly : p.early = [])
    (hseq : m.seq = p.expect) : s.sequence m = (s.putPair (bulkPair m) p.turned).applyRequest m := by
  have hheld : s.sequence m = (s.putPair (bulkPair m) { p with early := [m] }).drainPair (bulkPair m) 64 := by
    unfold State.sequence
    dsimp only
    rw [hp, hearly, hseq]
    exact if_neg (by simp)
  have happlied : (((s.putPair (bulkPair m) p.turned).applyRequest m).heldEarly m) = [] := by
    rw [heldEarly_applyRequest _ hpool]
    exact early_putPair ..
  have hturn : (s.putPair (bulkPair m) { p with early := [m] }).drainPair (bulkPair m) 64 =
      ((s.putPair (bulkPair m) p.turned).applyRequest m).drainPair (bulkPair m) 63 := by
    rw [← putPair_putPair s (bulkPair m) { p with early := [m] } p.turned]
    exact drainPair_of_held (p := { p with early := [m] }) (getD_putPair ..) rfl hseq 63
  exact hheld.trans (hturn.trans (drainPair_of_none happlied 63))

/-- A message of this package's pavilion under its winding passes the check of its winding, and no other does (R243). -/
theorem windingCheck_own (hsys : m.sys = false) (hsrc : m.srcPkg.toNat = s.ownPkg) :
    s.windingCheck m = if m.winding == (s.pav (m.stream.toNat / 2048)).winding then some s else none := by
  rw [State.windingCheck, hsys, if_neg Bool.false_ne_true, if_pos (by simpa using hsrc)]
  rfl

/-- A message for this package that is no reply changes nothing where its winding is stale (R498). -/
theorem bulkIn_of_stale (hdst : m.dstPkg.toNat = s.ownPkg) (hreply : m.isReply = false) (hw : s.windingCheck m = none) : s.bulkIn m = s := by
  unfold State.bulkIn
  simp [hdst, hreply, hw]

/-- A request that is formed takes its turn in its pair. -/
theorem bulkIn_of_request (hdst : m.dstPkg.toNat = s.ownPkg) (hreply : m.isReply = false) (hkind : m.kind ≠ 4) (hform : m.formed = true)
    (hw : s.windingCheck m = some s) : s.bulkIn m = s.sequence m := by
  unfold State.bulkIn
  simp [hdst, hreply, hw, hform, show ¬ m.kind = 4#5 from hkind]

theorem exec_windowRequestReceive (hdst : m.dstPkg.toNat = s.ownPkg) (hkind : m.kind = 5 ∨ m.kind = 6) (hform : m.formed = true)
    (hw : s.windingCheck m = some s) : exec (.windowRequestReceive m) s = .next (s.sequence m) := by
  show execWindowRequestReceive m s = _
  rw [execWindowRequestReceive, if_neg (by rcases hkind with h | h <;> simp [hdst, h, hform]), hw]

/-! ## Replies -/

/-- A message answers a request, which no message has answered yet (R242). -/
def Sent.answeredBy (m : BulkMsg) (q : Sent) : Bool :=
  q.msg.stream == m.stream && q.msg.seq == m.seq && q.msg.dstPkg == m.srcPkg && q.msg.sys == m.sys && q.got.isNone

/-- A reply that arrives in its own command or as a message is matched where it is formed. -/
theorem exec_reply (hc : c = .bulkMessageArrive m ∨ c = .replyArrive m) (hdst : m.dstPkg.toNat = s.ownPkg) (hreply : m.isReply = true) :
    exec c s = .next (if m.formed then s.replyIn m else s) := by
  rcases hc with rfl | rfl
  · show ok (s.bulkIn m) = _
    unfold State.bulkIn
    cases hform : m.formed <;> simp [hdst, hreply, ok]
  · show execReplyArrive m s = _
    simp [execReplyArrive, hdst, hreply, ok]

/-- A reply that answers nothing changes nothing (R242). -/
theorem replyIn_of_none (h : ∀ q ∈ s.net.sent, q.answeredBy m = false) : s.replyIn m = s := by
  have hfind : s.net.sent.find? (Sent.answeredBy m) = none := List.find?_eq_none.2 fun q hq => by simp [h q hq]
  unfold State.replyIn
  split
  · rfl
  · next q hq => exact absurd (hfind.symm.trans hq) nofun

/-- The state once a TSEND's message is answered: its request is forgotten, the TSEND completes and its bytes count (R140, R242, R445). -/
def State.sendAnswered (s : State) (m : BulkMsg) (q : Sent) : State :=
  (((s.modNet fun n => { n with sent := n.sent.filter fun x => x != q }).finishFlight q.core q.strand q.num).modPav (m.stream.toNat / 2048) fun v =>
    { v with sends := v.sends.filter fun x => !(x.core == q.core && x.strand == q.strand && x.num == q.num) }).count (m.stream.toNat / 2048) 1
      (q.keys.headD (0, 0)).2

/-- The answer of a TSEND's message under the current winding, and the next request of its pair (R241, R242). -/
theorem replyIn_of_send (hfind : s.net.sent.find? (Sent.answeredBy m) = some q) (hcore : q.core < 1088) (hkind : q.msg.kind = 4)
    (hw : m.winding = (s.pav (m.stream.toNat / 2048)).winding) : s.replyIn m = (s.sendAnswered m q).sendNext (seqKey q.msg) := by
  have hmatch : s.matchReply m = s.sendAnswered m q := by
    have hpool : (q.core == poolCore) = false := by simp [poolCore]; omega
    have hgaold : (q.core == gaoldCore) = false := by simp [gaoldCore]; omega
    unfold State.matchReply
    split
    · next hq => exact absurd (hq.symm.trans hfind) nofun
    · next q' hq =>
      obtain rfl : q' = q := Option.some.inj (hq.symm.trans hfind)
      simp only [hpool, hgaold, hkind, hw, bulkPav, bne_self_eq_false, Bool.false_eq_true, if_false]
      rfl
  rw [← hmatch]
  unfold State.replyIn
  split
  · next hq => exact absurd (hq.symm.trans hfind) nofun
  · next q' hq => rw [Option.some.inj (hq.symm.trans hfind)]

theorem net_count (s : State) (p cls n : Nat) : (s.count p cls n).net = s.net := by
  unfold State.count
  split <;> rfl

/-- The answer of the only request that waits leaves none. -/
theorem sent_sendAnswered (hsent : s.net.sent = [q]) : (s.sendAnswered m q).net.sent = [] := by
  rw [State.sendAnswered, net_count]
  show s.net.sent.filter (fun x => x != q) = []
  simp [hsent]

theorem strand_sendAnswered : ((s.sendAnswered m q).strand q.core q.strand).flights =
    (s.strand q.core q.strand).flights.filter fun y => y.num != q.num := by
  rw [State.sendAnswered, strand_count]
  exact congrArg Strand.flights (State.strand_setStrand_self ..)

theorem beds_sendAnswered : (s.sendAnswered m q).beds = s.beds := (beds_count ..).trans rfl

theorem sendNext_of_nil (h : s.net.sent = []) (k : Nat) : s.sendNext k = s := by
  unfold State.sendNext
  rw [h]
  rfl

/-- Settles O26, by the kind of the message: passed on, a request in its turn, or a reply. -/
theorem bulkMessagesAndReplies : Obligations.BulkMessagesAndReplies := by
  unfold Obligations.BulkMessagesAndReplies
  refine fun s m => ⟨fun hdst => ?passed, fun hdst h2 h3 hsys hsrc hold => ?stale, fun c hc hform hpool hdst hsys hsrc hw => ?request,
    fun c hc hdst hkind => ?reply⟩
  case passed => exact congrArg ok (if_pos (by simpa using hdst))
  case stale =>
    have hreply : m.isReply = false := by rw [BulkMsg.isReply, beq_false_of_ne h2, beq_false_of_ne h3]; rfl
    have hwind : s.windingCheck m = none := by rw [windingCheck_own hsys hsrc, if_neg (by simpa using hold)]
    exact congrArg ok (bulkIn_of_stale hdst hreply hwind)
  case request =>
    intro k q hearly hseq
    have hwind : s.windingCheck m = some s := by rw [windingCheck_own hsys hsrc, if_pos (by simpa using hw)]
    have hexec : exec c s = .next (s.sequence m) := by
      rcases hc with ⟨rfl, hkind⟩ | ⟨rfl, hkind⟩
      · have hreply : m.isReply = false := by rcases hkind with h | h | h | h <;> simp [BulkMsg.isReply, h]
        have hsend : m.kind ≠ 4 := by rcases hkind with h | h | h | h <;> simp [h]
        exact congrArg ok (bulkIn_of_request hdst hreply hsend hform hwind)
      · exact exec_windowRequestReceive hdst hkind hform hwind
    rw [hexec, sequence_next hpool rfl hearly hseq]
    rfl
  case reply =>
    have hreply : m.isReply = true := by rcases hkind with h | h <;> simp [BulkMsg.isReply, h]
    have hexec := exec_reply hc hdst hreply
    refine ⟨fun hnone => ?_, fun q hform hsent hgot hsys hstream hseq hpkg hcore hsend hw => ?_⟩
    · have hfind : ∀ q ∈ s.net.sent, q.answeredBy m = false := fun q hq => by
        rcases hnone q hq with h | h | h | h | h <;> simp [Sent.answeredBy, h]
      rw [hexec, replyIn_of_none hfind, ite_self]
    · have hfind : s.net.sent.find? (Sent.answeredBy m) = some q := by
        rw [hsent]
        simp [Sent.answeredBy, hgot, hsys, hstream, hseq, hpkg]
      rw [Does, hexec, if_pos hform, replyIn_of_send hfind hcore hsend hw, sendNext_of_nil (sent_sendAnswered hsent)]
      exact ⟨_, rfl, sent_sendAnswered hsent, strand_sendAnswered, beds_sendAnswered⟩

end Sys2Proof.Machine
end

section
/-! SUPPORT. Memory reads, ring writes and the end of a recording (R565 to R567, R571): what a post leaves them, and what they leave. -/

namespace Sys2Proof.Machine

variable {s t u : State} {fn slot k p : Nat}

/-! ## The grounds of REPLAY_REFUSED after a post -/

theorem dvaFor_withFns (s : State) (f : Tab Fn) (p dva : Nat) (a : Access) : (s.withFns f).dvaFor p dva a = s.dvaFor p dva a := by
  simp only [State.dvaFor, State.dvaLocal, walk_withFns, pav_withFns]

theorem readDva_withFns (s : State) (f : Tab Fn) (p dva n : Nat) : (s.withFns f).readDva p dva n = s.readDva p dva n := by
  simp only [State.readDva, dvaFor_withFns, readCs_withFns]

theorem ringOk_withFns (s : State) (f : Tab Fn) (p dva len : Nat) : (s.withFns f).ringOk p dva len = s.ringOk p dva len := by
  simp only [State.ringOk, walk_withFns, pav_withFns]

/-- REPLAY is refused after a post on the grounds it was before (R565). -/
theorem replayRefused_postedAt (s : State) (fn slot p act dva len : Nat) :
    (s.postedAt fn slot).replayRefused p act dva len = s.replayRefused p act dva len := by
  show (s.withFns _).replayRefused p act dva len = _
  simp only [State.replayRefused, ringOk_withFns, readDva_withFns]
  rfl

/-! ## What ring writes leave -/

/-- From `s` to `t` the recorder, the slots of every function, and the commands that a reset has met are as before. -/
structure PostsKept (s t : State) : Prop where
  replayer : t.replayer = s.replayer
  slots : ∀ f, (t.fn f).slots = (s.fn f).slots
  orphans : t.orphans = s.orphans

namespace PostsKept

theorem refl : PostsKept s s := ⟨rfl, fun _ => rfl, rfl⟩

theorem trans (h : PostsKept s t) (h' : PostsKept t u) : PostsKept s u :=
  ⟨h'.replayer.trans h.replayer, fun f => (h'.slots f).trans (h.slots f), h'.orphans.trans h.orphans⟩

/-- An update of any other part of the state. -/
theorem update (h : PostsKept s t) (hf : u.fns = t.fns := by rfl) (hr : u.replayer = t.replayer := by rfl) (ho : u.orphans = t.orphans := by rfl) :
    PostsKept s u :=
  h.trans ⟨hr, fun f => by simp only [State.fn, hf], ho⟩

theorem foldl {α : Type} {f : State → α → State} {l : List α} (h : PostsKept s t) (hf : ∀ u x, PostsKept s u → PostsKept s (f u x)) :
    PostsKept s (l.foldl f t) := by
  induction l generalizing t with
  | nil => exact h
  | cons x l ih => exact ih (hf _ _ h)

theorem setFn {f : Nat} {x : Fn} (h : PostsKept s t) (hx : x.slots = (t.fn f).slots) : PostsKept s (t.setFn f x) := by
  refine h.trans ⟨rfl, fun g => ?_, rfl⟩
  by_cases hg : g = f
  · rw [hg, State.fn_setFn_self, hx]
  · rw [State.fn_setFn_ne _ _ _ _ hg]

theorem sendVector {f v : Nat} (h : PostsKept s t) : PostsKept s (t.sendVector f v) := by
  unfold State.sendVector
  dsimp only
  split
  · exact h.setFn rfl
  · exact h.update

theorem raise {f code pav detail : Nat} (h : PostsKept s t) : PostsKept s (t.raise f code pav detail) := by
  unfold State.raise
  extract_lets x n empty u
  split
  · exact h.setFn rfl
  · have hu : PostsKept s u := h.setFn rfl
    split
    · exact hu.sendVector
    · exact hu

theorem recordFault {w : Waiter} (h : PostsKept s t) : PostsKept s (t.recordFault p w) := by
  unfold State.recordFault
  dsimp only
  split
  · split
    · exact PostsKept.raise h.update
    · exact h.update
  · split
    · exact h.update
    · exact PostsKept.raise h.update

theorem recordAt {dva : Nat} {a : Access} {data : Option (Nat × List Byte)} (h : PostsKept s t) : PostsKept s (t.recordAt p dva a data) := by
  unfold State.recordAt
  split
  · exact h
  · dsimp only
    split
    · exact h
    · exact h.recordFault

theorem writeDva {dva : Nat} {bs : List Byte} (h : PostsKept s t) : PostsKept s (t.writeDva p dva bs) := by
  unfold State.writeDva
  refine h.foldl fun u x hu => ?_
  split
  · exact hu.update
  · exact hu.recordAt

/-- A command in progress goes on holding its slot. -/
theorem holds (h : PostsKept s t) (hk : Holds s k) : Holds t k := by
  have hmb : t.mb k = s.mb k := by simp only [State.mb, h.replayer, h.orphans, h.slots]
  exact ⟨hk.live, by rw [h.orphans]; exact hk.mine, by rw [h.slots]; exact hk.slot, by rw [hmb]; exact hk.st, by rw [hmb]; exact hk.gen⟩

end PostsKept

theorem Told.replayer (h : Told s t) : t.replayer = s.replayer := (congrArg State.replayer h.eq).trans rfl

/-! ## REPLAY -/

/-- A recording or replay that is in progress ends, for the cause given (R566, R574). -/
theorem replayer_endReplay (h : s.replayer.mode ≠ 0) (why : Nat) : (s.endReplay why).replayer.mode = 0 ∧ (s.endReplay why).replayer.cause = why := by
  unfold State.endReplay
  dsimp only
  rw [if_neg (by simpa using h)]
  split <;> exact ⟨rfl, rfl⟩

/-- A command that passes its checks has its fields in range (R415). -/
theorem range_of_passes {sel : (Nat → Nat) → Bool} {f : CmdForm} (hp : Passes s fn slot sel f) : f.range (s.slotAt fn slot).posted = true := by
  have hchecks := hp.checks
  unfold State.failedCheck at hchecks
  rw [Posts.mb_postedAt hp.starts.posts] at hchecks
  dsimp only at hchecks
  split_ifs at hchecks with _ _ hrange
  simp only [Bool.or_eq_true, not_or, Bool.not_eq_true', Bool.not_eq_false] at hrange
  obtain ⟨⟨-, hin⟩, -⟩ := hrange
  exact hin

/-- R565 refuses the ACTION that a post of REPLAY asks for. -/
def State.refusesReplay (s : State) (fn slot act : Nat) : Bool :=
  s.replayRefused ((s.postedAt fn slot).target (s.postName fn slot)) act ((s.slotAt fn slot).posted.w2 3) ((s.slotAt fn slot).posted.w2 5)

/-- The recorder that a post of REPLAY arms for the next thaw (R566). -/
def State.armedBy (s : State) (fn slot mode used : Nat) : Recorder :=
  { mode := mode, pav := (s.postedAt fn slot).target (s.postName fn slot), ring := BitVec.ofNat 64 ((s.slotAt fn slot).posted.w2 3)
    len := (s.slotAt fn slot).posted.w2 5, used := used }

/-- The state of a post of REPLAY with another recorder. -/
def State.armedAt (s : State) (fn slot : Nat) (r : Recorder) : State := { s.postedAt fn slot with replayer := r }

section
variable {sel : (Nat → Nat) → Bool} {act : Nat} (hp : Passes s fn slot sel replayForm) (hact : (s.slotAt fn slot).posted.w 2 % 4 = act)
include hp hact

/-- REPLAY on the grounds of R565 completes with REPLAY_REFUSED. -/
theorem startReplay_of_refused (h : s.refusesReplay fn slot act = true) :
    startReplay (s.postName fn slot) (s.postedAt fn slot) = (s.postedAt fn slot).complete (s.postName fn slot) 0x01 [] := by
  unfold startReplay
  rw [start_passes hp]
  dsimp only
  rw [Posts.mb_postedAt hp.starts.posts, hact, replayRefused_postedAt]
  exact if_pos h

variable (h : s.refusesReplay fn slot act = false)
include h

/-- ACTION 0 ends the recording or replay, and tells how many records it had (R566). -/
theorem startReplay_stop (hstop : act = 0) : startReplay (s.postName fn slot) (s.postedAt fn slot) =
    ((s.postedAt fn slot).endReplay 1).complete (s.postName fn slot) 0 (lohi s.replayer.records) := by
  subst hstop
  unfold startReplay
  rw [start_passes hp]
  dsimp only
  rw [Posts.mb_postedAt hp.starts.posts, hact, replayRefused_postedAt, ← State.refusesReplay, h]
  rfl

/-- ACTION 1 arms a recording whose ring holds its header alone (R566, R567). -/
theorem startReplay_record (hrecord : act = 1) : ∃ header, startReplay (s.postName fn slot) (s.postedAt fn slot) =
    ((s.armedAt fn slot (s.armedBy fn slot 1 64)).writeDva ((s.postedAt fn slot).target (s.postName fn slot)) ((s.slotAt fn slot).posted.w2 3)
      header).complete (s.postName fn slot) 0 (lohi 0) := by
  subst hrecord
  unfold startReplay
  rw [start_passes hp]
  dsimp only
  rw [Posts.mb_postedAt hp.starts.posts, hact, replayRefused_postedAt, ← State.refusesReplay, h]
  exact ⟨_, rfl⟩

/-- ACTION 2 arms a replay of the ring (R566, R572). -/
theorem startReplay_replay (hreplay : act = 2) : ∃ used records, startReplay (s.postName fn slot) (s.postedAt fn slot) =
    (s.armedAt fn slot (s.armedBy fn slot 2 used)).complete (s.postName fn slot) 0 (lohi records) := by
  subst hreplay
  unfold startReplay
  rw [start_passes hp]
  dsimp only
  rw [Posts.mb_postedAt hp.starts.posts, hact, replayRefused_postedAt, ← State.refusesReplay, h]
  exact ⟨_, _, rfl⟩

end

end Sys2Proof.Machine
end

section
/-! SUPPORT. Snapshots (R249, R250, R575, R576, R583) and fingerprints (R578 to R582). -/

namespace Sys2Proof.Machine

variable {s : State} {fn slot i : Nat}

/-! ## Shadow sets -/

theorem nthD_setNth_self {α : Type} {l : List α} (h : i < l.length) (a d : α) : nthD (setNth l i a) i d = a := by
  simp [nthD, setNth, h]

theorem nthD_setNth_ne {α : Type} {j : Nat} (h : j ≠ i) (l : List α) (a d : α) : nthD (setNth l i a) j d = nthD l j d := by
  simp [nthD, setNth, List.getElem?_set_ne h.symm]

/-- A default put in place `i` of a list is read there, inside the list and beyond its end. -/
theorem nthD_setNth_default {α : Type} (l : List α) (i j : Nat) (d : α) : nthD (setNth l i d) j d = if j = i then d else nthD l j d := by
  split
  · next h =>
    subst h
    simp only [nthD, setNth, List.getElem?_set]
    split_ifs <;> rfl
  · next h => exact nthD_setNth_ne h l d d

/-- A shadow set that is PENDING until its tick, under the next id (R575). -/
def State.pendingSet (s : State) (k p : Nat) (pkg : Bool) (tick : Nat) : Snap :=
  { id := s.belv.nextId, pav := if pkg then 0x1FF else p, st := 1, tick := BitVec.ofNat 64 tick, post := k }

/-- The effect of SNAPSHOT for a pavilion or the package: the first free set is reserved (R575). -/
def State.reserveSet (s : State) (k p : Nat) (pkg : Bool) (tick : Nat) : State :=
  if tick < s.now.toNat + 20 then s.complete k 0x01 []
  else match s.belv.sets.findIdx? fun x => x.st == 0 with
    | none => s.complete k 0x02 []
    | some i => { s with belv := { s.belv with sets := setNth s.belv.sets i (s.pendingSet k p pkg tick), nextId := s.belv.nextId + 1 } }

section
variable {k p tick : Nat} {pkg : Bool} (htick : s.now.toNat + 20 ≤ tick)
include htick

theorem reserveSet_of_full (h : s.belv.sets.findIdx? (fun x => x.st == 0) = none) : s.reserveSet k p pkg tick = s.complete k 0x02 [] := by
  unfold State.reserveSet
  rw [if_neg (Nat.not_lt.2 htick), h]

theorem reserveSet_of_free (h : s.belv.sets.findIdx? (fun x => x.st == 0) = some i) : s.reserveSet k p pkg tick =
    { s with belv := { s.belv with sets := setNth s.belv.sets i (s.pendingSet k p pkg tick), nextId := s.belv.nextId + 1 } } := by
  unfold State.reserveSet
  rw [if_neg (Nat.not_lt.2 htick), h]

end

/-- A post of SNAPSHOT that passes its checks has its effect; PF0 names the package by 0x1FF (R575). -/
theorem exec_snapshot {pkg : Bool} (hpkg : pkg = (fn == 0 && (s.slotAt fn slot).posted.w 1 % 512 == 0x1FF))
    (hp : Passes s fn slot (opc 0x50) (snapshotForm pkg)) :
    exec (.snapshot fn slot) s = .next ((s.postedAt fn slot).reserveSet (s.postName fn slot) ((s.postedAt fn slot).target (s.postName fn slot)) pkg
      ((s.slotAt fn slot).posted.w2 2)) := by
  have hmb := Posts.mb_postedAt hp.starts.posts
  have hfn : postFn (s.postName fn slot) = fn := postFn_postOf hp.starts.posts.fnOk hp.starts.posts.slotOk
  have hstart : ∀ k t, startSnapshot k t = t.start k (snapshotForm (postFn k == 0 && (t.mb k).w 1 % 512 == 0x1FF)) fun p u =>
      u.reserveSet k p (postFn k == 0 && (t.mb k).w 1 % 512 == 0x1FF) ((t.mb k).w2 2) := fun _ _ => rfl
  refine (post_starts hp.starts startSnapshot).trans (congrArg _ ?_)
  rw [hstart, hmb, hfn, ← hpkg, start_passes hp]

/-- A pending set whose tick has come takes the counters' values (R576). -/
def State.takeSet (s : State) (i : Nat) : State :=
  { s with belv := { s.belv with sets := setNth s.belv.sets i { nthD s.belv.sets i {} with
      st := 2, items := s.snapItems (nthD s.belv.sets i {}).pav } } }

/-- No flip and no release of what a set holds comes before the set at its tick (R250). -/
def State.mayTake (s : State) (x : Snap) : Prop :=
  (x.pav ≠ 0x1FF ∧ s.syncFirst x.pav x.tick = false) ∨
    (¬ (s.apply.phase = 3 ∧ s.apply.named = true ∧ s.apply.tick.toNat ≤ x.tick.toNat) ∧ ∀ y ∈ s.pavs, s.syncFirst y.1 x.tick = false)

theorem flipFirst_of_unflipped {p : Nat} {tick : Word64} (h : ¬ (s.apply.phase = 3 ∧ s.apply.named = true ∧ s.apply.tick.toNat ≤ tick.toNat)) :
    s.flipFirst p tick = false := by
  rw [Bool.eq_false_iff]
  intro hflip
  simp only [State.flipFirst, due, Bool.and_eq_true, beq_iff_eq, decide_eq_true_eq] at hflip
  obtain ⟨⟨⟨hphase, hnamed⟩, -⟩, hdue⟩ := hflip
  exact h ⟨hphase, hnamed, hdue⟩

/-- Where no flip is to come and nothing in the table waits, no pavilion waits: one that is not in the table releases nothing. -/
theorem syncFirst_of_none {p : Nat} {tick : Word64} (hflip : ¬ (s.apply.phase = 3 ∧ s.apply.named = true ∧ s.apply.tick.toNat ≤ tick.toNat))
    (hall : ∀ y ∈ s.pavs, s.syncFirst y.1 tick = false) : s.syncFirst p tick = false := by
  cases hfind : Tab.find p s.pavs with
  | some v => exact hall (p, v) (Tab.mem_of_find hfind)
  | none =>
    have hpav : s.pav p = {} := by rw [State.pav, Tab.getD, hfind]; rfl
    rw [State.syncFirst, flipFirst_of_unflipped hflip, hpav]
    rfl

/-- The test by which SNAPSHOT_TICK puts a set off fails where nothing comes before the set. -/
theorem unheld_of_mayTake {x : Snap} (h : s.mayTake x) :
    (if x.pav == 0x1FF then (s.apply.phase == 3 && s.apply.named && due (some s.apply.tick) x.tick) || s.pavs.any fun y => s.syncFirst y.1 x.tick
      else s.syncFirst x.pav x.tick) = false := by
  rcases h with ⟨hone, hsync⟩ | ⟨hflip, hall⟩
  · rw [if_neg (by simpa using hone), hsync]
  · split
    · have hflips : (s.apply.phase == 3 && s.apply.named && due (some s.apply.tick) x.tick) = false := by
        simpa [due, and_assoc] using hflip
      rw [hflips, Bool.false_or, List.any_eq_false]
      exact fun y hy => by simp [hall y hy]
    · exact syncFirst_of_none hflip hall

theorem exec_snapshotTick (hi : i < 4) (hst : (nthD s.belv.sets i {}).st = 1) (hdue : (nthD s.belv.sets i {}).tick.toNat ≤ s.now.toNat)
    (hfirst : s.mayTake (nthD s.belv.sets i {})) : exec (.snapshotTick i) s =
      .next ((s.takeSet i).complete (nthD s.belv.sets i {}).post 0 [(nthD s.belv.sets i {}).id.toNat]) := by
  show execSnapshotTick i s = _
  unfold execSnapshotTick
  rw [if_neg (Nat.not_le.2 hi)]
  dsimp only
  rw [unheld_of_mayTake hfirst]
  exact if_neg (by simp only [due, hst, hdue]; decide)

theorem exec_snapshotTick_early (hi : i < 4) (h : s.now.toNat < (nthD s.belv.sets i {}).tick.toNat) : exec (.snapshotTick i) s = .next s := by
  have hundue : due (some (nthD s.belv.sets i {}).tick) s.now = false := decide_eq_false (Nat.not_le.2 h)
  show execSnapshotTick i s = _
  unfold execSnapshotTick
  rw [if_neg (Nat.not_le.2 hi)]
  dsimp only
  rw [hundue]
  exact if_pos (by simp)

/-! ## Sets freed -/

theorem Told.belv {t : State} (h : Told s t) : t.belv = s.belv := (congrArg State.belv h.eq).trans rfl

/-- Freeing a shadow set aborts a SNAPSHOT that waits for it (R583). -/
def State.freeSet (s : State) (i : Nat) : State :=
  let t := if (nthD s.belv.sets i {}).st == 1 then s.complete (nthD s.belv.sets i {}).post 0x86 [] else s
  { t with belv := { t.belv with sets := setNth t.belv.sets i {} } }

/-- The sets that a word names are freed, in order (R583). -/
def State.freeSets (s : State) (v : Word32) (l : List Nat) : State := l.foldl (fun s i => if !v.getLsbD i then s else s.freeSet i) s

theorem exec_snapFreeWrite (v : Word32) (h : s.exposed = true) : exec (.snapFreeWrite v) s = .next (s.freeSets v (List.range 4)) :=
  if_neg (by simp [h])

/-- What freeing a set leaves: functions are told at most. -/
theorem told_freed (s : State) (i : Nat) :
    Told s (if (nthD s.belv.sets i {}).st == 1 then s.complete (nthD s.belv.sets i {}).post 0x86 [] else s) :=
  .ite Told.refl.complete Told.refl

theorem sets_freeSet (s : State) (i j : Nat) : nthD (s.freeSet i).belv.sets j {} = if j = i then {} else nthD s.belv.sets j {} := by
  unfold State.freeSet
  dsimp only
  rw [(told_freed s i).belv]
  exact nthD_setNth_default ..

theorem sets_freeSets (v : Word32) (l : List Nat) (s : State) (j : Nat) :
    nthD (s.freeSets v l).belv.sets j {} = if j ∈ l ∧ v.getLsbD j = true then {} else nthD s.belv.sets j {} := by
  induction l generalizing s with
  | nil => simp [State.freeSets]
  | cons i l ih =>
    have hcons : s.freeSets v (i :: l) = (if !v.getLsbD i then s else s.freeSet i).freeSets v l := rfl
    have hstep : nthD (if !v.getLsbD i then s else s.freeSet i).belv.sets j {} =
        if j = i ∧ v.getLsbD i = true then {} else nthD s.belv.sets j {} := by
      cases v.getLsbD i with
      | false => exact (if_neg (by simp)).symm
      | true => exact (sets_freeSet s i j).trans (by simp only [and_true])
    rw [hcons, ih, hstep]
    grind

theorem beds_freeSets (v : Word32) (l : List Nat) (s : State) : (s.freeSets v l).beds = s.beds :=
  foldl_unchanged State.beds (fun u i => by split; exacts [rfl, (told_freed u i).beds]) l s

theorem pavs_freeSets (v : Word32) (l : List Nat) (s : State) : (s.freeSets v l).pavs = s.pavs :=
  foldl_unchanged State.pavs (fun u i => by split; exacts [rfl, (told_freed u i).pavs]) l s

/-! ## Fingerprints -/

/-- FINGERPRINT answers the fingerprint named, and EPOCH (R582). -/
theorem exec_fingerprint (hp : Passes s fn slot (opc 0x51) (fingerprintForm s)) {x : Nat}
    (hx : s.namedFp ((s.slotAt fn slot).posted.w 1 % 65536) ((s.slotAt fn slot).posted.w 1 / 65536) = some x) :
    exec (.fingerprint fn slot) s = .next ((s.postedAt fn slot).complete (s.postName fn slot) 0 (lohi x ++ [s.regs.epoch.toNat])) := by
  have hnamed : (s.postedAt fn slot).namedFp = s.namedFp := rfl
  have hform : fingerprintForm (s.postedAt fn slot) = fingerprintForm s := rfl
  have hstart : startFingerprint (s.postName fn slot) (s.postedAt fn slot) =
      (s.postedAt fn slot).complete (s.postName fn slot) 0 (lohi x ++ [s.regs.epoch.toNat]) := by
    unfold startFingerprint
    rw [hform, start_passes hp]
    dsimp only
    rw [Posts.mb_postedAt hp.starts.posts, hnamed, hx]
    rfl
  exact (post_starts hp.starts startFingerprint).trans (congrArg _ hstart)

/-- A package with no member of a span has none that sends a rollup. -/
theorem rollupSenders_eq_nil (h : ∀ x ∈ s.pavs, x.2.bound = false ∨ x.2.isSpan = false) :
    (s.pavs.filter fun x => x.2.bound && x.2.isSpan && x.2.span.st == 2 && x.2.spanRank != 0) = [] :=
  List.filter_eq_nil_iff.2 fun x hx => by rcases h x hx with hx | hx <;> simp [hx]

theorem exec_fingerprintTick_off (units : List Nat) (h : s.now.toNat % 100000 ≠ 0) : exec (.fingerprintTick units) s = .next s :=
  if_pos (by simpa using h)

section
variable (hround : s.now.toNat % 100000 = 0) (hspan : ∀ x ∈ s.pavs, x.2.bound = false ∨ x.2.isSpan = false)
include hround hspan

/-- Where no unit differs, no divergence is kept (R580). -/
theorem exec_fingerprintTick_same {units : List Nat} (h : ∀ l ∈ units, s.locFp l = none) :
    exec (.fingerprintTick units) s = .next { s with belv := { s.belv with divergent := [] } } := by
  have hbad : units.filter (fun l => (s.locFp l).isSome) = [] := List.filter_eq_nil_iff.2 fun l hl => by simp [h l hl]
  show execFingerprintTick units s = _
  unfold execFingerprintTick
  rw [if_neg (by simpa using hround), hbad]
  simp only [List.contains_nil, List.filter_false, List.foldl_nil, rollupSenders_eq_nil hspan]
  rfl

/-- A unit that newly differs is reported (R580). -/
theorem exec_fingerprintTick_new {l : Nat} (hl : (s.locFp l).isSome = true) (hnew : l ∉ s.belv.divergent) :
    exec (.fingerprintTick [l]) s = .next
      ({ s with belv := { s.belv with divergent := [l] } }.raisePf0 0x0060 0 (detailWords [0, l, s.regs.epoch.toNat, s.ownPkg])) := by
  have hbad : [l].filter (fun l => (s.locFp l).isSome) = [l] := by simp [hl]
  have hkept : s.belv.divergent.filter (fun x => [l].contains x) = [] :=
    List.filter_eq_nil_iff.2 fun x hx => by simpa using fun e : x = l => hnew (e ▸ hx)
  show execFingerprintTick [l] s = _
  unfold execFingerprintTick
  rw [if_neg (by simpa using hround), hbad]
  dsimp only
  rw [hkept]
  simp only [List.foldl_cons, List.foldl_nil, List.contains_nil, Bool.false_eq_true, if_false, List.nil_append]
  rw [Told.refl.raisePf0.pavs, rollupSenders_eq_nil hspan]
  rfl

end

end Sys2Proof.Machine
end

section
/-! SUPPORT. SNAPSHOT, FINGERPRINT and REPLAY as posts that pass their checks find them (R249, R250, R565, R566, R575 to R583). -/

namespace Sys2Proof.Machine

variable {s : State} {fn slot : Nat}

theorem does_snapshotTick {i : Nat} (hi : i < 4) (hlen : i < s.belv.sets.length) (hst : (nthD s.belv.sets i {}).st = 1)
    (hdue : (nthD s.belv.sets i {}).tick.toNat ≤ s.now.toNat) (hfirst : s.mayTake (nthD s.belv.sets i {})) :
    Does (.snapshotTick i) s fun u => u.beds = s.beds ∧ u.pavs = s.pavs ∧ (nthD u.belv.sets i {}).st = 2 ∧
      (nthD u.belv.sets i {}).items = s.snapItems (nthD s.belv.sets i {}).pav := by
  refine ⟨_, exec_snapshotTick hi hst hdue hfirst, Told.refl.complete.beds, Told.refl.complete.pavs, ?_⟩
  rw [Told.refl.complete.belv, State.takeSet, nthD_setNth_self hlen]
  exact ⟨rfl, rfl⟩

/-- The request's ACTION, as the post's words choose the command. -/
theorem action_of_chosen {act : Nat} (hp : Passes s fn slot (fun w => opc 0x52 w && w 2 % 4 == act) replayForm) :
    (s.slotAt fn slot).posted.w 2 % 4 = act := by
  have hchosen := hp.starts.posts.chosen
  simp only [Bool.and_eq_true, beq_iff_eq] at hchosen
  exact hchosen.2

/-- An ACTION in range that is neither 1 nor 2 is 0 (R415). -/
theorem action_of_stop (hp : Passes s fn slot (fun w => opc 0x52 w && w 2 % 4 != 1 && w 2 % 4 != 2) replayForm) :
    (s.slotAt fn slot).posted.w 2 % 4 = 0 := by
  have hchosen := hp.starts.posts.chosen
  have hrange := range_of_passes hp
  simp only [Bool.and_eq_true, bne_iff_ne] at hchosen
  obtain ⟨⟨-, hne1⟩, hne2⟩ := hchosen
  simp only [replayForm, Bool.and_eq_true, decide_eq_true_eq] at hrange
  obtain ⟨hle, -⟩ := hrange
  change (s.slotAt fn slot).posted.w 2 % 4 ≠ 1 at hne1
  change (s.slotAt fn slot).posted.w 2 % 4 ≠ 2 at hne2
  omega

/-- A command that arms the recorder goes on holding its slot. -/
theorem holds_armedAt {sel : (Nat → Nat) → Bool} (h : Posts s fn slot sel) (r : Recorder) : Holds (s.armedAt fn slot r) (s.postName fn slot) :=
  (holds_postedAt h).congr rfl rfl

theorem exec_replayStop (hp : Passes s fn slot (fun w => opc 0x52 w && w 2 % 4 != 1 && w 2 % 4 != 2) replayForm) :
    exec (.replayStop fn slot) s = .next (startReplay (s.postName fn slot) (s.postedAt fn slot)) := post_starts hp.starts startReplay

theorem exec_replayRecord (hp : Passes s fn slot (fun w => opc 0x52 w && w 2 % 4 == 1) replayForm) :
    exec (.replayRecord fn slot) s = .next (startReplay (s.postName fn slot) (s.postedAt fn slot)) := post_starts hp.starts startReplay

theorem exec_replayReplay (hp : Passes s fn slot (fun w => opc 0x52 w && w 2 % 4 == 2) replayForm) :
    exec (.replayReplay fn slot) s = .next (startReplay (s.postName fn slot) (s.postedAt fn slot)) := post_starts hp.starts startReplay

theorem does_replayRecord (hp : Passes s fn slot (fun w => opc 0x52 w && w 2 % 4 == 1) replayForm) (h : s.refusesReplay fn slot 1 = false) :
    Does (.replayRecord fn slot) s fun u => u.replayer = s.armedBy fn slot 1 64 ∧
      (u.mb (s.postName fn slot)).st = 2 ∧ (u.mb (s.postName fn slot)).status = 0 := by
  obtain ⟨header, hstart⟩ := startReplay_record hp (action_of_chosen hp) h rfl
  have written := PostsKept.refl.writeDva (s := s.armedAt fn slot (s.armedBy fn slot 1 64)) (p := (s.postedAt fn slot).target (s.postName fn slot))
    (dva := (s.slotAt fn slot).posted.w2 3) (bs := header)
  have hholds := written.holds (holds_armedAt hp.starts.posts _)
  exact ⟨_, (exec_replayRecord hp).trans (congrArg _ hstart), Told.refl.complete.replayer.trans written.replayer, hholds.complete 0 _⟩

theorem does_replayReplay (hp : Passes s fn slot (fun w => opc 0x52 w && w 2 % 4 == 2) replayForm) (h : s.refusesReplay fn slot 2 = false) :
    Does (.replayReplay fn slot) s fun u => ∃ used, u.replayer = s.armedBy fn slot 2 used ∧ u.beds = s.beds ∧
      (u.mb (s.postName fn slot)).st = 2 ∧ (u.mb (s.postName fn slot)).status = 0 := by
  obtain ⟨used, records, hstart⟩ := startReplay_replay hp (action_of_chosen hp) h rfl
  have hholds := holds_armedAt hp.starts.posts (s.armedBy fn slot 2 used)
  exact ⟨_, (exec_replayReplay hp).trans (congrArg _ hstart), used, Told.refl.complete.replayer, Told.refl.complete.beds, hholds.complete 0 _⟩

/-- An ACTION 0 that is not refused finds a recording or replay in progress (R565). -/
theorem mode_of_unrefused (h : s.refusesReplay fn slot 0 = false) : (s.postedAt fn slot).replayer.mode ≠ 0 := by
  intro hmode
  replace hmode : s.replayer.mode = 0 := hmode
  simp [State.refusesReplay, State.replayRefused, hmode] at h

/-- Settles O40, command by command. -/
theorem snapshotsFingerprintsAndReplay : Obligations.SnapshotsFingerprintsAndReplay := by
  unfold Obligations.SnapshotsFingerprintsAndReplay
  intro s fn slot t k m p pkg
  refine ⟨fun hp => ⟨fun hlate => ?late, fun htick => ⟨fun hfull => ?full, fun i hfree => ?reserved⟩⟩,
    fun i hi hlen hst => ⟨fun hdue hfirst => does_snapshotTick hi hlen hst hdue hfirst, exec_snapshotTick_early hi⟩, fun v hexposed => ?freed,
    fun hp x hx => exec_fingerprint hp hx,
    fun units => ⟨exec_fingerprintTick_off units, fun hround hsame hspan => exec_fingerprintTick_same hround hspan hsame⟩,
    fun l hround hl hnew hspan => exec_fingerprintTick_new hround hspan hl hnew, fun hp => ?stop, fun hp => ?record, fun hp => ?replay⟩
  case late => exact (exec_snapshot rfl hp).trans (congrArg _ (if_pos hlate))
  case full => exact (exec_snapshot rfl hp).trans (congrArg _ (reserveSet_of_full (s := t) htick hfull))
  case reserved =>
    obtain ⟨hlt, -⟩ := List.findIdx?_eq_some_iff_getElem.1 hfree
    exact ⟨_, (exec_snapshot rfl hp).trans (congrArg _ (reserveSet_of_free (s := t) htick hfree)), rfl, rfl, rfl,
      fun j hj => nthD_setNth_ne hj _ _ _, nthD_setNth_self hlt _ _⟩
  case freed =>
    refine ⟨_, exec_snapFreeWrite v hexposed, beds_freeSets .., pavs_freeSets .., fun i hi => ?_⟩
    rw [sets_freeSets]
    simp only [List.mem_range, hi, true_and]
  case stop =>
    have hact := action_of_stop hp
    exact ⟨fun h => (exec_replayStop hp).trans (congrArg _ (startReplay_of_refused hp hact h)), fun h =>
      ⟨(exec_replayStop hp).trans (congrArg _ (startReplay_stop hp hact h rfl)), replayer_endReplay (mode_of_unrefused h) 1⟩⟩
  case record =>
    exact ⟨fun h => (exec_replayRecord hp).trans (congrArg _ (startReplay_of_refused hp (action_of_chosen hp) h)), does_replayRecord hp⟩
  case replay =>
    refine ⟨fun h => (exec_replayReplay hp).trans (congrArg _ (startReplay_of_refused hp (action_of_chosen hp) h)), fun h => ?_⟩
    obtain ⟨u, hexec, used, hrec, hbeds, hdone⟩ := does_replayReplay hp h
    exact ⟨u, hexec, congrArg Recorder.mode hrec, congrArg Recorder.pav hrec, congrArg Recorder.live hrec, hbeds, hdone⟩

end Sys2Proof.Machine
end

section
/-! SUPPORT. What stands while an apply goes on: the registers and the apply itself, as pavilions freeze, spans are reviewed and channels are
scaled again (R276, R364, R394, R458). -/

namespace Sys2Proof.Machine

variable {s t u : State} {p : Nat}

theorem Told.apply (h : Told s t) : t.apply = s.apply := (congrArg State.apply h.eq).trans rfl

/-! ## Registers and the apply -/

/-- From `s` to `t` the registers, and what is kept of a check and an apply, are as before. -/
structure ApplyStands (s t : State) : Prop where
  regs : t.regs = s.regs
  apply : t.apply = s.apply

namespace ApplyStands

theorem refl : ApplyStands s s := ⟨rfl, rfl⟩

/-- An update of any other part of the state. -/
theorem update (h : ApplyStands s t) (hr : u.regs = t.regs := by rfl) (ha : u.apply = t.apply := by rfl) : ApplyStands s u :=
  ⟨hr.trans h.regs, ha.trans h.apply⟩

theorem told (h : ApplyStands s t) (h' : Told t u) : ApplyStands s u := h.update h'.regs h'.apply

theorem ite {c : Prop} [Decidable c] {a b : State} (ha : ApplyStands s a) (hb : ApplyStands s b) : ApplyStands s (if c then a else b) := by
  split
  · exact ha
  · exact hb

theorem foldl {α : Type} {f : State → α → State} {l : List α} (h : ApplyStands s t) (hf : ∀ u x, ApplyStands s u → ApplyStands s (f u x)) :
    ApplyStands s (l.foldl f t) := by
  induction l generalizing t with
  | nil => exact h
  | cons x l ih => exact ih (hf _ _ h)

theorem modPav {f : Pav → Pav} (h : ApplyStands s t) : ApplyStands s (t.modPav p f) := h.update

theorem modNet {f : Net → Net} (h : ApplyStands s t) : ApplyStands s (t.modNet f) := h.update

theorem startReset {cause loc : Nat} {slots : List Nat} (h : ApplyStands s t) : ApplyStands s (t.startReset p cause loc slots) := h.modPav

theorem raisePav {code detail : Nat} (h : ApplyStands s t) : ApplyStands s (t.raisePav p code detail) := h.told Told.refl.raisePav

theorem syncSend {pkg : Nat} {m : SyncMsg} (h : ApplyStands s t) : ApplyStands s (t.syncSend pkg m) := h.told Told.refl.syncSend

theorem bedUncorrectable {key : Nat} (h : ApplyStands s t) : ApplyStands s (t.bedUncorrectable key) :=
  ApplyStands.told h.update (told_logMem _ 0x02 _ _)

/-! ### Scales (R394) -/

theorem shortfall (h : ApplyStands s t) : ApplyStands s (t.shortfall p) := .ite h.modPav h.update.modPav.raisePav

theorem rescale {qs : List Nat} (h : ApplyStands s t) : ApplyStands s (t.rescale qs) :=
  .foldl (h.foldl fun _ _ hu => .ite hu hu.update) fun _ _ hu => hu.shortfall

/-! ### Spans (R364, R373 to R375) -/

theorem sayDown (h : ApplyStands s t) : ApplyStands s (t.sayDown p) := h.modPav.foldl fun _ _ hu => hu.syncSend

theorem sayReady {r : Nat} (h : ApplyStands s t) : ApplyStands s (t.sayReady p r) := .ite h h.modPav.syncSend

theorem tryReady (h : ApplyStands s t) : ApplyStands s (t.tryReady p) := .ite h h.modPav.modNet.raisePav

theorem peerReset (h : ApplyStands s t) : ApplyStands s (t.peerReset p) := by
  unfold State.peerReset
  extract_lets s1
  have waits : ApplyStands s s1 := h.foldl fun u x hu => by
    split
    · exact hu.update
    · exact hu.update
    · exact hu
  exact waits.modPav

theorem faultSpan {rank : Nat} (h : ApplyStands s t) : ApplyStands s (t.faultSpan p rank) :=
  .ite h (ApplyStands.peerReset h.update).raisePav.startReset

theorem reviewSpan (h : ApplyStands s t) : ApplyStands s (t.reviewSpan p) := by
  unfold State.reviewSpan
  extract_lets v s1
  have down : ApplyStands s s1 := .ite h h.sayDown
  have said : ApplyStands s (v.others.foldl (fun s r => if v.span.said.contains r then s else s.sayReady p r) s1) :=
    down.foldl fun _ _ hu => .ite hu hu.sayReady
  refine .ite h ?_
  split
  · exact .ite down.faultSpan said
  · exact .ite down said.tryReady

end ApplyStands

/-! ## Freezes (R458) -/

/-- From `s` to `t` the registers, the apply and the strands are as before, and a pavilion is held if it was. -/
structure Freezes (s t : State) : Prop where
  stands : ApplyStands s t
  strands : t.strands = s.strands
  held : ∀ p, (t.pav p).held? = (s.pav p).held?

namespace Freezes

theorem refl : Freezes s s := ⟨.refl, rfl, fun _ => rfl⟩

theorem told (h : Freezes s t) (h' : Told t u) : Freezes s u :=
  ⟨h.stands.told h', h'.strands.trans h.strands, fun p => by rw [h'.pav, h.held]⟩

theorem modPav {f : Pav → Pav} (h : Freezes s t) (hf : (f (t.pav p)).held? = (t.pav p).held?) : Freezes s (t.modPav p f) := by
  refine ⟨h.stands.modPav, h.strands, fun q => ?_⟩
  rw [← h.held q, State.modPav]
  by_cases hq : q = p
  · rw [hq, State.pav_setPav_self, hf]
  · rw [State.pav_setPav_ne _ _ _ _ hq]

theorem ite {c : Prop} [Decidable c] {a b : State} (ha : Freezes s a) (hb : Freezes s b) : Freezes s (if c then a else b) := by
  split
  · exact ha
  · exact hb

theorem foldl {α : Type} {f : State → α → State} {l : List α} (h : Freezes s t) (hf : ∀ u x, Freezes s u → Freezes s (f u x)) :
    Freezes s (l.foldl f t) := by
  induction l generalizing t with
  | nil => exact h
  | cons x l ih => exact ih (hf _ _ h)

theorem voidStart (h : Freezes s t) : Freezes s (t.voidStart p) := .ite ((h.modPav rfl).told Told.refl.syncSend) (h.modPav rfl)

theorem freezeNow (h : Freezes s t) : Freezes s (t.freezeNow p) := by
  unfold State.freezeNow
  extract_lets v c s1 s2 s3
  have told : Told t s1 := Told.refl.foldl fun u r hu => by
    split
    · exact hu.complete
    · exact hu
  have suspended : Freezes s s1 := h.told told
  clear_value s1
  have frozen : Freezes s s3 := (suspended.modPav rfl).voidStart.told (Told.refl.foldl fun _ _ hu => hu.complete)
  exact .ite ⟨frozen.stands.update, frozen.strands, frozen.held⟩ frozen

theorem freezeWaiting (h : Freezes s t) : Freezes s (t.freezeWaiting p) := .ite h.freezeNow h

end Freezes

theorem ApplyStands.freezeWaiting (h : ApplyStands s t) : ApplyStands s (t.freezeWaiting p) :=
  h.update Freezes.refl.freezeWaiting.stands.regs Freezes.refl.freezeWaiting.stands.apply

/-! ## The end of an apply before its flip (R277) -/

/-- An apply that ends leaves nothing of it but the reason; PV_EPOCH stays. -/
theorem endApply_leaves (s : State) (f : Finding) : (s.endApply f).apply = {} ∧ (s.endApply f).regs.pvState = 0 ∧
    (s.endApply f).regs.pvReason = BitVec.ofNat 6 f.reason ∧ (s.endApply f).regs.epoch = s.regs.epoch := by
  unfold State.endApply
  extract_lets a s0 s1 s1' s2
  have released : ApplyStands s s1 := (ApplyStands.refl.told (Told.refl.foldl fun _ _ hu => hu.syncAll)).foldl fun _ _ hu => .ite hu.modPav hu
  have completed : Told { s1' with apply := {} } s2 := Told.refl.complete
  have h := (ApplyStands.refl.told completed).foldl (l := a.heldAt) fun _ p hu => hu.freezeWaiting (p := p)
  rw [h.apply, h.regs]
  exact ⟨rfl, rfl, rfl, (congrArg Regs.epoch released.regs :)⟩

end Sys2Proof.Machine
end

section
/-! SUPPORT. PV_CHECK and PV_APPLY as posts that pass their checks find them (R272 to R275). -/

namespace Sys2Proof.Machine

variable {s t : State} {fn slot k addr mask tick : Nat} {f : Finding} {g : Staged}

/-! ## Tables read (R175, R534) -/

theorem wakePkg_eq (s : State) (a n : Nat) : ∃ w, s.wakePkg a n = { s with power := w } := by
  unfold State.wakePkg
  split
  · exact ⟨_, rfl⟩
  · exact ⟨_, rfl⟩

/-- Reading the tables turns domains on and does nothing else. -/
theorem wakeTables_eq (s : State) (addr : Nat) : ∃ w, s.wakeTables addr = { s with power := w } := by
  unfold State.wakeTables
  split
  · split
    · exact wakePkg_eq ..
    · exact ⟨_, rfl⟩
  · refine List.foldlRecOn (motive := fun u : State => ∃ w, u = { s with power := w }) _ _ (wakePkg_eq ..) fun u hu p _ => ?_
    obtain ⟨w, rfl⟩ := hu
    exact wakePkg_eq { s with power := w } ..

theorem regs_wakeTables (s : State) (addr : Nat) : (s.wakeTables addr).regs = s.regs := by
  obtain ⟨w, hw⟩ := wakeTables_eq s addr
  rw [hw]

theorem beds_wakeTables (s : State) (addr : Nat) : (s.wakeTables addr).beds = s.beds := by
  obtain ⟨w, hw⟩ := wakeTables_eq s addr
  rw [hw]

theorem apply_wakeTables (s : State) (addr : Nat) : (s.wakeTables addr).apply = s.apply := by
  obtain ⟨w, hw⟩ := wakeTables_eq s addr
  rw [hw]

theorem pavs_wakeTables (s : State) (addr : Nat) : (s.wakeTables addr).pavs = s.pavs := by
  obtain ⟨w, hw⟩ := wakeTables_eq s addr
  rw [hw]

/-- Only a check that meets an uncorrectable line counts one (R175). -/
theorem tableError_of_ne (h : f.reason ≠ 0x3B) (s : State) (mask : Nat) : s.tableError mask f = s := by
  rw [State.tableError, State.hurtLine, if_pos (by simpa using h)]

theorem PostsKept.tableError (h : PostsKept s t) : PostsKept s (t.tableError mask f) := by
  unfold State.tableError
  split
  · unfold State.bedUncorrectable State.logMem State.raisePf0
    dsimp only
    split
    · exact .raise h.update
    · exact h.update
  · exact h

theorem ApplyStands.tableError (h : ApplyStands s t) : ApplyStands s (t.tableError mask f) := by
  unfold State.tableError
  split
  · exact h.bedUncorrectable
  · exact h

theorem mem_tableError (s : State) (mask : Nat) (f : Finding) : (s.tableError mask f).beds.mem = s.beds.mem := by
  unfold State.tableError
  split
  · obtain ⟨_, hbeds⟩ := beds_bedUncorrectable s _
    rw [hbeds]
  · rfl

/-! ## PV_CHECK (R272, R273) -/

/-- A check that fails keeps no copy, and says why (R272). -/
def State.failCheck (s : State) (addr : Nat) (f : Finding) : State := { (s.tableError addr f).setReason (some f) 0 with apply := {} }

/-- A check that passes keeps its copy (R272). -/
def State.passCheck (s : State) (addr mask : Nat) (g : Staged) : State :=
  ({ s with apply := { checkAddr := BitVec.ofNat 64 addr, checkMask := BitVec.ofNat 512 mask, checked := true, checkEntries := g.entries
                       checkPools := g.pools, checkLists := g.lists } }.setReason none 1).modRegs fun r => { r with pvTarget := s.regs.epoch + 1 }

/-- The tables' domains are on, and the command holds its slot. -/
theorem holds_wakeTables (h : Holds s k) (addr : Nat) : Holds (s.wakeTables addr) k := by
  obtain ⟨w, hw⟩ := wakeTables_eq s addr
  rw [hw]
  exact h.congr rfl rfl

/-- The tables are checked, and the command completes. -/
def State.judgeCheck (w : State) (k addr : Nat) : State :=
  match w.check addr with
  | .error f => (w.failCheck addr f).complete k f.reason (f.words ++ [(w.failCheck addr f).regs.pvTarget.toNat])
  | .ok (mask, g) => (w.passCheck addr mask g).complete k 0 [0, 0, (w.regs.epoch + 1).toNat]

theorem post_pvCheck (hp : Passes s fn slot (opc 0x10) pvCheckForm) : post fn slot (opc 0x10) startPvCheck s = .next (
    if s.apply.phase != 0 then (s.postedAt fn slot).complete (s.postName fn slot) 0x05 [512, 0, s.regs.pvTarget.toNat]
    else ((s.postedAt fn slot).wakeTables ((s.slotAt fn slot).posted.w2 1)).judgeCheck (s.postName fn slot) ((s.slotAt fn slot).posted.w2 1)) := by
  obtain ⟨w, hw⟩ := wakeTables_eq (s.postedAt fn slot) ((s.slotAt fn slot).posted.w2 1)
  refine (post_starts hp.starts startPvCheck).trans (congrArg _ ((start_passes hp _).trans ?_))
  dsimp only
  rw [Posts.mb_postedAt hp.starts.posts, hw]
  rfl

/-- Of a failed check no copy is kept, and its reason stays (R272). -/
theorem judgeCheck_error (h : Holds s k) (hf : s.check addr = .error f) :
    let u := s.judgeCheck k addr
    u.apply = {} ∧ u.regs.pvState = 0 ∧ u.regs.pvReason = BitVec.ofNat 6 f.reason ∧ u.regs.epoch = s.regs.epoch ∧ u.beds.mem = s.beds.mem ∧
      (f.reason ≠ 0x3B → u.beds = s.beds) ∧ (u.mb k).st = 2 ∧ (u.mb k).status = BitVec.ofNat 8 f.reason := by
  intro u
  have hu : u = (s.failCheck addr f).complete k f.reason (f.words ++ [(s.failCheck addr f).regs.pvTarget.toNat]) := by
    simp only [u, State.judgeCheck, hf]
  have told : Told (s.failCheck addr f) u := hu ▸ Told.refl.complete
  have stands : ApplyStands s (s.tableError addr f) := ApplyStands.refl.tableError
  have holds : Holds (s.failCheck addr f) k := (PostsKept.refl.tableError.holds h).congr rfl rfl
  rw [told.apply, told.regs, told.beds, hu]
  refine ⟨rfl, rfl, rfl, (congrArg Regs.epoch stands.regs :), mem_tableError s addr f, fun hne => ?_, holds.complete ..⟩
  exact (congrArg State.beds (tableError_of_ne hne s addr) :)

/-- A check that passes keeps its copy (R272). -/
theorem judgeCheck_ok (h : Holds s k) (hok : s.check addr = .ok (mask, g)) :
    let u := s.judgeCheck k addr
    u.apply.checked = true ∧ u.apply.phase = 0 ∧ u.apply.checkEntries = g.entries ∧ u.regs.pvState = 1 ∧ u.regs.pvReason = 0 ∧
      u.regs.pvTarget = s.regs.epoch + 1 ∧ u.regs.epoch = s.regs.epoch ∧ u.beds = s.beds ∧ (u.mb k).st = 2 ∧ (u.mb k).status = 0 := by
  intro u
  have hu : u = (s.passCheck addr mask g).complete k 0 [0, 0, (s.regs.epoch + 1).toNat] := by
    simp only [u, State.judgeCheck, hok]
  have told : Told (s.passCheck addr mask g) u := hu ▸ Told.refl.complete
  have holds : Holds (s.passCheck addr mask g) k := h.congr rfl rfl
  rw [told.apply, told.regs, told.beds, hu]
  exact ⟨rfl, rfl, rfl, rfl, rfl, rfl, rfl, rfl, holds.complete ..⟩

/-! ## PV_APPLY (R273 to R275) -/

/-- An apply that is refused (R274). -/
def State.refuseApply (w : State) (k addr : Nat) (f : Finding) (st : BitVec 2) : State :=
  ((w.tableError addr f).setReason (some f) st).complete k f.reason (f.words ++ [w.regs.epoch.toNat])

/-- What PV_APPLY does once the stage mask has been read. -/
def State.judgeApply (w : State) (k addr mask tick : Nat) (early : Bool) : State :=
  if !(w.apply.checked && w.apply.checkAddr.toNat == addr && w.apply.checkMask.toNat == mask) then w.refuseApply k addr ⟨0x06, none, 0, 0⟩ w.regs.pvState
  else
    match w.checkApply mask tick with
    | .error f => State.refuseApply { w with apply := {} } k addr f 0
    | .ok g => w.acceptApply k early tick g

theorem post_pvApply (hp : Passes s fn slot (opc 0x11) pvApplyForm)
    (hstage : ((s.postedAt fn slot).wakeTables ((s.slotAt fn slot).posted.w2 1)).checkStage ((s.slotAt fn slot).posted.w2 1) = .ok mask) :
    post fn slot (opc 0x11) startPvApply s = .next (
      ((s.postedAt fn slot).wakeTables ((s.slotAt fn slot).posted.w2 1)).judgeApply (s.postName fn slot) ((s.slotAt fn slot).posted.w2 1) mask
        ((s.slotAt fn slot).posted.w2 3) ((s.slotAt fn slot).posted.w 5 % 2 == 1)) := by
  refine (post_starts hp.starts startPvApply).trans (congrArg _ ((start_passes hp _).trans ?_))
  dsimp only
  rw [Posts.mb_postedAt hp.starts.posts, hstage]
  rfl

/-- What was not checked is refused with NOT_CHECKED (R273). -/
theorem judgeApply_unchecked {early : Bool} (h : Holds s k) (hc : s.apply.checked = false) :
    let u := s.judgeApply k addr mask tick early
    u.regs.pvReason = 6 ∧ u.apply = s.apply ∧ u.beds = s.beds ∧ (u.mb k).st = 2 ∧ (u.mb k).status = 6 := by
  intro u
  have hu : u = (s.setReason (some ⟨0x06, none, 0, 0⟩) s.regs.pvState).complete k 0x06 [512, 0, s.regs.epoch.toNat] := by
    simp only [u, State.judgeApply, hc, Bool.false_and, Bool.not_false, if_true, State.refuseApply]
    rw [tableError_of_ne (by decide)]
    rfl
  have told : Told (s.setReason (some ⟨0x06, none, 0, 0⟩) s.regs.pvState) u := hu ▸ Told.refl.complete
  have holds : Holds (s.setReason (some ⟨0x06, none, 0, 0⟩) s.regs.pvState) k := h.congr rfl rfl
  rw [told.apply, told.regs, told.beds, hu]
  exact ⟨rfl, rfl, rfl, holds.complete ..⟩

/-- Step 1 of an accepted apply zeroes cores and turns domains on; beside the registers and the apply, nothing else changes (R275, R276). -/
theorem acceptApply_eq (s : State) (k : Nat) (early : Bool) (tick : Nat) (g : Staged) : ∃ cs w nt owners aff, s.acceptApply k early tick g =
    { s with
      cores := cs, power := w
      apply := { phase := 1, slot := k, early := early, namedTick := nt, entries := g.entries, pools := g.pools, lists := g.lists, owners := owners
                 affected := aff }
      regs := { s.regs with pvReason := 0, pvSet := false, pvEntry := 0, pvState := 2, pvTarget := s.regs.epoch + 1, pvFlipped := false } } := by
  unfold State.acceptApply
  extract_lets set owners aff added s1 s2 a
  obtain ⟨cs, hs⟩ : ∃ cs, s1 = { s with cores := cs } := by
    refine List.foldlRecOn (motive := fun u : State => ∃ cs, u = { s with cores := cs }) added _ ⟨s.cores, rfl⟩ fun u hu x _ => ?_
    obtain ⟨cs, rfl⟩ := hu
    exact ⟨_, rfl⟩
  clear_value s1
  subst hs
  exact ⟨_, _, _, _, _, rfl⟩

/-- What was checked and stands so is accepted: step 1 begins (R275, R276). -/
theorem judgeApply_good {early : Bool} (h : Holds s k) (hc : s.apply.checked = true) (haddr : s.apply.checkAddr.toNat = addr)
    (hmask : s.apply.checkMask.toNat = mask) (hg : s.checkApply mask tick = .ok g) :
    let u := s.judgeApply k addr mask tick early
    u.apply.phase = 1 ∧ u.apply.entries = g.entries ∧ u.apply.slot = k ∧ u.regs.pvState = 2 ∧ u.regs.pvReason = 0 ∧
      u.regs.pvTarget = s.regs.epoch + 1 ∧ u.regs.pvFlipped = false ∧ u.beds = s.beds ∧ u.pavs = s.pavs ∧ (u.mb k).st = 1 := by
  intro u
  obtain ⟨cs, w, nt, owners, aff, haccept⟩ := acceptApply_eq s k early tick g
  have hu : u = s.acceptApply k early tick g := by
    simp only [u, State.judgeApply, hc, haddr, hmask, hg, Bool.true_and, beq_self_eq_true, Bool.not_true, Bool.false_eq_true, if_false]
  rw [hu, haccept]
  exact ⟨rfl, rfl, rfl, rfl, rfl, rfl, rfl, rfl, rfl, (h.congr rfl rfl).st⟩

end Sys2Proof.Machine
end

section
/-! SUPPORT. Steps 1 to 4 of an apply: prepared, held, copied, and its flip tick named (R276 to R278). -/

namespace Sys2Proof.Machine

variable {s t u : State} {p : Nat}

/-! ## Step 1 (R276) -/

/-- From `s` to `t` the bytes of the beds and the cores are as before, and so is the apply but for the pieces that its step 1 moves. -/
structure Prepares (s t : State) : Prop where
  mem : t.beds.mem = s.beds.mem
  cores : t.cores = s.cores
  apply : ∃ ms, t.apply = { s.apply with moves := ms }

namespace Prepares

theorem refl : Prepares s s := ⟨rfl, rfl, _, rfl⟩

theorem trans (h : Prepares s t) (h' : Prepares t u) : Prepares s u := by
  obtain ⟨ms, hms⟩ := h.apply
  obtain ⟨ms', hms'⟩ := h'.apply
  exact ⟨h'.mem.trans h.mem, h'.cores.trans h.cores, ms', by rw [hms', hms]⟩

theorem foldl {α : Type} {f : State → α → State} {l : List α} (h : Prepares s t) (hf : ∀ u x, Prepares s u → Prepares s (f u x)) :
    Prepares s (l.foldl f t) := by
  induction l generalizing t with
  | nil => exact h
  | cons x l ih => exact ih (hf _ _ h)

theorem modPav {f : Pav → Pav} (h : Prepares s t) : Prepares s (t.modPav p f) := h.trans ⟨rfl, rfl, _, rfl⟩

theorem count {cls n : Nat} (h : Prepares s t) : Prepares s (t.count p cls n) := by
  unfold State.count
  split
  · exact h
  · exact h.modPav

theorem killOwner {key : Nat} (h : Prepares s t) : Prepares s (t.killOwner p key) := by
  obtain ⟨l, hbeds⟩ := beds_bedUncorrectable t key
  have stands : ApplyStands t (t.bedUncorrectable key) := ApplyStands.refl.bedUncorrectable
  have counted : Prepares t (t.bedUncorrectable key) :=
    ⟨(congrArg Beds.mem hbeds :), (told_logMem (t.modBeds fun b => { b with ueCount := b.ueCount + 1 }) 0x02 _ _).cores, _, stands.apply⟩
  unfold State.killOwner State.startReset
  exact (h.trans counted).modPav

theorem evictSlice {k : Nat} (h : Prepares s t) : Prepares s (t.evictSlice p k) := by
  unfold State.evictSlice State.modSlice
  exact h.modPav

theorem fillMove {h' i scr fuel : Nat} {kept : List Nat} (h : Prepares s t) : Prepares s (t.fillMove p h' i scr kept fuel) := by
  induction fuel generalizing t with
  | zero => exact h
  | succ fuel ih =>
    unfold State.fillMove
    dsimp only
    split
    · split
      · exact h
      · split
        · exact h.killOwner
        · next c g _ _ a bs _ _ _ =>
          have written : Prepares t (t.writeLs c (g * 65536) bs) := ⟨rfl, rfl, _, rfl⟩
          have counted := written.count (p := p) (cls := 2) (n := 65536)
          exact h.trans ⟨counted.mem, counted.cores, _, rfl⟩
    · split
      · exact ih h.evictSlice
      · exact h

theorem fillMoves (h : Prepares s t) : Prepares s (t.fillMoves p) := h.foldl fun _ _ hu => hu.fillMove

end Prepares

/-- A pavilion without pinned slices has no piece to move (R276). -/
theorem fillMoves_of_unpinned (h : ∀ x ∈ (s.pav p).slices, x.2.pinned = false) : s.fillMoves p = s := by
  have none : (s.pav p).slices.filter (fun x => x.2.pinned) = [] := List.filter_eq_nil_iff.2 fun x hx => by simp [h x hx]
  unfold State.fillMoves
  dsimp only
  rw [none]
  rfl

theorem foldl_fillMoves_of_unpinned (l : List Nat) (h : ∀ p ∈ l, ∀ x ∈ (s.pav p).slices, x.2.pinned = false) : l.foldl State.fillMoves s = s :=
  List.foldlRecOn (motive := (· = s)) l _ rfl fun u hu p hp => by rw [hu, fillMoves_of_unpinned (h p hp)]

/-- The state after step 1: the affected pavilions are to be held. -/
def State.prepared (s : State) : State :=
  let s1 := (s.apply.affected.filter fun p => (s.pav p).bound).foldl State.fillMoves s
  { s1 with apply := { s1.apply with phase := 2, holdStart := s.now } }

theorem exec_applyPrepareDone (hphase : s.apply.phase = 1)
    (hzero : ∀ x ∈ s.apply.owners, (s.core x.1).owner.isSome = true ∨ (s.core x.1).zeroing = false) :
    exec .applyPrepareDone s = .next s.prepared := by
  have idle : (s.apply.owners.any fun x => (s.core x.1).owner.isNone && (s.core x.1).zeroing) = false := List.any_eq_false.2 fun x hx => by
    rcases hzero x hx with h | h
    · simp [Option.isSome_iff_ne_none.1 h]
    · simp [h]
  exact if_neg (by simp [hphase, idle])

theorem does_applyPrepareDone (hphase : s.apply.phase = 1)
    (hzero : ∀ x ∈ s.apply.owners, (s.core x.1).owner.isSome = true ∨ (s.core x.1).zeroing = false) :
    Does .applyPrepareDone s fun u => u.apply.phase = 2 ∧ u.apply.holdStart = s.now ∧ u.apply.entries = s.apply.entries ∧ u.beds.mem = s.beds.mem ∧
      u.cores = s.cores ∧ ((∀ p ∈ s.apply.affected, ∀ x ∈ (s.pav p).slices, x.2.pinned = false) → u.beds = s.beds ∧ u.pavs = s.pavs) := by
  have moved : Prepares s ((s.apply.affected.filter fun p => (s.pav p).bound).foldl State.fillMoves s) := Prepares.refl.foldl fun _ _ hu => hu.fillMoves
  obtain ⟨ms, hms⟩ := moved.apply
  refine ⟨_, exec_applyPrepareDone hphase hzero, rfl, rfl, (congrArg Apply.entries hms :), moved.mem, moved.cores, fun h => ?_⟩
  have still := foldl_fillMoves_of_unpinned (s := s) (s.apply.affected.filter fun p => (s.pav p).bound) fun p hp => h p (List.mem_of_mem_filter hp)
  exact ⟨(congrArg State.beds still :), (congrArg State.pavs still :)⟩

/-! ## Steps 2 to 4 (R277, R278) -/

section
variable (hp : p < 512) (hphase : s.apply.phase = 2) (haff : p ∈ s.apply.affected) (hnew : p ∉ s.apply.heldAt) (hbound : (s.pav p).bound = true)
include hp hphase haff hnew hbound

theorem exec_applyHold : exec (.applyHold p) s = .next (if s.atBoundary p then
    { ((s.modPav p fun v => { v with held? := true }).voidStart p) with apply := { s.apply with heldAt := s.apply.heldAt ++ [p] } } else s) := by
  refine (if_neg (by simp only [numPavs]; omega)).trans ?_
  cases h : s.atBoundary p with
  | true => exact if_neg (by simp [hphase, haff, hnew, hbound])
  | false => exact if_pos (by simp)

/-- The first affected pavilion that is late is named (R277). -/
theorem exec_applyDrainTimeout (hlate : s.apply.holdStart.toNat + (s.pav p).wdogTicks ≤ s.now.toNat) :
    ∃ q, q ∈ s.apply.affected ∧ exec (.applyDrainTimeout p) s = .next (s.endApply ⟨0x09, some q, 0, 0⟩) := by
  refine ⟨_, ?mem, (if_neg (by simp only [numPavs]; omega)).trans (if_neg (by simp [haff, hbound, hphase, hnew, hlate]))⟩
  case mem =>
    generalize hq : s.apply.affected.find? _ = q
    cases q with
    | none => exact haff
    | some q => exact List.mem_of_find?_eq_some hq

end

section
variable (hphase : s.apply.phase = 2) (hheld : ∀ p ∈ s.apply.affected, (s.pav p).bound = true → p ∈ s.apply.heldAt) (hzero : s.zeroPending = false)
  (hspan : s.spanApply = [])
include hphase hheld hzero hspan

theorem exec_applyCopyDone : exec .applyCopyDone s = .next (
    if s.apply.namedTick != 0 && s.apply.namedTick.toNat < s.now.toNat + 20 then s.endApply ⟨0x08, none, 0, 0⟩
    else { s with apply := { s.apply with phase := 3, named := true, tick := if s.apply.namedTick != 0 then s.apply.namedTick else s.now + 20 } }) := by
  refine (if_neg (by simpa [hphase, hzero] using hheld)).trans ((if_neg (by simp [hspan])).trans ?_)
  exact (apply_ite Host.Outcome.next _ _ _).symm

end

end Sys2Proof.Machine
end

section
/-! SUPPORT. The flip and what follows it (R276, R279 to R283). -/

namespace Sys2Proof.Machine

variable {s t : State} {p c : Nat}

/-! ## New owners (R265, R280) -/

theorem owner_clearCore (s : State) (c d : Nat) : ((s.clearCore d).core c).owner = (s.core c).owner := by
  by_cases h : c = d
  · rw [h, core_clearCore_self]
    rfl
  · rw [core_clearCore_ne h]

/-- A core has the owner that the apply gives it: those whose owner differs are given theirs. -/
theorem owner_foldl_moved (owners : Nat → Option (Nat × Nat)) (g : Nat → Bool) (l : List Nat) (h : c ∈ l ∨ (s.core c).owner = owners c) :
    ((l.foldl (fun s c => s.modCore c fun x => { x with owner := owners c, zeroing := x.zeroing || g c }) s).core c).owner = owners c := by
  induction l generalizing s with
  | nil => exact h.resolve_left (by simp)
  | cons d l ih =>
    refine ih ?_
    by_cases hd : c = d
    · subst hd
      exact .inr (by rw [core_modCore_self])
    · rw [core_modCore_ne hd]
      exact h.imp (fun hc => (List.mem_cons.1 hc).resolve_left hd) id

theorem owner_flipCores (hc : c < 1088) (s : State) : (s.flipCores.core c).owner = Tab.find c s.apply.owners := by
  unfold State.flipCores
  extract_lets a new moved copies hurt taken gone changed all s1 s1' s2 early s3 s4
  have cleared : (s1.core c).owner = (s.core c).owner := foldl_unchanged (fun u : State => (u.core c).owner) (fun u d => owner_clearCore u c d) all s
  have carried : Stands s1 s1' := Stands.refl.foldl fun u d hu => by
    split
    · exact hu.background
    · exact hu
  have given : (s2.core c).owner = new c := by
    refine owner_foldl_moved new gone moved ?_
    rw [carried.core, cleared]
    by_cases h : (s.core c).owner = new c
    · exact .inr h
    · exact .inl (List.mem_filter.2 ⟨List.mem_range.2 hc, by simpa using h⟩)
  have copied : Lasts true s2 s3 := Lasts.refl.foldl fun _ _ hu => hu.zeroLsRange.putScratch
  have killed : Stands s3 s4 := Stands.refl.foldl fun u x hu => .ite hu.killSram hu
  have owned : (s4.core c).owner = new c := calc
    (s4.core c).owner = (s3.core c).owner := by rw [killed.core]
    _ = (s2.core c).owner := by simp only [State.core, copied.cores rfl]
    _ = new c := given
  clear_value s4
  exact owned

/-! ## An entry enabled anew (R269) -/

theorem flipPav_enabled {epoch : Word32} {e : BitVec 2048 × BitVec 2048} (he : Tab.find p s.apply.entries = some e) (hold : (s.pav p).bound = false)
    (hnew : ({ entry := e.1 } : Pav).bound = true) : ((s.flipPav p epoch).pav p).entry = e.1 ∧
      ((s.flipPav p epoch).pav p).winding = (s.pav p).winding + 1 ∧ ((s.flipPav p epoch).pav p).epochBound = epoch := by
  unfold State.flipPav
  extract_lets a old e' nv list fresh
  have hget : e' = e := by simp only [e', a, Tab.getD, he, Option.getD_some]
  have hbound : nv.bound = true := by rw [← hnew, ← hget]
  rw [if_neg (by simp [hbound]), if_pos (by simp [old, hold])]
  have hpav : ((s.setPav p fresh).renumber p).pav p = fresh := State.pav_setPav_self ..
  rw [hpav, ← hget]
  exact ⟨rfl, rfl, rfl⟩

/-! ## EPOCH_FLIP -/

theorem exec_epochFlip (hphase : s.apply.phase = 3) (hnamed : s.apply.named = true) (hdue : s.apply.tick.toNat ≤ s.now.toNat) :
    exec .epochFlip s = .next s.flip := if_neg (by simp [hphase, hnamed, due_of_le hdue])

/-- An apply that closes leaves nothing of it, and of the registers changes STATE alone (R276). -/
theorem closeApply_leaves (s : State) : s.closeApply.apply = {} ∧ s.closeApply.regs = { s.regs with pvState := 0 } ∧ s.closeApply.strands = s.strands ∧
    s.closeApply.pavs = s.pavs := by
  unfold State.closeApply
  extract_lets a s1
  have told : Told s s1 := .ite .refl Told.refl.complete
  exact ⟨rfl, congrArg (fun r : Regs => { r with pvState := 0 }) told.regs, told.strands, told.pavs⟩

/-- What the flip leaves in the registers, and that its apply closes or waits for pavilions to resume (R276, R280). -/
theorem flip_leaves (s : State) : s.flip.regs.epoch = s.regs.epoch + 1 ∧ s.flip.regs.flipTime = s.apply.tick ∧ s.flip.regs.pvFlipped = true ∧
    (s.flip.apply = {} ∨ s.flip.apply.phase = 4) := by
  unfold State.flip
  extract_lets a epoch old set t fnOf s0 s1 s2 s3 gone s4 s5 s6 a' s7 s8 qs s8' s9 s10
  have told : Told s5 s6 := Told.refl.foldl fun _ _ hu => hu.raise
  have completed : ApplyStands s7 s8 := ApplyStands.refl.told (.ite Told.refl.complete .refl)
  have reviewed : ApplyStands s7 s10 :=
    (completed.rescale.foldl fun _ _ hu => .ite hu.modPav hu).foldl fun _ _ hu => hu.reviewSpan
  have hregs : s10.regs = s5.regs := reviewed.regs.trans told.regs
  have hphase : s10.apply.phase = 4 := congrArg Apply.phase reviewed.apply
  split
  · obtain ⟨happly, hclose, -, -⟩ := closeApply_leaves s10
    rw [hclose, hregs]
    exact ⟨rfl, rfl, rfl, .inl happly⟩
  · rw [hregs]
    exact ⟨rfl, rfl, rfl, .inr hphase⟩

/-! ## APPLY_PAVILION_RESUME (R283) -/

/-- A pavilion resumes: its late copies are made, and it is held no longer. -/
def State.resumed (s : State) (p : Nat) : State :=
  let mine := (s.coresOf p).map Prod.snd
  let s1 := (s.apply.lateCopies.filter fun x => mine.contains x.1).foldl (fun s x => s.putScratch x.1 x.2) s
  let s2 := (s1.modPav p fun v => { v with held? := false }).freezeWaiting p
  { s2 with apply := { s2.apply with resumed := s2.apply.resumed ++ [p], lateCopies := s2.apply.lateCopies.filter fun x => !mine.contains x.1 } }

theorem resumed_leaves (s : State) (p : Nat) : ((s.resumed p).pav p).held? = false ∧ (s.resumed p).regs = s.regs ∧ (s.resumed p).strands = s.strands ∧
    p ∈ (s.resumed p).apply.resumed := by
  unfold State.resumed
  extract_lets mine s1 s2
  have copied : Freezes s s1 := Freezes.refl.foldl fun _ _ hu => ⟨hu.stands.update, hu.strands, hu.held⟩
  have frozen : Freezes (s1.modPav p fun v => { v with held? := false }) s2 := Freezes.refl.freezeWaiting
  exact ⟨(frozen.held p).trans (congrArg Pav.held? (State.pav_setPav_self ..)), frozen.stands.regs.trans copied.stands.regs, frozen.strands.trans copied.strands,
    List.mem_append_right _ (List.mem_singleton_self p)⟩

theorem exec_applyPavilionResume (hp : p < 512) (hphase : s.apply.phase = 4) (haff : p ∈ s.apply.affected) (hbound : (s.pav p).bound = true)
    (hnew : p ∉ s.apply.resumed) (hzero : ∀ x ∈ s.coresOf p, (s.core x.2).zeroing = false) :
    exec (.applyPavilionResume p) s = .next (if (s.resumed p).toResume.isEmpty then (s.resumed p).closeApply else s.resumed p) := by
  have waits : p ∈ s.toResume := List.mem_filter.2 ⟨haff, by simp [hbound, hnew]⟩
  have idle : ((s.coresOf p).any fun x => (s.core x.2).zeroing) = false := by simpa using hzero
  exact (if_neg (by simp only [numPavs]; omega)).trans (if_neg (by simp [hphase, waits, idle]))

theorem does_applyPavilionResume (hp : p < 512) (hphase : s.apply.phase = 4) (haff : p ∈ s.apply.affected) (hbound : (s.pav p).bound = true)
    (hnew : p ∉ s.apply.resumed) (hzero : ∀ x ∈ s.coresOf p, (s.core x.2).zeroing = false) :
    Does (.applyPavilionResume p) s fun u => (u.pav p).held? = false ∧ u.regs.epoch = s.regs.epoch ∧ u.strands = s.strands ∧
      (p ∈ u.apply.resumed ∨ (u.apply = {} ∧ u.regs.pvState = 0)) := by
  obtain ⟨hheld, hregs, hstrands, hresumed⟩ := resumed_leaves s p
  refine ⟨_, exec_applyPavilionResume hp hphase haff hbound hnew hzero, ?_⟩
  split
  · obtain ⟨happly, hclose, hcs, hcp⟩ := closeApply_leaves (s.resumed p)
    have hpav : (s.resumed p).closeApply.pav p = (s.resumed p).pav p := by simp only [State.pav, hcp]
    rw [hpav, hclose, hcs, hregs]
    exact ⟨hheld, rfl, hstrands, .inr ⟨happly, rfl⟩⟩
  · rw [hregs]
    exact ⟨hheld, rfl, hstrands, .inl hresumed⟩

/-! ## The obligation -/

/-- Settles O43: each post by what its tables are judged to be, each step of the apply by what it leaves. -/
theorem checksAndAppliesProceed : Obligations.ChecksAndAppliesProceed := by
  unfold Obligations.ChecksAndAppliesProceed
  intro s fn slot answers r t k m a w
  have holds {sel : (Nat → Nat) → Bool} (h : Posts r fn slot sel) : Holds w k := holds_wakeTables (holds_postedAt h) _
  refine ⟨fun hp => ⟨fun hphase => ?during, fun hphase => ⟨fun f hf => ?failed, fun mask g hok => ?passed⟩⟩,
    fun hp mask hstage => ⟨fun hc => ?unchecked, fun g hc haddr hmask hg => ?accepted⟩, does_applyPrepareDone,
    fun p hp hphase haff hnew hbound => ⟨fun h => ?hold, fun h => ?early, exec_applyDrainTimeout hp hphase haff hnew hbound⟩,
    endApply_leaves s, fun hphase hheld hzero hspan => ⟨fun hn hlate => ?late, fun hn hin => ?named, fun hn => ?soon⟩,
    fun hphase hnamed hdue => ⟨_, exec_epochFlip hphase hnamed hdue, flip_leaves s⟩, fun c hc => owner_flipCores hc s,
    fun p epoch e he hold hnew => flipPav_enabled he hold hnew,
    fun p hp hphase haff hbound hnew hzero => does_applyPavilionResume hp hphase haff hbound hnew hzero⟩
  case during => exact (post_pvCheck hp).trans (congrArg _ (if_pos (bne_iff_ne.2 hphase)))
  case failed =>
    have h := judgeCheck_error (holds hp.starts.posts) hf
    rw [regs_wakeTables, beds_wakeTables] at h
    exact ⟨_, (post_pvCheck hp).trans (congrArg _ (if_neg fun h => bne_iff_ne.1 h hphase)), h⟩
  case passed =>
    have h := judgeCheck_ok (holds hp.starts.posts) hok
    rw [regs_wakeTables, beds_wakeTables] at h
    exact ⟨_, (post_pvCheck hp).trans (congrArg _ (if_neg fun h => bne_iff_ne.1 h hphase)), h⟩
  case unchecked =>
    have h := judgeApply_unchecked (addr := m.w2 1) (mask := mask) (tick := m.w2 3) (early := m.w 5 % 2 == 1) (holds hp.starts.posts)
      ((congrArg Apply.checked (apply_wakeTables t _)).trans hc)
    rw [apply_wakeTables, beds_wakeTables] at h
    exact ⟨_, post_pvApply hp hstage, h⟩
  case accepted =>
    have hkept : w.apply = a := apply_wakeTables t _
    have h := judgeApply_good (early := m.w 5 % 2 == 1) (holds hp.starts.posts) (hkept ▸ hc) (hkept ▸ haddr) (hkept ▸ hmask) hg
    rw [regs_wakeTables, beds_wakeTables, pavs_wakeTables] at h
    exact ⟨_, post_pvApply hp hstage, h⟩
  case hold =>
    rw [exec_applyHold hp hphase haff hnew hbound, h]
    rfl
  case early =>
    rw [exec_applyHold hp hphase haff hnew hbound, h]
    rfl
  case late =>
    rw [exec_applyCopyDone hphase hheld hzero hspan, if_pos (by simpa using ⟨hn, hlate⟩)]
  case named =>
    rw [exec_applyCopyDone hphase hheld hzero hspan, if_neg (by simpa using fun _ => hin), if_pos (by simpa using hn)]
  case soon =>
    rw [exec_applyCopyDone hphase hheld hzero hspan, if_neg (by simp [show s.apply.namedTick = 0 from hn]), if_neg (by simpa using hn)]

end Sys2Proof.Machine
end

section
/-! SUPPORT. What messages of the session protocol, events and moved bytes of pages leave as it was (R235, R317, R320, R329, R354): for messages all
but functions, interrupts, links, the network and the pavilions; for pages the directory, the strands, every post and the packages in reach; for
completions the records and the strands. -/

namespace Sys2Proof.Machine

variable {s t u : State}

/-! ## Packages in reach -/

theorem st_pack (x : Port) (vc room fuel : Nat) : (x.pack vc room fuel).1.st = x.st := by
  induction fuel generalizing x room with
  | zero => rfl
  | succ fuel ih =>
    unfold Port.pack
    extract_lets cur
    clear_value cur
    obtain _ | ⟨⟨m, n⟩, rest⟩ := cur
    · rfl
    · dsimp only
      split
      · rfl
      · split
        · exact (ih ..).trans rfl
        · rfl

theorem st_emit {x y : Port} (h : x.emit = some y) : y.st = x.st := by
  obtain ⟨vc, -, rfl⟩ := Option.map_eq_some_iff.1 h
  split
  · rfl
  · split
    · split <;> rfl
    · exact st_pack ..

theorem st_pump (fuel : Nat) (x : Port) : (x.pump fuel).st = x.st := by
  induction fuel generalizing x with
  | zero => rfl
  | succ fuel ih =>
    rw [Port.pump]
    split
    · next y h => exact (ih y).trans (st_emit h)
    · rfl

/-- A port that sends stays in its state. -/
theorem st_sends (x : Port) : x.sends.st = x.st := st_pump ..

/-- Which packages are in reach depends on this package's id, SYNC, the routes and the states of the ports. -/
theorem reach_congr (hregs : t.regs = s.regs) (hsync : t.links.tsync = s.links.tsync) (hroutes : t.links.routes = s.links.routes)
    (hports : ∀ p, (t.port p).st = (s.port p).st) : t.reach = s.reach := by
  have hup : t.portUp = s.portUp := funext fun p => by simp only [State.portUp, hports]
  have hown : t.ownPkg = s.ownPkg := by simp only [State.ownPkg, hregs]
  funext d
  unfold State.reach State.routeTo
  rw [hregs, hsync, hroutes, hup, hown]

theorem reach_sendOut (s : State) (m : BulkMsg) : (s.sendOut m).reach = s.reach := by
  unfold State.sendOut
  split
  · next p hp =>
    refine reach_congr rfl rfl rfl fun q => ?_
    by_cases hq : q = p
    · rw [hq, State.port_setPort_self, st_sends]
    · rw [State.port_setPort_ne _ _ _ _ hq]
  · rfl

theorem reach_sendVector (s : State) (f v : Nat) : (s.sendVector f v).reach = s.reach := by
  unfold State.sendVector
  dsimp only
  split <;> rfl

theorem reach_raise (s : State) (f code pav detail : Nat) : (s.raise f code pav detail).reach = s.reach := by
  unfold State.raise
  extract_lets x n empty u
  split
  · rfl
  · split
    · exact (reach_sendVector ..).trans rfl
    · rfl

/-! ## Messages and events -/

/-- The state `s` with what `u` holds of functions, interrupts, links, the network and pavilions. -/
def State.sending (s u : State) : State :=
  { s with fns := u.fns, irqs := u.irqs, ports := u.ports, links := u.links, net := u.net, pavs := u.pavs }

/-- From `s` to `t` messages go out and events are told: nothing changes but functions, interrupts, links, the network and pavilions, and of these
neither a post nor which packages are in reach. -/
structure Sends (s t : State) : Prop where
  eq : t = s.sending t
  posts : PostsKept s t
  reach : t.reach = s.reach

namespace Sends

theorem refl : Sends s s := ⟨rfl, .refl, rfl⟩

theorem trans (h : Sends s t) (h' : Sends t u) : Sends s u := by
  refine ⟨?_, h.posts.trans h'.posts, h'.reach.trans h.reach⟩
  have e := h'.eq
  rw [h.eq] at e
  exact e

theorem ite {c : Prop} [Decidable c] {a b : State} (ha : Sends s a) (hb : Sends s b) : Sends s (if c then a else b) := by
  split
  · exact ha
  · exact hb

theorem foldl {α : Type} {f : State → α → State} {l : List α} (h : Sends s t) (hf : ∀ u x, Sends s u → Sends s (f u x)) :
    Sends s (l.foldl f t) := by
  induction l generalizing t with
  | nil => exact h
  | cons x l ih => exact ih (hf _ _ h)

theorem dir (h : Sends s t) : t.dir = s.dir := (congrArg State.dir h.eq).trans rfl
theorem pools (h : Sends s t) : t.pools = s.pools := (congrArg State.pools h.eq).trans rfl
theorem beds (h : Sends s t) : t.beds = s.beds := (congrArg State.beds h.eq).trans rfl
theorem strands (h : Sends s t) : t.strands = s.strands := (congrArg State.strands h.eq).trans rfl

theorem pool (h : Sends s t) (i : Nat) : t.pool i = s.pool i := by simp only [State.pool, h.pools]

theorem holding (h : Sends s t) (i id : Nat) : t.holding i id = s.holding i id := by simp only [State.holding, h.pool]

theorem modPav {p : Nat} {f : Pav → Pav} (h : Sends s t) : Sends s (t.modPav p f) := h.trans ⟨rfl, PostsKept.refl.update, rfl⟩

theorem modNet {f : Net → Net} (h : Sends s t) : Sends s (t.modNet f) := h.trans ⟨rfl, PostsKept.refl.update, rfl⟩

theorem raise {f code pav detail : Nat} (h : Sends s t) : Sends s (t.raise f code pav detail) := by
  have told : Told t (t.raise f code pav detail) := Told.refl.raise
  have posts : PostsKept t (t.raise f code pav detail) := PostsKept.refl.raise
  refine h.trans ⟨told.eq.trans ?_, posts, reach_raise ..⟩
  rw [State.telling, posts.orphans]
  exact congrArg₂ (fun n p => { t.telling (t.raise f code pav detail) with orphans := t.orphans, net := n, pavs := p }) told.net.symm told.pavs.symm

theorem raisePf0 {code pav detail : Nat} (h : Sends s t) : Sends s (t.raisePf0 code pav detail) := h.raise

theorem raisePav {p code detail : Nat} (h : Sends s t) : Sends s (t.raisePav p code detail) := h.raise

theorem sendOut {m : BulkMsg} (h : Sends s t) : Sends s (t.sendOut m) := by
  refine h.trans ⟨?_, ?_, reach_sendOut ..⟩ <;> unfold State.sendOut <;> split
  · rfl
  · rfl
  · exact PostsKept.refl.update
  · exact PostsKept.refl.update

theorem startReset {p cause loc : Nat} {slots : List Nat} (h : Sends s t) : Sends s (t.startReset p cause loc slots) := h.modPav

/-- A message crosses the package: runs of others may be no longer repeatable (R564). -/
theorem carry {m : BulkMsg} {src dst n : Nat} (h : Sends s t) : Sends s (t.carry m src dst n) :=
  (h.foldl fun _ _ hu => .ite hu hu.modPav).modNet

theorem leave {src : Nat} {m : BulkMsg} (h : Sends s t) : Sends s (t.leave src m) := by
  unfold State.leave
  split
  · exact h.carry.sendOut
  · exact h.sendOut

theorem request {q : Sent} (h : Sends s t) : Sends s (t.request q) := .ite h.modNet.leave h.modNet

theorem sendPoolOf {pav : Option Nat} {num pkg : Nat} {m : PoolMsg} {bytes : List Byte} {last : Bool} (h : Sends s t) :
    Sends s (t.sendPoolOf pav num pkg m bytes last) := h.request

theorem sendPoolFor {pav : Option Nat} {num pkg : Nat} {m : PoolMsg} {bytes : List Byte} (h : Sends s t) :
    Sends s (t.sendPoolFor pav num pkg m bytes) :=
  .ite (h.foldl fun _ _ hu => hu.sendPoolOf) (.ite h.sendPoolOf (h.foldl fun _ _ hu => hu.sendPoolOf))

theorem sendPool {pkg : Nat} {m : PoolMsg} {bytes : List Byte} (h : Sends s t) : Sends s (t.sendPool pkg m bytes) := h.sendPoolFor

theorem tellPool {m : PoolMsg} {bytes : List Byte} (h : Sends s t) : Sends s (t.tellPool m bytes) := .ite h h.sendPool

theorem tellUser {r : Session} {code : Nat} {ws : List Nat} (h : Sends s t) : Sends s (t.tellUser r code ws) := .ite h.raisePav h.sendPool

theorem sendRecord {id : Nat} {new : Option Session} (h : Sends s t) : Sends s (t.sendRecord id new) := h.sendPool

theorem tellRecord {id : Nat} {old new : Option Session} (h : Sends s t) : Sends s (t.tellRecord id old new) := by
  unfold State.tellRecord
  extract_lets tell left
  have told {v : State} {pkg w : Nat} (hv : Sends s v) : Sends s (tell v pkg w) := .ite hv hv.sendPool
  have gone : Sends s (left t) := by
    dsimp only [left]
    split
    · exact .ite h (told h)
    · exact h
  split
  · exact told gone
  · exact gone

/-- The bytes that units move for a session are counted (R446). -/
theorem countMoved {id cls n : Nat} (h : Sends s t) : Sends s (t.countMoved id cls n) := by
  unfold State.countMoved
  split
  · exact .ite (.ite h h.modPav) h
  · exact h

theorem recordFault {p : Nat} {w : Waiter} (h : Sends s t) : Sends s (t.recordFault p w) := by
  rw [State.recordFault]
  split
  · exact .ite h.modPav.raisePav h.modPav
  · split
    · exact h.modPav
    · exact h.modPav.raisePav

theorem recordAt {p dva : Nat} {a : Access} {data : Option (Nat × List Byte)} (h : Sends s t) : Sends s (t.recordAt p dva a data) := by
  rw [State.recordAt]
  split
  · exact h
  · exact .ite h h.recordFault

/-- A page that may not be read goes on a fault record (R191). -/
theorem deniedPages {i : Nat} {pages : List Nat} (h : Sends s t) : ∀ v ∈ t.deniedPages i pages, Sends s v := by
  intro v hv
  obtain ⟨d, -, rfl⟩ := Option.map_eq_some_iff.1 hv
  exact h.recordAt

end Sends

/-! ## Pages -/

/-- From `s` to `t` the directory, the strands, every post and the packages in reach are as before. -/
structure Directed (s t : State) : Prop where
  dir : t.dir = s.dir
  strands : t.strands = s.strands
  posts : PostsKept s t
  reach : t.reach = s.reach

theorem Sends.directed (h : Sends s t) : Directed s t := ⟨h.dir, h.strands, h.posts, h.reach⟩

namespace Directed

theorem refl : Directed s s := ⟨rfl, rfl, .refl, rfl⟩

theorem trans (h : Directed s t) (h' : Directed t u) : Directed s u :=
  ⟨h'.dir.trans h.dir, h'.strands.trans h.strands, h.posts.trans h'.posts, h'.reach.trans h.reach⟩

theorem sends (h : Directed s t) (h' : Sends t u) : Directed s u := h.trans h'.directed

theorem ite {c : Prop} [Decidable c] {a b : State} (ha : Directed s a) (hb : Directed s b) : Directed s (if c then a else b) := by
  split
  · exact ha
  · exact hb

theorem foldl {α : Type} {f : State → α → State} {l : List α} (h : Directed s t) (hf : ∀ u x, Directed s u → Directed s (f u x)) :
    Directed s (l.foldl f t) := by
  induction l generalizing t with
  | nil => exact h
  | cons x l ih => exact ih (hf _ _ h)

/-- The directory's partner is in reach as before. -/
theorem partnerUp (h : Directed s t) : t.partnerUp = s.partnerUp := by simp only [State.partnerUp, h.dir, h.reach]

theorem modBeds {f : Beds → Beds} (h : Directed s t) : Directed s (t.modBeds f) := h.trans ⟨rfl, rfl, PostsKept.refl.update, rfl⟩

theorem modPool {i : Nat} {f : Pool → Pool} (h : Directed s t) : Directed s (t.modPool i f) := h.trans ⟨rfl, rfl, PostsKept.refl.update, rfl⟩

theorem modHolding {i id : Nat} {f : Holding → Holding} (h : Directed s t) : Directed s (t.modHolding i id f) := h.modPool

theorem useWindows {names : List Nat} (h : Directed s t) : Directed s (t.useWindows names) :=
  h.foldl fun u n hu => .ite (by
    unfold State.window
    split
    · exact hu
    · split
      · exact hu
      · exact hu.trans ⟨rfl, rfl, PostsKept.refl.update, rfl⟩) hu

theorem zeroCs {p a n : Nat} (h : Directed s t) : Directed s (t.zeroCs p a n) := by
  unfold State.zeroCs
  exact h.modBeds

theorem writeCs {p a : Nat} {bs : List Byte} (h : Directed s t) : Directed s (t.writeCs p a bs) := by
  unfold State.writeCs
  exact h.modBeds

theorem logMem {kind loc whereAt : Nat} (h : Directed s t) : Directed s (t.logMem kind loc whereAt) :=
  .ite (h.modBeds.sends Sends.refl.raisePf0) h.modBeds

theorem killOwner {q key : Nat} (h : Directed s t) : Directed s (t.killOwner q key) := h.modBeds.logMem.sends Sends.refl.startReset

theorem writePool {i page off : Nat} {bs : List Byte} (h : Directed s t) : Directed s (t.writePool i page off bs) := by
  unfold State.writePool
  refine h.foldl fun u j hu => ?_
  dsimp only
  split
  · refine .ite hu ?_
    split
    · exact hu.killOwner
    · exact hu.writeCs
  · exact .ite hu (hu.sends Sends.refl.recordAt)

theorem writeLists {i : Nat} {pages ls : List Nat} (h : Directed s t) : Directed s (t.writeLists i pages ls) := by
  induction ls generalizing t pages with
  | nil => exact h
  | cons l ls ih => exact ih h.writePool

theorem zeroPages {i : Nat} {ps : List Nat} (h : Directed s t) : Directed s (t.zeroPages i ps) :=
  h.foldl fun _ _ hu => hu.foldl fun _ a hv => by
    cases a with
    | none => exact hv
    | some a => exact hv.zeroCs

theorem takePages {i id n epoch root : Nat} (h : Directed s t) (ht : t.takePages i id n epoch = some (root, u)) : Directed s u := by
  unfold State.takePages at ht
  dsimp only at ht
  split at ht
  · cases ht
  · cases ht
    exact h.zeroPages.modPool.writeLists

theorem freePages {i id : Nat} (h : Directed s t) : Directed s (t.freePages i id) := by
  rw [State.freePages]
  split
  · exact h
  · exact h.zeroPages.modPool

theorem releasePool {name id : Nat} (h : Directed s t) : Directed s (t.releasePool name id) := .ite h.freePages (h.sends Sends.refl.sendPool)

theorem releaseSession {id : Nat} {r : Session} (h : Directed s t) : Directed s (t.releaseSession id r) :=
  (h.foldl fun _ _ hu => hu.releasePool).foldl fun _ _ hu => hu.releasePool

theorem markHolding {i id st : Nat} (h : Directed s t) : Directed s (t.markHolding i id st) := by
  rw [State.markHolding]
  split
  · exact h
  · exact h.modPool

theorem markDirty {i id : Nat} {ix : List Nat} (h : Directed s t) : Directed s (t.markDirty i id ix) := by
  rw [State.markDirty]
  split
  · exact h
  · exact h.modPool

theorem tryServe {i id : Nat} (h : Directed s t) : Directed s (t.tryServe i id) := by
  rw [State.tryServe]
  split
  · exact h
  · exact .ite h (.ite h.markHolding (h.markHolding.sends Sends.refl.sendPool))

theorem adoptMirror {i id epoch : Nat} (h : Directed s t) : Directed s (t.adoptMirror i id epoch) := by
  rw [State.adoptMirror]
  split
  · exact h
  · exact h.modPool.writeLists

theorem ownPool {i id epoch : Nat} {fetch whole : Bool} (h : Directed s t) : Directed s (t.ownPool i id epoch fetch whole) := by
  rw [State.ownPool]
  split
  · exact h.modHolding
  · exact h.modHolding.tryServe
  · exact h.markHolding.modHolding
  · exact h.modHolding
  · exact .ite h h.adoptMirror

theorem grantPool {name id epoch : Nat} {fetch marks : Bool} (h : Directed s t) : Directed s (t.grantPool name id epoch fetch marks) :=
  have granted := Directed.ite h.markHolding.modHolding h.ownPool
  .ite (.ite granted.markDirty granted) (h.sends Sends.refl.sendPool)

theorem copySession {i id target : Nat} (h : Directed s t) : Directed s (t.copySession i id target) := by
  unfold State.copySession
  split
  · exact h
  · extract_lets read s1
    have reads {v : State} {page : Nat} {put : State → List Byte → State} (hv : Directed s v) (hput : ∀ bs, Directed s (put v bs)) :
        Directed s (read v page put) := by
      dsimp only [read]
      split
      · exact hv.killOwner
      · split
        · next w hw => exact hv.sends (Sends.refl.deniedPages w hw)
        · exact hput _
    have copied : Directed s s1 := by
      clear_value read
      refine .ite ?_ (h.foldl fun _ _ hu => reads hu fun _ => hu.sends Sends.refl.sendPool.countMoved)
      split
      · exact h.foldl fun _ _ hu => reads hu fun _ => hu.writePool.sends Sends.refl.countMoved
      · exact h
    exact copied.modHolding

end Directed

/-! ## Changes of records that are asked for (R320) -/

/-- The directory when a change of a record has been asked for. -/
def Dir.asked (d : Dir) (c : Pending) : Dir := { d with changes := d.changes ++ [c] }

/-- A change that is asked for waits; it goes to the partner, if that is in reach. -/
theorem sends_change (s : State) (id : Nat) (why : Change) (new : Option Session) (asker : Option Nat) :
    Sends (s.modDir fun d => d.asked { id := id, why := why, new := new, asker := asker, sent := s.partnerUp }) (s.change id why new asker) :=
  .ite Sends.refl.sendRecord .refl

/-- A change that a post asks for, in a state that has the changes, the records and the partner of `s`: the post goes on. -/
theorem asked_change {k : Nat} (hchanges : t.dir.changes = s.dir.changes) (hrecords : t.dir.records = s.dir.records)
    (hup : t.partnerUp = s.partnerUp) (hk : Holds t k) (id : Nat) (why : Change) (new : Option Session) :
    let v := t.change id why new (some k)
    v.dir.changes = s.dir.changes ++ [{ id := id, why := why, new := new, asker := some k, sent := s.partnerUp }] ∧ v.dir.records = s.dir.records ∧
      (v.mb k).st = 1 := by
  have sent := sends_change t id why new (some k)
  have waits : Holds (t.modDir fun d => d.asked { id := id, why := why, new := new, asker := some k, sent := t.partnerUp }) k := hk.congr rfl rfl
  intro v
  rw [show v.dir = _ from sent.dir, ← hchanges, ← hrecords, ← hup]
  exact ⟨rfl, rfl, (sent.posts.holds waits).st⟩

/-- The directory after a change that no post asks for. -/
theorem Directed.dir_change (h : Directed s t) (id : Nat) (why : Change) (new : Option Session) :
    (t.change id why new none).dir = s.dir.asked { id := id, why := why, new := new, sent := s.partnerUp } := by
  rw [(sends_change t id why new none).dir, State.modDir, h.dir, h.partnerUp]

/-! ## Completions -/

/-- From `s` to `t` the records and the strands are as before. -/
structure Recorded (s t : State) : Prop where
  records : t.dir.records = s.dir.records
  strands : t.strands = s.strands

namespace Recorded

theorem refl : Recorded s s := ⟨rfl, rfl⟩

theorem trans (h : Recorded s t) (h' : Recorded t u) : Recorded s u := ⟨h'.records.trans h.records, h'.strands.trans h.strands⟩

theorem directed (h : Recorded s t) (h' : Directed t u) : Recorded s u := h.trans ⟨congrArg Dir.records h'.dir, h'.strands⟩

theorem sends (h : Recorded s t) (h' : Sends t u) : Recorded s u := h.directed h'.directed

theorem foldl {α : Type} {f : State → α → State} {l : List α} (h : Recorded s t) (hf : ∀ u x, Recorded s u → Recorded s (f u x)) :
    Recorded s (l.foldl f t) := by
  induction l generalizing t with
  | nil => exact h
  | cons x l ih => exact ih (hf _ _ h)

theorem ite {c : Prop} [Decidable c] {a b : State} (ha : Recorded s a) (hb : Recorded s b) : Recorded s (if c then a else b) := by
  split
  · exact ha
  · exact hb

/-- The directory changes but for its records. -/
theorem modDir {f : Dir → Dir} (h : Recorded s t) (hf : (f t.dir).records = t.dir.records) : Recorded s (t.modDir f) := h.trans ⟨hf, rfl⟩

theorem complete {k status : Nat} {rsp : List Nat} (h : Recorded s t) : Recorded s (t.complete k status rsp) := by
  have told : Told t (t.complete k status rsp) := Told.refl.complete
  exact h.trans ⟨(congrArg (fun v : State => v.dir.records) told.eq).trans rfl, told.strands⟩

theorem sessionDone {k status : Nat} {rsp : List Nat} (h : Recorded s t) : Recorded s (t.sessionDone k status rsp) := by
  refine .ite h.complete ?_
  split
  · exact h
  · exact (h.modDir rfl).sends Sends.refl.sendOut

end Recorded

end Sys2Proof.Machine
end

section
/-! SUPPORT. What pools of this package hold, after changes of holdings and of the states of their pages (R316, R321, R331, R336, R337). -/

namespace Sys2Proof.Machine

variable {s t : State} {i j id key : Nat}

/-! ## Pools and holdings -/

theorem pool_modPool_self (s : State) (i : Nat) (f : Pool → Pool) : (s.modPool i f).pool i = f (s.pool i) := Tab.getD_put_self ..

theorem pool_modPool_ne (h : j ≠ i) (s : State) (f : Pool → Pool) : (s.modPool i f).pool j = s.pool j := Tab.getD_put_ne h ..

/-- A change of a pool that leaves its holdings leaves those of every pool. -/
theorem holding_modPool {f : Pool → Pool} (hf : (f (s.pool i)).held = (s.pool i).held) (j key : Nat) :
    (s.modPool i f).holding j key = s.holding j key := by
  by_cases hj : j = i
  · rw [hj, State.holding, pool_modPool_self, hf]
    rfl
  · rw [State.holding, pool_modPool_ne hj]
    rfl

theorem holding_modHolding_self (s : State) (i id : Nat) (f : Holding → Holding) :
    (s.modHolding i id f).holding i id = (s.holding i id).map f := by
  rw [State.modHolding, State.holding, pool_modPool_self, State.holding]
  dsimp only
  split
  · next h hh => rw [Tab.find_put_self, hh, Option.map_some]
  · next hh => rw [hh, Option.map_none]

theorem holding_modHolding_ne (hk : key ≠ id) (s : State) (i : Nat) (f : Holding → Holding) :
    (s.modHolding i id f).holding i key = s.holding i key := by
  rw [State.modHolding, State.holding, pool_modPool_self, State.holding]
  dsimp only
  split
  · rw [Tab.find_put_ne hk]
  · rfl

theorem pages_modHolding (s : State) (i id : Nat) (f : Holding → Holding) : ((s.modHolding i id f).pool i).pages = (s.pool i).pages := by
  rw [State.modHolding, pool_modPool_self]

theorem holding_markHolding (s : State) (i id st j key : Nat) : (s.markHolding i id st).holding j key = s.holding j key := by
  unfold State.markHolding
  split
  · rfl
  · exact holding_modPool rfl j key

theorem holding_markDirty (s : State) (i id : Nat) (ix : List Nat) (j key : Nat) : (s.markDirty i id ix).holding j key = s.holding j key := by
  unfold State.markDirty
  split
  · rfl
  · exact holding_modPool rfl j key

/-- A target that serves holds what it held (R331). -/
theorem holding_tryServe (s : State) (i id j key : Nat) : (s.tryServe i id).holding j key = s.holding j key := by
  unfold State.tryServe
  split
  · rfl
  · dsimp only
    split
    · rfl
    · split
      · exact holding_markHolding ..
      · exact (Sends.refl.sendPool.holding j key).trans (holding_markHolding ..)

/-- Pages of a pool that take another state, and those that keep theirs. -/
theorem find_restate (x : Pool) (st : Nat) (pages : List Nat) (g : Nat) :
    Tab.find g (x.restate st pages).pages = (Tab.find g x.pages).map fun y => if pages.contains g then { y with st := st } else y := by
  rw [← Tab.find_mapVals (fun g (y : PoolPage) => if pages.contains g then { y with st := st } else y)]
  congr 1
  refine List.map_congr_left fun y _ => ?_
  by_cases hy : pages.contains y.1 = true
  · simp only [if_pos hy]
  · simp only [if_neg hy]

/-- Every page of a holding takes the state that it is marked with, if the pool lists it. -/
theorem st_markHolding {h : Holding} (hh : s.holding i id = some h) {g : Nat} (hg : g ∈ Pool.pagesOf h) (hpage : (Tab.find g (s.pool i).pages).isSome = true)
    (st : Nat) : (Tab.find g ((s.markHolding i id st).pool i).pages).map PoolPage.st = some st := by
  obtain ⟨y, hy⟩ := Option.isSome_iff_exists.1 hpage
  rw [State.markHolding, hh]
  dsimp only
  rw [pool_modPool_self, find_restate, hy, Option.map_some, if_pos (List.contains_iff_mem.2 hg)]
  rfl

/-! ## Page writes leave the pools -/

theorem pools_killOwner (s : State) (q key : Nat) : (s.killOwner q key).pools = s.pools :=
  (congrArg State.pools (told_logMem ..).eq).trans rfl

theorem pools_writePool (s : State) (i page off : Nat) (bs : List Byte) : (s.writePool i page off bs).pools = s.pools := by
  unfold State.writePool
  refine foldl_unchanged State.pools (fun u j => ?_) _ _
  dsimp only
  split
  · split
    · rfl
    · split
      · exact pools_killOwner ..
      · rfl
  · split
    · rfl
    · exact Sends.refl.recordAt.pools

/-! ## DROP, OWN, SEAL and FETCH at a pool of another package's session (R331, R337) -/

theorem exec_sessionDropReceive (hi : i < 16) (hd : s.directs id = false) (hheld : s.heldState i id = 1) (target : Nat) :
    exec (.sessionDropReceive i id target) s = .next (s.dropPool i id target) := by
  show execSessionDropReceive i id target s = _
  rw [execSessionDropReceive, if_neg (Nat.not_le.2 hi), if_neg (by simp [hheld]), if_pos (by simp [hd])]

/-- An owner that receives DROP serves no more, and retains its pages. -/
theorem does_sessionDropReceive {h : Holding} (hi : i < 16) (hd : s.directs id = false) (hh : s.holding i id = some h) (hheld : s.heldState i id = 1)
    (hpages : ∀ g ∈ Pool.pagesOf h, (Tab.find g (s.pool i).pages).isSome = true) (target : Nat) :
    Does (.sessionDropReceive i id target) s fun u => (u.holding i id).map Holding.own = some false ∧
      ∀ g ∈ Pool.pagesOf h, (Tab.find g (u.pool i).pages).map PoolPage.st = some 3 := by
  refine ⟨_, exec_sessionDropReceive hi hd hheld target, ?_⟩
  unfold State.dropPool
  extract_lets s1 s2
  rw [if_neg (by simp [hd])]
  have sent : Sends s1 (s2.sendPool (s.directorAt i id) { op := .drop, pool := s.poolName i, session := id, flag := true } []) :=
    Sends.refl.tellPool.sendPool
  constructor
  · rw [sent.holding, holding_modHolding_self, holding_markHolding, hh]
    rfl
  · intro g hg
    rw [sent.pool, pages_modHolding]
    exact st_markHolding hh hg (hpages g hg) 3

theorem exec_sessionOwnReceive (hi : i < 16) (hd : s.directs id = false) (hheld : s.heldState i id = 1) (epoch : Nat) (fetch : Bool) :
    exec (.sessionOwnReceive i id epoch fetch) s = .next (s.modHolding i id fun h => { h with epoch := epoch, own := true }) := by
  show execSessionOwnReceive i id epoch fetch s = _
  rw [execSessionOwnReceive, if_neg (Nat.not_le.2 hi), if_pos (by simp [hd]), State.ownPool, hheld]
  rfl

/-- SEAL is kept, and no page goes. -/
theorem holding_sealPool {h : Holding} (hh : s.holding i id = some h) (dirty : List Nat) :
    (s.sealPool i id dirty).holding i id = some { h with sealed := true } := by
  rw [State.sealPool, holding_tryServe, holding_modHolding_self, holding_markDirty, hh]
  rfl

theorem does_sessionSealReceive {h : Holding} (hi : i < 16) (hh : s.holding i id = some h) (hothers : ∀ j, j < 16 → j ≠ i → s.heldState j id ≠ 1) :
    Does (.sessionSealReceive i id) s fun u => (u.holding i id).map Holding.sealed = some true ∧ (u.holding i id).map Holding.pages = some h.pages := by
  have kept {u : State} (hu : u.holding i id = some h) (dirty : List Nat) :
      ((u.sealPool i id dirty).holding i id).map Holding.sealed = some true ∧
        ((u.sealPool i id dirty).holding i id).map Holding.pages = some h.pages := by
    rw [holding_sealPool hu]
    exact ⟨rfl, rfl⟩
  have hown : (((List.range 16).filter fun j => j != i).any fun j => s.heldState j id == 1) = false := by
    simpa using hothers
  show ∃ u, execSessionSealReceive i id s = .next u ∧ _
  rw [execSessionSealReceive, if_neg (Nat.not_le.2 hi)]
  dsimp only
  rw [hown, if_neg Bool.false_ne_true]
  split
  · exact ⟨_, rfl, kept hh _⟩
  · exact ⟨_, rfl, kept ((holding_markDirty ..).trans hh) _⟩

/-- Page `j` of a session as a fetch without a source has it: it comes with the command, or from the protection in pools of this package. -/
def State.fetchedPage (s : State) (id : Nat) (r : Session) (data : List (Nat × List Byte)) (j : Nat) : Option (List Byte × Nat) :=
  match data.find? fun x => x.1 == j with
  | some x => some (x.2.take 262144, 1)
  | none => (s.protPage r id j).map fun bs => (bs.take 262144, 2)

/-- The pages that such a fetch has are written in the pool. -/
def State.fetchPages (s : State) (i id : Nat) (r : Session) (data : List (Nat × List Byte)) (pages : List Nat) : State :=
  pages.zipIdx.foldl (fun v x => match v.fetchedPage id r data x.2 with
    | some (bs, cls) => (v.writePool i x.1 0 bs).countMoved id cls bs.length
    | none => v) s

theorem directed_fetchPages (s : State) (i id : Nat) (r : Session) (data : List (Nat × List Byte)) (pages : List Nat) :
    Directed s (s.fetchPages i id r data pages) :=
  Directed.refl.foldl fun v x hv => by
    split
    · exact hv.writePool.sends Sends.refl.countMoved
    · exact hv

theorem pools_fetchPages (s : State) (i id : Nat) (r : Session) (data : List (Nat × List Byte)) (pages : List Nat) :
    (s.fetchPages i id r data pages).pools = s.pools :=
  foldl_unchanged State.pools (fun v x => by
    split
    · exact Sends.refl.countMoved.pools.trans (pools_writePool ..)
    · rfl) _ s

theorem exec_sessionFetch {h : Holding} (hi : i < 16) (hd : s.directs id = false) (hh : s.holding i id = some h) (hrestore : h.restore = false)
    (hown : h.own = true) (hfetch : h.fetch = true) (hsource : (s.recordOf id).source = none) (data : List (Nat × List Byte)) :
    exec (.sessionFetch i id data) s = .next (((s.fetchPages i id (s.recordOf id) data h.pages).modHolding i id fun h =>
      { h with fetch := false, sealed := true, fetched := (s.recordOf id).prot != 0 }).tryServe i id) := by
  show execSessionFetch i id data s = _
  rw [execSessionFetch, if_neg (Nat.not_le.2 hi), hh]
  dsimp only
  rw [hsource, hrestore, hfetch, hown, hd]
  rfl

/-- A fetch that has its pages ends: the session is sealed, and nothing is left to fetch. -/
theorem does_sessionFetch {h : Holding} (hi : i < 16) (hd : s.directs id = false) (hh : s.holding i id = some h) (hrestore : h.restore = false)
    (hown : h.own = true) (hfetch : h.fetch = true) (hsource : (s.recordOf id).source = none) (data : List (Nat × List Byte)) :
    Does (.sessionFetch i id data) s fun u => (u.holding i id).map Holding.fetch = some false ∧ (u.holding i id).map Holding.sealed = some true ∧
      u.dir = s.dir := by
  have pages := directed_fetchPages s i id (s.recordOf id) data h.pages
  have hheld : (s.fetchPages i id (s.recordOf id) data h.pages).holding i id = some h := by
    rw [State.holding, State.pool, pools_fetchPages]
    exact hh
  refine ⟨_, exec_sessionFetch hi hd hh hrestore hown hfetch hsource data, ?_, ?_, pages.modHolding.tryServe.dir⟩ <;>
    rw [holding_tryServe, holding_modHolding_self, hheld] <;> rfl

end Sys2Proof.Machine
end

section
/-! SUPPORT. The directory's part in a move and a commit: the copy of phase 1, the report that the target serves, and the commit that waits too long
(R329, R331). -/

namespace Sys2Proof.Machine

variable {s t : State} {id : Nat} {r : Session}

/-! ## Records -/

theorem find_of_session (h : s.session id = some r) : Tab.find id s.dir.records = some r := by
  unfold State.session at h
  split at h
  · next x hx =>
    split at h
    · cases h
    · rw [hx, h]
  · cases h

theorem find_modSession (s : State) (id : Nat) (f : Session → Session) :
    Tab.find id (s.modSession id f).dir.records = (Tab.find id s.dir.records).map f := by
  show Tab.find id (match Tab.find id s.dir.records with | some r => Tab.put id (f r) s.dir.records | none => s.dir.records) = _
  split
  · next x hx => rw [Tab.find_put_self, hx, Option.map_some]
  · next hx => rw [hx, Option.map_none]

/-! ## SESSION_COPY_COMPLETE -/

theorem exec_sessionCopyComplete (hr : s.session id = some r) (hd : s.directs id = true) (hst : r.st = 2) (hc : ∀ c ∈ s.dir.changes, c.id ≠ id)
    (hj : ∀ j ∈ s.dir.jobs, j.id ≠ id) (hread : s.localPool r.owner = true → s.deniedSession (r.owner % 16) id = none) :
    exec (.sessionCopyComplete id) s = .next ((if s.localPool r.owner then s.copySession (r.owner % 16) id r.target else s).change id .prepared
      (some { r with st := 3 }) none) := by
  have hdenied : (if s.localPool r.owner then s.deniedSession (r.owner % 16) id else none) = none := by
    split
    · next h => exact hread h
    · rfl
  show execSessionCopyComplete id s = _
  rw [execSessionCopyComplete, hr]
  dsimp only
  rw [if_neg (by simpa [hst, hd] using ⟨hc, hj⟩), hdenied]

theorem does_sessionCopyComplete (hr : s.session id = some r) (hd : s.directs id = true) (hst : r.st = 2) (hc : ∀ c ∈ s.dir.changes, c.id ≠ id)
    (hj : ∀ j ∈ s.dir.jobs, j.id ≠ id) (hread : s.localPool r.owner = true → s.deniedSession (r.owner % 16) id = none) :
    Does (.sessionCopyComplete id) s fun u => u.dir.records = s.dir.records ∧
      u.dir.changes = s.dir.changes ++ [{ id := id, why := .prepared, new := some { r with st := 3 }, sent := s.partnerUp }] := by
  have copied : Directed s (if s.localPool r.owner then s.copySession (r.owner % 16) id r.target else s) := .ite Directed.refl.copySession .refl
  have asked := copied.dir_change id .prepared (some { r with st := 3 })
  exact ⟨_, exec_sessionCopyComplete hr hd hst hc hj hread, (congrArg Dir.records asked :), congrArg Dir.changes asked⟩

theorem exec_sessionCopyComplete_of_not_moving (hr : s.session id = some r) (hst : r.st ≠ 2) : exec (.sessionCopyComplete id) s = .next s := by
  show execSessionCopyComplete id s = _
  rw [execSessionCopyComplete, hr]
  exact if_pos (by simp [hst])

/-! ## SESSION_SERVE_REPORT -/

/-- The record when the target serves: it keeps no source and no commit. -/
def Session.ended (r : Session) : Session :=
  { r with commitAt := none, source := none, oldSet := [], dropAcked := false, commit := none, late := false, fetch := false }

theorem served_of_not_committed (hr : s.session id = some r) (h : r.commitAt = none) (fetched : Bool) : s.served id fetched = s := by
  rw [State.served, hr]
  exact if_pos (by simp [h])

/-- The target serves: the commit of its record has ended. -/
theorem find_served (hr : s.session id = some r) {tick : Word64} (h : r.commitAt = some tick) (fetched : Bool) :
    Tab.find id (s.served id fetched).dir.records = some r.ended := by
  rw [State.served, hr]
  show Tab.find id (if r.commitAt.isNone = true then s else _).dir.records = _
  rw [if_neg (by simp [h])]
  extract_lets s1 s2 s3 s4 s5
  have freed : Recorded s s2 := Recorded.refl.directed ((Directed.refl.foldl fun _ _ hu => hu.releasePool).foldl fun _ _ hu => hu.releasePool)
  have completed : Recorded s3 s4 := by
    dsimp only [s4]
    split
    · exact Recorded.refl.sessionDone
    · exact .refl
  have told : Recorded s3 s5 := .ite (completed.sends Sends.refl.tellUser) completed
  have ended : Recorded s3 (if fetched then s5.tellUser r 0x0021 (idWords id ++ [r.pstep.toNat]) else s5) := .ite (told.sends Sends.refl.tellUser) told
  rw [ended.records, find_modSession, freed.records, find_of_session hr]
  rfl

theorem exec_sessionServeReport (hr : s.session id = some r) (hd : s.directs id = true)
    (hserves : s.localPool r.owner = true → s.heldState (r.owner % 16) id = 1 ∧ ∃ h, s.holding (r.owner % 16) id = some h ∧ h.own = true) :
    exec (.sessionServeReport id) s = .next (s.served id false) := by
  show execSessionServeReport id s = _
  rw [execSessionServeReport, hr]
  refine if_pos ?_
  rw [hd]
  cases hl : s.localPool r.owner with
  | false => rfl
  | true =>
    obtain ⟨hheld, h, hh, hown⟩ := hserves hl
    simp [hheld, hh, hown]

theorem exec_sessionServeReport_of_not_committed (hr : s.session id = some r) (h : r.commitAt = none) :
    exec (.sessionServeReport id) s = .next s := by
  show execSessionServeReport id s = _
  rw [execSessionServeReport, hr]
  dsimp only
  rw [served_of_not_committed hr h, ite_self]

/-! ## COMMIT_PENDING_TIMEOUT -/

theorem exec_commitPendingTimeout {tick : Word64} {k : Nat} (hr : s.session id = some r) (htick : r.commitAt = some tick) (hk : r.commit = some k) :
    exec (.commitPendingTimeout id) s = .next (if s.now.toNat < tick.toNat + 1000000 then s
      else (s.modSession id fun r => { r with commit := none, late := true }).sessionDone k 0x0C [r.epoch, r.owner, r.root]) := by
  show execCommitPendingTimeout id s = _
  rw [execCommitPendingTimeout, hr]
  dsimp only
  rw [htick, hk]
  dsimp only
  split <;> rfl

/-! ## The obligation -/

/-- Settles O45: at the directory by what each event asks of the record, at a pool by what its holding becomes. -/
theorem poolsFollowTheDirectory : Obligations.PoolsFollowTheDirectory := by
  unfold Obligations.PoolsFollowTheDirectory
  intro s id
  refine ⟨fun r hr hd => ⟨does_sessionCopyComplete hr hd, exec_sessionCopyComplete_of_not_moving hr, fun tick htick hserves => ?report,
    exec_sessionServeReport_of_not_committed hr⟩, fun r tick k hr htick hk => ⟨fun hlate => ?late, fun hearly => ?early⟩,
    fun i h hi hd hh => ⟨fun hheld => ⟨does_sessionDropReceive hi hd hh hheld, exec_sessionOwnReceive hi hd hheld⟩, does_sessionSealReceive hi hh,
      fun data hrestore hown hfetch hsource => does_sessionFetch hi hd hh hrestore hown hfetch hsource data⟩⟩
  case report => exact ⟨_, exec_sessionServeReport hr hd hserves, find_served hr htick false⟩
  case late => rw [exec_commitPendingTimeout hr htick hk, if_neg (Nat.not_lt.2 hlate)]
  case early => rw [exec_commitPendingTimeout hr htick hk, if_pos hearly]

end Sys2Proof.Machine
end

section
/-! SUPPORT. Leases of pools, and their lapse (R321 to R323). -/

namespace Sys2Proof.Machine

variable {s : State} {i d id sender : Nat} {tick last : Word64}

/-! ## Sessions that a pool disowns -/

theorem dir_disown (s : State) (i d : Nat) : (s.disown i d).dir = s.dir := foldl_unchanged State.dir (fun _ _ => by rfl) _ s

theorem beds_disown (s : State) (i d : Nat) : (s.disown i d).beds = s.beds := foldl_unchanged State.beds (fun _ _ => by rfl) _ s

theorem pages_disown (s : State) (i d : Nat) : ((s.disown i d).pool i).pages = (s.pool i).pages :=
  foldl_unchanged (fun u : State => (u.pool i).pages) (fun u id => pages_modHolding u i id _) _ s

theorem isSome_holding_disown (s : State) (i d id : Nat) : ((s.disown i d).holding i id).isSome = (s.holding i id).isSome := by
  refine foldl_unchanged (fun u : State => (u.holding i id).isSome) (fun u key => ?_) _ s
  by_cases hk : id = key
  · rw [hk, holding_modHolding_self, Option.isSome_map]
  · rw [holding_modHolding_ne hk]

theorem isSome_find_of_mem {α : Type} {k : Nat} {t : Tab α} (h : k ∈ t.map Prod.fst) : (Tab.find k t).isSome = true := by
  induction t with
  | nil => cases h
  | cons y t ih =>
    rw [Tab.find]
    split
    · rfl
    · next hy => exact ih ((List.mem_cons.1 h).resolve_left fun e => hy (by simp [e]))

/-- No session of the directory is the pool's own any longer. -/
theorem own_disown (hid : id ∈ s.holdingsOf i d) : ((s.disown i d).holding i id).map Holding.own = some false := by
  have foreign : ∀ h, (s.disown i d).holding i id = some h → h.own = false :=
    foldl_reaches (P := fun id (u : State) => ∀ h, u.holding i id = some h → h.own = false)
      (fun u id h hh => by
        rw [holding_modHolding_self] at hh
        obtain ⟨g, -, rfl⟩ := Option.map_eq_some_iff.1 hh
        rfl)
      (fun u id key hu h hh => by
        by_cases hk : id = key
        · rw [hk, holding_modHolding_self] at hh
          obtain ⟨g, -, rfl⟩ := Option.map_eq_some_iff.1 hh
          rfl
        · exact hu h (holding_modHolding_ne hk u i _ ▸ hh))
      hid s
  have listed : (s.holding i id).isSome = true := isSome_find_of_mem (List.mem_filter.1 hid).1
  obtain ⟨h, hh⟩ := Option.isSome_iff_exists.1 ((isSome_holding_disown s i d id).trans listed)
  rw [hh, Option.map_some, foreign h hh]

/-! ## RENEWAL_RECEIVE and LEASE_LAPSE -/

theorem exec_renewalReceive (hi : i < 16) (hd : d < 4096) (hsender : sender < 4096) (hsync : sender = s.ownPkg ∨ s.links.tsync.sync = true) :
    exec (.renewalReceive d i ⟨tick, sender⟩) s = .next (s.takeRenewal sender d i tick) := by
  show execRenewalReceive d i ⟨tick, sender⟩ s = _
  rw [execRenewalReceive, if_neg (by simp [hi, hd, hsender])]
  refine if_neg ?_
  rcases hsync with h | h <;> simp [h]

/-- A renewal under a live lease: the later of the two ticks, and who sent it. -/
theorem takeRenewal_of_live (hlast : Tab.find d (s.pool i).leases = some last) (hlive : s.now.toNat < last.toNat + 200000) :
    s.takeRenewal sender d i tick = s.modPool i fun x =>
      { x with leases := Tab.put d (if last.toNat > tick.toNat then last else tick) x.leases, dirs := Tab.put d sender x.dirs } := by
  have hl : decide (s.now.toNat ≥ last.toNat + 200000) = false := by simpa using hlive
  simp only [State.takeRenewal, hlast, hl, Bool.false_eq_true, if_false, Bool.not_false, if_true]

/-- The later of a pool's last renewal and a tick. -/
def Pool.renewed (x : Pool) (d : Nat) (tick : Word64) : Word64 :=
  match Tab.find d x.leases with
  | some t => if t.toNat > tick.toNat then t else tick
  | none => tick

theorem le_renewed (x : Pool) (d : Nat) (tick : Word64) : tick.toNat ≤ (x.renewed d tick).toNat := by
  unfold Pool.renewed
  split
  · split
    · next h => exact h.le
    · exact le_rfl
  · exact le_rfl

/-- A renewal of another package after a lapse: no session of the directory is the pool's own until the directory has answered. -/
theorem takeRenewal_of_lapsed (hsender : sender ≠ s.ownPkg)
    (hlapsed : ∀ last, Tab.find d (s.pool i).leases = some last → last.toNat + 200000 ≤ s.now.toNat) :
    Sends ((s.disown i d).modPool i fun x => { x with leases := Tab.put d ((s.pool i).renewed d tick) x.leases, dirs := Tab.put d sender x.dirs })
      (s.takeRenewal sender d i tick) := by
  have hl : (match Tab.find d (s.pool i).leases with | some t => decide (s.now.toNat ≥ t.toNat + 200000) | none => true) = true := by
    split
    · next t ht => exact decide_eq_true (hlapsed t ht)
    · rfl
  unfold State.takeRenewal
  extract_lets last lapsed newest s1 ws
  have hlapsed : lapsed = true := hl
  have hs1 : s1 = (s.disown i d).modPool i fun x =>
      { x with leases := Tab.put d ((s.pool i).renewed d tick) x.leases, dirs := Tab.put d sender x.dirs } := by
    dsimp only [s1]
    rw [hlapsed]
    rfl
  rw [← hs1, hlapsed, if_neg (by simp), if_neg (by simpa using hsender)]
  exact Sends.refl.sendPool

theorem does_renewalReceive_of_lapsed (hi : i < 16) (hd : d < 4096) (hlt : sender < 4096) (hsync : sender = s.ownPkg ∨ s.links.tsync.sync = true)
    (hsender : sender ≠ s.ownPkg) (hlapsed : ∀ last, Tab.find d (s.pool i).leases = some last → last.toNat + 200000 ≤ s.now.toNat) :
    Does (.renewalReceive d i ⟨tick, sender⟩) s fun u => (∀ id ∈ s.holdingsOf i d, (u.holding i id).map Holding.own = some false) ∧ u.dir = s.dir ∧
      ∃ l, Tab.find d (u.pool i).leases = some l ∧ tick.toNat ≤ l.toNat := by
  have sent := takeRenewal_of_lapsed (tick := tick) hsender hlapsed
  refine ⟨_, exec_renewalReceive hi hd hlt hsync, fun id hid => ?_, ?_, _, ?_, le_renewed (s.pool i) d tick⟩
  · rw [sent.holding, holding_modPool rfl]
    exact own_disown hid
  · exact sent.dir.trans (dir_disown s i d)
  · rw [sent.pool, pool_modPool_self]
    exact Tab.find_put_self ..

theorem exec_leaseLapse (hi : i < 16) (hd : d < 4096) (hlast : Tab.find d (s.pool i).leases = some last) :
    exec (.leaseLapse d i) s = .next (if s.now.toNat < last.toNat + 200000 then s else s.disown i d) := by
  show execLeaseLapse d i s = _
  rw [execLeaseLapse, if_neg (by simp [hi, hd]), hlast]
  dsimp only
  split <;> rfl

theorem does_leaseLapse (hi : i < 16) (hd : d < 4096) (hlast : Tab.find d (s.pool i).leases = some last) (hlate : last.toNat + 200000 ≤ s.now.toNat) :
    Does (.leaseLapse d i) s fun u => (∀ id ∈ s.holdingsOf i d, (u.holding i id).map Holding.own = some false) ∧
      (u.pool i).pages = (s.pool i).pages ∧ u.beds = s.beds ∧ u.dir = s.dir := by
  refine ⟨_, exec_leaseLapse hi hd hlast, ?_⟩
  rw [if_neg (Nat.not_lt.2 hlate)]
  exact ⟨fun id hid => own_disown hid, pages_disown .., beds_disown .., dir_disown ..⟩

/-! ## RENEWAL_SEND -/

theorem ownPkg_lt (s : State) : s.ownPkg < 4096 := by
  unfold State.ownPkg
  cases s.regs.pkgId with
  | none => decide
  | some x => exact x.isLt

theorem exec_renewalSend_of_none (h : ∀ x ∈ s.dir.records, x.2.st = 0 ∨ s.directs x.1 = false) : exec .renewalSend s = .next s := by
  have hnone : (s.dir.records.filter fun x => x.2.st != 0 && s.directs x.1) = [] :=
    List.filter_eq_nil_iff.2 fun x hx => by rcases h x hx with h | h <;> simp [h]
  show execRenewalSend s = _
  rw [execRenewalSend, hnone]
  rfl

/-- The directory of one session that lies in one pool of this package sends its TIME there. -/
theorem exec_renewalSend_of_one {r : Session} {n : Nat} (hrecords : s.dir.records = [(id, r)]) (hst : r.st ≠ 0) (hd : s.directs id = true)
    (hpools : r.pools = [n]) (hn : s.localPool n = true) : exec .renewalSend s =
      .next ((s.modDir fun d => { d with renewals := Tab.put n s.now d.renewals }).takeRenewal s.ownPkg (directoryOf id) (n % 16) s.now) := by
  have hlt : n < 65536 := by
    have hown := ownPkg_lt s
    have hpkg : n / 16 = s.ownPkg := by simpa [State.localPool] using hn
    omega
  have hname : (directoryOf id * 65536 + n) % 65536 = n := by omega
  have hdir : (directoryOf id * 65536 + n) / 65536 = directoryOf id := by omega
  have hone : (s.dir.records.filter fun x => x.2.st != 0 && s.directs x.1) = [(id, r)] := by
    rw [hrecords]
    simp [hst, hd]
  show execRenewalSend s = _
  rw [execRenewalSend, hone]
  simp only [List.foldl_cons, List.foldl_nil, hpools, insertUniq, hname, hdir, hn, if_true]

end Sys2Proof.Machine
end

section
/-! SUPPORT. The loss of pools and of owners, the Mirror's updates, and the control of the directory (R322, R324, R336 to R338, R340, R341). -/

namespace Sys2Proof.Machine

variable {s t u : State} {id name : Nat} {r : Session}

/-! ## OWNERSHIP_TAKEOVER -/

theorem exec_ownershipTakeover_of_kept (hr : s.session id = some r) (h : r.st ≠ 4 ∨ s.mayTakeOver r = false) :
    exec (.ownershipTakeover id) s = .next s := by
  show execOwnershipTakeover id s = _
  rw [execOwnershipTakeover, hr]
  refine if_pos ?_
  rcases h with h | h <;> simp [h]

/-- A next owner that must fetch has the session's code. -/
theorem prot_of_fetch {n : Session} (h : s.rebuilt id r = some n) (hf : n.fetch = true) : r.prot = 2 := by
  unfold State.rebuilt at h
  extract_lets next members rootAt retained need at h
  split at h
  · cases h
    cases hf
  · split at h
    · cases h
      cases hf
    · split at h
      · cases h
        cases hf
      · split at h
        · next hp => exact (by simpa using hp : r.prot = 2 ∧ _).1
        · cases h

/-- The session is REBUILDING, and its directory may name the next owner: nothing of the session waits. -/
structure Orphaned (s : State) (id : Nat) (r : Session) : Prop where
  record : s.session id = some r
  rebuilding : r.st = 4
  directs : s.directs id = true
  may : s.mayTakeOver r = true
  changes : ∀ c ∈ s.dir.changes, c.id ≠ id
  jobs : ∀ j ∈ s.dir.jobs, j.id ≠ id

theorem Orphaned.proceeds (h : Orphaned s id r) : ¬ (r.st != 4 || !s.directs id || !s.mayTakeOver r || s.dir.changes.any (fun c => c.id == id) ||
    s.dir.jobs.any (fun j => j.id == id)) = true := by
  simpa [h.rebuilding, h.directs, h.may] using ⟨h.changes, h.jobs⟩

theorem exec_ownershipTakeover_of_none (h : Orphaned s id r) (hnone : s.rebuilt id r = none) :
    exec (.ownershipTakeover id) s = .next (s.change id .lost (some r.lost) none) := by
  show execOwnershipTakeover id s = _
  rw [execOwnershipTakeover, h.record]
  dsimp only
  rw [if_neg h.proceeds, hnone]

/-- The session gets its next owner, `n`: from a pool that has its pages, or by pages taken for its rebuild (R337). -/
def State.succeed (s : State) (id : Nat) (r n : Session) : State :=
  if !n.fetch then s.change id .rebuilt (some n) none
  else s.startJob ⟨id, .rebuilt, n, 0, [n.owner], 0, 0⟩
    [{ op := .take, pool := n.owner, session := id, pages := r.pages, epoch := n.epoch, flag := true }]

theorem exec_ownershipTakeover_of_some {n : Session} (h : Orphaned s id r) (hn : s.rebuilt id r = some n) :
    exec (.ownershipTakeover id) s = .next (if r.prot == 1 && n.prot == 0 then
      (s.succeed id r n).tellUser r 0x0021 (idWords id ++ [r.pstep.toNat]) else s.succeed id r n) := by
  show execOwnershipTakeover id s = _
  rw [execOwnershipTakeover, h.record]
  dsimp only
  rw [if_neg h.proceeds, hn]
  rfl

/-- A next owner that has the pages is asked for; no byte moves. -/
theorem does_ownershipTakeover {n : Session} (h : Orphaned s id r) (hn : s.rebuilt id r = some n) (hf : n.fetch = false) :
    Does (.ownershipTakeover id) s fun u => u.beds = s.beds ∧
      u.dir.changes = s.dir.changes ++ [{ id := id, why := .rebuilt, new := some n, sent := s.partnerUp }] := by
  have hsucceed : s.succeed id r n = s.change id .rebuilt (some n) none := if_pos (by simp [hf])
  have asked := sends_change s id .rebuilt (some n) none
  rw [← hsucceed] at asked
  have told := Sends.ite (c := (r.prot == 1 && n.prot == 0) = true)
    (asked.tellUser (r := r) (code := 0x0021) (ws := idWords id ++ [r.pstep.toNat])) asked
  exact ⟨_, exec_ownershipTakeover_of_some h hn, told.beds, congrArg Dir.changes told.dir⟩

/-- A next owner that must fetch first takes the pages. -/
theorem exec_ownershipTakeover_of_fetch {n : Session} (h : Orphaned s id r) (hn : s.rebuilt id r = some n) (hf : n.fetch = true) :
    exec (.ownershipTakeover id) s = .next (s.startJob ⟨id, .rebuilt, n, 0, [n.owner], 0, 0⟩
      [{ op := .take, pool := n.owner, session := id, pages := r.pages, epoch := n.epoch, flag := true }]) := by
  rw [exec_ownershipTakeover_of_some h hn, if_neg (by simp [prot_of_fetch hn hf])]
  exact congrArg _ (if_neg (by simp [hf]))

/-! ## POOL_LOSS -/

/-- No record of the directory names the pool. -/
theorem named_nil (h : ∀ x ∈ s.dir.records, name ∉ x.2.pools) :
    (s.dir.records.filter fun x => s.directs x.1 && x.2.st != 0 && x.2.pools.contains name) = [] :=
  List.filter_eq_nil_iff.2 fun x hx => by simp [h x hx]

theorem exec_poolLoss (hname : name < 65536) : exec (.poolLoss name) s = .next (s.losePool name) := if_neg (Nat.not_le.2 hname)

/-- A lost pool of this package that no record names gives up its pages; PF0 and the directories of its sessions are told. -/
theorem sends_losePool (hlocal : s.localPool name = true) (h : ∀ x ∈ s.dir.records, name ∉ x.2.pools) :
    Sends ((s.zeroPages (name % 16) ((s.pool (name % 16)).pages.map Prod.fst)).modPool (name % 16) fun x => { x with pages := [], held := [] })
      (s.losePool name) := by
  unfold State.losePool
  extract_lets i mine s1 ours s3 s4
  have hmine : mine = true := hlocal
  have hs1 : s1 = (s.zeroPages i ((s.pool i).pages.map Prod.fst)).modPool i fun x => { x with pages := [], held := [] } := if_pos hmine
  have hdir : s1.dir = s.dir := by
    rw [hs1]
    exact Directed.refl.zeroPages.modPool.dir
  have hours : ours = [] := named_nil (s := s1) (by rwa [hdir])
  rw [hours, ← hs1]
  have raised : Sends s1 s3 := .ite Sends.refl.raisePf0 .refl
  exact .ite (raised.foldl fun _ _ hu => hu.sendPool) raised

theorem does_poolLoss (hname : name < 65536) (hlocal : s.localPool name = true) (h : ∀ x ∈ s.dir.records, name ∉ x.2.pools) :
    Does (.poolLoss name) s fun u => (u.pool (name % 16)).pages = [] ∧ (u.pool (name % 16)).held = [] ∧ u.dir = s.dir ∧ u.strands = s.strands := by
  have sent := sends_losePool hlocal h
  have zeroed : Directed s (s.losePool name) := Directed.refl.zeroPages.modPool.sends sent
  have hpool := (sent.pool (name % 16)).trans (pool_modPool_self ..)
  exact ⟨_, exec_poolLoss hname, congrArg Pool.pages hpool, congrArg Pool.held hpool, zeroed.dir, zeroed.strands⟩

/-- A lost pool of another package, where no command waits for pools to free or to grant pages. -/
theorem closeAnswer_of_none (h : ∀ j ∈ s.dir.jobs, j.why ≠ .close ∧ j.why ≠ .grown) : s.closeAnswer name none = s := by
  have same : s.dir.jobs.map (fun (j : Job) =>
      if j.why == .grown && (none : Option Nat).isNone && j.pools.contains name then { j with pools := [], left := 0, status := 5 }
      else if j.why == .close && true then { j with pools := j.pools.filter fun n => n != name, left := (j.pools.filter fun n => n != name).length }
      else j) = s.dir.jobs := by
    refine (List.map_congr_left fun j hj => ?_).trans (List.map_id _)
    obtain ⟨hclose, hgrown⟩ := h j hj
    rw [if_neg (by simp [hgrown]), if_neg (by simp [hclose])]
    rfl
  unfold State.closeAnswer
  extract_lets less over_
  have hless : less = s.dir.jobs := same
  rw [hless]
  have hover : ∀ j ∈ s.dir.jobs, over_ j = false := fun j hj => by
    obtain ⟨hclose, hgrown⟩ := h j hj
    simp [over_, hclose, hgrown]
  have hkept : (s.dir.jobs.filter fun j => !over_ j) = s.dir.jobs := List.filter_eq_self.2 fun j hj => by rw [hover j hj]; rfl
  have hdone : s.dir.jobs.filter over_ = [] := List.filter_eq_nil_iff.2 fun j hj => by rw [hover j hj]; decide
  rw [hdone, hkept]
  rfl

theorem losePool_of_far (hfar : s.localPool name = false) (h : ∀ x ∈ s.dir.records, name ∉ x.2.pools)
    (hjobs : ∀ j ∈ s.dir.jobs, j.why ≠ .close ∧ j.why ≠ .grown) : s.losePool name = s := by
  unfold State.losePool
  extract_lets i mine s1 ours s3 s4
  have hmine : mine = false := hfar
  have hs1 : s1 = s := (if_neg (by simp [hmine])).trans (closeAnswer_of_none hjobs)
  have hours : ours = [] := named_nil (s := s1) (by rwa [hs1])
  have hs3 : s3 = s := (if_neg (by simp [hmine, hours])).trans hs1
  have hs4 : s4 = s := (if_neg (by simp [hmine])).trans hs3
  rw [hours, hs4]
  rfl

theorem exec_poolUnreachableTimeout {since : Word64} (hname : name < 65536) (hsince : Tab.find name s.dir.unreachable = some since) :
    exec (.poolUnreachableTimeout name) s = .next (if s.now.toNat < since.toNat + 1000000 || (s.reach (name / 16)).isSome then s
      else (s.modDir fun d => { d with unreachable := Tab.drop name d.unreachable }).losePool name) := by
  show execPoolUnreachableTimeout name s = _
  rw [execPoolUnreachableTimeout, if_neg (Nat.not_le.2 hname), hsince]
  dsimp only
  split <;> rfl

/-! ## MIRROR_UPDATE_COMPLETE -/

/-- From `s` to `t` an update of the Mirror is written: the queue of updates, the changes that wait and the partner are as before. -/
structure Mirrors (s t : State) : Prop where
  queue : t.dir.mirrorQueue = s.dir.mirrorQueue
  changes : t.dir.changes = s.dir.changes
  partnerUp : t.partnerUp = s.partnerUp

namespace Mirrors

theorem refl : Mirrors s s := ⟨rfl, rfl, rfl⟩

theorem trans (h : Mirrors s t) (h' : Mirrors t u) : Mirrors s u :=
  ⟨h'.queue.trans h.queue, h'.changes.trans h.changes, h'.partnerUp.trans h.partnerUp⟩

theorem directed (h : Mirrors s t) (h' : Directed t u) : Mirrors s u :=
  h.trans ⟨congrArg Dir.mirrorQueue h'.dir, congrArg Dir.changes h'.dir, h'.partnerUp⟩

theorem sends (h : Mirrors s t) (h' : Sends t u) : Mirrors s u := h.directed h'.directed

theorem foldl {α : Type} {f : State → α → State} {l : List α} (h : Mirrors s t) (hf : ∀ u x, Mirrors s u → Mirrors s (f u x)) :
    Mirrors s (l.foldl f t) := by
  induction l generalizing t with
  | nil => exact h
  | cons x l ih => exact ih (hf _ _ h)

theorem count (h : Mirrors s t) (n : Word64) : Mirrors s (t.modDir fun d => { d with mirrorBytes := d.mirrorBytes + n }) := h.trans ⟨rfl, rfl, rfl⟩

theorem protectPage {id j : Nat} {page : List Byte} (h : Mirrors s t) : Mirrors s (t.protectPage r id j page) := by
  unfold State.protectPage
  extract_lets p
  refine h.foldl fun v x hv => ?_
  extract_lets bs s1
  have counted : Mirrors s s1 := hv.count _
  split
  · split
    · exact (counted.directed Directed.refl.writePool).sends Sends.refl.countMoved
    · exact counted
  · exact (counted.sends Sends.refl.sendPoolFor).sends Sends.refl.countMoved

end Mirrors

theorem Directed.cleanPages {i : Nat} (h : Directed s t) : Directed s (t.cleanPages i id) := by
  rw [State.cleanPages]
  split
  · exact h
  · exact h.modHolding.modPool

/-- Pages of a session are written to its protection, and stand unchanged since then (R336). -/
def State.mirrored (s : State) (id : Nat) (r : Session) (pages : List (Nat × List Byte)) : State :=
  let s1 := pages.foldl (fun s x => s.protectPage r id x.1 x.2) s
  if s.localPool r.owner then s1.cleanPages (r.owner % 16) id else s1.tellPool { op := .clean, pool := r.owner, session := id } []

theorem mirrors_mirrored (s : State) (id : Nat) (r : Session) (pages : List (Nat × List Byte)) : Mirrors s (s.mirrored id r pages) := by
  have written : Mirrors s (pages.foldl (fun s x => s.protectPage r id x.1 x.2) s) := Mirrors.refl.foldl fun _ _ hu => hu.protectPage
  unfold State.mirrored
  dsimp only
  split
  · exact written.directed Directed.refl.cleanPages
  · exact written.sends Sends.refl.tellPool

theorem exec_mirrorUpdateComplete {data : List (Nat × List Byte)} {q : Nat × Word64} (hq : s.dir.mirrorQueue.find? (fun x => x.1 == id) = some q)
    (hr : s.session id = some r) (hd : s.directs id = true)
    (hhurt : ∀ x ∈ s.dirtyIndices (r.owner % 16) id, s.hurtPoolPage (r.owner % 16) x.2 = none)
    (hread : s.deniedPages (r.owner % 16) ((s.dirtyIndices (r.owner % 16) id).map Prod.snd) = none) :
    exec (.mirrorUpdateComplete id data) s = .next (((s.mirrored id r
      (if s.localPool r.owner then s.dirtyPages (r.owner % 16) id else data.map fun x => (x.1, x.2.take 262144))).modDir
        fun d => { d with mirrorQueue := d.mirrorQueue.erase q }).change id .pstep (some { r with pstep := q.2 }) none) := by
  have hclean : ((s.dirtyIndices (r.owner % 16) id).findSome? fun x => s.hurtPoolPage (r.owner % 16) x.2) = none :=
    List.findSome?_eq_none_iff.2 hhurt
  show execMirrorUpdateComplete id data s = _
  rw [execMirrorUpdateComplete, hq, hr]
  dsimp only
  rw [hread, hclean, ite_self, ite_self]
  exact congrArg Host.Outcome.next (if_pos hd)

/-- An update leaves its queue, and the record's PSTEP is to follow. -/
theorem does_mirrorUpdateComplete {data : List (Nat × List Byte)} {q : Nat × Word64} (hq : s.dir.mirrorQueue.find? (fun x => x.1 == id) = some q)
    (hr : s.session id = some r) (hd : s.directs id = true)
    (hhurt : ∀ x ∈ s.dirtyIndices (r.owner % 16) id, s.hurtPoolPage (r.owner % 16) x.2 = none)
    (hread : s.deniedPages (r.owner % 16) ((s.dirtyIndices (r.owner % 16) id).map Prod.snd) = none) :
    Does (.mirrorUpdateComplete id data) s fun u => u.dir.mirrorQueue = s.dir.mirrorQueue.erase q ∧
      u.dir.changes = s.dir.changes ++ [{ id := id, why := .pstep, new := some { r with pstep := q.2 }, sent := s.partnerUp }] := by
  refine ⟨_, exec_mirrorUpdateComplete hq hr hd hhurt hread, ?_⟩
  have mirrored := mirrors_mirrored s id r (if s.localPool r.owner then s.dirtyPages (r.owner % 16) id else data.map fun x => (x.1, x.2.take 262144))
  generalize s.mirrored id r _ = t at mirrored
  have asked := (sends_change (t.modDir fun d => { d with mirrorQueue := d.mirrorQueue.erase q }) id .pstep (some { r with pstep := q.2 }) none).dir
  rw [← mirrored.queue, ← mirrored.changes, ← mirrored.partnerUp]
  exact ⟨congrArg Dir.mirrorQueue asked, congrArg Dir.changes asked⟩

theorem exec_mirrorUpdateComplete_of_none {data : List (Nat × List Byte)} {q : Nat × Word64}
    (hq : s.dir.mirrorQueue.find? (fun x => x.1 == id) = some q) (hnone : s.session id = none) :
    exec (.mirrorUpdateComplete id data) s = .next (s.modDir fun d => { d with mirrorQueue := d.mirrorQueue.erase q }) := by
  show execMirrorUpdateComplete id data s = _
  rw [execMirrorUpdateComplete, hq, hnone]

/-! ## Directory control -/

/-- The records that are back from the partner are taken, and serials go on behind them. -/
theorem directoryResyncComplete_readies (hen : s.dir.enabled = true) :
    exec (.directoryResyncComplete []) s = .next (s.modDir fun d => { d with ready := true, syncing := false, syncLeft := 0, syncGot := [] }) ∧
      ∀ rs, Does (.directoryResyncComplete rs) s fun u => u.dir.ready = true ∧ u.dir.syncing = false ∧ s.dir.nextSerial ≤ u.dir.nextSerial ∧
        u.pools = s.pools := by
  have hon : ¬ (!s.dir.enabled) = true := by simp [hen]
  refine ⟨?_, fun rs => ⟨_, if_neg hon, rfl, rfl, ?_, rfl⟩⟩
  · exact if_neg hon
  · exact (foldl_max_spec (fun x : Nat × Session => x.1 % 2 ^ 36 + 1) _ s.dir.nextSerial).1.trans_eq List.foldl_filter

theorem sends_sendRecords (s : State) : Sends s s.sendRecords := Sends.refl.sendPool.foldl fun _ _ hu => hu.sendPool

theorem does_pvDirCtlWrite (v : Word32) (h : s.exposed = true) : Does (.pvDirCtlWrite v) s fun u => u.dir.ctl = v &&& 0xEFFF#32 ∧
    u.dir.records = s.dir.records ∧ (s.dir.adopt = true → v.getLsbD 14 = false → u.dir.syncing = true) ∧ u.beds = s.beds := by
  show ∃ u, execPvDirCtlWrite v s = .next u ∧ _
  unfold execPvDirCtlWrite
  rw [if_neg (by simp [h])]
  extract_lets new cleared adopts owners s1
  have sent : Sends s1 (if cleared then s1.sendRecords else s1) := .ite (sends_sendRecords s1) .refl
  refine ⟨_, rfl, ?_⟩
  rw [sent.dir, sent.beds]
  refine ⟨rfl, rfl, fun hadopt hclear => ?_, rfl⟩
  have hnew : new.getLsbD 14 = false := by rw [BitVec.getLsbD_and, hclear, Bool.false_and]
  have hc : cleared = true := by simp only [cleared, hadopt, hnew, Bool.not_false, Bool.and_true]
  show (s.dir.syncing || cleared || _) = true
  simp [hc]

/-! ## The obligation -/

/-- Settles O46, event by event. -/
theorem leasesLossesAndMirrors : Obligations.LeasesLossesAndMirrors := by
  unfold Obligations.LeasesLossesAndMirrors
  intro s
  refine ⟨fun d i tick sender hi hd hlt hsync => ⟨fun last hlast hlive => ?renewed, does_renewalReceive_of_lapsed hi hd hlt hsync⟩,
    fun d i last hi hd hlast => ⟨does_leaseLapse hi hd hlast, fun hearly => ?leased⟩, exec_renewalSend_of_none,
    fun id r n hrecords hst hd hpools hn => exec_renewalSend_of_one hrecords hst hd hpools hn,
    fun id r hr => ⟨exec_ownershipTakeover_of_kept hr, fun hst hd hmay hc hj => ?takeover⟩,
    fun name hname hnamed => ⟨fun hlocal => does_poolLoss hname hlocal hnamed, fun hfar hjobs => ?far,
      fun since hsince => ⟨fun hlate hgone => ?late, fun hearly => ?early⟩⟩,
    fun id data q hq => ⟨fun r hr hd => does_mirrorUpdateComplete hq hr hd, exec_mirrorUpdateComplete_of_none hq⟩,
    directoryResyncComplete_readies, does_pvDirCtlWrite⟩
  case renewed => rw [exec_renewalReceive hi hd hlt hsync, takeRenewal_of_live hlast hlive]
  case leased => rw [exec_leaseLapse hi hd hlast, if_pos hearly]
  case takeover =>
    have h : Orphaned s id r := ⟨hr, hst, hd, hmay, hc, hj⟩
    exact ⟨exec_ownershipTakeover_of_none h, fun n hn => ⟨does_ownershipTakeover h hn, exec_ownershipTakeover_of_fetch h hn⟩⟩
  case far => rw [exec_poolLoss hname, losePool_of_far hfar hnamed hjobs]
  case late => rw [exec_poolUnreachableTimeout hname hsince, if_neg (by simpa [hgone] using hlate)]
  case early => rw [exec_poolUnreachableTimeout hname hsince, if_pos (by simp [hearly])]

end Sys2Proof.Machine
end

section
/-! SUPPORT. Window entries in force, as a use finds them (R216, R217): reading some leaves what a pool answers to its user (R326). -/

namespace Sys2Proof.Machine

variable {s t : State}

theorem leNat_gather_lt (m : Mem) (key : Nat → Nat) (a n : Nat) : leNat (Mem.gather m key a n) < 256 ^ n := by
  induction n generalizing a with
  | zero => exact Nat.one_pos
  | succ n ih =>
    have hb := (Mem.read m (key a)).isLt
    have hrest := ih (a + 1)
    simp only [Mem.gather, leNat, Nat.pow_succ]
    omega

/-- The window entry that a use finds: the one in force, or what package memory holds. -/
def State.windowEntry (s : State) (w : Nat) : Nat :=
  match Tab.find w s.windows with
  | some e => e.toNat
  | none => match s.regs.winBase with
    | none => 0
    | some b => s.pkgNat (b.toNat + 32 * w) 32

theorem window_fst (s : State) (w : Nat) : (s.window w).1 = s.windowEntry w := by
  unfold State.window State.windowEntry
  cases Tab.find w s.windows with
  | some e => rfl
  | none => cases s.regs.winBase <;> rfl

/-- An entry that comes into force is the one that the use found. -/
theorem windowEntry_window (s : State) (v w : Nat) : (s.window v).2.windowEntry w = s.windowEntry w := by
  unfold State.window
  split
  · rfl
  · next hnone =>
    split
    · rfl
    · next b hb =>
      show (match Tab.find w (Tab.put v (BitVec.ofNat 256 (s.pkgNat (b.toNat + 32 * v) 32)) s.windows) with | some e => e.toNat | none => _) = _
      by_cases hw : w = v
      · have hlt : s.pkgNat (b.toNat + 32 * v) 32 < 2 ^ 256 := lt_of_lt_of_eq (leNat_gather_lt ..) (by norm_num)
        rw [hw, Tab.find_put_self, State.windowEntry, hnone, hb]
        exact Nat.mod_eq_of_lt hlt
      · rw [Tab.find_put_ne hw]
        rfl

theorem windowRead_useWindows (s : State) (names : List Nat) : WindowRead s (s.useWindows names) :=
  WindowRead.refl.foldl fun _ _ hu => .ite hu.window hu

theorem windowEntry_useWindows (s : State) (names : List Nat) (w : Nat) : (s.useWindows names).windowEntry w = s.windowEntry w :=
  foldl_unchanged (fun u : State => u.windowEntry w) (fun u n => by
    split
    · exact windowEntry_window ..
    · rfl) names s

/-- What a pool answers to a user depends on the pool, its window's entry and the pavilions. -/
theorem poolRefuses_congr (hregs : t.regs = s.regs) (hpools : t.pools = s.pools) (hpavs : t.pavs = s.pavs)
    (hentry : ∀ w, t.windowEntry w = s.windowEntry w) (u : Poster) (name : Nat) : t.poolRefuses u name = s.poolRefuses u name := by
  simp only [State.poolRefuses, State.localPool, State.ownPkg, State.pool, State.pav, window_fst, hregs, hpools, hpavs, hentry]

theorem regs_useWindows (s : State) (names : List Nat) : (s.useWindows names).regs = s.regs :=
  (congrArg State.regs (windowRead_useWindows s names).eq).trans rfl

theorem pools_useWindows (s : State) (names : List Nat) : (s.useWindows names).pools = s.pools :=
  (congrArg State.pools (windowRead_useWindows s names).eq).trans rfl

theorem poolRefuses_useWindows (s : State) (names : List Nat) (u : Poster) (name : Nat) :
    (s.useWindows names).poolRefuses u name = s.poolRefuses u name :=
  poolRefuses_congr (regs_useWindows ..) (pools_useWindows ..) ((congrArg State.pavs (windowRead_useWindows s names).eq).trans rfl)
    (windowEntry_useWindows s names) u name

theorem localPool_useWindows (s : State) (names : List Nat) (name : Nat) : (s.useWindows names).localPool name = s.localPool name := by
  simp only [State.localPool, State.ownPkg, regs_useWindows]

theorem pool_useWindows (s : State) (names : List Nat) (i : Nat) : (s.useWindows names).pool i = s.pool i := by
  simp only [State.pool, pools_useWindows]

theorem poolReachable_useWindows (s : State) (names : List Nat) (name : Nat) : (s.useWindows names).poolReachable name = s.poolReachable name := by
  simp only [State.poolReachable, localPool_useWindows, pool_useWindows, (Directed.refl.useWindows (names := names) : Directed s _).reach]

/-- A pool of this package that admits a user is defined. -/
theorem poolReachable_of_admits {u : Poster} {name : Nat} (hlocal : s.localPool name = true) (h : s.poolRefuses u name = false) :
    s.poolReachable name = true := by
  rw [State.poolReachable, if_pos hlocal]
  by_contra hdef
  rw [State.poolRefuses, hlocal] at h
  simp [hdef] at h

end Sys2Proof.Machine
end

section
/-! SUPPORT. The session commands at their directory (R318, R325 to R327, R329 to R331, R333). -/

namespace Sys2Proof.Machine

variable {s t v : State} {fn slot k id : Nat} {u : Poster} {w : Nat → Nat} {r : Session}

/-! ## A session command that its directory package posts -/

/-- The name of a post of a slot is none under which a command of another package waits (R325). -/
theorem postName_lt_asks {sel : (Nat → Nat) → Bool} (h : Posts s fn slot sel) : s.postName fn slot < 2 ^ 32 := by
  have := h.fnOk
  have := h.slotOk
  have := h.fresh
  unfold State.postName postOf
  omega

theorem sessionDone_of_post (hk : k < 2 ^ 32) (status : Nat) (rsp : List Nat) : s.sessionDone k status rsp = s.complete k status rsp := if_pos hk

/-- A session command of a session that this package directs, or of none, is done here. -/
theorem post_session {sel : (Nat → Nat) → Bool} {form : CmdForm} {start : Nat → State → State} (hp : Passes s fn slot sel form)
    (hs : ∀ k t, start k t = t.start k form fun _ s => s.routeSession k)
    (hhere : ∀ id, sessionNamed (s.slotAt fn slot).posted.w = some id → s.directs id = true) :
    post fn slot sel start s = .next ((s.postedAt fn slot).sessionCommand (s.postName fn slot) (s.poster fn) (s.slotAt fn slot).posted.w) := by
  refine (post_body (body := fun k _ s => s.routeSession k) hp hs).trans (congrArg _ ?_)
  have hfn : postFn (s.postName fn slot) = fn := postFn_postOf hp.starts.posts.fnOk hp.starts.posts.slotOk
  unfold State.routeSession
  extract_lets m u id x
  have hm : m = (s.slotAt fn slot).posted := Posts.mb_postedAt hp.starts.posts
  have hu : u = s.poster fn := by
    dsimp only [u]
    rw [hfn]
    rfl
  rw [hm, hu]
  refine if_pos ?_
  cases hn : sessionNamed (s.slotAt fn slot).posted.w with
  | none => rfl
  | some i =>
    have hid : id = i := by
      dsimp only [id]
      rw [hm, hn]
      rfl
    rw [hid]
    exact hhere i hn

/-- Records can change: the directory, where it is enabled, has its records back. -/
theorem ready_of_not_fenced (h : s.fenced = false) : s.dir.ready = true := by
  rw [State.fenced] at h
  simpa using (Bool.or_eq_false_iff.1 h).1

theorem sessionCommand_create (hready : s.dir.ready = true) (hop : w 0 % 256 = 0x30) (hnew : bitAt (w 4) 2 = false) :
    s.sessionCommand k u w = s.createSession k u w := by
  rw [State.sessionCommand, if_neg (by simp [hready]), hop]
  exact if_neg (by simp [hnew])

theorem sessionCommand_move (hready : s.dir.ready = true) (hop : w 0 % 256 = 0x31) :
    s.sessionCommand k u w = if bitAt (w 5) 2 then s.abortMove k u w else s.moveSession k u w := by
  rw [State.sessionCommand, if_neg (by simp [hready]), hop]
  rfl

theorem sessionCommand_commit (hready : s.dir.ready = true) (hop : w 0 % 256 = 0x32) : s.sessionCommand k u w = s.commitSession k u w := by
  rw [State.sessionCommand, if_neg (by simp [hready]), hop]
  rfl

theorem sessionCommand_close (hready : s.dir.ready = true) (hop : w 0 % 256 = 0x33) : s.sessionCommand k u w = s.closeSession k u w := by
  rw [State.sessionCommand, if_neg (by simp [hready]), hop]
  rfl

/-! ## SESSION_CREATE (R318, R327) -/

theorem exec_sessionCreate (hf : s.fenced = false) (hp : Passes s fn slot (opc 0x30) createForm)
    (hnew : bitAt ((s.slotAt fn slot).posted.w 4) 2 = false) :
    exec (.sessionCreate fn slot) s = .next ((s.postedAt fn slot).createSession (s.postName fn slot) (s.poster fn) (s.slotAt fn slot).posted.w) := by
  have hop : (s.slotAt fn slot).posted.w 0 % 256 = 0x30 := beq_iff_eq.1 hp.starts.posts.chosen
  have hnone : sessionNamed (s.slotAt fn slot).posted.w = none := by
    rw [sessionNamed, hop, hnew]
    rfl
  refine (post_session hp (fun _ _ => rfl) fun id h => by rw [hnone] at h; cases h).trans ?_
  rw [sessionCommand_create (s := s.postedAt fn slot) (ready_of_not_fenced hf) hop hnew]

theorem protOf_of_none (h : bits (w 4) 1 0 = 0) (i : Nat) : protOf w (w 4) i = (0, 0, 0, []) := by
  rw [protOf, h]
  rfl

theorem createSession_of_nobody (hu : u.pav = none) : s.createSession k u w = s.sessionDone k 0x02 [] := by
  rw [State.createSession, hu]

/-- Pages that a pool of this package gives at once, alone. -/
theorem startJob_of_taken {j : Job} {m : PoolMsg} {root : Nat} (hlocal : s.localPool m.pool = true) (h : s.takeHere m = some (root, v)) :
    s.startJob j [m] = v.endJob { (j.rooted root) with left := 0, status := 0 } := by
  have hask : s.askPools [m] = (v, 0, 0, root) := by
    rw [State.askPools, if_pos hlocal, h]
    rfl
  rw [State.startJob, hask]
  rfl

/-- SESSION_CREATE without protection in a pool of this package that admits the user and has the pages. -/
theorem createSession_of_room {q root : Nat} (hf : s.fenced = false) (hen : s.dir.enabled = true) (hprot : bits (w 4) 1 0 = 0) (hu : u.pav = some q)
    (hadmits : s.poolRefuses u (w 2 % 65536) = false) (hlocal : s.localPool (w 2 % 65536) = true) (hpages : w 3 ≤ 4194304)
    (hroom : s.directed < 1048576)
    (htake : ((s.useWindows [w 2 % 65536]).modDir fun d => { d with nextSerial := d.nextSerial + 1 }).takePages (w 2 % 65536 % 16)
      (s.ownPkg * 2 ^ 36 + s.dir.nextSerial) (w 3) 1 = some (root, v)) :
    s.createSession k u w = v.change (s.ownPkg * 2 ^ 36 + s.dir.nextSerial) .create
      (some { owner := w 2 % 65536, root := root, userPkg := u.pkg, userPav := q, pages := w 3 }) (some k) := by
  have used : Directed s (s.useWindows [w 2 % 65536]) := Directed.refl.useWindows
  have hdirected : (s.useWindows [w 2 % 65536]).directed = s.directed := by
    simp only [State.directed, State.directs, State.ownPkg, used.dir, regs_useWindows]
  unfold State.createSession
  rw [protOf_of_none hprot, hu]
  dsimp only
  rw [if_neg (by simp [hf, hen]), if_neg (by simp [poolRefuses_useWindows, hadmits]),
    if_neg (by simp [poolReachable_useWindows, poolReachable_of_admits hlocal hadmits]), if_neg (by simp [State.protRefused]),
    if_neg (by simp [hdirected, hpages, hroom])]
  exact startJob_of_taken ((localPool_useWindows ..).trans hlocal) htake

/-! ## Commands that name a session (R325, R326) -/

/-- A post of SESSION_MOVE, its ABORT, SESSION_COMMIT or SESSION_CLOSE that passes its checks. -/
def SessionPost (s : State) (fn slot : Nat) (c : Instr) : Prop :=
  (c = .sessionMove fn slot ∧ Passes s fn slot (fun w => opc 0x31 w && !bitAt (w 5) 2) moveForm) ∨
  (c = .sessionMoveAbort fn slot ∧ Passes s fn slot (fun w => opc 0x31 w && bitAt (w 5) 2) moveForm) ∨
  (c = .sessionCommit fn slot ∧ Passes s fn slot (opc 0x32) commitForm) ∨ (c = .sessionClose fn slot ∧ Passes s fn slot (opc 0x33) closeForm)

/-- What each of them does at its directory. -/
def State.sessionActs (s : State) (c : Instr) (k : Nat) (u : Poster) (w : Nat → Nat) : State :=
  match c with
  | .sessionMove _ _ => s.moveSession k u w
  | .sessionMoveAbort _ _ => s.abortMove k u w
  | .sessionCommit _ _ => s.commitSession k u w
  | .sessionClose _ _ => s.closeSession k u w
  | _ => s

theorem SessionPost.posts {c : Instr} (h : SessionPost s fn slot c) : ∃ sel, Posts s fn slot sel := by
  obtain ⟨-, hp⟩ | ⟨-, hp⟩ | ⟨-, hp⟩ | ⟨-, hp⟩ := h <;> exact ⟨_, hp.starts.posts⟩

theorem sessionNamed_of_op {n : Nat} (hop : w 0 % 256 = n) (hn : n ≠ 0x30) : sessionNamed w = some (w 2 + 2 ^ 32 * w 3) := by
  rw [sessionNamed, hop]
  exact if_neg (by simpa using hn)

theorem exec_sessionPost {c : Instr} (hf : s.fenced = false) (h : SessionPost s fn slot c)
    (hd : s.directs ((s.slotAt fn slot).posted.w 2 + 2 ^ 32 * (s.slotAt fn slot).posted.w 3) = true) :
    exec c s = .next ((s.postedAt fn slot).sessionActs c (s.postName fn slot) (s.poster fn) (s.slotAt fn slot).posted.w) := by
  have hready := ready_of_not_fenced hf
  have here {n : Nat} (hop : (s.slotAt fn slot).posted.w 0 % 256 = n) (hn : n ≠ 0x30) : ∀ id,
      sessionNamed (s.slotAt fn slot).posted.w = some id → s.directs id = true := fun id hid => by
    rw [sessionNamed_of_op hop hn] at hid
    cases hid
    exact hd
  obtain ⟨rfl, hp⟩ | ⟨rfl, hp⟩ | ⟨rfl, hp⟩ | ⟨rfl, hp⟩ := h
  · have hsel : (opc 0x31 (s.slotAt fn slot).posted.w && !bitAt ((s.slotAt fn slot).posted.w 5) 2) = true := hp.starts.posts.chosen
    obtain ⟨hop, hbit⟩ := Bool.and_eq_true_iff.1 hsel
    have hop : (s.slotAt fn slot).posted.w 0 % 256 = 0x31 := beq_iff_eq.1 hop
    refine (post_session hp (fun _ _ => rfl) (here hop (by decide))).trans ?_
    rw [sessionCommand_move (s := s.postedAt fn slot) hready hop, if_neg (by simpa using hbit)]
    rfl
  · have hsel : (opc 0x31 (s.slotAt fn slot).posted.w && bitAt ((s.slotAt fn slot).posted.w 5) 2) = true := hp.starts.posts.chosen
    obtain ⟨hop, hbit⟩ := Bool.and_eq_true_iff.1 hsel
    have hop : (s.slotAt fn slot).posted.w 0 % 256 = 0x31 := beq_iff_eq.1 hop
    refine (post_session hp (fun _ _ => rfl) (here hop (by decide))).trans ?_
    rw [sessionCommand_move (s := s.postedAt fn slot) hready hop, if_pos hbit]
    rfl
  · have hop : (s.slotAt fn slot).posted.w 0 % 256 = 0x32 := beq_iff_eq.1 hp.starts.posts.chosen
    refine (post_session hp (fun _ _ => rfl) (here hop (by decide))).trans ?_
    rw [sessionCommand_commit (s := s.postedAt fn slot) hready hop]
    rfl
  · have hop : (s.slotAt fn slot).posted.w 0 % 256 = 0x33 := beq_iff_eq.1 hp.starts.posts.chosen
    refine (post_session hp (fun _ _ => rfl) (here hop (by decide))).trans ?_
    rw [sessionCommand_close (s := s.postedAt fn slot) hready hop]
    rfl

/-- A command that may not act on the session it names completes with the status that says why. -/
theorem sessionActs_of_error {c : Instr} (h : SessionPost s fn slot c) {e : Nat}
    (he : ∀ closing, t.named u (w 2 + 2 ^ 32 * w 3) closing = .error e) : t.sessionActs c k u w = t.sessionDone k e [] := by
  obtain ⟨rfl, -⟩ | ⟨rfl, -⟩ | ⟨rfl, -⟩ | ⟨rfl, -⟩ := h
  · rw [State.sessionActs, State.moveSession, he]
  · rw [State.sessionActs, State.abortMove, he]
  · rw [State.sessionActs, State.commitSession, he]
  · rw [State.sessionActs, State.closeSession, he]

theorem named_of_unknown (h : s.session id = none) (closing : Bool) : s.named u id closing = .error 0x01 := by
  rw [State.named, h]

theorem named_of_foreign (h : s.session id = some r) (hmay : s.mayCommand u r = false) (closing : Bool) : s.named u id closing = .error 0x02 := by
  rw [State.named, h]
  exact if_pos (by simp [hmay])

theorem named_of_mine (h : s.session id = some r) (hmay : s.mayCommand u r = true) (hst : r.st ≠ 5) (closing : Bool) :
    s.named u id closing = .ok r := by
  rw [State.named, h]
  exact (if_neg (by simp [hmay])).trans (if_neg (by simp [hst]))

theorem named_of_closing (h : s.session id = some r) (hmay : s.mayCommand u r = true) : s.named u id true = .ok r := by
  rw [State.named, h]
  exact (if_neg (by simp [hmay])).trans (if_neg (by simp))

/-! ## SESSION_MOVE (R329) -/

theorem moveSession_of_state (hid : w 2 + 2 ^ 32 * w 3 = id) (hn : s.named u id false = .ok r) (hst : r.st ≠ 1) :
    s.moveSession k u w = s.sessionDone k 0x06 [] := by
  rw [State.moveSession, hid, hn]
  exact if_pos (by simp [hst])

/-- The record as phase 1 of a move without new protection begins. -/
def Session.movingTo (r : Session) (target k : Nat) (known : Option (Nat × Bool)) : Session :=
  { r with st := 2, target := target, hasTarget := true, newProt := none, move := some k, user := known }

/-- SESSION_MOVE of an unprotected session to a pool of this package that admits the user and has room. -/
theorem moveSession_of_room {n : Nat} (hf : s.fenced = false) (hid : w 2 + 2 ^ 32 * w 3 = id) (hn : s.named u id false = .ok r) (hst : r.st = 1)
    (hcommit : r.commitAt = none) (hset : s.settling id = false) (hto : w 4 % 65536 = n) (htarget : n ≠ r.owner) (hbit : bitAt (w 5) 3 = false)
    (hprot : r.prot = 0) (hask : s.mustAsk u r = false) (hadmits : s.poolRefuses (s.userOf u r) n = false) (hlocal : s.localPool n = true)
    (howner : s.poolReachable r.owner = true) (hfree : ((s.pool (n % 16)).free (ceilDiv r.pages listSpan + r.pages)).isSome = true) :
    s.moveSession k u w = (s.useWindows (n :: r.set)).change id .moving (some (r.movingTo n k u.known)) (some k) := by
  have hroom : (s.pool (n % 16)).free (ceilDiv r.pages listSpan + r.pages) ≠ none := Option.isSome_iff_ne_none.1 hfree
  rw [State.moveSession, hid, hto, hn]
  dsimp only
  rw [hbit, if_neg Bool.false_ne_true, if_neg (by simp [hst, hcommit, hset, htarget]), if_neg (by simp [hf]), if_neg (by simp [hask])]
  dsimp only
  rw [if_neg (by simp [poolRefuses_useWindows, hadmits]),
    if_neg (by simp [poolReachable_useWindows, poolReachable_of_admits hlocal hadmits, howner]), if_neg (by simp [State.protRefused, hprot]),
    if_neg (by simp [localPool_useWindows, hlocal, pool_useWindows, hroom, Session.moveTakes])]
  rfl

/-! ## ABORT (R330), SESSION_COMMIT (R331) and SESSION_CLOSE (R333) -/

theorem changing_of_settled (h : s.settling id = false) : s.changing id = false := (Bool.or_eq_false_iff.1 h).2

theorem abortMove_of_moving (hf : s.fenced = false) (hid : w 2 + 2 ^ 32 * w 3 = id) (hn : s.named u id false = .ok r) (hst : r.st = 2 ∨ r.st = 3)
    (hset : s.settling id = false) :
    s.abortMove k u w = (s.modDir fun d => { d with jobs := d.jobs.filter fun j => !(j.id == id && j.why == .moving) }).change
      id .abort (some r.unmoved) (some k) := by
  rw [State.abortMove, hid, hn]
  dsimp only
  rw [if_neg (by simpa [changing_of_settled hset] using fun h => hst.resolve_left h), if_neg (by simp [hf])]

theorem commitSession_of_state (hid : w 2 + 2 ^ 32 * w 3 = id) (hn : s.named u id false = .ok r) (hst : r.st ≠ 3) :
    s.commitSession k u w = s.sessionDone k 0x06 [] := by
  rw [State.commitSession, hid, hn]
  exact if_pos (by simp [hst])

theorem commitSession_of_stale (hid : w 2 + 2 ^ 32 * w 3 = id) (hn : s.named u id false = .ok r) (hst : r.st = 3)
    (hset : s.settling id = false) (hepoch : w 4 ≠ r.epoch) : s.commitSession k u w = s.sessionDone k 0x07 [] := by
  rw [State.commitSession, hid, hn]
  exact (if_neg (by simp [hst, hset])).trans (if_pos (by simp [hepoch]))

/-- SESSION_COMMIT of a PREPARED session at its epoch asks for the target as its owner at the next. -/
theorem commitSession_of_prepared (hf : s.fenced = false) (hid : w 2 + 2 ^ 32 * w 3 = id) (hn : s.named u id false = .ok r) (hst : r.st = 3)
    (hset : s.settling id = false) (hepoch : w 4 = r.epoch) (htarget : s.poolReachable r.target = true) :
    ∃ r', s.commitSession k u w = s.change id .commit (some r') (some k) ∧ r'.owner = r.target ∧ r'.epoch = r.epoch + 1 ∧ r'.st = 1 ∧
      r'.pages = r.pages ∧ r'.root = r.targetRoot := by
  rw [State.commitSession, hid, hn]
  dsimp only
  rw [if_neg (by simp [hst, hset]), if_neg (by simp [hepoch]), if_neg (by simp [hf]), if_neg (by simp [htarget])]
  exact ⟨_, rfl, rfl, rfl, rfl, rfl, rfl⟩

theorem closeSession_of_mine (hf : s.fenced = false) (hid : w 2 + 2 ^ 32 * w 3 = id) (hn : s.named u id true = .ok r) :
    s.closeSession k u w = s.change id .close none (some k) := by
  rw [State.closeSession, hid, hn]
  exact if_neg (by simp [hf])

end Sys2Proof.Machine
end

section
/-! SUPPORT. DIRECTORY_RECORD_WRITE: a change of a record takes effect (R320, R327, R333). The session commands as posts that pass their checks find
them. -/

namespace Sys2Proof.Machine

variable {s t : State} {fn slot k id x : Nat} {r : Session}

/-! ## DIRECTORY_RECORD_WRITE -/

/-- The directory when the oldest change of a session has been written, with the records that it leaves. -/
def State.written (s : State) (x : Nat) (records : Tab Session) : State :=
  { s with dir := { s.dir with changes := s.dir.changes.eraseIdx (s.dir.changes.findIdx fun y => y.id == x), records := records } }

theorem partner_of_not_fenced (h : s.fenced = false) : (s.partnerUp || s.dir.sole) = true := by
  cases hp : s.partnerUp || s.dir.sole with
  | false =>
    rw [State.fenced, hp, Bool.not_false, Bool.or_true] at h
    cases h
  | true => rfl

theorem exec_directoryRecordWrite_of_unsent {c : Pending} (hf : s.fenced = false) (hc : s.dir.changes.find? (fun y => y.id == x) = some c)
    (hup : s.partnerUp = true) (hsent : c.sent = false) : exec (.directoryRecordWrite x) s = .next (s.sendChange x) := by
  show execDirectoryRecordWrite x s = _
  rw [execDirectoryRecordWrite, hc]
  dsimp only
  rw [partner_of_not_fenced hf, if_neg (by decide), if_pos (by simp [hup, hsent])]

/-- A change that the partner holds, if it is in reach, need not be sent. -/
theorem sent_of_partner {up sent : Bool} (h : up = true → sent = true) : ¬ (up && !sent) = true := by
  cases up
  · simp
  · simp [h rfl]

theorem exec_directoryRecordWrite_create {asker : Option Nat} {sent : Bool} (hf : s.fenced = false)
    (hc : s.dir.changes.find? (fun y => y.id == x) = some ⟨x, .create, some r, asker, sent⟩) (hsent : s.partnerUp = true → sent = true)
    (hnew : s.session x = none) : exec (.directoryRecordWrite x) s =
      .next (((s.written x (Tab.put x { r with single := !s.partnerUp } s.dir.records)).afterChange ⟨x, .create, some r, asker, sent⟩ none).tellRecord x
        none (some r)) := by
  show execDirectoryRecordWrite x s = _
  rw [execDirectoryRecordWrite, hc]
  dsimp only
  rw [partner_of_not_fenced hf, if_neg (by decide), if_neg (sent_of_partner hsent), hnew, if_neg (by decide)]
  rfl

theorem exec_directoryRecordWrite_close {asker : Option Nat} {sent : Bool} (hf : s.fenced = false)
    (hc : s.dir.changes.find? (fun y => y.id == x) = some ⟨x, .close, none, asker, sent⟩) (hsent : s.partnerUp = true → sent = true)
    (hold : s.session x = some r) : exec (.directoryRecordWrite x) s =
      .next (((s.written x (Tab.drop x s.dir.records)).afterChange ⟨x, .close, none, asker, sent⟩ (some r)).tellRecord x (some r) none) := by
  show execDirectoryRecordWrite x s = _
  rw [execDirectoryRecordWrite, hc]
  dsimp only
  rw [partner_of_not_fenced hf, if_neg (by decide), if_neg (sent_of_partner hsent), hold, if_neg (by simp)]
  rfl

/-- A session that is created: its pool owns it, and its command completes; the records stand. -/
theorem recorded_afterChange_create (s : State) (x : Nat) (r : Session) (asker : Option Nat) (sent : Bool) (old : Option Session) :
    Recorded s (s.afterChange ⟨x, .create, some r, asker, sent⟩ old) := by
  have granted : Recorded s (s.grantPool r.owner x r.epoch false false) := Recorded.refl.directed Directed.refl.grantPool
  cases asker with
  | none => exact granted
  | some k => exact granted.sessionDone

/-- A session that is closed: its pages are freed, and what waits on it completes; the records stand. -/
theorem recorded_afterChange_close (s : State) (x : Nat) (o : Session) (asker : Option Nat) (sent : Bool) :
    Recorded s (s.afterChange ⟨x, .close, none, asker, sent⟩ (some o)) := by
  unfold State.afterChange
  extract_lets +onlyGivenNames id done
  have completes {t : State} {k : Option Nat} {st : Nat} {ws : List Nat} (ht : Recorded s t) : Recorded s (done t k st ws) := by
    cases k with
    | none => exact ht
    | some k => exact ht.sessionDone
  clear_value done
  dsimp only
  have freed {f : Dir → Dir} (hf : ∀ d, (f d).records = d.records) :
      Recorded s ((((s.dir.changes.filter fun x => x.id == id).foldl (fun s x => done s x.asker 0x01 []) s).releaseSession id o).modDir f) :=
    ((Recorded.refl.foldl fun _ _ hu => completes hu).directed Directed.refl.releaseSession).modDir (hf _)
  cases asker with
  | none => exact completes (completes (freed fun _ => by rfl))
  | some k => exact .ite (completes (completes (freed fun _ => by rfl))).sessionDone ((completes (completes (freed fun _ => by rfl))).modDir (by rfl))

theorem does_directoryRecordWrite_create {c : Pending} (hf : s.fenced = false) (hc : s.dir.changes.find? (fun y => y.id == x) = some c)
    (hsent : s.partnerUp = true → c.sent = true) (hwhy : c.why = .create) (hrecord : c.new = some r) (hnew : s.session x = none) :
    Does (.directoryRecordWrite x) s fun v => Tab.find x v.dir.records = some { r with single := !s.partnerUp } ∧ v.strands = s.strands := by
  have hx : c.id = x := by simpa using List.find?_some hc
  obtain ⟨y, why, new, asker, sent⟩ := c
  subst hx hwhy hrecord
  have kept := (recorded_afterChange_create (s.written y (Tab.put y { r with single := !s.partnerUp } s.dir.records)) y r asker sent none).sends
    (Sends.refl.tellRecord (id := y) (old := none) (new := some r))
  exact ⟨_, exec_directoryRecordWrite_create hf hc hsent hnew, (congrArg (Tab.find y) kept.records).trans (Tab.find_put_self ..), kept.strands⟩

theorem does_directoryRecordWrite_close {c : Pending} (hf : s.fenced = false) (hc : s.dir.changes.find? (fun y => y.id == x) = some c)
    (hsent : s.partnerUp = true → c.sent = true) (hwhy : c.why = .close) (hnone : c.new = none) (hold : (s.session x).isSome = true)
    (hnodup : (s.dir.records.map Prod.fst).Nodup) :
    Does (.directoryRecordWrite x) s fun v => Tab.find x v.dir.records = none ∧ v.strands = s.strands := by
  have hx : c.id = x := by simpa using List.find?_some hc
  obtain ⟨y, why, new, asker, sent⟩ := c
  obtain ⟨o, ho⟩ := Option.isSome_iff_exists.1 hold
  subst hx hwhy hnone
  have kept := (recorded_afterChange_close (s.written y (Tab.drop y s.dir.records)) y o asker sent).sends
    (Sends.refl.tellRecord (id := y) (old := some o) (new := none))
  exact ⟨_, exec_directoryRecordWrite_close hf hc hsent ho,
    (congrArg (Tab.find y) kept.records).trans (Tab.find_drop_self (List.nodup_iff_count_le_one.1 hnodup y)), kept.strands⟩

/-! ## Posts that ask for a change -/

/-- Post `k` has asked the directory of `s` for a change of a session's record, and goes on. -/
def State.Asked (s : State) (k id : Nat) (why : Change) (P : Option Session → Prop) (v : State) : Prop :=
  ∃ new, P new ∧ v.dir.changes = s.dir.changes ++ [{ id := id, why := why, new := new, asker := some k, sent := s.partnerUp }] ∧
    v.dir.records = s.dir.records ∧ (v.mb k).st = 1

/-- A command asks for a change in a state that has the changes, the records and the partner of the one in which it was posted. -/
theorem does_ask {c : Instr} {why : Change} {new : Option Session} {P : Option Session → Prop}
    (hexec : exec c s = .next (t.change id why new (some k))) (hP : P new) (hchanges : t.dir.changes = s.dir.changes)
    (hrecords : t.dir.records = s.dir.records) (hup : t.partnerUp = s.partnerUp) (hk : Holds t k) : Does c s (s.Asked k id why P) :=
  ⟨_, hexec, new, hP, asked_change hchanges hrecords hup hk id why new⟩

theorem poolRefuses_postedAt (s : State) (fn slot : Nat) (u : Poster) (name : Nat) :
    (s.postedAt fn slot).poolRefuses u name = s.poolRefuses u name :=
  poolRefuses_congr (s := s) (t := s.postedAt fn slot) rfl rfl rfl (fun _ => rfl) u name

theorem does_sessionCreate {q root : Nat} {v : State} (hf : s.fenced = false) (hp : Passes s fn slot (opc 0x30) createForm)
    (hen : s.dir.enabled = true) (hu : (s.poster fn).pav = some q) (hroom : s.directed < 1048576) :
    let w := (s.slotAt fn slot).posted.w
    bitAt (w 4) 2 = false → bits (w 4) 1 0 = 0 → s.poolRefuses (s.poster fn) (w 2 % 65536) = false → s.localPool (w 2 % 65536) = true →
    w 3 ≤ 4194304 →
    (((s.postedAt fn slot).useWindows [w 2 % 65536]).modDir fun d => { d with nextSerial := d.nextSerial + 1 }).takePages (w 2 % 65536 % 16)
      (s.ownPkg * 2 ^ 36 + s.dir.nextSerial) (w 3) 1 = some (root, v) →
    Does (.sessionCreate fn slot) s (s.Asked (s.postName fn slot) (s.ownPkg * 2 ^ 36 + s.dir.nextSerial) .create fun new =>
      new = some { owner := w 2 % 65536, root := root, userPkg := s.ownPkg, userPav := q, pages := w 3 }) := by
  intro w hnew hprot hadmits hlocal hpages htake
  have used : Directed (s.postedAt fn slot) ((s.postedAt fn slot).useWindows [w 2 % 65536]) := Directed.refl.useWindows
  have taken := Directed.refl.takePages htake
  have created := createSession_of_room (s := s.postedAt fn slot) (k := s.postName fn slot) hf hen hprot hu
    ((poolRefuses_postedAt ..).trans hadmits) hlocal hpages hroom htake
  exact does_ask ((exec_sessionCreate hf hp hnew).trans (congrArg _ created)) rfl
    ((congrArg Dir.changes taken.dir).trans (congrArg Dir.changes used.dir :))
    ((congrArg Dir.records taken.dir).trans (congrArg Dir.records used.dir :)) (taken.partnerUp.trans used.partnerUp)
    (taken.posts.holds ((used.posts.holds (holds_postedAt hp.starts.posts)).congr rfl rfl))

/-- Settles O44, command by command. That a poster who may not command the session is told so before the session's state and its epoch are looked at
is the model's choice of order (notes/assumptions/24.md). -/
theorem sessionCommandsChangeTheRecord : Obligations.SessionCommandsChangeTheRecord := by
  unfold Obligations.SessionCommandsChangeTheRecord
  intro s fn slot hf t k w u id asks
  refine ⟨fun hp hen hnew hprot => ⟨fun hu => ?nobody, fun q root v hu hadmits hlocal hpages hroom htake =>
      does_sessionCreate hf hp hen hu hroom hnew hprot hadmits hlocal hpages htake⟩, fun c hc hd => ?named,
    fun x c hc => ⟨exec_directoryRecordWrite_of_unsent hf hc, fun hsent => ⟨fun r => does_directoryRecordWrite_create hf hc hsent,
      does_directoryRecordWrite_close hf hc hsent⟩⟩⟩
  case nobody =>
    exact (exec_sessionCreate hf hp hnew).trans (congrArg _ ((createSession_of_nobody hu).trans (sessionDone_of_post (postName_lt_asks hp.starts.posts) ..)))
  case named =>
    obtain ⟨sel, hposts⟩ := SessionPost.posts hc
    have hexec := exec_sessionPost hf hc hd
    have hk : Holds t k := holds_postedAt hposts
    have finished (e : Nat) : t.sessionDone k e [] = t.complete k e [] := sessionDone_of_post (postName_lt_asks hposts) ..
    have refused {e : Nat} (he : ∀ closing, t.named u id closing = .error e) : exec c s = .next (t.complete k e []) :=
      hexec.trans (congrArg _ ((sessionActs_of_error hc he).trans (finished e)))
    refine ⟨fun hnone => refused (named_of_unknown hnone), fun r hr => ⟨fun hmay => refused (named_of_foreign hr hmay), fun hmay hst hset => ?acts,
      ?close⟩⟩
    case acts =>
      have hn : t.named u id false = .ok r := named_of_mine hr hmay hst false
      refine ⟨?moveState, ?move, ?abort, ?commitState, ?stale, ?commit⟩
      case moveState =>
        rintro rfl h1
        exact hexec.trans (congrArg _ ((moveSession_of_state rfl hn h1).trans (finished _)))
      case move =>
        rintro rfl h1 hcommit htarget hbit hprot hask hadmits hlocal howner hfree
        have used : Directed t (t.useWindows (w 4 % 65536 :: r.set)) := Directed.refl.useWindows
        exact does_ask (hexec.trans (congrArg _ (moveSession_of_room (s := t) hf rfl hn h1 hcommit hset rfl htarget hbit hprot hask
          ((poolRefuses_postedAt ..).trans hadmits) hlocal howner hfree))) rfl (congrArg Dir.changes used.dir) (congrArg Dir.records used.dir)
          used.partnerUp (used.posts.holds hk)
      case abort =>
        rintro rfl hmoving
        exact does_ask (hexec.trans (congrArg _ (abortMove_of_moving (s := t) hf rfl hn hmoving hset))) rfl rfl rfl rfl (hk.congr rfl rfl)
      case commitState =>
        rintro rfl h3
        exact hexec.trans (congrArg _ ((commitSession_of_state rfl hn h3).trans (finished _)))
      case stale =>
        rintro rfl h3 hepoch
        exact hexec.trans (congrArg _ ((commitSession_of_stale rfl hn h3 hset hepoch).trans (finished _)))
      case commit =>
        rintro rfl h3 hepoch htarget
        obtain ⟨r', hcommits, hr'⟩ := commitSession_of_prepared (s := t) (k := k) hf rfl hn h3 hset hepoch htarget
        exact does_ask (hexec.trans (congrArg _ hcommits)) ⟨r', rfl, hr'⟩ rfl rfl rfl hk
    case close =>
      rintro hmay rfl
      exact does_ask (hexec.trans (congrArg _ (closeSession_of_mine (s := t) hf rfl (named_of_closing hr hmay)))) rfl rfl rfl rfl hk

end Sys2Proof.Machine
end
